-- ==== Sys2Proof/Word.lean ====
section
/-!
DEFINITION. The plain bit-string types the model uses, and the sparse map type. Everything a test could show
wrong about bit fields, byte order or sign extension lives in Sys2Proof/Machine/Bits.lean instead.
-/
namespace Sys2Proof

/-- One byte of a payload, a buffer, a stored segment or a message. -/
abbrev Byte := BitVec 8

/-- One 32-bit register word or report argument. -/
abbrev Word32 := BitVec 32

/-- One 64-bit Kiosk word or host address. -/
abbrev Word64 := BitVec 64

/-- A command descriptor or result block of 64 bytes (R308). -/
abbrev Block512 := BitVec 512

/-- A sparse map from numbers: the listed keys rise strictly and no listed value is the map's default, so equal
maps are equal lists. `Sys2Proof.Machine.SMap.get` and `Sys2Proof.Machine.SMap.set` are its only accessors. -/
abbrev SMap (α : Type) := List (Nat × α)

end Sys2Proof
end

