-- ==== Sys2Proof/Machine/Bits.lean ====
section
/-!
DEFINITION. Bit fields, byte order, saturation and the two check codes: the helpers every unit, descriptor, entry and
register is read and built with.
-/
namespace Sys2Proof.Machine

/-- Field [lo + w − 1 : lo] of a bit string, as a number (R5). -/
def fld {n : Nat} (x : BitVec n) (lo w : Nat) : Nat := x.toNat / 2 ^ lo % 2 ^ w

/-- One bit of a bit string. -/
def bit {n : Nat} (x : BitVec n) (i : Nat) : Bool := fld x i 1 == 1

/-- A number with the listed fields: low bit, width, value (R5). -/
def packNat : List (Nat × Nat × Nat) → Nat
  | [] => 0
  | (lo, w, v) :: fs => v % 2 ^ w * 2 ^ lo + packNat fs

/-- Bytes of a number, least significant first (R6). -/
def toBytes : Nat → Nat → List Byte
  | 0, _ => []
  | k + 1, v => BitVec.ofNat 8 v :: toBytes k (v / 256)

/-- The number a little-endian byte string spells (R6). -/
def ofBytes : List Byte → Nat
  | [] => 0
  | b :: bs => b.toNat + 256 * ofBytes bs

/-- The number `k` little-endian bytes from offset `o` spell. -/
def le (bs : List Byte) (o k : Nat) : Nat := ofBytes ((bs.drop o).take k)

/-- One more on a counter that saturates. -/
def satAdd (cap a b : Nat) : Nat := if a + b < cap then a + b else cap

/-- One more on a 32-bit saturating counter. -/
def inc32 (a : Nat) : Nat := satAdd 0xFFFFFFFF a 1

/-- One more on an 8-bit saturating counter. -/
def inc8 (a : Nat) : Nat := satAdd 255 a 1

/-- The two's complement value of the low `w` bits of a number. -/
def signed (w v : Nat) : Int :=
  if v % 2 ^ w < 2 ^ (w - 1) then ((v % 2 ^ w : Nat) : Int) else ((v % 2 ^ w : Nat) : Int) - 2 ^ w

/-- The low `w` bits of an integer in two's complement. -/
def unsigned (w : Nat) (x : Int) : Nat := (x % (2 ^ w : Nat)).toNat

/-- An integer held within bounds. -/
def clampI (x lo hi : Int) : Int := if x < lo then lo else if hi < x then hi else x

/-- The smallest multiple of `k` at or above `x`, and the greatest at or below. -/
def roundUp (k x : Nat) : Nat := (x + k - 1) / k * k
def roundDown (k x : Nat) : Nat := x / k * k

def ceilDiv (a b : Nat) : Nat := (a + b - 1) / b

/-- One step of the CRC-8 register of R221 for one bit. -/
def crc8Step (crc : Nat) (b : Bool) : Nat :=
  let fb := (crc / 128 % 2 == 1) != b
  let sh := crc * 2 % 256
  if fb then sh ^^^ 0x07 else sh

/-- CRC-8 over bits lo … lo + n − 1 of a number, in rising order (R221). -/
def crc8From (x : Nat) (crc lo : Nat) : Nat → Nat
  | 0 => crc
  | n + 1 => crc8From x (crc8Step crc (x / 2 ^ lo % 2 == 1)) (lo + 1) n

/-- CRC-8 computed as `CHK` of R221 over `n` bits from bit `lo`. -/
def crc8 (x lo n : Nat) : Nat := crc8From x 0 lo n

/-- One bit of the reflected CRC-32 register (R238). -/
def crc32Bit (crc : Nat) : Nat :=
  if crc % 2 == 1 then (crc / 2) ^^^ 0xEDB88320 else crc / 2

/-- One byte into the CRC-32 register. -/
def crc32Byte (crc : Nat) (b : Byte) : Nat :=
  crc32Bit (crc32Bit (crc32Bit (crc32Bit (crc32Bit (crc32Bit (crc32Bit (crc32Bit (crc ^^^ b.toNat))))))))

/-- The CRC-32 of R238 over a byte string: the IEEE 802.3 frame check sequence. -/
def crc32 (bs : List Byte) : BitVec 32 :=
  BitVec.ofNat 32 ((bs.foldl crc32Byte 0xFFFFFFFF) ^^^ 0xFFFFFFFF)

/-- Bytes of a bit string, bit k in bit k mod 8 of byte k / 8 (R237). -/
def bvBytes {n : Nat} (x : BitVec n) : List Byte := toBytes (n / 8) x.toNat

end Sys2Proof.Machine
end

