-- ==== Sys2Proof/Machine/SMap.lean ====
section
/-!
DEFINITION. Reading and writing a sparse map. A map lists only the entries that differ from its default, in rising
key order, so writing the default removes the entry and equal maps are equal lists.
-/
namespace Sys2Proof.Machine

/-- The value at a key; the default where nothing is listed. -/
def SMap.get {α : Type} (d : α) : SMap α → Nat → α
  | [], _ => d
  | (k, v) :: m, n => if k = n then v else SMap.get d m n

/-- Removes a key. -/
def SMap.erase {α : Type} : SMap α → Nat → SMap α
  | [], _ => []
  | (k, v) :: m, n => if k = n then SMap.erase m n else (k, v) :: SMap.erase m n

/-- Lists a value at a key, in order. -/
def SMap.insert {α : Type} : SMap α → Nat → α → SMap α
  | [], n, x => [(n, x)]
  | (k, v) :: m, n, x =>
    if n < k then (n, x) :: (k, v) :: m
    else if k = n then (n, x) :: m
    else (k, v) :: SMap.insert m n x

/-- Writes a value at a key, keeping the canonical form. -/
def SMap.set {α : Type} [DecidableEq α] (d : α) (m : SMap α) (n : Nat) (x : α) : SMap α :=
  if x = d then SMap.erase m n else SMap.insert m n x

/-- Keys rise strictly from a lower bound, and no listed value is the default. -/
def SMap.wfFrom {α : Type} [DecidableEq α] (d : α) : Nat → SMap α → Bool
  | _, [] => true
  | lo, (k, v) :: m => decide (lo ≤ k) && decide (v ≠ d) && SMap.wfFrom d (k + 1) m

/-- The canonical form. -/
def SMap.wf {α : Type} [DecidableEq α] (d : α) (m : SMap α) : Bool := SMap.wfFrom d 0 m

/-- Writes consecutive values from a key on. -/
def SMap.setList {α : Type} [DecidableEq α] (d : α) (m : SMap α) (n : Nat) : List α → SMap α
  | [] => m
  | x :: xs => SMap.setList d (SMap.set d m n x) (n + 1) xs

/-- Reads consecutive values from a key on. -/
def SMap.getList {α : Type} (d : α) (m : SMap α) (n : Nat) : Nat → List α
  | 0 => []
  | k + 1 => SMap.get d m n :: SMap.getList d m (n + 1) k

end Sys2Proof.Machine
end

