-- ==== Sys2Proof/Syntax.lean ====
section
/-!
DEFINITION. The commands of the block: one constructor for each row of spec/opcode_table.json, with the operands a
sender supplies. Host commands carry the issuing function and the 64-byte descriptor; register writes carry the whole
value written; received bursts, frames and words carry their bits; timer and event rows carry what they concern.
-/
namespace Sys2Proof

/-- A ring side (R262). -/
inductive Side where
  | east | west
deriving DecidableEq, Repr

/-- A data port (R211). -/
inductive Port where
  | a | b
deriving DecidableEq, Repr

/-- A trained side of the device: a Barward link A0–A3, B0–B3 or a ring side (R262). -/
inductive Phy where
  | link (n : Fin 8)
  | side (s : Side)
deriving DecidableEq, Repr

/-- Who accesses a control-BAR register (R476): a function, the service port or the Warden monitor. -/
inductive Accessor where
  | fn (g : Fin 16)
  | svc
  | warden
deriving DecidableEq, Repr

/-- A 64-bit base register (R472). -/
inductive BaseReg where
  | cmdq | cplq | evtq | dump
deriving DecidableEq, Repr

/-- What a failed DMA access was for (R321). -/
inductive DmaKind where
  | data | command | completion | event | result
deriving DecidableEq, Repr

/-- The causes of a host block reset (R324). -/
inductive HostResetCause where
  | perst | hotReset | linkDisable
deriving DecidableEq, Repr

/-- The conditions that take an UP link or side down (R227, R262). -/
inductive DownCause where
  | signal | marker | codewords | syncHeaders | trainingBlocks | barwardUnit
deriving DecidableEq, Repr

/-- What one patrol-scrub read finds (R337). -/
inductive ScrubFinding where
  | clean
  /-- `marked`: the error comes from a column that the fuse map of a `DEGRADED` bank marks (R329). -/
  | corrected (bank : Fin 32) (granule : Fin 8) (row : Fin 65536) (marked : Bool)
  | uncorrectable (bank : Fin 32) (granule : Fin 8) (row : Fin 65536)
  /-- The Kiosk word visited at the same interval. -/
  | kioskCorrected (word : Fin 32768) (marked : Bool)
  | kioskUncorrectable (word : Fin 32768)
deriving DecidableEq, Repr

/-- What a sweep's read of a queue's context and flag state finds (R328, R330): an uncorrectable error lies in one of the two. -/
inductive StoreFinding where
  | clean
  | context (granule : Fin 8)
  | flagState (granule : Fin 8)
deriving DecidableEq, Repr

/-- What the receiver of a link or ring side has counted since its last unit (R220): codewords corrected and not correctable, and
`BIP` mismatches. -/
structure LaneCounts where
  corrected : Nat
  failed : Nat
  bip : Nat
deriving DecidableEq, Repr

/-- Supply rails watched by the monitors (R487). -/
inductive Rail where
  | vdd | vdds | vser | vserh | vio
deriving DecidableEq, Repr

/-- The memories the Warden monitor reaches (Table FW-8). -/
inductive WardenMem where
  | plaza | kiosk | depot
deriving DecidableEq, Repr

/-- A received ring frame (R267): header, payload as it travels, tag, CRC-32, and whether a block of it is errored. -/
structure Frame where
  hdr : BitVec 256
  payload : List Byte
  tag : BitVec 128
  crc : BitVec 32
  errored : Bool
deriving DecidableEq, Repr

/-- A received burst (R237): header, payload as it travels, tag, CRC-32, and whether a header or payload block is
errored. -/
structure Burst where
  hdr : BitVec 128
  payload : List Byte
  tag : BitVec 128
  crc : BitVec 32
  hdrErr : Bool
  payErr : Bool
deriving DecidableEq, Repr

/-- Outcomes the environment gives a flash operation (R437 check 8, R443). -/
inductive FlashResult where
  | ok | fail
deriving DecidableEq, Repr

/-! Operands that come together. -/

/-- A received unit, and what its receiver has counted before it. -/
structure RxBurst where
  burst : Burst
  lanes : LaneCounts
deriving DecidableEq, Repr

structure RxFrame where
  frame : Frame
  lanes : LaneCounts
deriving DecidableEq, Repr

/-- A sweep visit's queue, and what reading its context and flag state finds. -/
structure SweepRead where
  q : Fin 8192
  found : StoreFinding
deriving DecidableEq, Repr

/-- A write of `PWRCTL`, with the temperature that `TSENSE` then samples (R371, R372). -/
structure DeepSleepWrite where
  v : Word32
  tj : BitVec 12
deriving DecidableEq, Repr

/-- Whether REFCLK is present when VAON rises, and whether VAON had been lost altogether (R403). -/
structure PorInput where
  refclk : Bool
  vaonLost : Bool
deriving DecidableEq, Repr

/-- Whether the directory write of a start succeeds (R443), and the regulator's `VOUT_MODE` (R377). -/
structure BootInput where
  dir : FlashResult
  voutMode : Byte
deriving DecidableEq, Repr

/-- A service request's payload and its `CRC` byte (R440). -/
structure SvcPayload where
  bytes : List Byte
  crc : Byte
deriving DecidableEq, Repr

inductive Instr where
  -- host commands (Table HI-8): the issuing function and the descriptor
  | hello (fn : Fin 16) (d : Block512)
  | dringSet (fn : Fin 16) (d : Block512)
  | queueBind (fn : Fin 16) (d : Block512)
  | queueOpen (fn : Fin 16) (d : Block512)
  | queueClose (fn : Fin 16) (d : Block512)
  | queueDiscard (fn : Fin 16) (d : Block512)
  | queueReset (fn : Fin 16) (d : Block512)
  | queueRelease (fn : Fin 16) (d : Block512)
  | queryQueue (fn : Fin 16) (d : Block512)
  | groupSet (fn : Fin 16) (d : Block512)
  | flagSet (fn : Fin 16) (d : Block512)
  | mark (fn : Fin 16) (d : Block512)
  | rewind (fn : Fin 16) (d : Block512)
  | releaseMark (fn : Fin 16) (d : Block512)
  | timeSet (fn : Fin 16) (d : Block512)
  | pinSet (fn : Fin 16) (d : Block512)
  | policySet (fn : Fin 16) (d : Block512)
  | chainSetup (fn : Fin 16) (d : Block512)
  | pairSetup (fn : Fin 16) (d : Block512)
  | failover (fn : Fin 16) (d : Block512)
  | rekey (fn : Fin 16) (d : Block512)
  /-- The message bytes the device reads at `MSG_ADDR`; none when the read fails. -/
  | keyUpdate (fn : Fin 16) (d : Block512) (msg : Option (List Byte))
  | lcSubmit (fn : Fin 16) (d : Block512) (msg : Option (List Byte))
  | keyQuery (fn : Fin 16) (d : Block512)
  | tenantRelease (fn : Fin 16) (d : Block512)
  | rewindTakesEffect (q : Fin 8192)
  -- doorbells
  | cmdPi (fn : Fin 16) (v : Word32)
  | cplCi (fn : Fin 16) (v : Word32)
  | evtCi (fn : Fin 16) (v : Word32)
  | dringPi (fn : Fin 16) (ring : Fin 512) (v : Word32)
  -- control-BAR writes and reads
  | hringEnable (fn : Fin 16) (v : Word32)
  | hringDisable (fn : Fin 16) (v : Word32)
  | baseLowWordWrite (fn : Fin 16) (reg : BaseReg) (v : Word32)
  | baseHighWordWrite (fn : Fin 16) (reg : BaseReg) (v : Word32)
  | tbNowLoRead (acc : Accessor)
  | pwrReqRun (acc : Accessor) (v : Word32)
  | pwrReqIdle (acc : Accessor) (v : Word32)
  | pwrReqSleep (acc : Accessor) (v : Word32)
  | pwrReqDeepSleep (acc : Accessor) (v : DeepSleepWrite)
  | pwrReqOff (acc : Accessor) (v : Word32)
  | pwrvoteWrite (fn : Fin 16) (v : Word32)
  | rstctlSys (acc : Accessor) (v : Word32)
  | rstctlCore (acc : Accessor) (v : Word32)
  | iorelWrite (v : Word32)
  | maintWipe (v : Word32)
  | maintBist (v : Word32)
  | maintKsweep (v : Word32)
  | linkEnable (n : Fin 8) (v : Word32)
  | linkDisable (n : Fin 8) (v : Word32)
  | linkRst (n : Fin 8) (v : Word32)
  | portSplitWrite (p : Port) (v : Word32)
  | ringSideEnable (v : Word32)
  | ringSideDisable (v : Word32)
  | ringInsert (v : Word32)
  | ringSideRst (v : Word32)
  | flagmapWrite (n : Fin 8) (v : Word32)
  | errlogPop (v : Word32)
  | ppsEnWrite (v : Word32)
  /-- A write to any other control-BAR offset, with its byte enables (R470). -/
  | registerWrite (acc : Accessor) (off : BitVec 16) (be : BitVec 4) (v : Word32)
  | kioskBarRead (off : BitVec 18) (wide : Bool)
  | kioskBarWrite (off : BitVec 18) (wide : Bool) (v : Word64)
  | kioskFetchadd (off : BitVec 18) (v : Word64)
  | kioskSwap (off : BitVec 18) (v : Word64)
  | hostBlockReset (cause : HostResetCause)
  | perstNRise
  | pcieConfigReady
  | flr (fn : Fin 16)
  | vfEnableChange (enable : Bool) (numVfs : Fin 16)
  | hostDmaFailure (fn : Fin 16) (kind : DmaKind) (ring : Fin 512) (addr : Word64)
  | hostWriteDescriptor (fn : Fin 16) (ring : Fin 512) (desc : BitVec 256) (data : List Byte)
  | hostReadDescriptor (fn : Fin 16) (ring : Fin 512) (desc : BitVec 256)
  | dringFlushTimeout (fn : Fin 16) (ring : Fin 512)
  | msixHoldoffEnd (fn : Fin 16) (event : Bool)
  -- Barward bursts, credits and control words
  | burstReceive (n : Fin 8) (b : RxBurst)
  | stagedBurstCommit (n : Fin 8)
  | burstTransmit (n : Fin 8)
  | credit (n : Fin 8) (group : Fin 16) (kerb : Bool) (limit : BitVec 24)
  | creditGrant (n : Fin 8)
  | creditRefresh (n : Fin 8)
  | statusRefresh (n : Fin 8)
  | timeWordTimer
  | inbandMark (n : Fin 8) (q : Fin 8192) (m : Fin 4)
  | inbandRewind (n : Fin 8) (q : Fin 8192) (m : Fin 4)
  | inbandReleaseMark (n : Fin 8) (q : Fin 8192) (m : Fin 4)
  | kioskReq (n : Fin 8) (op : Fin 4) (tag : Byte) (addr : Fin 32768) (data : Word64)
  | powerVote (n : Fin 8) (vote : BitVec 6)
  | sleepReq (n : Fin 8) (vote : BitVec 6)
  | idleNoticeLeadEnd (p : Port)
  | controlWordDiscard (n : Fin 8) (bytes : List Byte)
  -- training of a link or ring side
  | trainingStart (p : Phy)
  | trainingBlock (p : Phy) (lane : Fin 16) (block : BitVec 64)
  | trainingPhaseAdvance (p : Phy)
  | linkUp (p : Phy)
  | trainingTimeout (p : Phy)
  | markerLockTimeout (p : Phy)
  | trainingRetry (n : Fin 8)
  | trainingSignalLoss (p : Phy)
  | linkDown (p : Phy) (cause : DownCause)
  -- Ring Road
  | ringDataFrame (side : Side) (f : RxFrame)
  | syncFrame (side : Side) (f : Frame)
  | ringHello (side : Side) (f : Frame)
  | ack (side : Side) (f : Frame)
  | resend (side : Side) (f : Frame)
  | chainJoin (side : Side) (f : Frame)
  | chainCmd (side : Side) (f : Frame)
  | chainCmdApply (q : Fin 8192)
  | ffMark (side : Side) (f : Frame)
  | ffMarkApply (q : Fin 8192)
  | ffRewind (side : Side) (f : Frame)
  | pairJoin (side : Side) (f : Frame)
  | revoke (side : Side) (f : Frame)
  | gone (side : Side) (f : Frame)
  | kioskFrame (side : Side) (f : Frame)
  | ringFrameTransit (side : Side) (f : Frame)
  | fallForwardSend (q : Fin 8192)
  | helloTimer
  | ringMapExpiry (station : Fin 8)
  | ringHelloMissing (side : Side)
  | ringAckTimer (side : Side)
  | ringResendTimeout (side : Side)
  | syncTimer (peer : Fin 8)
  | sideDownTimeout (side : Side)
  | hopPauseTimeout (side : Side)
  | syncTimeout (q : Fin 8192)
  | pairFailNLow
  | pairFailSyncTimeout (q : Fin 8192)
  | chainSetupTimeout (q : Fin 8192)
  | pairSetupTimeout (q : Fin 8192)
  -- time base, playout, flags, Kerbside, segments and maintenance
  | ppsEdge
  | ppsLossTimeout
  | phaseTermEnd
  | ppsOutRise
  | ppsOutFall
  | timeSetEdgeTimeout
  | pinReserve (n : Fin 8)
  | pinRelease (q : Fin 8192)
  | pinLateIntervalEnd (q : Fin 8192)
  | epochGraceEnd (scope : Fin 3) (target : Fin 8192)
  | sweepVisit (q : SweepRead)
  | flagEventIntervalEnd (q : Fin 8192)
  | adaptationVisit (q : Fin 8192)
  | kbDropIntervalEnd (q : Fin 8192)
  | segmentGrant (q : Fin 8192)
  | segmentRequestRetry (q : Fin 8192)
  | segmentZeroed (seg : Fin 32768)
  | scrubRead (quarter : Fin 4) (found : ScrubFinding)
  /-- The activity that ends in a quarter, or the key-slot sweep (quarter none), with the banks a BIST found failing. -/
  | maintActivityEnd (quarter : Option (Fin 4)) (failing : Byte)
  | quarterRest (quarter : Fin 4)
  | quarterWake (quarter : Fin 4)
  | busyNRelease
  | crosswalkEvent (cell : Fin 25)
  -- power
  | pwrPendingStart
  | sleepEntry
  | deepSleepEntry (nonce : Word64)
  | offEntry
  | sleepExit
  /-- Whether the Depot CRC-32 holds, the quarters that fail verification and by which test, and the context store. -/
  | deepSleepExit (depotOk : Bool) (droop rows ecc : BitVec 4) (ctxDroop : Bool)
  | offExit
  | wakeN
  | svcAddressMatch
  | laneSignalDetect (n : Fin 8)
  | pcieWake
  | wakeSense (mv : BitVec 12)
  | domainPowerUp (d : Fin 6)
  | wakeVoteRelease (n : Fin 8)
  | idleClockGate
  | playoutUngate
  | vrPgTimeout
  | vrRetry
  | avsStep (mv : Fin 1024) (raiseNeeded : Bool)
  | avsAck
  | avsAckTimeout
  | pmbusStretchTimeout
  | pmbAlertN (statusWord : BitVec 16)
  | brownOut
  | pwrfailNFall
  -- reset and start-up
  | por (refclk : PorInput)
  | rstNAssert (ns : Nat)
  | rstNRelease
  | refclkLoss
  | resetComplete
  | supplyMonitorTrip (r : Rail)
  | watchdogExpiry
  | fwcoreRequest
  | trialTimeout
  | trimLoadDone (crcOk : Bool) (degraded : BitVec 32) (kioskDegraded : Bool)
  | trimRetry
  /-- Whether the image in slot A and in slot B passes R433, and what the start reads and writes besides. -/
  | bootStart (aOk bOk : Bool) (dir : BootInput)
  | configStoreApply
  | firmwareReady
  | healthOk
  | controlPlaneReturn
  | dumpStart (l1OrL0 busMaster : Bool)
  | dumpComplete
  | dumpStartTimeout
  | dumpOverrun
  -- service port: the tag of a request, and its payload with the `CRC` byte
  | info (tag : Byte) (payload : SvcPayload)
  | regRead (tag : Byte) (payload : SvcPayload)
  | regWrite (tag : Byte) (payload : SvcPayload)
  | keyMsg (tag : Byte) (payload : SvcPayload)
  | pkgBegin (tag : Byte) (payload : SvcPayload)
  | pkgEraseDone (r : FlashResult)
  | pkgData (tag : Byte) (payload : SvcPayload) (r : FlashResult)
  | pkgEnd (tag : Byte) (payload : SvcPayload) (r : FlashResult)
  | pkgActivateReset
  | pkgAbort (tag : Byte) (payload : SvcPayload)
  | pkgUploadTimeout
  | bootClear (tag : Byte) (payload : SvcPayload)
  | confirm (tag : Byte) (payload : SvcPayload)
  -- Warden monitor
  | wardenAutobaud (baud : Nat)
  | id
  | stat
  | err (n : Option Nat)
  | cnt
  | rd (off : Nat) (n : Option Nat)
  | wr (off : Nat) (v : Nat)
  | mem (m : WardenMem) (addr : Nat) (n : Option Nat)
  | memw (m : WardenMem) (addr : Nat) (v : Nat)
  | reset
  | bootclr
  -- completions of phases
  | dataModeStart (p : Phy)
  /-- Whether the error criterion of the 1 ms window is met on every lane. -/
  | eqWindowEnd (p : Phy) (met : Bool)
  | blockResetComplete (p : Phy)
  | flrComplete (fn : Fin 16)
  | vrPgRise
  | pcieL0Reached
  | vrAlertHoldoffEnd (alertLow : Bool) (statusWord : BitVec 16)
deriving DecidableEq, Repr

end Sys2Proof
end

