-- ==== Sys2Proof/Machine/Coding.lean ====
section
/-!
DEFINITION. What stands on a lane (spec/09 R214 to R220; spec/10 R234, R235, R237): bit order and levels, 64b/66b blocks, the
scrambler, 256b/257b transcoding, alignment markers, the two Reed-Solomon codes, and the units that blocks carry. The
commands of the table name a whole burst, word or event; these definitions say which blocks, bits and symbols it is. What
the spec takes from IEEE 802.3 Clauses 49 and 91 without repeating it is PRESUMED from there.
-/
namespace Sys2Proof.Machine
open Sys2Proof

/-! ## Bits and levels (R214) -/

/-- `n` bits of a number, bit 0 first. -/
def bitsOf : Nat → Nat → List Bool
  | 0, _ => []
  | k + 1, v => (v % 2 == 1) :: bitsOf k (v / 2)

/-- The number that bits spell, the first the least significant. -/
def ofBits : List Bool → Nat
  | [] => 0
  | b :: bs => (if b then 1 else 0) + 2 * ofBits bs

/-- A 64b/66b block: sync header and payload (R215). -/
structure Block66 where
  sync : Nat
  payload : BitVec 64
deriving DecidableEq, Repr

def dataSync : Nat := 1
def controlSync : Nat := 2

/-- A block in time order: sync-header bit 0 first, then payload bits 0 to 63. -/
def Block66.bits (b : Block66) : List Bool := bitsOf 2 b.sync ++ bitsOf 64 b.payload.toNat

def Block66.ofBits (bs : List Bool) : Block66 :=
  { sync := Machine.ofBits (bs.take 2), payload := BitVec.ofNat 64 (Machine.ofBits ((bs.drop 2).take 64)) }

/-- The level of a pair of bits, the one sent first named first; level 0 is the most negative. -/
def pam4Level (a b : Bool) : Nat :=
  match a, b with
  | false, false => 0
  | false, true => 1
  | true, true => 2
  | true, false => 3

/-- The levels of a lane's bits from the first bit of an alignment marker on, where pairs start. -/
def pam4Levels : List Bool → List Nat
  | a :: b :: bs => pam4Level a b :: pam4Levels bs
  | _ => []

/-- An inverted lane sends level k as 3 − k (Table BP-8). -/
def invertLevels (ls : List Nat) : List Nat := ls.map fun k => 3 - k

/-! ## The block stream (R215) -/

/-- The self-synchronising scrambler x^58 + x^39 + 1: the state holds the last 58 bits sent, the newest in bit 0. -/
def scrambleBits (s : Nat) : List Bool → List Bool × Nat
  | [] => ([], s)
  | b :: bs =>
    let o := (b != (s / 2 ^ 57 % 2 == 1)) != (s / 2 ^ 38 % 2 == 1)
    let (rest, s) := scrambleBits ((2 * s + (if o then 1 else 0)) % 2 ^ 58) bs
    (o :: rest, s)

/-- The receiver's side of it: the state holds the last 58 bits received. -/
def descrambleBits (s : Nat) : List Bool → List Bool × Nat
  | [] => ([], s)
  | b :: bs =>
    let o := (b != (s / 2 ^ 57 % 2 == 1)) != (s / 2 ^ 38 % 2 == 1)
    let (rest, s) := descrambleBits ((2 * s + (if b then 1 else 0)) % 2 ^ 58) bs
    (o :: rest, s)

/-- With FEC None the 64 payload bits of each block are scrambled. -/
def scrambleBlocks (s : Nat) : List Block66 → List Block66 × Nat
  | [] => ([], s)
  | b :: bs =>
    let (p, s) := scrambleBits s (bitsOf 64 b.payload.toNat)
    let (rest, s) := scrambleBlocks s bs
    ({ b with payload := BitVec.ofNat 64 (ofBits p) } :: rest, s)

/-- With FEC None block k goes to logical lane k mod N. -/
def laneOfBlock (n k : Nat) : Nat := k % n

/-- 256b/257b transcoding of four blocks: a 1 and the four payloads where all are data; else a 0, a bit for each block that is
1 for data, and the payloads without the upper half of the first control block's type (PRESUMED, IEEE 802.3 Clause 91). -/
def transcode (bs : List Block66) : List Bool :=
  if bs.all fun b => b.sync == dataSync then true :: bs.flatMap fun b => bitsOf 64 b.payload.toNat
  else
    let first := bs.findIdx fun b => b.sync != dataSync
    let body := (bs.mapIdx fun i b =>
      let p := bitsOf 64 b.payload.toNat
      if i = first then p.take 4 ++ p.drop 8 else p).flatten
    false :: (bs.map fun b => b.sync == dataSync) ++ body

/-- The upper half of a block type of Table BL-1 from its lower half, in which the types of a stream differ. -/
def typeUpper (lower : Nat) : Nat := if lower = 0xE then 1 else if lower = 0xB then 4 else if lower = 8 then 7 else 0xE

/-- The four blocks of a 257-bit group. -/
def untranscode (bits : List Bool) : List Block66 :=
  if bits.headD false then
    (List.range 4).map fun i =>
      { sync := dataSync, payload := BitVec.ofNat 64 (ofBits ((bits.drop (1 + 64 * i)).take 64)) }
  else
    let kinds := (bits.drop 1).take 4
    let first := kinds.findIdx fun k => !k
    let body := bits.drop 5
    let full := body.take (64 * first + 4) ++ bitsOf 4 (typeUpper (ofBits ((body.drop (64 * first)).take 4))) ++
      body.drop (64 * first + 4)
    kinds.mapIdx fun i k =>
      { sync := if k then dataSync else controlSync, payload := BitVec.ofNat 64 (ofBits ((full.drop (64 * i)).take 64)) }

/-! ## Alignment markers (R216, R219) -/

/-- Slots of 66 bits in a marker period, and the bits of a lane between two markers. -/
def markerPeriod : Nat := 16384
def bitsBetween : Nat := 66 * (markerPeriod - 1)

/-- The fixed pattern of Table BP-3. -/
def markerPattern : Nat := 0x9D3B16C5

/-- `BIP`: bit b is the even parity of the lane bits at positions b modulo 8 since the previous marker. -/
def bipOf (bits : List Bool) : Nat :=
  packNat ((List.range 8).map fun b =>
    (b, 1, ((bits.mapIdx fun i x => if i % 8 = b && x then 1 else 0).sum) % 2))

/-- An alignment marker, which is never scrambled (Table BP-3). -/
def marker (lane width fec bip : Nat) : Block66 :=
  { sync := controlSync
    payload := BitVec.ofNat 64 (packNat [(0, 8, 0xE2), (8, 4, lane), (12, 2, width), (14, 2, fec), (16, 32, markerPattern),
      (48, 8, bip), (56, 8, 255 - bip % 256)]) }

def hamming (n a b : Nat) : Nat := ((bitsOf n (a ^^^ b)).map fun x => if x then 1 else 0).sum

/-- A marker is found where `PATTERN` matches with 3 bit errors or fewer and `WIDTH` and `FEC` are the link's own. -/
def markerFound (width fec : Nat) (b : Block66) : Bool :=
  decide (hamming 32 (fld b.payload 16 32) markerPattern ≤ 3) && fld b.payload 12 2 == width && fld b.payload 14 2 == fec

/-- Marker lock of one lane: markers found in a row before lock, expected markers missed in a row after it. -/
structure MarkerLock where
  locked : Bool := false
  run : Nat := 0
deriving DecidableEq, Repr

/-- The block at the expected position: two markers in consecutive periods lock, three missed in a row lose the lock. -/
def MarkerLock.step (m : MarkerLock) (found : Bool) : MarkerLock :=
  if m.locked then
    if found then { m with run := 0 } else if m.run = 2 then {} else { m with run := m.run + 1 }
  else if found then (if m.run = 1 then { locked := true } else { m with run := m.run + 1 })
  else {}

/-- Each lane's `BIP` is checked (R220); `bits` are the lane's since the previous marker. -/
def bipMismatch (bits : List Bool) (b : Block66) : Bool := fld b.payload 48 8 != bipOf bits

/-- Lanes aligned by their markers: what arrives on each physical lane, in the order of `LANE` (R219). -/
def alignLanes {α : Type} (n : Nat) (lanes : List (Nat × α)) : List α :=
  (List.range n).filterMap fun k => (lanes.find? fun e => e.1 == k).map (·.2)

/-! ## Codewords on the lanes (R217) -/

/-- Symbol s of a codeword goes to logical lane s mod N. -/
def laneOfSymbol (n s : Nat) : Nat := s % n

/-- The symbols of a codeword on one lane, in order. -/
def laneSymbols (n lane : Nat) (codeword : List Nat) : List Nat :=
  (codeword.mapIdx fun s v => (s, v)).filterMap fun e => if laneOfSymbol n e.1 = lane then some e.2 else none

/-- The 78 filler bits of a period: 1, 0, 1, 0 and so on. -/
def filler : List Bool := (List.range 78).map fun i => i % 2 == 0

/-- A lane's bits of one period: its marker, the codewords that begin after it, and the filler. -/
def lanePeriod (n lane width fec bip : Nat) (codewords : List (List Nat)) : List Bool :=
  (marker lane width fec bip).bits ++
    (codewords.flatMap fun c => (laneSymbols n lane c).flatMap fun v => bitsOf 10 v) ++ filler

/-! ## The two codes (R218) -/

/-- Doubling and multiplication in GF(2^10) with the polynomial x^10 + x^3 + 1. -/
def gfDouble (a : Nat) : Nat := if 512 ≤ a then (2 * a) ^^^ 0x409 else 2 * a

def gfMulFrom : Nat → Nat → Nat → Nat → Nat
  | 0, _, _, acc => acc
  | k + 1, a, b, acc => gfMulFrom k (gfDouble a) (b / 2) (if b % 2 = 1 then acc ^^^ a else acc)

def gfMul (a b : Nat) : Nat := gfMulFrom 10 a b 0

/-- The powers of the root α of the field polynomial. -/
def gfExp : Nat → Nat
  | 0 => 1
  | k + 1 => gfDouble (gfExp k)

/-- The inverse of a nonzero element: its power 1022. -/
def gfInvFrom : Nat → Nat → Nat → Nat
  | 0, _, acc => acc
  | k + 1, sq, acc => let sq := gfMul sq sq; gfInvFrom k sq (gfMul acc sq)
def gfInv (a : Nat) : Nat := gfInvFrom 9 a 1

/-- Sum of two polynomials, coefficients from the lowest power. -/
def polyAdd : List Nat → List Nat → List Nat
  | [], q => q
  | p, [] => p
  | a :: p, b :: q => (a ^^^ b) :: polyAdd p q

/-- The generator (x − α^0) … (x − α^(k−1)), coefficients from the highest power. -/
def generator : Nat → List Nat
  | 0 => [1]
  | k + 1 => List.zipWith (· ^^^ ·) (generator k ++ [0]) (0 :: (generator k).map (gfMul (gfExp k)))

/-- The parity symbols of a message of symbols, the first sent first: the remainder by the generator. -/
def rsParity (parity : Nat) (message : List Nat) : List Nat :=
  let g := (generator parity).tail
  message.foldl (fun reg m =>
    let fb := m ^^^ reg.headD 0
    List.zipWith (· ^^^ ·) (reg.tail ++ [0]) (g.map (gfMul fb))) (List.replicate parity 0)

/-- A FEC code: groups of 257 bits, pad symbols and parity symbols of a codeword. -/
structure Fec where
  groups : Nat
  pad : Nat
  parity : Nat
deriving DecidableEq, Repr

/-- RS(544,514): 20 groups, 30 parity symbols. -/
def fullFec : Fec := { groups := 20, pad := 0, parity := 30 }
/-- RS(272,258): 10 groups, one pad symbol of zeros, 14 parity symbols. -/
def shortFec : Fec := { groups := 10, pad := 1, parity := 14 }

def Fec.message (f : Fec) : Nat := 257 * f.groups / 10
def Fec.length (f : Fec) : Nat := f.message + f.pad + f.parity

/-- `n` symbols of 10 bits, bit 0 first. -/
def symbolsOf : Nat → List Bool → List Nat
  | 0, _ => []
  | k + 1, bs => ofBits (bs.take 10) :: symbolsOf k (bs.drop 10)

/-- The codeword of a code's scrambled groups. -/
def Fec.encode (f : Fec) (bits : List Bool) : List Nat :=
  let m := symbolsOf f.message bits ++ List.replicate f.pad 0
  m ++ rsParity f.parity m

/-- A polynomial given by its coefficients from the highest power, at a point. -/
def evalHigh (p : List Nat) (x : Nat) : Nat := p.foldl (fun acc c => gfMul acc x ^^^ c) 0

def syndromes (parity : Nat) (r : List Nat) : List Nat := (List.range parity).map fun j => evalHigh r (gfExp j)

/-- The shortest register that makes the syndromes: Berlekamp and Massey. `seen` are the syndromes before, newest first. -/
def locatorFrom : List Nat → List Nat → Nat → List Nat → List Nat → Nat → Nat → Nat → List Nat × Nat
  | [], _, _, c, _, l, _, _ => (c, l)
  | s :: ss, seen, n, c, b, l, m, db =>
    let d := s ^^^ ((List.zipWith gfMul (c.tail.take l) seen).foldl (· ^^^ ·) 0)
    if d = 0 then locatorFrom ss (s :: seen) (n + 1) c b l (m + 1) db
    else
      let c' := polyAdd c (List.replicate m 0 ++ b.map (gfMul (gfMul d (gfInv db))))
      if 2 * l ≤ n then locatorFrom ss (s :: seen) (n + 1) c' c (n + 1 - l) 1 d
      else locatorFrom ss (s :: seen) (n + 1) c' b l (m + 1) db

def evalLow (p : List Nat) (x : Nat) : Nat := evalHigh p.reverse x

/-- The codeword a received word is corrected to; none where it cannot be: up to half as many symbol errors as parity symbols
are corrected, and the value of a pad symbol is ignored. -/
def Fec.correct (f : Fec) (received : List Nat) : Option (List Nat) :=
  let r := received.mapIdx fun i v => if f.message ≤ i && decide (i < f.message + f.pad) then 0 else v
  let ss := syndromes f.parity r
  if ss.all (· == 0) then some r
  else
    let (c, l) := locatorFrom ss [] 0 [1] [1] 0 1 1
    let omega := ((List.range f.parity).map fun k =>
      ((List.range (k + 1)).map fun i => gfMul (c.getD i 0) (ss.getD (k - i) 0)).foldl (· ^^^ ·) 0)
    let deriv := (c.mapIdx fun i v => (i, v)).tail.map fun e => if e.1 % 2 = 1 then e.2 else 0
    let fixed := r.mapIdx fun i v =>
      let x := gfExp (f.length - 1 - i)
      let y := gfInv x
      if evalLow c y = 0 then v ^^^ gfMul x (gfMul (evalLow omega y) (gfInv (evalLow deriv y))) else v
    if decide (l ≤ f.parity / 2) && (syndromes f.parity fixed).all (· == 0) then some fixed else none

/-! ## What a receiver makes of it (R220) -/

/-- The blocks of a received codeword; none marks them all as errored. `s` is the descrambler's state. -/
def Fec.blocks (f : Fec) (s : Nat) (received : List Nat) : Option (List Block66 × Nat) :=
  (f.correct received).map fun c =>
    let (bits, s) := descrambleBits s ((c.take f.message).flatMap fun v => bitsOf 10 v)
    ((List.range f.groups).flatMap fun k => untranscode ((bits.drop (257 * k)).take 257), s)

/-- The control-block types of a link (Table BL-1), and of a ring side (R267). -/
def blockTypes (ring : Bool) : List Nat := if ring then [0x1E, 0x87, 0xE1, 0xE2] else [0x1E, 0x4B, 0x78, 0xE1, 0xE2]

/-- With FEC None a block whose sync header is 00 or 11 is errored; so is a control block of no type of its lane. -/
def Block66.errored (ring : Bool) (b : Block66) : Bool :=
  b.sync == 0 || b.sync == 3 || (b.sync == controlSync && !(blockTypes ring).contains (fld b.payload 0 8))

/-! ## Units (R234, R237) -/

/-- Zero padding to a whole block. -/
def padUnit (bytes : List Byte) : List Byte := bytes ++ List.replicate ((8 - bytes.length % 8) % 8) 0

def payloadOf (bytes : List Byte) : BitVec 64 := BitVec.ofNat 64 (ofBytes bytes)

/-- Data blocks of a unit's bytes: byte j lies in block j / 8, in payload bits from 8·(j mod 8). -/
def dataBlocks : Nat → List Byte → List Block66
  | 0, _ => []
  | k + 1, bytes =>
    if bytes.isEmpty then [] else { sync := dataSync, payload := payloadOf (bytes.take 8) } :: dataBlocks k (bytes.drop 8)

/-- The blocks of a unit: a lead block, whose byte 0 is the block type, and data blocks. -/
def unitBlocks (bytes : List Byte) : List Block66 :=
  { sync := controlSync, payload := payloadOf ((padUnit bytes).take 8) } :: dataBlocks bytes.length ((padUnit bytes).drop 8)

/-- `IDLE` (Table BL-1). -/
def idleBlock : Block66 := { sync := controlSync, payload := 0x1E#64 }

/-- A burst's unit (R237): the type, the header, the payload, the tag of a sealed burst, and the CRC-32, least significant byte
first. -/
def burstUnit (b : Burst) : List Byte :=
  0x78#8 :: toBytes 16 b.hdr.toNat ++ b.payload ++ (if bit b.hdr 7 then toBytes 16 b.tag.toNat else []) ++
    toBytes 4 b.crc.toNat

/-- A ring frame's unit (R267). -/
def frameUnit (f : Frame) : List Byte :=
  0x87#8 :: toBytes 32 f.hdr.toNat ++ f.payload ++ toBytes 16 f.tag.toNat ++ toBytes 4 f.crc.toNat

/-- Bytes of a burst's unit before the padding (R234). -/
def burstBytes (hdr : BitVec 128) : Nat := 21 + fld hdr 24 12 + (if bit hdr 7 then 16 else 0)

/-- The burst that a unit's bytes spell, with the parts of it that stand in errored blocks. -/
def burstOfUnit (bytes : List Byte) (hdrErr payErr : Bool) : Burst :=
  let hdr := BitVec.ofNat 128 (le bytes 1 16)
  let len := fld hdr 24 12
  let tagged := if bit hdr 7 then 16 else 0
  { hdr := hdr, payload := (bytes.drop 17).take len, tag := BitVec.ofNat 128 (le bytes (17 + len) tagged)
    crc := BitVec.ofNat 32 (le bytes (17 + len + tagged) 4), hdrErr := hdrErr, payErr := payErr }

/-- Bytes of a frame's unit before the padding (R267). -/
def frameUnitBytes (hdr : BitVec 256) : Nat := 53 + fld hdr 48 12

/-- The frame that a unit's bytes spell; `errored` where any of it stands in an errored block or it is cut short. -/
def frameOfUnit (bytes : List Byte) (errored : Bool) : Frame :=
  let hdr := BitVec.ofNat 256 (le bytes 1 32)
  let len := fld hdr 48 12
  { hdr := hdr, payload := (bytes.drop 33).take len, tag := BitVec.ofNat 128 (le bytes (33 + len) 16)
    crc := BitVec.ofNat 32 (le bytes (49 + len) 4), errored := errored }

/-! ## The receive framer of a link (R235) or of a ring side (R267) -/

/-- What the framer makes of the stream. -/
inductive RxUnit where
  | burst (b : Burst)
  | frame (f : Frame)
  | word (bytes : List Byte)
deriving DecidableEq, Repr

/-- A unit under way: its bytes so far, and which parts of a burst or frame stood in errored blocks. -/
structure Framer where
  ring : Bool := false
  burst : Option (List Byte) := none
  hdrErr : Bool := false
  payErr : Bool := false
  /-- A control word, with the data blocks it lacks. -/
  word : Option (List Byte × Nat) := none
deriving DecidableEq, Repr

def bytesOfBlock (b : Block66) : List Byte := toBytes 8 b.payload.toNat

/-- The burst or frame under way ends, whole or cut short; a cut one counts as one whose CRC-32 failed. -/
def Framer.endBurst (f : Framer) (cut : Bool) : Framer × List RxUnit :=
  match f.burst with
  | some bs =>
    ({ f with burst := none, hdrErr := false, payErr := false },
      [if f.ring then .frame (frameOfUnit bs (f.hdrErr || f.payErr || cut))
       else .burst (burstOfUnit bs f.hdrErr (f.payErr || cut))])
  | none => (f, [])

/-- The bytes of the unit under way up to its header's end, and in all once its header is whole. -/
def Framer.headBytes (f : Framer) : Nat := if f.ring then 33 else 17
def Framer.allBytes (f : Framer) (bytes : List Byte) : Nat :=
  if f.ring then frameUnitBytes (BitVec.ofNat 256 (le bytes 1 32)) else burstBytes (BitVec.ofNat 128 (le bytes 1 16))

/-- A block of the burst or frame under way. -/
def Framer.more (f : Framer) (bs : List Byte) (b : Block66) (bad : Bool) : Framer × List RxUnit :=
  let inHdr := decide (bs.length < f.headBytes)
  let f := { f with
    burst := some (bs ++ bytesOfBlock b), hdrErr := f.hdrErr || (bad && inHdr), payErr := f.payErr || (bad && !inHdr) }
  let all := bs ++ bytesOfBlock b
  if decide (f.headBytes ≤ all.length) && decide (f.allBytes all ≤ all.length) then f.endBurst false
  else (f, [])

/-- One received block. `IDLE` and control words may stand at any block boundary inside a burst, and nothing inside a control
word; a burst's lead block inside an unfinished burst, which it cuts short, and a data block outside any unit are errored
blocks. A ring side has frames in place of bursts, and no control words. -/
def Framer.step (f : Framer) (b : Block66) : Framer × List RxUnit :=
  if b.errored f.ring then
    match f.burst with
    | some bs => ({ f with word := none }).more bs b true
    | none => ({ f with word := none }, [])
  else if b.sync = dataSync then
    match f.word, f.burst with
    | some (ws, k), _ =>
      if k ≤ 1 then ({ f with word := none }, [.word (ws ++ bytesOfBlock b)])
      else ({ f with word := some (ws ++ bytesOfBlock b, k - 1) }, [])
    | none, some bs => f.more bs b false
    | none, none => (f, [])
  else
    let f := { f with word := none }
    let typ := fld b.payload 0 8
    if typ = 0x4B then
      let ext := fld b.payload 12 2
      if ext = 0 then (f, [.word (bytesOfBlock b)]) else ({ f with word := some (bytesOfBlock b, ext) }, [])
    else if typ = (if f.ring then 0x87 else 0x78) then
      match f.burst with
      | some _ => f.endBurst true
      | none => ({ f with burst := some (bytesOfBlock b), hdrErr := false, payErr := false }, [])
    else (f, [])

/-- A run of blocks. -/
def Framer.run (f : Framer) : List Block66 → Framer × List RxUnit
  | [] => (f, [])
  | b :: bs =>
    let (f, us) := f.step b
    let (f, vs) := f.run bs
    (f, us ++ vs)

end Sys2Proof.Machine
end

