-- ==== Sys2Proof/Config.lean ====
section
/-!
DEFINITION. What an implementation fixes and the spec leaves open. Each is an opaque constant without a body, so no
proof can see a value of it: a claim holds whatever it is. The cryptographic primitives the spec names by their
standards stand here too: the model fixes their exact inputs and leaves the functions themselves open.
-/
namespace Sys2Proof.Config

/-- A fresh unstated value: applied to the plain counter `State.free`, which each draw advances. -/
opaque freeValue : Nat → Nat

/-- Whether an `RST_N` pulse between 250 ns and 1 µs is accepted (R391 says it may or may not be). -/
opaque shortPulse : Nat → Bool

/-- Byte `i` of the AES-256-GCM key stream for a key and a 12-byte IV (R256, R268, Table SE-2). -/
opaque gcmStream : BitVec 256 → List Byte → Nat → Byte

/-- The AES-256-GCM tag for a key, a 12-byte IV, additional data and ciphertext. -/
opaque gcmTag : BitVec 256 → List Byte → List Byte → List Byte → BitVec 128

/-- HMAC-SHA-256 of a message under a key (R409, R415). -/
opaque hmacSha256 : BitVec 256 → List Byte → BitVec 256

/-- SHA-384 (R406, R436). -/
opaque sha384 : List Byte → BitVec 384

/-- Whether an ECDSA P-384 signature over SHA-384 of a message verifies under a public key (R409, R436). -/
opaque ecdsaVerify : List Byte → List Byte → List Byte → Bool

/-- The AES-CMAC tag of a key slot, under a key derived on chip from the fused device key: its bits [383:0] and its
number (Table SE-1). -/
opaque slotTag : BitVec 256 → BitVec 384 → Nat → BitVec 128

/-- The device transport key, derived on chip from the fused device key and `DEVID` (R409). -/
opaque transportKey : BitVec 256 → BitVec 128 → BitVec 256

/-- The two-bit code of a ring kind in argument A of `HOST_DMA_ERR` (Table ER-1 does not state it). -/
opaque ringKind : Nat → BitVec 2

/-- Whether the `n`-th non-volatile write of an update message fails three times (check 10 of Table SE-3). -/
opaque nvFails : Nat → Bool

end Sys2Proof.Config
end

