-- ==== Sys2Proof/Machine/State.lean ====
section
/-!
DEFINITION. Everything the spec gives the LQ8192 to hold, as plain data. Every field's default is its value right
after a power-on reset; `State.reset` is the machine with every field at that default. Counters and positions are
natural numbers, register words that software reads and writes whole are bit strings, and modes are inductive types.
-/
namespace Sys2Proof.Machine

/-- The reasons the machine stops with a fault. There is none: every command of the spec leads to a next state. -/
inductive Fault : Type where
deriving DecidableEq, Repr

/-- The reasons a command has no meaning. -/
inductive Refusal : Type where
  /-- Raised by the dispatcher alone, for a command that has no meaning yet, under its mnemonic. Safe: nothing is
  claimed about the command. -/
  | notModelled (mnemonic : String)
deriving DecidableEq, Repr

/-! ## Queues (spec/02, 04, 05, 06, 07, 08) -/

/-- A queue end (Table QU-6). -/
inductive QEnd where
  | link (n : Fin 8)
  | host
  | ring
deriving DecidableEq, Repr

/-- Queue states (R50, Table QU-9). -/
inductive QState where
  | unbound | ready | opened | closing | closed | held
deriving DecidableEq, Repr

/-- What `QUEUE_BIND` stores (Table QU-5). -/
structure Binding where
  kerb : Bool := false
  msgMode : Bool := false
  pin : Bool := false
  sealedQ : Bool := false
  affinity : Nat := 0
  wfmt : Nat := 0
  rfmt : Nat := 0
  wend : QEnd := .host
  rend : QEnd := .host
  rsvSeg : Nat := 0
  maxSeg : Nat := 0
  wring : Nat := 0
  rring : Nat := 0
  conv : Nat := 0
deriving DecidableEq, Repr

/-- A command that has been fetched: its function, its number among all fetched commands, and what its completion
echoes (R312). -/
structure CmdRef where
  fn : Nat
  id : Nat
  opcode : Nat
  tag : Nat
deriving DecidableEq, Repr

/-- A complex sample as two 16-bit parts (R133). -/
abbrev Sample := BitVec 16 × BitVec 16

/-- The message being written (R31, R36, R64). -/
structure WriteMsg where
  /-- Position of the stored header. -/
  start : Nat
  msn : BitVec 32
  /-- Write-side payload bytes received, the expected `OFFSET` (check 8). -/
  received : Nat := 0
  /-- Whole elements stored. -/
  elems : Nat := 0
  /-- Stored payload bytes committed. -/
  slen : Nat := 0
  /-- Release time stored behind the header (R176). -/
  rt : Nat := 0
deriving DecidableEq, Repr

/-- The message being read. -/
structure ReadMsg where
  /-- Position of its stored header. -/
  start : Nat
  msn : BitVec 32
  /-- Whole elements sent, and their read-side bytes, the `OFFSET` of the next burst. -/
  sent : Nat := 0
  off : Nat := 0
deriving DecidableEq, Repr

/-- One retransmit mark (R141 to R147). -/
structure Mark where
  isSet : Bool := false
  pos : Nat := 0
  auto : Bool := false
  trail : Nat := 0
  evictable : Bool := false
  c : Int := 0
  waiting : Bool := false
  /-- Set at the write pointer inside a message: the position is that of the next message, once this one ends. -/
  next : Bool := false
deriving DecidableEq, Repr

/-- A waiting `REWIND` (R149). -/
structure RewindWait where
  mark : Fin 4
  target : Nat
  /-- The command to complete, none for an in-band operation. -/
  ref : Option CmdRef := none
  result : Nat := 0
deriving DecidableEq, Repr

/-- Flag settings (Table FL-4), after `QUEUE_BIND` as Table FL-2. -/
structure FlagCfg where
  enable : Nat := 0
  afUnit : Bool := false
  alpha : Nat := 2
  evmask : Nat := 0
  afSet : Nat := 0
  fafSet : Nat := 0
  aeSet : Nat := 0
  faeSet : Nat := 0
  afHys : Nat := 0
  fafHys : Nat := 0
  aeHys : Nat := 0
  faeHys : Nat := 0
  fullHys : Nat := 0
  emptyHys : Nat := 0
  fafLead : Nat := 0
  faeLead : Nat := 0
deriving DecidableEq, Repr

/-- The open reporting interval of `FLAG_CHANGE` (R119): the masked flags that changed since it opened, and those of
them that returned to an earlier level. -/
structure FlagWindow where
  changed : Nat := 0
  returned : Nat := 0
deriving DecidableEq, Repr

/-- Flag levels and predictor state (R95, R100): the flag-state store, not retained. -/
structure FlagState where
  levels : Nat := 0
  sfillPrev : Int := 0
  efillPrev : Int := 0
  rs : Int := 0
  re : Int := 0
  nsamp : Nat := 0
  intervalValid : Bool := false
  cold : Bool := true
  window : Option FlagWindow := none
deriving DecidableEq, Repr

/-- The policy of a KERBSIDE queue (Table KB-3), after `QUEUE_BIND` as R208. -/
structure Policy where
  adapt : Bool := false
  dropmode : Nat := 0
  weight : Nat := 1
  afInit : Nat := 0
  afMin : Nat := 0
  afMax : Nat := 0
  target : Nat := 2000
  ageMax : Nat := 0
  paceMin : Nat := 0
  paceMax : Nat := 0
  paceBurst : Nat := 0
deriving DecidableEq, Repr

/-- The open reporting interval of `KB_DROP` (R198). -/
structure DropWindow where
  msn : BitVec 32
  tail : Nat := 0
  head : Nat := 0
  age : Nat := 0
deriving DecidableEq, Repr

/-- Measurement, pacing and share state of a KERBSIDE queue (R187 to R206). -/
structure Kerb where
  policy : Policy := {}
  paceNow : Nat := 0
  /-- The ring of eight stamps, oldest first: position and measurement count (R189). -/
  stamps : List (Nat × Nat) := []
  sojAvg : Nat := 0
  sojLast : Nat := 0
  nsoj : Nat := 0
  /-- Whether a sample was taken since the previous visit (R201). -/
  sampled : Bool := false
  arrRate : Nat := 0
  depRate : Nat := 0
  dropPer : Nat := 0
  /-- Since the previous visit: payload admitted, payload begun, messages dropped, and the count at that visit. -/
  arrBytes : Nat := 0
  depBytes : Nat := 0
  drops : Nat := 0
  lastVisit : Nat := 0
  /-- Token bucket in 1/256 byte, and the core-cycle time it was last filled to (R200). -/
  tokens : Int := 0
  tokensAt : Nat := 0
  deficit : Nat := 0
  /-- Retained counters (Table KB-4). -/
  sojMax : Nat := 0
  admitCnt : Nat := 0
  dropTail : Nat := 0
  dropHead : Nat := 0
  dropAge : Nat := 0
  nakCnt : Nat := 0
  window : Option DropWindow := none
deriving DecidableEq, Repr

/-- The open reporting interval of `PIN_LATE` (R182). -/
structure LateWindow where
  msn : BitVec 32
  count : Nat
  worst : Nat
deriving DecidableEq, Repr

/-- Pinned-playout settings and counters of a queue (Tables PL-8, PL-9). -/
structure Pin where
  stamped : Bool := false
  release : Bool := false
  offset : Nat := 0
  horizon : Nat := 1000000000
  lateCnt : Nat := 0
  maxLate : Nat := 0
  earlyClamp : Nat := 0
  noRt : Nat := 0
  unlockedRel : Nat := 0
  window : Option LateWindow := none
  /-- Messages below this position are re-sent after a REWIND (R151, R182). -/
  resentTo : Nat := 0
  /-- Messages below this position are judged by the horizon rule when they become the head message (R178). -/
  judgeTo : Nat := 0
  /-- The head message whose release time has been judged, by position. -/
  judged : Option Nat := none
deriving DecidableEq, Repr

/-- Queue-child key state of a sealed queue (R418, R257). The key itself is a function of the parent in force when
the child was derived and the epoch, so the parent's material at derivation is held. -/
structure QueueKeys where
  bound : Bool := false
  epoch : BitVec 16 := 0
  parent : BitVec 256 := 0
  revoked : Bool := false
  /-- The previous epoch's receive child, while its grace lasts. -/
  prev : Option (BitVec 16 × BitVec 256) := none
  /-- Messages sealed in each direction under the current epoch. -/
  inCnt : Nat := 0
  outCnt : Nat := 0
deriving DecidableEq, Repr

/-- A station's place in a chain (Table RR-4 `ROLE`). -/
inductive Role where
  | head | middle | tail | single
deriving DecidableEq, Repr

/-- The latest SYNC entry received from one station for a queue (Table RR-4). -/
structure SyncIn where
  station : Nat
  role : Nat := 0
  active : Bool := false
  heldq : Bool := false
  flags : Nat := 0
  cold : Bool := false
  gen : Nat := 0
  sfill : Nat := 0
  cap : Nat := 0
  efill : Nat := 0
  commit : Nat := 0
  fflimit : Nat := 0
  rpoint : Nat := 0
  mset : Nat := 0
  marks : List Nat := []
deriving DecidableEq, Repr

/-- A chain command waiting for its position (R276), and marks likewise (R279). -/
structure ChainCmd where
  code : Nat
  pos : Nat
deriving DecidableEq, Repr

/-- The neighbours' CHAIN_JOIN frames still missing, and the command that waits for them, or for a teardown's
acknowledgement (R275). -/
structure JoinWait where
  ref : CmdRef
  leave : Bool := false
  east : Bool := false
  west : Bool := false
deriving DecidableEq, Repr

/-- A command that waits at the head for the members to apply it: its CHAIN_CMD code and position, and the stations
that have reported it (R276). -/
structure HeadWait where
  ref : CmdRef
  code : Nat
  pos : Nat
  seen : List Nat := []
deriving DecidableEq, Repr

/-- A station's part of a chain (R274 to R284). -/
structure Chain where
  joined : Bool := false
  void : Bool := false
  pos : Nat := 0
  nsta : Nat := 0
  /-- The members' station numbers by position. -/
  stations : List Nat := []
  /-- Chain position 0 in this station's stored positions: chain = stored − base. -/
  base : Int := 0
  /-- Next position to send downstream, the downstream COMMIT and FFLIMIT, and credits used (R277). -/
  sendPos : Nat := 0
  downCommit : Nat := 0
  ffLimit : Nat := 0
  ffUsed : Nat := 0
  /-- Frames sent and not yet below `downCommit`: position, and credits used before each. -/
  sent : List (Nat × Nat) := []
  /-- Credits granted upstream, and credits consumed by accepted frames. -/
  granted : Nat := 0
  taken : Nat := 0
  /-- FF_REWIND has been sent for the present gap (R278). -/
  gapSent : Bool := false
  wait : Option JoinWait := none
  /-- Chain commands and marks waiting for the committed position; at a head, marks sent on inside the open message. -/
  cmds : List ChainCmd := []
  marks : List ChainCmd := []
  /-- The head's commands waiting for every member. -/
  headWait : List HeadWait := []
  sync : List SyncIn := []
  /-- The upstream member has reached CLOSED (R276). -/
  upClosed : Bool := false
  /-- Members lost while the chain stood: their SYNC values stay as last received (R109). -/
  lost : List Nat := []
deriving DecidableEq, Repr

/-- A paired queue at a tail or single station (R285 to R293). -/
structure Pair where
  paired : Bool := false
  shadow : Bool := false
  /-- An active tail that has abdicated: it neither reads nor takes over until PAIR_SETUP builds a pair again. -/
  out : Bool := false
  peer : Nat := 0
  tmo : Nat := 0
  gen : Nat := 0
  fit : Bool := false
  /-- The peer's last RPOINT, and whether its copy was HELD and its chain active. -/
  rpoint : Nat := 0
  rpointSeen : Bool := false
  /-- The active tail's marks as last heard: which are set, and each one's code (R160). -/
  mset : Nat := 0
  codes : List Nat := []
  peerHeld : Bool := false
  peerActive : Bool := false
  wait : Option CmdRef := none
  /-- PAIR_FAIL_N has been low for 1 µs and no SYNC has come since (R288). -/
  failWatch : Bool := false
  failoverWait : List CmdRef := []
  /-- A graceful FAILOVER lets the active tail finish its message first (R292). -/
  stopping : Bool := false
deriving DecidableEq, Repr

/-- One queue's context and flag state. An UNBOUND queue is the default value. -/
structure Queue where
  st : QState := .unbound
  resume : QState := .unbound
  why : Nat := 0
  b : Binding := {}
  /-- Segments held, in position order from page `segBase` (R37 to R40). -/
  segs : List Nat := []
  segBase : Nat := 0
  /-- A segment request is outstanding, and the segment now needed has been refused once (R39, R40). -/
  segReq : Bool := false
  segDenied : Bool := false
  /-- A burst or descriptor waits for room. -/
  needRoom : Bool := false
  wptr : Nat := 0
  rptr : Nat := 0
  /-- Samples of the Pack12 block at `rptr` already delivered. -/
  rsub : Nat := 0
  wmsg : Option WriteMsg := none
  /-- The rest of an over-long or tail-dropped message is being discarded: its number and bytes received (R31, R194). -/
  skip : Option (BitVec 32 × Nat) := none
  rmsg : Option ReadMsg := none
  /-- Bytes of an incomplete element, and samples of an incomplete Pack12 block (R129, R136). -/
  part : List Byte := []
  pack : List Sample := []
  /-- A NAK is in force: the message and offset that end it (R251). -/
  nak : Option (BitVec 32 × Nat) := none
  /-- Admission decisions already made for messages that may be sent again (R194). -/
  decided : List (BitVec 32 × Bool) := []
  marks : Vector Mark 4 := Vector.replicate 4 {}
  rewinds : List RewindWait := []
  closes : List CmdRef := []
  hostMsn : BitVec 32 := 0
  /-- The message a host writer is sending is tail-dropped (R318). -/
  hostDrop : Bool := false
  msnW : BitVec 32 := 0
  msnR : BitVec 32 := 0
  truncCnt : Nat := 0
  partialCnt : Nat := 0
  refusedCnt : Nat := 0
  segDeny : Nat := 0
  evictCnt : Nat := 0
  inbandRej : Nat := 0
  /-- Stream bursts sent (R239), elements read since bind (R160, R290), and since the last burst was discarded. -/
  burstMsn : BitVec 32 := 0
  elemsRead : Nat := 0
  fcfg : FlagCfg := {}
  fst : FlagState := {}
  kerb : Kerb := {}
  pin : Pin := {}
  keys : QueueKeys := {}
  chain : Chain := {}
  pair : Pair := {}
  /-- The status entry last sent to the write-end link had XOFF set. -/
  xoff : Bool := false
  /-- A new split has removed the link of an end since the queue was bound (R212). -/
  removed : Bool := false
deriving DecidableEq, Repr

/-- Quotas of a queue group (R42). -/
structure Group where
  gqRsv : Nat := 2048
  gqMax : Nat := 32768
  /-- Ring-session epoch, child and revocation of the group (R418). -/
  rsBound : Bool := false
  rsEpoch : BitVec 16 := 0
  rsParent : BitVec 256 := 0
  rsRevoked : Bool := false
  rsPrev : Option (BitVec 16 × BitVec 256) := none
  rsNonce : Nat := 0
  /-- The counts that earlier keys of the group reached, by epoch and parent: a key that returns goes on from its own (R268). -/
  rsSpent : List (BitVec 16 × BitVec 256 × Nat) := []
  /-- Revoked epochs, low 8 bits (R294). -/
  rsGone : List Nat := []
deriving DecidableEq, Repr


/-! ## Crosswalks (spec/03) -/

/-- A value cell (R71 to R76): what the source publishes and the source cycles left of its window; the destination's sample
of the preceding cycle, none where its clock stopped since; and the value it presents. -/
structure ValueCell where
  published : Nat := 0
  left : Nat := 0
  sample : Option Nat := none
  accepted : Nat := 0
deriving DecidableEq, Repr

/-- A data cell (R19, R77): 32 entries, the pointers of its halves modulo 64, and the two value cells by which they cross. -/
structure DataCell where
  slots : SMap Nat := []
  wptr : Nat := 0
  rptr : Nat := 0
  fwd : ValueCell := {}
  back : ValueCell := {}
  /-- The receive half of a link or ring side runs from the recovered clock, else from the transmit clock (R85). -/
  recovered : Bool := false
deriving DecidableEq, Repr

/-- An event cell (R80 to R83): the source's toggle, request, count, pending count and `LOSS`, and the level that the
destination has returned as its acknowledge. -/
structure EventCell where
  toggle : Bool := false
  outstanding : Bool := false
  count : Nat := 0
  pending : Nat := 0
  loss : Bool := false
  ack : Bool := false
deriving DecidableEq, Repr

/-! ## Barward links and ring sides (spec/09, 10, 11) -/

/-- `LINKn_STAT.STATE` (Table BP-11). -/
inductive LState where
  | disabled | sigdet | lock | eq | caps | ready | up | reset
deriving DecidableEq, Repr

/-- Configuration read at step 1 of a training attempt (R226). -/
structure TrainCfg where
  nrz : Bool := false
  fec : Nat := 2
  txRev : Bool := false
  autoPol : Bool := true
  verMax : Bool := true
deriving DecidableEq, Repr

/-- One lane's training state: consecutive valid blocks, the partner's lane number, polarity found, the partner's
last fields, and this end's transmitter taps and replies (R221, R222). -/
structure LaneTrain where
  good : Nat := 0
  lane : Option Nat := none
  phase : Nat := 0
  done : Bool := false
  verMap : Nat := 0
  fec : Nat := 0
  modu : Nat := 0
  width : Nat := 0
  /-- Transmitter taps c(−1), c(0), c(+1) in steps from the preset, and the COEF_STAT now sent. -/
  tapPre : Int := 0
  tapMain : Int := 0
  tapPost : Int := 0
  coefStat : Nat := 0
  /-- The `COEF_REQ` now sent to the partner, and the partner's last `COEF_STAT` (R222). -/
  coefReq : Nat := 0
  partnerStat : Nat := 0
deriving DecidableEq, Repr

/-- The physical side of a link or ring side (Tables BP-10, BP-11). -/
structure PhyState where
  st : LState := .disabled
  ver : Nat := 0
  fail : Nat := 0
  downCnt : Nat := 0
  trainFail : Nat := 0
  fecc : Nat := 0
  fecu : Nat := 0
  bipe : Nat := 0
  cfg : TrainCfg := {}
  lanes : SMap LaneTrain := []
  /-- This receiver's DONE in the present phase. -/
  done : Bool := false
  /-- Consecutive 1 ms EQ windows that met the criterion. -/
  eqGood : Nat := 0
  dataMode : Bool := false
  /-- The cause last raised by `LINK_TRAIN_FAIL`, and whether the illegal configuration has been raised. -/
  raised : Nat := 0
  cfgRaised : Bool := false
  /-- The last attempt failed with cause CFG, and the next begins 25 ms after it (R213). -/
  cfgWait : Bool := false
  txIdle : Bool := true
  /-- READY frames still to send (R222), and time-base cycles since the last training frame began. -/
  count : Nat := 0
  frame : Nat := 0
deriving DecidableEq, Repr

/-- Credit account of one group and class on one link, in credits modulo 2^24 (R243 to R246): what the device granted,
what of it is outstanding, what arrived; and the partner's limit and the device's use for egress. -/
structure Credit where
  limit : BitVec 24 := 0
  outstanding : Nat := 0
  rxUsed : BitVec 24 := 0
  txLimit : BitVec 24 := 0
  txUsed : BitVec 24 := 0
deriving DecidableEq, Repr

/-- A burst waiting in ingress staging (check 9): header, plaintext payload, its cost, its arrival stamp, and `SOURCE` and `OFFSET`
of its queue then (R185). -/
structure Staged where
  hdr : BitVec 128
  payload : List Byte
  cost : Nat
  stamp : Nat
  stamped : Bool := false
  offset : Nat := 0
  /-- In-band write-pointer marks that came behind this burst (R252). -/
  marks : List Nat := []
deriving DecidableEq, Repr

/-- A Barward link. -/
structure Link where
  cfg : BitVec 32 := 0x68
  phy : PhyState := {}
  /-- The receive and transmit data Crosswalks (R19). -/
  rx : DataCell := {}
  tx : DataCell := {}
  hcse : Nat := 0
  rxrej : Nat := 0
  crce : Nat := 0
  seale : Nat := 0
  cwe : Nat := 0
  naks : Nat := 0
  /-- Credit accounts by 2·group + class. -/
  credits : SMap Credit := []
  staged : List Staged := []
  /-- Round-robin turns: credit grants, egress groups of each class, queues of each group, status refresh. -/
  rrGrant : Nat := 0
  rrExpress : Nat := 0
  rrKerb : Nat := 0
  rrQueue : SMap Nat := []
  rrStatus : Nat := 0
  /-- Express bursts sent since the last Kerbside burst while both classes were ready (R248). -/
  sinceKerb : Nat := 0
  /-- The queue the link is reserved for (R181). -/
  reserved : Option Nat := none
  votes : Nat := 0
  /-- The link has waited for a first POWER word since UP, so its wake vote stands (R355). -/
  wakeVote : Bool := false
  /-- IDLE_NOTICE has been sent and its 2 µs lead runs. -/
  idleLead : Bool := false
  /-- Core-cycle time at which each Table BL-4 error was last raised (R242), by error code. -/
  lastErr : SMap Nat := []
deriving DecidableEq, Repr

/-- A frame kept for resending (R270). -/
structure SentFrame where
  seq : BitVec 16
  frame : Frame
  /-- The destination and payload of a control operation that R271 sends again. -/
  ctrl : Option (Nat × List Byte) := none
deriving DecidableEq, Repr

/-- A ring side. -/
structure RingSide where
  phy : PhyState := {}
  /-- The receive and transmit data Crosswalks (R19). -/
  rx : DataCell := {}
  tx : DataCell := {}
  txSeq : BitVec 16 := 0
  rxSeq : BitVec 16 := 0
  /-- Frames sent and not acknowledged, oldest first. -/
  resend : List SentFrame := []
  /-- Frames waiting for the side, with their class for R272's order. -/
  transit : List Frame := []
  ctrlq : List SentFrame := []
  /-- Control operations to send again after UP (R271): destination and payload. -/
  again : List (Nat × List Byte) := []
  /-- Such operations applied from this side, by sender and payload, and those of them that may come once more: the first
  frame after UP that is no repeat ends them. -/
  applied : List (Nat × List Byte) := []
  repeats : List (Nat × List Byte) := []
  gap : Bool := false
  /-- Core-cycle time of the last RESEND, plus one (R270). -/
  lastResend : Nat := 0
  owesAck : Bool := false
  /-- Transit frames sent since the last own DATA frame (R272). -/
  sinceOwn : Nat := 0
  helloSeen : Bool := false
  /-- The station and identity last seen next to this side. -/
  facing : Option (Nat × BitVec 64) := none
  resendCnt : Nat := 0
  rxrej : Nat := 0
  authe : Nat := 0
  epoche : Nat := 0
  tdrop : Nat := 0
  /-- The queue whose DATA turn is next (R281). -/
  rrData : Nat := 0
deriving DecidableEq, Repr

/-- A CHAIN_JOIN (opcode 4) or PAIR_JOIN (opcode 8) heard: its sender and payload. -/
structure JoinHeard where
  op : Nat
  station : Nat
  payload : List Byte
deriving DecidableEq, Repr

/-- Ring Road state of the station (R262 to R295). -/
structure Ring where
  cfg : BitVec 32 := 0
  east : RingSide := {}
  west : RingSide := {}
  /-- The station's own HELLO has returned on each side within 300 µs (R264). -/
  closedE : Bool := false
  closedW : Bool := false
  nokey : Bool := true
  dup : Bool := false
  /-- When each of the three was last renewed, in core cycles (R264). -/
  closedEAt : Nat := 0
  closedWAt : Nat := 0
  dupAt : Nat := 0
  /-- Stations heard within 300 µs on each side, each with its hop count plus one, and their DEVIDs. -/
  hopsE : SMap Nat := []
  hopsW : SMap Nat := []
  devids : SMap (BitVec 64) := []
  /-- Stations whose loss has been reported and which have not been heard since (R284). -/
  lost : BitVec 8 := 0
  /-- Ring-control key (R418). -/
  rcEpoch : BitVec 16 := 0
  rcParent : BitVec 256 := 0
  rcPrev : Option (BitVec 16 × BitVec 256) := none
  rcNonce : Nat := 0
  rcSpent : List (BitVec 16 × BitVec 256 × Nat) := []
  /-- CHAIN_JOIN and PAIR_JOIN frames heard and not yet matched (R275, R285). -/
  joins : List JoinHeard := []
  pairFailN : Bool := true
deriving DecidableEq, Repr

/-! ## Host interface (spec/12) -/

/-- A data ring (Table HI-12, Table HI-13). `rbuf` is a read-end stream buffer being filled. -/
structure DRing where
  en : Bool := false
  log2 : Nat := 0
  vecEn : Bool := false
  vec : Nat := 0
  flush : Nat := 0
  base : Nat := 0
  pi : Nat := 0
  ci : Nat := 0
  rbuf : Option (BitVec 256 × Nat) := none
  /-- The read end's turn among KERBSIDE queues that share the ring (R199). -/
  turn : Nat := 0
deriving DecidableEq, Repr

/-- An event not yet posted: code, body bits [255:128], and its time if fixed when raised. -/
structure Event where
  code : Nat
  body : Nat
  time : Option Nat := none
deriving DecidableEq, Repr

/-- Configuration of a PCIe function that Table HI-1 names: Max Payload Size and Max Read Request Size as PCIe codes them, the power
state, and the two MSI-X controls. The table of commands has no configuration write, so the host has set MSI-X Enable. -/
structure PciConfig where
  mps : Fin 3 := 0
  mrrs : Fin 6 := 2
  d3hot : Bool := false
  msixEnable : Bool := true
  functionMask : Bool := false
deriving DecidableEq, Repr

/-- A request of the Kiosk BAR as PCIe carries it (R300). -/
inductive BarOp where
  | read | write | fetchAdd | swap | cas
deriving DecidableEq, Repr

/-- An access of a BAR that waits in the host bridge for CORE (R323): a request of the Kiosk BAR with its length in bytes, or a
read of `TB_NOW_LO` by a function. -/
inductive HeldAccess where
  | kiosk (op : BarOp) (bytes off : Nat) (v : Word64)
  | timeRead (fn : Fin 16)
deriving DecidableEq, Repr

/-- The function an access was sent to. -/
def HeldAccess.fn : HeldAccess → Nat
  | .kiosk .. => 0
  | .timeRead g => g.val

/-- One PCIe function's host-block state (R298, R303). -/
structure Func where
  cmdBase : Nat := 0
  cplBase : Nat := 0
  evtBase : Nat := 0
  cmdLow : Option Word32 := none
  cplLow : Option Word32 := none
  evtLow : Option Word32 := none
  hcfg : BitVec 32 := 0x00060606
  hctrl : BitVec 32 := 0
  fault : Bool := false
  dberr : Bool := false
  verSet : Bool := false
  ver : Nat := 0
  /-- The version under which commands fetched before the rings stopped still take effect (R303, R325). -/
  orphanVer : Option Nat := none
  evtLost : Nat := 0
  lostSince : Nat := 0
  cmdPi : Nat := 0
  cmdCi : Nat := 0
  cplPi : Nat := 0
  cplCi : Nat := 0
  evtPi : Nat := 0
  evtCi : Nat := 0
  evtSeq : Nat := 0
  /-- Fetched commands that have not completed, in ring order (R309, R312). -/
  inflight : List CmdRef := []
  cfg : PciConfig := {}
  /-- Of these, the ones that wait to take effect behind a FENCE or a HELLO, oldest first. -/
  fenced : List (CmdRef × Block512 × Option (List Byte)) := []
  /-- Commands a core reset overtook: completed ABORTED when the control plane returns (R394). -/
  aborted : List CmdRef := []
  /-- A result-block write of the function's next command fails (R321). -/
  resFail : Bool := false
  msix : SMap (BitVec 32) := []
  msixMask : BitVec 64 := BitVec.allOnes 64
  msixPend : BitVec 64 := 0
  /-- HOLDOFF intervals running, and signals held back, for the completion and event vectors (R301). -/
  cplHoldoff : Bool := false
  evtHoldoff : Bool := false
  cplHeld : Bool := false
  evtHeld : Bool := false
  vote : Nat := 0
  flrBusy : Bool := false
  drings : SMap DRing := []
  /-- Events held across Deep Sleep (R368). -/
  heldEvents : List Event := []
  /-- Events beyond the 64 held, counted once the ring is enabled (R368). -/
  heldOver : Nat := 0
  /-- Doorbells latched while CORE is not running, and writes held for a sleeping domain (R323). -/
  latched : SMap Nat := []
  heldWrites : List (BitVec 16 × Word32) := []
deriving DecidableEq, Repr

/-- State of the host block as a whole (R324). -/
structure HostBlock where
  perstN : Bool := false
  inReset : Bool := true
  training : Bool := false
  cfgReady : Bool := false
  l0 : Bool := false
  vfEnable : Bool := false
  numVfs : Nat := 0
  /-- The data Crosswalks from the core to the host bridge and back (R19). -/
  toBridge : DataCell := {}
  fromBridge : DataCell := {}
  /-- BAR accesses that wait for CORE, oldest first (R323), and the function whose command turn comes next (R309). -/
  stalled : List HeldAccess := []
  fetchTurn : Nat := 0
  pcieWakeN : Bool := true
deriving DecidableEq, Repr

/-! ## Plaza, Kiosk and maintenance (spec/13) -/

/-- What happens in a quarter (Table PK-1, `MAINT_STAT.ACT`). -/
inductive Activity where
  | wipe | verify | bist
deriving DecidableEq, Repr

/-- One quarter of the Plaza. -/
structure Quarter where
  act : Option Activity := none
  /-- Deferred starts. -/
  pend : List Activity := []
  qoff : Bool := false
  rest : Bool := false
  /-- Segments waiting to be zeroed. -/
  zeroing : List Nat := []
  ce : Nat := 0
  ue : Nat := 0
deriving DecidableEq, Repr

/-- A start by `MAINT_CTRL` that has not ended in every quarter it named (R340). -/
structure MaintJob where
  act : Activity
  named : Nat
  left : Nat
  failing : BitVec 32 := 0
deriving DecidableEq, Repr

/-- The Plaza, its segment pool and the maintenance engine. -/
structure Plaza where
  /-- Stored bytes by 4096·segment + offset; an unlisted byte is zero. -/
  mem : SMap Byte := []
  /-- The queue that holds each held segment, plus one; an unlisted segment is held by none. -/
  owner : SMap Nat := []
  /-- Stored words with an uncorrectable error, by 64·segment + word: the failing granule, plus one. -/
  bad : SMap Nat := []
  quarters : Vector Quarter 4 := Vector.replicate 4 {}
  ctrl : BitVec 32 := 7
  resStatus : Nat := 0
  ksweepRun : Bool := false
  ksweepHost : Bool := false
  jobs : List MaintJob := []
  /-- `TENANT_RELEASE` commands and the segments they returned that are not zeroed yet (R423). -/
  releases : List (CmdRef × List Nat) := []
  bankstat : BitVec 32 := 0
deriving DecidableEq, Repr

/-- A Kiosk write that has not committed (R342), or a lock (R343), with core cycles left. -/
structure KioskWrite where
  addr : Nat
  data : Word64
  left : Nat
  lock : Bool
deriving DecidableEq, Repr

/-- The Kiosk. -/
structure Kiosk where
  words : SMap Word64 := []
  bad : SMap Bool := []
  writes : List KioskWrite := []
  cfg : BitVec 32 := 0x1F
  win : SMap (BitVec 32) := []
  winRing : BitVec 32 := 0
  degr : Bool := false
  ce : Nat := 0
  busyc : Nat := 0
  busyN : Bool := true
deriving DecidableEq, Repr

/-! ## Time base (spec/07) -/

/-- Lock states (Table PL-3). -/
inductive Lock where
  | unlocked | locked | holdover | freerun
deriving DecidableEq, Repr

/-- A waiting TIME_SET with OP = 0 (R173). -/
structure TodWait where
  ref : Option CmdRef
  value : Nat
  result : Nat
deriving DecidableEq, Repr

structure TimeBase where
  /-- `TB_NS`:`TB_FRAC` as one 96-bit number. -/
  tb : Nat := 0
  f : Int := 0
  p : Int := 0
  lock : Lock := .unlocked
  running : Bool := false
  ctrl : BitVec 32 := 0x320
  comp : BitVec 32 := 0
  tod : Option TodWait := none
  todDone : Bool := false
  stepped : Bool := false
  good : Nat := 0
  rej : Nat := 0
  ppsRej : Nat := 0
  phaseErr : Int := 0
  stamp : Nat := 0
  e : Int := 0
  /-- Time-base cycles counted for the measurement count of R187. -/
  cycles : Nat := 0
  /-- The PPS cell consumes the next edge (R86). -/
  ppsArm : Bool := true
  ppsOut : Bool := false
  /-- Latches of `TB_NOW_HI` and `TB_NOW_FRAC`, by accessor (R476). -/
  latches : SMap (Nat × Nat) := []
deriving DecidableEq, Repr

/-! ## Power (spec/14) -/

/-- Power states, coded as `PWRCTL.TARGET` (Table PW-13). -/
inductive PState where
  | run | idle | sleep | deepSleep | off
deriving DecidableEq, Repr

/-- A power request (R360): target, FORCE and REQ_ID, none for a wake. -/
structure PwrReq where
  target : PState
  force : Bool := false
  id : Option Nat := none
deriving DecidableEq, Repr

/-- The Depot's saved image (Table PW-10). -/
structure Depot where
  tbCtrl : BitVec 32 := 0
  tbComp : BitVec 32 := 0
  portCfg : SMap (BitVec 32) := []
  portPol : SMap (BitVec 32) := []
  linkCfg : SMap (BitVec 32) := []
  ringCfg : BitVec 32 := 0
  flagmap : SMap (BitVec 32) := []
  maintCtrl : BitVec 32 := 0
  kwin : SMap (BitVec 32) := []
  kwinRing : BitVec 32 := 0
  kioskCfg : BitVec 32 := 0
  retmask : BitVec 32 := 0
  pmbCfg : BitVec 32 := 0
  wsenseCfg : BitVec 32 := 0
  locked : Bool := false
  /-- The Depot as the Warden monitor's memory commands see it, by 64-bit word. -/
  words : SMap Word64 := []
deriving DecidableEq, Repr

structure Power where
  cur : PState := .run
  /-- The running transition and whether it is an exit. -/
  running : Option PwrReq := none
  exiting : Bool := false
  pend : Option PwrReq := none
  lastId : Nat := 0
  lastStatus : Nat := 0
  /-- Domains on, in the order of `PWRVOTE.VOTE`. -/
  domains : BitVec 6 := 0
  /-- The sequencer's votes, frozen when a core reset begins (R394). -/
  seqVotes : BitVec 6 := 0
  retmask : BitVec 32 := 0xF
  tsense : BitVec 32 := 0
  wakesrc : BitVec 32 := 0
  pmbCfg : BitVec 32 := 0x4C0
  wsenseCfg : BitVec 32 := 0
  /-- The datapath clock is gated in Idle (R357). -/
  gated : Bool := false
  depot : Depot := {}
  nonce : Word64 := 0
  /-- VDD operating point and the one before the running AVS step, in mV. -/
  vddMv : Nat := 750
  avsPrev : Option (Nat × Bool) := none
  vrOn : Bool := true
  vrPg : Bool := true
  vrTries : Nat := 0
  vrFailed : Bool := false
  /-- The 10 ms hold-off of PMB_ALERT_N handling runs. -/
  alertHoldoff : Bool := false
  pwrfailN : Bool := true
  /-- Retries of the running AVS step after a NACK (R378, R495). -/
  pmbRetry : Nat := 0
  /-- `VOUT_MODE` has been read since the POR (R377). -/
  voutRead : Bool := false
deriving DecidableEq, Repr

/-! ## Reset (spec/15) -/

/-- Reset levels (Table RS-1). -/
inductive RLevel where
  | core | system | por
deriving DecidableEq, Repr

structure Reset where
  cause : BitVec 32 := 1
  /-- The running reset, and the RSTCAUSE bit number of the source that started it. -/
  active : Option (RLevel × Nat) := some (.por, 0)
  refclk : Bool := false
  trimValid : Bool := false
  trimRun : Bool := true
  trimRetry : Nat := 0
  recovery : Bool := false
  bootcnt : Nat := 0
  ioLocked : Bool := false
  ioHeld : Bool := true
  rstN : Bool := true
  rstStateN : Bool := false
  /-- Levels that pad hold keeps on FLAG0–FLAG7, PPS_OUT, INT_N, PAIR_FAIL_N and PCIE_WAKE_N (Table RS-3). -/
  heldFlags : BitVec 8 := 0
  heldPps : Bool := false
  heldIntN : Bool := true
  heldPairN : Bool := true
  heldPcieN : Bool := true
  /-- The control plane runs: firmware fetches and acts on commands. -/
  control : Bool := false
  /-- A core reset has begun and the control plane has not returned yet (R394). -/
  ctlReturn : Bool := false
  /-- The ROM code has started an image since the last reset. -/
  booted : Bool := false
  /-- `IOREL` has released the pads since the last POR (R382). -/
  released : Bool := false
  /-- A watchdog core reset was released, at this core-cycle time (R395). -/
  wdogAt : Option Nat := none
deriving DecidableEq, Repr

/-! ## Keys and life cycle (spec/16) -/

/-- A key slot (Table SE-1) with its tag and the `BAD` mark. -/
structure Slot where
  material : BitVec 256 := 0
  typ : Nat := 0
  scope : Nat := 0
  ctr : Nat := 0
  tag : BitVec 128 := 0
  bad : Bool := false
deriving DecidableEq, Repr

/-- Contents of OTP, fuses and key store, which no reset changes. -/
structure Nv where
  devid : BitVec 128 := 0
  slots : SMap Slot := []
  ctr : Nat := 0
  lc : Nat := 0
  ownerLock : Bool := false
  svnFloor : Nat := 0
  svcAddr : Nat := 0x5C
  /-- Fused hash of the Worit key, and the fused device key. -/
  woritHash : BitVec 384 := 0
  deviceKey : BitVec 256 := 0
deriving DecidableEq, Repr

/-! ## Firmware, flash, service port and Warden monitor (spec/17) -/

/-- A directory record (Table FW-3). -/
structure DirRec where
  typ : Nat
  slot : Nat
  tfails : Nat
  seq : Nat
  version : Nat
deriving DecidableEq, Repr

/-- The fields of an image slot's package that the device uses (Table FW-4). -/
structure Image where
  /-- An upload has erased the slot and no package has been committed to it since. -/
  erased : Bool := false
  version : Nat := 0
  svn : Nat := 0
  flags : Nat := 0
  cfgFmt : Nat := 0
  cfgMin : Nat := 0
deriving DecidableEq, Repr

/-- A config-store copy (R446). -/
structure CfgCopy where
  valid : Bool := false
  fmt : Nat := 0
  seq : Nat := 0
  version : Nat := 0
  entries : List (Word32 × Word32) := []
  cmds : List Block512 := []
deriving DecidableEq, Repr

/-- A package upload in progress (R442). -/
structure Upload where
  header : List Byte
  body : List Byte := []
  /-- The slot erase of PKG_BEGIN is still running. -/
  erasing : Bool := false
deriving DecidableEq, Repr

structure Firmware where
  dir : List DirRec := []
  slotA : Image := {}
  slotB : Image := {}
  copy0 : CfgCopy := {}
  copy1 : CfgCopy := {}
  upload : Option Upload := none
  /-- FWSTAT fields and FWVER. -/
  healthOk : Bool := false
  trial : Bool := false
  slot : Nat := 0
  fallback : Bool := false
  migrated : Bool := false
  cfgDefault : Bool := false
  cfgFmtApplied : Nat := 0
  fwver : Nat := 0
  svcCfg : BitVec 32 := 0x5C
  cfgApplied : Bool := false
  sweepDone : Bool := false
  fatalSince : Bool := false
  confirmed : Bool := false
  ready : Bool := false
  /-- The config-store copy whose start-up commands have not run yet (R448). -/
  startIdx : Option Nat := none
  actReset : Bool := false
  /-- Service-port response: state, tag, status, payload. -/
  svcState : Nat := 0
  svcTag : Nat := 0
  svcStatus : Nat := 0
  svcData : List Byte := []
  /-- Warden monitor line rate, once measured. -/
  baud : Option Nat := none
deriving DecidableEq, Repr

/-! ## Errors and dumps (spec/18) -/

/-- An Error FIFO entry (Table ER-2). -/
structure ErrEntry where
  code : Nat
  fatal : Bool
  ovf : Bool := false
  seq : Nat
  time : Nat
  a : Word32
  b : Word32
  c : Word32
  lost : Nat := 0
deriving DecidableEq, Repr

structure Errors where
  fifo : List ErrEntry := []
  seq : Nat := 0
  counts : SMap Nat := []
  dumpBase : Nat := 0
  dumpLow : Option Word32 := none
  dumpDest : Nat := 0
  dumpDone : Bool := false
  dumpTimeout : Bool := false
  dumpLater : Nat := 0
  dumpSeq : Nat := 0
  /-- The datapath is frozen after a fatal error (R462), its entry, `RSTCAUSE` then, and whether the dump has begun. -/
  frozen : Bool := false
  cause : Option ErrEntry := none
  causeRst : Nat := 0
  dumping : Bool := false
  /-- Destination of the running dump, coded as `DUMP_STAT.DEST`. -/
  dumpTo : Nat := 0
  /-- Bytes of the sections of the running dump. -/
  dumpLen : Nat := 0
  /-- Flash dump halves erased and ready. -/
  half0 : Bool := true
  half1 : Bool := true
  /-- The half that holds the newest flash dump, coded as `DUMP_STAT.DEST`, 0 for none. -/
  newestHalf : Nat := 0
  /-- Core-cycle time of the last PLAZA_CE of each bank (R329). -/
  ceAt : SMap Nat := []
deriving DecidableEq, Repr

/-! ## Outputs -/

/-- What the device shows the outside, newest first in `State.out`. -/
inductive Out where
  /-- A write to host memory: address, length in bytes, data as a little-endian number. -/
  | hostWrite (addr len data : Nat)
  | msix (fn vec : Nat)
  /-- A burst sent on a link, as its header, payload or ciphertext, tag and CRC-32. -/
  | burst (link : Fin 8) (b : Burst)
  /-- A control word sent on a link, as its bytes. -/
  | word (link : Fin 8) (bytes : List Byte)
  | frame (side : Side) (f : Frame)
  /-- The training block of a frame sent on a physical lane of a link or side, after `TX_INV`. -/
  | training (p : Phy) (lane : Nat) (block : BitVec 64)
  /-- Read data returned on PCIe. -/
  | readData (v : Nat)
  | unsupported
  | svcResponse (bytes : List Byte)
  /-- A line of the Warden monitor: its words, and the numbers it prints in hexadecimal. -/
  | wardenLine (text : String) (values : List Nat)
  /-- A PMBus transfer: command and data. -/
  | pmbus (cmd data : Nat)
  /-- A crossing event delivered with its count. -/
  | crossed (cell count : Nat)
  /-- Part of a dump in a flash half: its offset in the image, and its bytes as a little-endian number. -/
  | flashDump (half off len data : Nat)
deriving DecidableEq, Repr

/-- The whole block. -/
structure State where
  pending : List Instr := []
  queues : SMap Queue := []
  groups : SMap Group := []
  links : SMap Link := []
  /-- `PORTx_CFG`, `PORTx_POL` and `PORTx_POLSTAT`, by port number. -/
  portCfg : SMap (BitVec 32) := []
  portPol : SMap (BitVec 32) := []
  portPolstat : SMap (BitVec 32) := []
  ring : Ring := {}
  funcs : SMap Func := [(0, { vote := 0x3F })]
  host : HostBlock := {}
  cmdSerial : Nat := 0
  plaza : Plaza := {}
  kiosk : Kiosk := {}
  time : TimeBase := {}
  flagmap : SMap (BitVec 32) := []
  cells : SMap EventCell := []
  power : Power := {}
  rst : Reset := {}
  nv : Nv := {}
  fw : Firmware := {}
  errs : Errors := {}
  /-- Core cycles since power-on, the model's own clock for rate limits and intervals. -/
  cyc : Nat := 0
  /-- The model's own counter of free values drawn. -/
  free : Nat := 0
  out : List Out := []
deriving DecidableEq, Repr

/-- The block right after a power-on reset. -/
def State.reset : State := {}

end Sys2Proof.Machine
end

