-- ==== Sys2Proof/Machine/Ops.lean ====
section
/-!
DEFINITION. The named operations every command is written with: reading and writing one queue, link, function or ring;
output; MSI-X signals, events, error reports and completions; and the stored bytes of the Plaza.
-/
namespace Sys2Proof.Machine

/-! ## Accessors -/

def State.q (s : State) (n : Nat) : Queue := SMap.get {} s.queues n
def State.setQ (s : State) (n : Nat) (x : Queue) : State := { s with queues := SMap.set {} s.queues n x }
def State.updQ (s : State) (n : Nat) (f : Queue → Queue) : State := s.setQ n (f (s.q n))

def State.group (s : State) (g : Nat) : Group := SMap.get {} s.groups g
def State.setGroup (s : State) (g : Nat) (x : Group) : State := { s with groups := SMap.set {} s.groups g x }

def State.link (s : State) (n : Nat) : Link := SMap.get {} s.links n
def State.setLink (s : State) (n : Nat) (x : Link) : State := { s with links := SMap.set {} s.links n x }
def State.updLink (s : State) (n : Nat) (f : Link → Link) : State := s.setLink n (f (s.link n))

def State.func (s : State) (g : Nat) : Func := SMap.get {} s.funcs g
def State.setFunc (s : State) (g : Nat) (x : Func) : State := { s with funcs := SMap.set {} s.funcs g x }
def State.updFunc (s : State) (g : Nat) (f : Func → Func) : State := s.setFunc g (f (s.func g))

def State.side (s : State) : Side → RingSide
  | .east => s.ring.east
  | .west => s.ring.west
def State.setSide (s : State) (d : Side) (x : RingSide) : State :=
  match d with
  | .east => { s with ring := { s.ring with east := x } }
  | .west => { s with ring := { s.ring with west := x } }
def State.updSide (s : State) (d : Side) (f : RingSide → RingSide) : State := s.setSide d (f (s.side d))

def otherSide : Side → Side
  | .east => .west
  | .west => .east

/-- One data ring of a function. -/
def State.dring (s : State) (g r : Nat) : DRing := SMap.get {} (s.func g).drings r
def State.setDring (s : State) (g r : Nat) (x : DRing) : State :=
  s.updFunc g fun f => { f with drings := SMap.set {} f.drings r x }

/-- The PCIe function, and so the queue group, that owns a queue (R28, R29). -/
def ownerOf (q : Nat) : Nat := q / 512

def State.emit (s : State) (o : Out) : State := { s with out := o :: s.out }

/-- The time base in whole nanoseconds, and its fraction (R163). -/
def State.tbNs (s : State) : Nat := s.time.tb / 2 ^ 32
def State.tbFrac (s : State) : Nat := s.time.tb % 2 ^ 32

/-- The measurement count of 16 ns ticks (R187). -/
def State.mcount (s : State) : Nat := s.time.cycles / 4

/-- A fresh free value: nothing constrains it. -/
def State.freeVal (s : State) : Nat := Config.freeValue s.free
def State.drawn (s : State) : State := { s with free := s.free + 1 }

def lockCode : Lock → Nat
  | .unlocked => 0
  | .locked => 1
  | .holdover => 2
  | .freerun => 3

def qstCode : QState → Nat
  | .unbound => 0
  | .ready => 1
  | .opened => 2
  | .closing => 3
  | .closed => 4
  | .held => 5

def lstateCode : LState → Nat
  | .disabled => 0
  | .sigdet => 1
  | .lock => 2
  | .eq => 3
  | .caps => 4
  | .ready => 5
  | .up => 6
  | .reset => 7

def pstateCode : PState → Nat
  | .run => 0
  | .idle => 1
  | .sleep => 2
  | .deepSleep => 3
  | .off => 4

/-! ## Status codes (Table HI-10, Table SE-10) -/

namespace St
def ok := 0x00
def badOpcode := 0x01
def badVersion := 0x02
def notOwner := 0x03
def badState := 0x04
def badField := 0x05
def badFormat := 0x06
def quota := 0x07
def noSpace := 0x08
def superseded := 0x09
def keyMissing := 0x0A
def markUnset := 0x0B
def markAhead := 0x0C
def notTail := 0x0D
def notHead := 0x0E
def noPps := 0x0F
def ringDown := 0x10
def chainMismatch := 0x11
def chainTimeout := 0x12
def notPaired := 0x13
def unfit := 0x14
def deferred := 0x15
def retentionBudget := 0x16
def dmaError := 0x17
def authFail := 0x20
def wrongDevice := 0x21
def ctrStale := 0x22
def ctrExhausted := 0x23
def notPermitted := 0x24
def slotBad := 0x25
def nvFail := 0x26
def lowPower := 0x27
def keyCacheFull := 0x28
def ownerLocked := 0x29
def badMessage := 0x2A
def aborted := 0x40
def dropped := 0x41
def malformed := 0x42
end St

/-- A datapath request ends the gating of the datapath clock in Idle (R357). -/
def State.ungate (s : State) : State := { s with power := { s.power with gated := false } }

/-- Whether CORE runs. -/
def State.coreRuns (s : State) : Bool := (s.power.cur == .run || s.power.cur == .idle) && bit s.power.domains 0

/-- A write to a register of CORE by a row that names no accessor: in Sleep the host bridge holds it (R323), and it has no effect
where CORE does not run otherwise, when no function is reached. -/
def State.coreWrite (s : State) (off : Nat) (v : Word32) (effect : State) : State :=
  if s.power.cur = .sleep then
    s.updFunc 0 fun f => { f with heldWrites := f.heldWrites ++ [(BitVec.ofNat 16 off, v)] }
  else if s.coreRuns then effect
  else s

/-! ## Function registers -/

def Func.en (f : Func) : Bool := bit f.hctrl 0
def Func.intnEn (f : Func) : Bool := bit f.hctrl 1
def Func.cplVec (f : Func) : Nat := fld f.hctrl 8 6
def Func.evtVec (f : Func) : Nat := fld f.hctrl 16 6
def Func.holdoff (f : Func) : Nat := fld f.hctrl 24 8
def Func.cmdSize (f : Func) : Nat := 2 ^ fld f.hcfg 0 5
def Func.cplSize (f : Func) : Nat := 2 ^ fld f.hcfg 8 5
def Func.evtSize (f : Func) : Nat := 2 ^ fld f.hcfg 16 5

/-- The rings run: enabled and no ring access has failed (Table HI-5). -/
def Func.running (f : Func) : Bool := f.en && !f.fault

/-- Entries between two free-running 32-bit indices (R304). -/
def ringDist (pi ci : Nat) : Nat := (pi + 2 ^ 32 - ci) % 2 ^ 32

def next32 (i : Nat) : Nat := (i + 1) % 2 ^ 32

/-- `PHASE` of the entry at an index (R305). -/
def phaseBit (i size : Nat) : Nat := 1 - i / size % 2

/-! ## MSI-X (R301) -/

/-- Sends a vector, or sets its pending bit while it or the function is masked; nothing goes out while MSI-X is disabled. -/
def State.signal (s : State) (g vec : Nat) : State :=
  if !(s.func g).cfg.msixEnable then s
  else if (s.func g).cfg.functionMask || bit (s.func g).msixMask vec then
    s.updFunc g fun f => { f with msixPend := f.msixPend ||| BitVec.ofNat 64 (2 ^ vec) }
  else s.emit (.msix g vec)

/-- Signals a vector for any of its sources. With HOLDOFF set, a completion or event vector is held back while its interval runs, and
opens one otherwise; where both purposes share the vector, one interval serves both. -/
def State.signalVec (s : State) (g vec : Nat) : State :=
  let f := s.func g
  if f.holdoff = 0 then s.signal g vec
  else if vec = f.cplVec && f.cplHoldoff then s.setFunc g { f with cplHeld := true }
  else if vec = f.evtVec && f.evtHoldoff then s.setFunc g { f with evtHeld := true }
  else if vec = f.cplVec then (s.setFunc g { f with cplHoldoff := true }).signal g vec
  else if vec = f.evtVec then (s.setFunc g { f with evtHoldoff := true }).signal g vec
  else s.signal g vec

def State.signalCpl (s : State) (g : Nat) : State := s.signalVec g (s.func g).cplVec
def State.signalEvt (s : State) (g : Nat) : State := s.signalVec g (s.func g).evtVec

/-! ## Events (R314, R315, R368) -/

/-- The 32-byte entry of an event: `body` is bits [255:128]. -/
def eventEntry (e : Event) (phase seq now : Nat) : Nat :=
  packNat [(0, 12, e.code), (15, 1, phase), (16, 16, seq), (64, 64, e.time.getD now), (128, 128, e.body)]

/-- Writes an event into its ring, which has room. -/
def State.putEvent (s : State) (g : Nat) (e : Event) : State :=
  let f := s.func g
  let slot := f.evtPi % f.evtSize
  let s := s.emit (.hostWrite (f.evtBase + 32 * slot) 32
    (eventEntry e (phaseBit f.evtPi f.evtSize) f.evtSeq s.tbNs))
  let s := s.setFunc g { f with evtPi := next32 f.evtPi, evtSeq := (f.evtSeq + 1) % 2 ^ 16 }
  s.signalEvt g

/-- Discards an event and counts it (R315). -/
def State.loseEvent (s : State) (g : Nat) : State :=
  s.updFunc g fun f => { f with evtLost := satAdd 0xFFFF f.evtLost 1, lostSince := f.lostSince + 1 }

/-- Events raised while the HOST block is stopped by Deep Sleep are held (R368). An ERROR event is not one of them: it is
posted when its report is made, under R315 alone (R459, Table PW-19). -/
def State.holdsEvent (s : State) (e : Event) : Bool := decide (s.power.cur = .deepSleep) && decide (e.code ≠ 0x040)

/-- Posts an event to a function's ring (R315). -/
def State.post (s : State) (g : Nat) (e : Event) : State :=
  let f := s.func g
  if s.holdsEvent e then
    if f.heldEvents.length < 64 then
      s.setFunc g { f with heldEvents := f.heldEvents ++ [e] }
    else s.setFunc g { f with heldOver := f.heldOver + 1 }
  else if f.running && s.rst.control && decide (ringDist f.evtPi f.evtCi < f.evtSize) && decide (f.lostSince = 0) then
    s.putEvent g e
  else s.loseEvent g

/-- Posts `EVENTS_LOST` where a ring that lost events has a free slot again (R315). -/
def State.postLost (s : State) (g : Nat) : State :=
  let f := s.func g
  if f.running && s.rst.control && decide (ringDist f.evtPi f.evtCi < f.evtSize) && decide (0 < f.lostSince) then
    (s.setFunc g { f with lostSince := 0 }).putEvent g { code := 0x0FF, body := packNat [(0, 32, f.lostSince)] }
  else s

/-- Rings that lost events while no firmware ran hear of it once it runs. -/
def State.postAllLost (s : State) : State := (List.range 16).foldl State.postLost s

/-! ## Error reports (R453 to R462) -/

/-- Appends a report to the Error FIFO, or merges it into the overflow summary (R456). -/
def recordErr (fifo : List ErrEntry) (e : ErrEntry) : List ErrEntry :=
  if fifo.length < 64 then fifo ++ [e]
  else
    match fifo.getLast? with
    | none => [e]
    | some n =>
      if n.ovf then fifo.dropLast ++ [{ e with ovf := true, lost := satAdd 0xFFFFFFFF n.lost 1 }]
      else fifo.dropLast ++ [{ e with ovf := true, lost := 2 }]

def fatalCodes : List Nat := [0x603, 0x604, 0x605, 0x804, 0x905]

/-- Whether the station is in a pair's active chain: it reads a paired queue as active, or its chain's tail does
(R291). -/
def State.inActivePair (s : State) : Bool :=
  s.queues.any fun (_, q) => (q.pair.paired && !q.pair.shadow) || q.chain.sync.any fun y => y.active

/-- The datapath freezes on the first fatal error; a later one adds to LATER (R462). -/
def State.onFatal (s : State) (e : ErrEntry) : State :=
  if s.errs.frozen then
    { s with errs := { s.errs with dumpLater := inc8 s.errs.dumpLater } }
  else
    { s with
      errs := { s.errs with frozen := true, cause := some e, causeRst := s.rst.cause.toNat, dumping := false, dumpLater := 0 }
      fw := { s.fw with fatalSince := true }
      ring := { s.ring with pairFailN := s.ring.pairFailN && !s.inActivePair } }

/-- Raises an error: one report, its class count, its mirrored events and, if fatal, the freeze (R453 to R462). -/
def State.raise (s : State) (code : Nat) (owner : Option Nat) (a b c : Nat) : State :=
  let e : ErrEntry :=
    { code := code, fatal := fatalCodes.contains code, seq := s.errs.seq, time := s.tbNs
      a := BitVec.ofNat 32 a, b := BitVec.ofNat 32 b, c := BitVec.ofNat 32 c }
  let cls := code / 256
  let s : State :=
    { s with
      errs := { s.errs with
        fifo := recordErr s.errs.fifo e
        seq := (s.errs.seq + 1) % 2 ^ 32
        counts := SMap.set 0 s.errs.counts cls (inc32 (SMap.get 0 s.errs.counts cls)) } }
  let ev : Event :=
    { code := 0x040
      body := packNat [(0, 12, code), (12, 1, if e.fatal then 1 else 0), (32, 32, e.seq), (64, 32, a), (96, 32, b)]
      time := some e.time }
  let s := s.post 0 ev
  let s := match owner with
    | some g => if g = 0 then s else s.post g ev
    | none => s
  if e.fatal then s.onFatal e else s

/-- Raises an error about a queue, mirrored to function 0 and the queue's owner. -/
def State.raiseQ (s : State) (code q b : Nat) : State := s.raise code (some (ownerOf q)) q b 0

/-! ## Completions (R312) -/

/-- The function number that marks a start-up command of the config store, which writes no completion (R448). -/
def startupFn : Nat := 16

/-- The function a command acts as: a start-up command acts as function 0 (R448). -/
def actsAs (fn : Nat) : Nat := if fn = startupFn then 0 else fn

/-- Writes a completion entry (Table HI-9). -/
def State.putCompletion (s : State) (r : CmdRef) (status info : Nat) : State :=
  let f := s.func r.fn
  let slot := f.cplPi % f.cplSize
  let entry := packNat [(0, 8, r.opcode), (8, 8, status), (16, 16, r.tag), (32, 1, phaseBit f.cplPi f.cplSize),
    (64, 32, f.cmdCi), (96, 32, info)]
  let s := s.emit (.hostWrite (f.cplBase + 16 * slot) 16 entry)
  let s := s.setFunc r.fn { f with cplPi := next32 f.cplPi }
  s.signalCpl r.fn

/-- Completes a command with a status and INFO word. A command that is no longer in flight has lost its completion, and
one that a core reset overtook completes with the control plane's return (R394). A faulted ring posts nothing (R321). -/
def State.completeInfo (s : State) (r : CmdRef) (status info : Nat) : State :=
  if r.fn = startupFn then
    if status = St.ok then s else s.raise 0x907 none r.tag (packNat [(0, 8, r.opcode), (8, 8, status)]) 0
  else if (s.func r.fn).inflight.contains r && !(s.func r.fn).aborted.contains r then
    let s := s.updFunc r.fn fun f => { f with inflight := f.inflight.filter (fun x => x ≠ r) }
    if (s.func r.fn).fault then s else s.putCompletion r status info
  else s

def State.complete (s : State) (r : CmdRef) (status : Nat) : State := s.completeInfo r status 0

/-- Completes each of several commands, in order. -/
def State.completeAll (s : State) (rs : List CmdRef) (status : Nat) : State :=
  rs.foldl (fun s r => s.complete r status) s

/-- Writes a 64-byte result block and completes, `DMA_ERROR` if the write fails (R312, R321). A command whose
completion is lost writes no block (R324). -/
def State.writeResult (s : State) (r : CmdRef) (addr block status : Nat) : State :=
  if (s.func r.fn).inflight.contains r then
    if (s.func r.fn).resFail then
      ((s.updFunc r.fn fun f => { f with resFail := false }).raise 0x502 none
        (packNat [(0, 4, r.fn), (4, 2, (Config.ringKind 3).toNat)]) (addr % 2 ^ 32) (addr / 2 ^ 32)).complete r St.dmaError
    else (s.emit (.hostWrite addr 64 block)).complete r status
  else s

/-- Completes with a result block where the command asks for one: address 0 asks for none. -/
def State.completeResult (s : State) (r : CmdRef) (addr block status : Nat) : State :=
  if addr = 0 then s.complete r status else s.writeResult r addr block status

/-! ## Stored bytes of the Plaza (R326, R327) -/

/-- Where a queue's stored position lies, as 4096·segment + offset; none where the queue holds no segment. -/
def Queue.addr (q : Queue) (pos : Nat) : Option Nat :=
  (q.segs[pos / 4096 - q.segBase]?).map fun seg => 4096 * seg + pos % 4096

/-- The stored byte at a position of a queue. -/
def State.rdByte (s : State) (q : Queue) (pos : Nat) : Byte :=
  match q.addr pos with
  | some a => SMap.get 0 s.plaza.mem a
  | none => 0

/-- `n` stored bytes from a position. -/
def State.rdBytes (s : State) (q : Queue) (pos : Nat) : Nat → List Byte
  | 0 => []
  | n + 1 => s.rdByte q pos :: s.rdBytes q (pos + 1) n

/-- Writes stored bytes from a position; a write clears the stored word's uncorrectable error (R330). -/
def State.wrBytes (s : State) (q : Queue) (pos : Nat) : List Byte → State
  | [] => s
  | b :: bs =>
    let s := match q.addr pos with
      | some a => { s with plaza := { s.plaza with
          mem := SMap.set 0 s.plaza.mem a b, bad := SMap.erase s.plaza.bad (a / 64) } }
      | none => s
    s.wrBytes q (pos + 1) bs

/-- Whether a queue's stored range holds a word with an uncorrectable error. -/
def State.rangeBad (s : State) (q : Queue) (pos : Nat) : Nat → Bool
  | 0 => false
  | n + 1 =>
    (match q.addr pos with
      | some a => SMap.get 0 s.plaza.bad (a / 64) != 0
      | none => false) || s.rangeBad q (pos + 1) n

end Sys2Proof.Machine
end

