-- ==== Sys2Proof/Machine/Crosswalk.lean ====
section
/-!
DEFINITION. Value cells and data cells (spec/03 R71 to R79, R84, R85): publish and agree, the 32-entry buffer whose pointers
cross by it, and what a stopped clock leaves.
-/
namespace Sys2Proof.Machine

/-! ## Value cells -/

/-- A source cycle of a cell whose window is `w` cycles, with a value at its input (R71). -/
def ValueCell.sourceCycle (c : ValueCell) (w input : Nat) : ValueCell :=
  if c.left = 0 then { c with published := input, left := w - 1 } else { c with left := c.left - 1 }

/-- A destination cycle in which the sample reads `v`: it is accepted where the preceding sample agrees (R73, R76). -/
def ValueCell.sampled (c : ValueCell) (v : Nat) : ValueCell :=
  { c with sample := some v, accepted := if c.sample = some v then v else c.accepted }

/-- A destination cycle while the published value is stable. -/
def ValueCell.destCycle (c : ValueCell) : ValueCell := c.sampled c.published

/-- The source clock stops: the published value stays, and the next one follows a window after the clock returns (R78). -/
def ValueCell.sourceStops (c : ValueCell) (w : Nat) : ValueCell := { c with left := w - 1 }

/-- The destination clock stops: the sample taken before is discarded (R79). -/
def ValueCell.destStops (c : ValueCell) : ValueCell := { c with sample := none }

/-! ## Data cells -/

/-- Windows of a data cell's write and read pointers (R72, Table CW-2). -/
structure Windows where
  fwd : Nat
  back : Nat
deriving DecidableEq, Repr

def rxWindows : Windows := { fwd := 4, back := 6 }
def txWindows : Windows := { fwd := 6, back := 4 }
def toBridgeWindows : Windows := { fwd := 9, back := 4 }
def fromBridgeWindows : Windows := { fwd := 4, back := 9 }

/-- The source may write an entry: the slot's last reader is known to have passed it (R77). -/
def DataCell.hasRoom (c : DataCell) : Bool := decide ((c.wptr + 64 - c.back.accepted) % 64 < 32)

/-- The destination has accepted a write pointer beyond its next entry (R77). -/
def DataCell.readable (c : DataCell) : Bool := decide (c.rptr ≠ c.fwd.accepted)

/-- A source cycle: an entry offered is written where there is room, the write pointer is presented for publication, and the
read pointer is sampled. Answers whether the entry was written; a full cell holds its source back (R19). -/
def DataCell.sourceCycle (c : DataCell) (w : Windows) (word : Option Nat) : Bool × DataCell :=
  let (written, c) := match word with
    | some v => if c.hasRoom then
        (true, { c with slots := SMap.set 0 c.slots (c.wptr % 32) v, wptr := (c.wptr + 1) % 64 })
      else (false, c)
    | none => (false, c)
  (written, { c with fwd := c.fwd.sourceCycle w.fwd c.wptr, back := c.back.destCycle })

/-- A destination cycle: the next readable entry is read, and the read pointer is presented for publication. -/
def DataCell.destCycle (c : DataCell) (w : Windows) : Option Nat × DataCell :=
  let c := { c with fwd := c.fwd.destCycle }
  let (word, c) := if c.readable then
      (some (SMap.get 0 c.slots (c.rptr % 32)), { c with rptr := (c.rptr + 1) % 64 })
    else (none, c)
  (word, { c with back := c.back.sourceCycle w.back c.rptr })

/-- Cycles of both halves in turn until every word has crossed: the words delivered, in order, and the cell. -/
def DataCell.carryFor (w : Windows) : Nat → DataCell → List Nat → List Nat × DataCell
  | 0, c, _ => ([], c)
  | k + 1, c, words =>
    if words.isEmpty && c.rptr == c.wptr then ([], c)
    else
      let (written, c) := c.sourceCycle w words.head?
      let (word, c) := c.destCycle w
      let (rest, c) := DataCell.carryFor w k c (if written then words.tail else words)
      (match word with
        | some v => v :: rest
        | none => rest, c)

/-- Words cross a cell whose clocks run: 16 cycles for a pointer to cross and return, and as many for each entry, are more
than any schedule needs. -/
def DataCell.carry (c : DataCell) (w : Windows) (words : List Nat) : List Nat × DataCell :=
  DataCell.carryFor w (32 * (words.length + 2)) c words

/-- Cycles without a word offered or waiting: the pointers go on crossing. -/
def DataCell.settle (w : Windows) : Nat → Nat → DataCell → DataCell
  | 0, 0, c => c
  | 0, d + 1, c => DataCell.settle w 0 d (c.destCycle w).2
  | k + 1, d, c => DataCell.settle w k d (c.sourceCycle w none).2

/-- The clock of the half that writes, or of the half that reads, stops (R78, R79). -/
def DataCell.sourceStops (c : DataCell) (w : Windows) : DataCell :=
  { c with fwd := c.fwd.sourceStops w.fwd, back := c.back.destStops }
def DataCell.destStops (c : DataCell) (w : Windows) : DataCell :=
  { c with fwd := c.fwd.destStops, back := c.back.sourceStops w.back }

/-- The recovered clock comes at the end of training, to an empty cell, or is lost, with the cell emptied (R85). -/
def DataCell.clockedBy (c : DataCell) (recovered : Bool) : DataCell :=
  { c with
    rptr := c.wptr, fwd := { c.fwd with published := c.wptr, sample := none, accepted := c.wptr }, recovered := recovered }

/-- Bytes as datapath words of `width` bytes (R19). -/
def wordsOf (width : Nat) : Nat → List Byte → List Nat
  | 0, _ => []
  | k + 1, bytes => if bytes.isEmpty then [] else ofBytes (bytes.take width) :: wordsOf width k (bytes.drop width)

def bytesAsWords (width : Nat) (bytes : List Byte) : List Nat := wordsOf width bytes.length bytes

/-! ## The cells of the device -/

/-- Every data cell with a half in the core: what a map of a receive and of a transmit cell does to all of them. -/
def State.mapDataCells (s : State) (inbound outbound : DataCell → Windows → DataCell) : State :=
  let side (x : RingSide) : RingSide := { x with rx := inbound x.rx rxWindows, tx := outbound x.tx txWindows }
  { s with
    links := (s.links.map (·.1)).foldl (fun m n =>
      let l := SMap.get {} m n
      SMap.set {} m n { l with rx := inbound l.rx rxWindows, tx := outbound l.tx txWindows }) s.links
    ring := { s.ring with east := side s.ring.east, west := side s.ring.west }
    host := { s.host with
      toBridge := outbound s.host.toBridge toBridgeWindows
      fromBridge := inbound s.host.fromBridge fromBridgeWindows } }

/-- The core's clock stops, with the other halves running (R78, R79). -/
def State.coreHalvesStop (s : State) : State := s.mapDataCells DataCell.destStops DataCell.sourceStops

/-- All clocks but the AON block's stop. -/
def State.allHalvesStop (s : State) : State :=
  s.mapDataCells (fun c w => (c.destStops w).sourceStops w) (fun c w => (c.destStops w).sourceStops w)

/-- One time-base cycle of every data cell's halves, with the cycles of each clock in it: five of the core's, three of a
link's and two of the host bridge's. -/
def State.settleCells (s : State) : State :=
  let far (w : Windows) : Nat := if w = toBridgeWindows || w = fromBridgeWindows then 2 else 3
  s.mapDataCells (fun c w => DataCell.settle w (far w) 5 c) (fun c w => DataCell.settle w 5 (far w) c)

end Sys2Proof.Machine
end

