-- ==== Sys2Proof/Machine/Crypto.lean ====
section
/-!
DEFINITION. Sealing and key derivation (R256, R268, R415): the exact inputs the spec gives the standard functions, over
the opaque primitives of Config.
-/
namespace Sys2Proof.Machine

/-- Adds the key stream to a byte string, from stream byte `i` on. -/
def xorStream (key : BitVec 256) (iv : List Byte) : Nat → List Byte → List Byte
  | _, [] => []
  | i, b :: bs => (b ^^^ Config.gcmStream key iv i) :: xorStream key iv (i + 1) bs

/-- AES-256-GCM encryption: ciphertext and tag. -/
def gcmSeal (key : BitVec 256) (iv aad pt : List Byte) : List Byte × BitVec 128 :=
  let ct := xorStream key iv 0 pt
  (ct, Config.gcmTag key iv aad ct)

/-- AES-256-GCM decryption: none where the tag fails. -/
def gcmOpen (key : BitVec 256) (iv aad ct : List Byte) (tag : BitVec 128) : Option (List Byte) :=
  if Config.gcmTag key iv aad ct = tag then some (xorStream key iv 0 ct) else none

/-- Four bytes, most significant first. -/
def be32 (v : Nat) : List Byte := (toBytes 4 v).reverse

/-- The SP 800-108 KDF of R415 for an ASCII label and a context. -/
def childKey (parent : BitVec 256) (label context : List Byte) : BitVec 256 :=
  Config.hmacSha256 parent (be32 1 ++ label ++ [0] ++ context ++ be32 256)

/-- "LQQI", "LQQO", "LQRS", "LQRC" in ASCII. -/
def labelIn : List Byte := [0x4C, 0x51, 0x51, 0x49]
def labelOut : List Byte := [0x4C, 0x51, 0x51, 0x4F]
def labelRs : List Byte := [0x4C, 0x51, 0x52, 0x53]
def labelRc : List Byte := [0x4C, 0x51, 0x52, 0x43]

def queueKeyIn (parent : BitVec 256) (q : Nat) (epoch : BitVec 16) : BitVec 256 :=
  childKey parent labelIn (toBytes 2 q ++ toBytes 2 epoch.toNat)
def queueKeyOut (parent : BitVec 256) (q : Nat) (epoch : BitVec 16) : BitVec 256 :=
  childKey parent labelOut (toBytes 2 q ++ toBytes 2 epoch.toNat)
def ringSessionKey (parent : BitVec 256) (g : Nat) (epoch : BitVec 16) : BitVec 256 :=
  childKey parent labelRs (toBytes 1 g ++ toBytes 2 epoch.toNat)
def ringControlKey (parent : BitVec 256) (epoch : BitVec 16) : BitVec 256 :=
  childKey parent labelRc (toBytes 2 epoch.toNat)

/-- The IV of a sealed burst (R256); `out` for device to partner. -/
def burstIv (offset msn qid epoch : Nat) (out : Bool) : List Byte :=
  toBytes 2 offset ++ toBytes 4 msn ++ toBytes 2 qid ++ toBytes 1 epoch ++ [if out then 1 else 0, 0, 0]

/-- The IV of a ring frame (R268). -/
def frameIv (nonce src epoch keysel kind : Nat) : List Byte :=
  toBytes 8 nonce ++ toBytes 1 src ++ toBytes 1 epoch ++ toBytes 1 keysel ++ toBytes 1 kind

end Sys2Proof.Machine
end

