-- ==== Sys2Proof/Machine/Formats.lean ====
section
/-!
DEFINITION. Element formats, width conversion and Pack12 (spec/05): what an element's bytes mean, how a value is
narrowed or widened, and how twelve complex samples pack into a block.
-/
namespace Sys2Proof.Machine

/-- Bytes of one element of a format code (Table EC-1). -/
def fmtBytes (f : Nat) : Nat :=
  match f with
  | 0 => 1 | 1 => 2 | 2 => 4 | 3 => 1 | 4 => 2 | 5 => 3 | 6 => 4 | 7 => 8 | 8 => 2 | 9 => 3 | 10 => 4
  | _ => 1

def fmtLegal (f : Nat) : Bool := decide (f ≤ 10)
def fmtComplex (f : Nat) : Bool := decide (8 ≤ f) && decide (f ≤ 10)
def fmtSigned (f : Nat) : Bool := decide (3 ≤ f)

/-- Whether two formats are of one kind: unsigned, signed or complex (Table EC-2). -/
def fmtSameKind (a b : Nat) : Bool := fmtComplex a == fmtComplex b && fmtSigned a == fmtSigned b

/-- Bits of one part: the whole scalar, or I or Q of a complex sample. -/
def partBits (f : Nat) : Nat := if fmtComplex f then 4 * fmtBytes f else 8 * fmtBytes f

/-- `FMT` and `STORE` subfields (R123). -/
def fmtOf (x : Nat) : Nat := x % 16
def storeOf (x : Nat) : Nat := x / 16

/-- Whether a `WFMT`, `RFMT` pair is legal (R124, Table EC-2). -/
def formatsLegal (w r : Nat) : Bool :=
  fmtLegal (fmtOf w) && fmtLegal (fmtOf r) && storeOf r == 0 && decide (storeOf w ≤ 4) &&
    fmtSameKind (fmtOf w) (fmtOf r) &&
    (storeOf w == 0 || fmtOf w == 9 || fmtOf w == 10)

/-- Mantissa width of a Pack12 variant (Table EC-4). -/
def mantBits (store : Nat) : Nat :=
  match store with
  | 1 => 8 | 2 => 9 | 3 => 10 | _ => 12

/-- Bytes of one Pack12 block (R132). -/
def blockBytes (m : Nat) : Nat := 3 * m + 1

def Binding.packed (b : Binding) : Bool := storeOf b.wfmt != 0

/-- The directly stored format: the narrower of the two ends (R124). -/
def Binding.storedFmt (b : Binding) : Nat :=
  if fmtBytes (fmtOf b.wfmt) ≤ fmtBytes (fmtOf b.rfmt) then fmtOf b.wfmt else fmtOf b.rfmt

/-- Bytes of one stored unit: an element, or a Pack12 block. -/
def Binding.unitBytes (b : Binding) : Nat :=
  if b.packed then blockBytes (mantBits (storeOf b.wfmt)) else fmtBytes b.storedFmt

/-- Elements in one stored unit. -/
def Binding.unitElems (b : Binding) : Nat := if b.packed then 12 else 1

def Binding.truncate (b : Binding) : Bool := b.conv % 2 == 1
def Binding.integerAlign (b : Binding) : Bool := b.conv / 2 % 2 == 1

/-- The parts of an element: one value for a scalar, I and Q for a complex sample (R122). -/
def elemParts (f : Nat) (bs : List Byte) : List Int :=
  let v := ofBytes bs
  if fmtComplex f then
    let w := partBits f
    [signed w v, signed w (v / 2 ^ w)]
  else if fmtSigned f then [signed (partBits f) v]
  else [((v % 2 ^ partBits f : Nat) : Int)]

/-- The bytes of an element from its parts (R122). -/
def partsElem (f : Nat) (ps : List Int) : List Byte :=
  let w := partBits f
  match ps with
  | [x] => toBytes (fmtBytes f) (unsigned w x)
  | [i, q] => toBytes (fmtBytes f) (unsigned w i + unsigned w q * 2 ^ w)
  | _ => []

def partMin (f : Nat) : Int := if fmtSigned f then -(2 ^ (partBits f - 1) : Nat) else 0
def partMax (f : Nat) : Int := if fmtSigned f then (2 ^ (partBits f - 1) : Nat) - 1 else (2 ^ partBits f : Nat) - 1

/-- Drops `k` low bits: rounds half to even, or truncates (R127). -/
def roundShift (trunc : Bool) (x : Int) (k : Nat) : Int :=
  if k = 0 then x else
  let q := x / (2 ^ k : Nat)
  if trunc then q else
  let rem := x - q * (2 ^ k : Nat)
  let half : Int := (2 ^ (k - 1) : Nat)
  if half < rem || (rem == half && q % 2 == 1) then q + 1 else q

/-- Converts one part between two formats of a kind (R127, R128). -/
def convPart (b : Binding) (f g : Nat) (x : Int) : Int :=
  if b.integerAlign && !fmtComplex f then clampI x (partMin g) (partMax g)
  else if partBits f ≤ partBits g then x * (2 ^ (partBits g - partBits f) : Nat)
  else clampI (roundShift b.truncate x (partBits f - partBits g)) (partMin g) (partMax g)

/-- Converts the bytes of one element from one format to another (R126). -/
def convElem (b : Binding) (f g : Nat) (bs : List Byte) : List Byte :=
  if f = g then bs else partsElem g ((elemParts f bs).map (convPart b f g))

/-- Cuts a byte string into whole elements of `k` bytes and a remainder (R129). -/
def splitElems (k : Nat) : Nat → List Byte → List (List Byte) × List Byte
  | 0, bs => ([], bs)
  | fuel + 1, bs =>
    if bs.length < k then ([], bs)
    else
      let (es, rest) := splitElems k fuel (bs.drop k)
      (bs.take k :: es, rest)

/-- A write-side sample as CI16 parts (R133). -/
def toSample (b : Binding) (bs : List Byte) : Sample :=
  match (elemParts (fmtOf b.wfmt) bs).map (convPart {} (fmtOf b.wfmt) 10) with
  | [i, q] => (BitVec.ofInt 16 i, BitVec.ofInt 16 q)
  | _ => (0, 0)

def sampleParts (x : Sample) : List Int := [x.1.toInt, x.2.toInt]

/-- The smallest exponent from `e` on at which every part fits, at most `16 − m` (R133). -/
def packExp (m : Nat) (trunc : Bool) (xs : List Int) : Nat → Nat → Nat
  | 0, e => e
  | fuel + 1, e =>
    let lo : Int := -(2 ^ (m - 1) : Nat)
    let hi : Int := (2 ^ (m - 1) : Nat) - 1
    if xs.all fun x => decide (lo ≤ roundShift trunc x e) && decide (roundShift trunc x e ≤ hi) then e
    else packExp m trunc xs fuel (e + 1)

/-- Lays mantissas out from bit 8 on (Table EC-5). -/
def packMants (m : Nat) : Nat → List Int → Nat
  | _, [] => 0
  | j, x :: xs => unsigned m x * 2 ^ (8 + m * j) + packMants m (j + 1) xs

/-- One Pack12 block of up to twelve samples; missing positions hold 0 (R133, R135). -/
def packBlock (m : Nat) (trunc : Bool) (xs : List Sample) : List Byte :=
  let parts := xs.flatMap sampleParts
  let e := packExp m trunc parts (16 - m) 0
  let lo : Int := -(2 ^ (m - 1) : Nat)
  let hi : Int := (2 ^ (m - 1) : Nat) - 1
  toBytes (blockBytes m) (e + packMants m 0 (parts.map fun x => clampI (roundShift trunc x e) lo hi))

/-- The first `n` samples of a Pack12 block from position `j` on (R134). -/
def unpackFrom (m v e : Nat) (j : Nat) : Nat → List Sample
  | 0 => []
  | n + 1 =>
    let part (k : Nat) : BitVec 16 := BitVec.ofInt 16 (signed m (v / 2 ^ (8 + m * k)) * (2 ^ e : Nat))
    (part (2 * j), part (2 * j + 1)) :: unpackFrom m v e (j + 1) n

/-- The first `n` samples of a Pack12 block. -/
def unpackBlock (m : Nat) (bs : List Byte) (n : Nat) : List Sample :=
  let v := ofBytes bs
  unpackFrom m v (v % 16) 0 n

/-- The read-side bytes of an unpacked sample (R134). -/
def sampleOut (b : Binding) (x : Sample) : List Byte :=
  partsElem (fmtOf b.rfmt) ((sampleParts x).map (convPart { b with conv := b.conv % 2 } 10 (fmtOf b.rfmt)))

/-- Read-side bytes of one element. -/
def Binding.rbytes (b : Binding) : Nat := fmtBytes (fmtOf b.rfmt)
/-- Write-side bytes of one element. -/
def Binding.wbytes (b : Binding) : Nat := fmtBytes (fmtOf b.wfmt)

end Sys2Proof.Machine
end

