-- ==== Sys2Proof/Machine/Fill.lean ====
section
/-!
DEFINITION. Segments, stored messages and fills (spec/02): which segments are free, the stored header, and the three
fills and the capacity of a queue.
-/
namespace Sys2Proof.Machine

/-! ## Segments (R37 to R43) -/

def quarterOf (seg : Nat) : Nat := seg / 8192 % 4

def Plaza.quarter (p : Plaza) (i : Nat) : Quarter := p.quarters.toList.getD i {}

/-- Segments of a quarter that a queue holds. -/
def Plaza.heldIn (p : Plaza) (i : Nat) : Nat := (p.owner.filter fun e => quarterOf e.1 == i).length

/-- Whether segments may be granted from a quarter: no wipe or BIST runs there and it is not QOFF (R335, R336). -/
def Quarter.grantable (x : Quarter) : Bool :=
  !x.qoff && (match x.act with
    | some .wipe => false
    | some .bist => false
    | _ => true)

/-- Free segments of a quarter (R41, R335). -/
def Plaza.freeIn (p : Plaza) (i : Nat) : Nat :=
  if (p.quarter i).grantable then 8192 - p.heldIn i - (p.quarter i).zeroing.length else 0

def affine (aff i : Nat) : Bool := aff / 2 ^ i % 2 == 1

/-- Free segments in the permitted quarters. -/
def Plaza.freeFor (p : Plaza) (aff : Nat) : Nat :=
  ((List.range 4).map fun i => if affine aff i then p.freeIn i else 0).sum

/-- The permitted quarter with the most free segments, ties in the order North, East, South, West (R37). -/
def Plaza.bestQuarter (p : Plaza) (aff : Nat) : Option Nat :=
  (List.range 4).foldl (fun best i =>
    if affine aff i && decide (0 < p.freeIn i) then
      match best with
      | none => some i
      | some j => if p.freeIn j < p.freeIn i then some i else some j
    else best) none

def Plaza.segFree (p : Plaza) (seg : Nat) : Bool :=
  SMap.get 0 p.owner seg == 0 && !(p.quarter (quarterOf seg)).zeroing.contains seg

/-- The lowest free segment from `seg` on. -/
def Plaza.firstFree (p : Plaza) : Nat → Nat → Option Nat
  | 0, _ => none
  | fuel + 1, seg => if p.segFree seg then some seg else p.firstFree fuel (seg + 1)

/-- The segment a request is given (R37). -/
def Plaza.pickSeg (p : Plaza) (aff : Nat) : Option Nat :=
  match p.bestQuarter aff with
  | some i => p.firstFree 8192 (8192 * i)
  | none => none

/-- Gives queue `n` one more segment at the end of its chain. -/
def State.takeSeg (s : State) (n seg : Nat) : State :=
  let s := s.updQ n fun q => { q with segs := q.segs ++ [seg] }
  { s with plaza := { s.plaza with owner := SMap.set 0 s.plaza.owner seg (n + 1) } }

/-- Grants up to `k` segments, as many as are free. -/
def State.takeSegs (s : State) (n aff : Nat) : Nat → State
  | 0 => s
  | k + 1 =>
    match s.plaza.pickSeg aff with
    | some seg => (s.takeSeg n seg).takeSegs n aff k
    | none => s

def setQuarter (p : Plaza) (i : Nat) (f : Quarter → Quarter) : Plaza :=
  { p with quarters := p.quarters.mapIdx fun j x => if j = i then f x else x }

/-- Returns a segment to the pool, through the zeroing list where R41 asks for it. -/
def State.returnSeg (s : State) (zero : Bool) (seg : Nat) : State :=
  let p := { s.plaza with owner := SMap.erase s.plaza.owner seg }
  { s with plaza := if zero then setQuarter p (quarterOf seg) fun x => { x with zeroing := x.zeroing ++ [seg] } else p }

def State.returnSegs (s : State) (zero : Bool) (segs : List Nat) : State :=
  segs.foldl (fun s seg => s.returnSeg zero seg) s

/-- Bound queues of a group. -/
def State.groupQueues (s : State) (g : Nat) : List (Nat × Queue) :=
  s.queues.filter fun e => e.1 / 512 == g && e.2.st != .unbound

def State.groupHeld (s : State) (g : Nat) : Nat := ((s.groupQueues g).map fun e => e.2.segs.length).sum
def State.groupRsv (s : State) (g : Nat) : Nat := ((s.groupQueues g).map fun e => e.2.b.rsvSeg).sum

/-- Segments grantable to a queue now (R43). -/
def State.grantable (s : State) (n : Nat) : Nat :=
  let q := s.q n
  min (q.b.maxSeg - q.segs.length)
    (min ((s.group (n / 512)).gqMax - s.groupHeld (n / 512)) (s.plaza.freeFor q.b.affinity))

/-- `CAP` in stored words (R43). -/
def State.cap (s : State) (n : Nat) : Nat := 64 * ((s.q n).segs.length + s.grantable n)

/-- Stored position just past the segments a queue holds. -/
def Queue.heldEnd (q : Queue) : Nat := 4096 * (q.segBase + q.segs.length)

/-- Counts the first refusal of the segment now needed (R40). -/
def State.denySeg (s : State) (n : Nat) : State :=
  s.updQ n fun q => if q.segDenied then q else { q with segDenied := true, segDeny := inc32 q.segDeny }

/-- Asks for segments until the queue holds stored space up to `need`, or one is refused (R37, R39). -/
def State.growTo (s : State) (n need : Nat) : Nat → State
  | 0 => s
  | k + 1 =>
    if need ≤ (s.q n).heldEnd then s
    else if 0 < s.grantable n then
      match s.plaza.pickSeg (s.q n).b.affinity with
      | some seg => ((s.updQ n fun q => { q with segReq := false, segDenied := false }).takeSeg n seg).growTo n need k
      | none => s.denySeg n
    else s.denySeg n

/-! ## Stored messages (R32, R33) -/

structure StoredHdr where
  slen : Nat
  trunc : Bool
  elems : Nat
  rts : Bool
  msn : BitVec 32
deriving DecidableEq, Repr

def StoredHdr.encode (h : StoredHdr) : List Byte :=
  toBytes 8 (packNat [(0, 15, h.slen), (15, 1, if h.trunc then 1 else 0), (16, 15, h.elems),
    (31, 1, if h.rts then 1 else 0), (32, 32, h.msn.toNat)])

def StoredHdr.decode (bs : List Byte) : StoredHdr :=
  let v := ofBytes bs
  { slen := v % 2 ^ 15, trunc := v / 2 ^ 15 % 2 == 1, elems := v / 2 ^ 16 % 2 ^ 15
    rts := v / 2 ^ 31 % 2 == 1, msn := BitVec.ofNat 32 (v / 2 ^ 32) }

/-- Bytes before a stored payload. -/
def StoredHdr.front (h : StoredHdr) : Nat := if h.rts then 16 else 8
/-- Bytes a stored message occupies (R32). -/
def StoredHdr.size (h : StoredHdr) : Nat := h.front + roundUp 8 h.slen

def State.hdrAt (s : State) (q : Queue) (pos : Nat) : StoredHdr := StoredHdr.decode (s.rdBytes q pos 8)

/-- Bytes before the payload of a message of this queue. -/
def Queue.front (q : Queue) : Nat := if q.b.pin then 16 else 8

/-- A queue that stores and forwards (R36). -/
def Queue.storeForward (q : Queue) : Bool := q.b.kerb || q.b.pin

/-- The first byte of the message being read, else the read pointer. -/
def Queue.msgPos (q : Queue) : Nat := (q.rmsg.map (·.start)).getD q.rptr

/-- Where complete messages end: the open message's first byte, else the write pointer. -/
def Queue.msgEnd (q : Queue) : Nat := (q.wmsg.map (·.start)).getD q.wptr

/-- Complete messages from a position on, with their positions. -/
def State.msgsFrom (s : State) (q : Queue) : Nat → Nat → List (Nat × StoredHdr)
  | 0, _ => []
  | fuel + 1, pos =>
    if pos < q.msgEnd then
      let h := s.hdrAt q pos
      (pos, h) :: s.msgsFrom q fuel (pos + h.size)
    else []

/-- Complete messages not wholly read, the one being read first. -/
def State.unread (s : State) (q : Queue) : List (Nat × StoredHdr) :=
  s.msgsFrom q ((q.msgEnd - q.msgPos) / 8 + 1) q.msgPos

/-! ## Fills (R45 to R48) -/

/-- A mark that retains data: set, at a known position at or behind the read pointer (R141). -/
def Mark.behind (m : Mark) (rptr : Nat) : Bool := m.isSet && !m.next && decide (m.pos ≤ rptr)

/-- Positions of set marks at or behind the read pointer, and the target of a waiting REWIND (R141). -/
def Queue.retaining (q : Queue) : List Nat :=
  ((q.marks.toList.filter fun m => m.behind q.rptr).map (·.pos)) ++ q.rewinds.map (·.target)

/-- The oldest retained or unread position. -/
def Queue.oldest (q : Queue) : Nat := q.retaining.foldl min q.rptr

/-- `SFILL` of this station (R45): the stored words that hold a byte from the oldest retained or unread one on. Where there is no
such byte there is no such word. -/
def Queue.sfill (q : Queue) : Nat :=
  if q.oldest < q.wptr then (roundUp 64 q.wptr - roundDown 64 q.oldest) / 64 else 0

/-- `EFILL` of this station (R46). -/
def State.efill (s : State) (q : Queue) : Nat :=
  if q.b.msgMode then
    let done := ((s.unread q).map fun e => e.2.elems).sum
    let open_ := match q.wmsg with
      | some w => if q.storeForward then 0 else w.elems
      | none => 0
    done + open_ - (q.rmsg.map (·.sent)).getD 0
  else (q.wptr - q.rptr) / q.b.unitBytes * q.b.unitElems - q.rsub

/-- `MFILL` (R47). -/
def State.mfill (s : State) (q : Queue) : Nat :=
  if q.b.msgMode then ((s.unread q).filter fun e => decide (q.rptr ≤ e.1)).length else 0

/-- Whether a queue is empty (R48). -/
def State.isEmpty (s : State) (q : Queue) : Bool :=
  s.efill q == 0 && (!q.b.msgMode || q.wmsg.isNone)

/-! ## Marks (Table RT-4) -/

/-- Where a mark lies (R144): one set at the write pointer inside a message lies at the first byte of the next message, which is
past the open message as far as it has been stored, padded. DESIGN CHOICE: what is shown while that message is open. -/
def Queue.markAtPos (q : Queue) (m : Mark) : Nat :=
  match m.next, q.wmsg with
  | true, some w => w.start + q.front + roundUp 8 w.slen
  | _, _ => m.pos

/-- `MSN` of the message at a mark; 0 in stream mode, when unset, or where that message has not begun (Table RT-4). -/
def State.markMsn (s : State) (q : Queue) (m : Mark) : Nat :=
  if !m.isSet || !q.b.msgMode || m.next then 0
  else if m.pos < q.msgEnd then (s.hdrAt q m.pos).msn.toNat
  else match q.wmsg with
    | some w => w.msn.toNat
    | none => 0

end Sys2Proof.Machine
end

