-- ==== Sys2Proof/Machine/Flags.lean ====
section
/-!
DEFINITION. Flags (spec/04): the six flags and their evaluation, the rate predictor, and the three routes by which a
change leaves the device: status words, events and balls.
-/
namespace Sys2Proof.Machine

/-! ## Control words (R249) -/

/-- The bytes of a control word of a kind, with `ext` data blocks and the listed fields, ending in `CHK`. -/
def cword (kind ext : Nat) (fields : List (Nat × Nat × Nat)) : List Byte :=
  let n := 8 * (1 + ext)
  let v := packNat ((0, 8, 0x4B) :: (8, 4, kind) :: (12, 2, ext) :: fields)
  toBytes n (v + crc8 v 8 (8 * n - 16) * 2 ^ (8 * n - 8))

/-- Whether a link carries units: UP, its configuration not frozen out by a fatal error (R462). -/
def State.linkLive (s : State) (n : Nat) : Bool := decide ((s.link n).phy.st = .up) && !s.errs.frozen

/-- Sends a control word on a link that is UP. -/
def State.sendWord (s : State) (n : Nat) (bytes : List Byte) : State :=
  if h : n < 8 then (if s.linkLive n then s.emit (.word ⟨n, h⟩ bytes) else s) else s

/-- A TIME word (Table BL-13). -/
def State.timeWord (s : State) : List Byte := cword 7 1 [(16, 2, lockCode s.time.lock), (32, 64, s.tbNs)]

/-- A TIME word on each link that is UP (R255). -/
def State.sendTimes (s : State) : State := (List.range 8).foldl (fun t n => t.sendWord n s.timeWord) s

/-! ## Ports and links (Table BP-1) -/

def portOf (n : Nat) : Nat := n / 4

def State.split (s : State) (port : Nat) : Nat := fld (SMap.get 0 s.portCfg port) 0 2

/-- Lanes of each link of a port. -/
def lanesOfSplit (split : Nat) : Nat :=
  match split with
  | 0 => 16
  | 1 => 8
  | _ => 4

def State.lanes (s : State) (n : Nat) : Nat := lanesOfSplit (s.split (portOf n))

/-- Whether a link exists in its port's split (R54). -/
def State.linkPresent (s : State) (n : Nat) : Bool := decide (n % 4 < 2 ^ s.split (portOf n))

def Link.en (l : Link) : Bool := bit l.cfg 0
def Link.nrz (l : Link) : Bool := bit l.cfg 1
def Link.wakeEn (l : Link) : Bool := bit l.cfg 7

def QEnd.isLink (e : QEnd) (n : Nat) : Bool :=
  match e with
  | .link m => m.val == n
  | _ => false

/-- The Barward links that are ends of a queue, each once. -/
def Queue.endLinks (q : Queue) : List Nat :=
  match q.b.wend, q.b.rend with
  | .link a, .link b => if a = b then [a.val] else [a.val, b.val]
  | .link a, _ => [a.val]
  | _, .link b => [b.val]
  | _, _ => []

/-! ## Chains (R107, R108) -/

/-- The part a queue's ends give a station (R274); none for a queue of one station. -/
def Queue.role (q : Queue) : Option Role :=
  match q.b.wend, q.b.rend with
  | .ring, .ring => some .middle
  | .ring, _ => some .tail
  | _, .ring => some .head
  | _, _ => none

def Queue.hasRingEnd (q : Queue) : Bool := q.role.isSome

/-- Whether a chained queue's setup stands (R275, R284). -/
def Queue.chained (q : Queue) : Bool := q.chain.joined && !q.chain.void

/-- A queue refuses writes in every state but OPEN, and at a member other than the head (R51, R27). -/
def Queue.refuses (q : Queue) : Bool :=
  decide (q.st ≠ .opened)

/-- The other members' latest SYNC values, the pair peer's left out. -/
def Queue.members (q : Queue) : List SyncIn := q.chain.sync.filter fun y => y.role != 3

/-- Stored fill for FULL, AF and FAF; chain-wide at a head (R107). -/
def Queue.csfill (q : Queue) : Nat :=
  q.sfill + (if q.role = some .head then (q.members.map (·.sfill)).sum else 0)

/-- `CAP` for FULL; chain-wide at a head. -/
def State.ccap (s : State) (n : Nat) : Nat :=
  s.cap n + (if (s.q n).role = some .head then ((s.q n).members.map (·.cap)).sum else 0)

/-- Element fill for AE and FAE; chain-wide at a tail. -/
def State.cefill (s : State) (q : Queue) : Nat :=
  s.efill q + (if q.role = some .tail then (q.members.map (·.efill)).sum else 0)

/-! ## The predictor (R100 to R104) -/

/-- Payload rate of an end in Gbit/s (Table FL-3); a link's mode is the one its last training read (R226). -/
def State.endRate (s : State) (e : QEnd) : Nat :=
  match e with
  | .link n => (if (s.link n.val).phy.cfg.nrz then 25 else 50) * s.lanes n.val
  | .host => 128
  | .ring => 200

/-- `cold_w`: stored words per sweep with 16 fraction bits, truncated. -/
def coldW (rate : Nat) : Nat := rate * 8388608 / 10
/-- `cold_r`: read-side elements of `bits` bits per sweep with 16 fraction bits, truncated. -/
def coldR (rate bits : Nat) : Nat := rate * 4294967296 / (10 * bits)

/-- `psf` of R102. -/
def State.psf (s : State) (q : Queue) : Int :=
  let rs : Int := if q.fst.cold then coldW (s.endRate q.b.wend) else q.fst.rs
  clampI (q.csfill + rs * q.fcfg.fafLead * 5 / (2 ^ 31 : Nat)) 0 0x7FFFFFFF

/-- `pef` of R102. -/
def State.pef (s : State) (q : Queue) : Int :=
  let re : Int := if q.fst.cold then -(coldR (s.endRate q.b.rend) (8 * q.b.rbytes) : Nat) else q.fst.re
  clampI (s.cefill q + re * q.fcfg.faeLead * 5 / (2 ^ 31 : Nat)) 0 0x7FFFFFFF

/-- One sweep visit (R100). -/
def FlagState.sweep (f : FlagState) (alpha : Nat) (sfill efill : Int) : FlagState :=
  let ds := sfill - f.sfillPrev
  let de := efill - f.efillPrev
  let w := alpha + 1
  let nsamp := if f.intervalValid then (if f.nsamp < 16 then f.nsamp + 1 else f.nsamp) else f.nsamp
  { f with
    sfillPrev := sfill, efillPrev := efill
    rs := if f.intervalValid then f.rs + (ds * 65536 - f.rs) / (2 ^ w : Nat) else f.rs
    re := if f.intervalValid then f.re + (de * 65536 - f.re) / (2 ^ w : Nat) else f.re
    nsamp := nsamp, cold := decide (nsamp < 16), intervalValid := true }

/-- The predictor restarts on the current fills (R103). -/
def FlagState.restart (f : FlagState) (sfill efill : Nat) : FlagState :=
  { f with rs := 0, re := 0, nsamp := 0, cold := true, intervalValid := false, sfillPrev := sfill, efillPrev := efill }

def Queue.spoilInterval (q : Queue) : Queue := { q with fst := { q.fst with intervalValid := false } }

/-! ## Evaluation (R91, Table FL-1) -/

/-- A flag's level from its two conditions: between them it keeps its level. -/
def flagStep (old assert_ deassert_ : Bool) : Bool := if assert_ then true else if deassert_ then false else old

def flagBit (levels i : Nat) : Bool := levels / 2 ^ i % 2 == 1

def Queue.enabled (q : Queue) (i : Nat) : Bool := q.fcfg.enable / 2 ^ i % 2 == 1

def Queue.unit (q : Queue) : Nat := if q.fcfg.afUnit then 4 else 1

/-- A SYNC level of a flag another member evaluates (R108). -/
def Queue.syncFlag (q : Queue) (role i : Nat) : Bool :=
  q.members.any fun y => y.role == role && flagBit y.flags i

/-- The part a station has in evaluating a queue's flags (R107): every flag is evaluated where no chain is set up (R98). -/
def Queue.flagRole (q : Queue) : Option Role := if q.chain.joined then q.role else none

/-- EMPTY's assert condition: the queue is empty (R48); at a chain's tail nothing is readable there (R107). -/
def State.flagEmpty (s : State) (q : Queue) : Bool :=
  if q.flagRole = some .tail then s.efill q == 0 else s.isEmpty q

/-- The levels of a bound queue's flags after an evaluation. -/
def State.evalLevels (s : State) (n : Nat) : Nat :=
  let q := s.q n
  let old := q.fst.levels
  let u := q.unit
  let sf := q.csfill
  let ef := s.cefill q
  let cap := s.ccap n
  let full := flagStep (flagBit old 0) (decide (cap ≤ sf)) (decide (sf + q.fcfg.fullHys < cap))
  let empty := flagStep (flagBit old 1) (s.flagEmpty q) (decide (q.fcfg.emptyHys < s.efill q))
  let af := q.enabled 0 && flagStep (flagBit old 2) (decide (q.fcfg.afSet * u ≤ sf))
    (decide (sf < (q.fcfg.afSet - q.fcfg.afHys) * u))
  let ae := q.enabled 1 && flagStep (flagBit old 3) (decide (ef ≤ q.fcfg.aeSet))
    (decide (q.fcfg.aeSet + q.fcfg.aeHys < ef))
  let psf := s.psf q
  let pef := s.pef q
  let faf := q.enabled 2 && flagStep (flagBit old 4) (decide (((q.fcfg.fafSet * u : Nat) : Int) ≤ psf))
    (decide (psf < (((q.fcfg.fafSet - q.fcfg.fafHys) * u : Nat) : Int)))
  let fae := q.enabled 3 && flagStep (flagBit old 5) (decide (pef ≤ (q.fcfg.faeSet : Int)))
    (decide (((q.fcfg.faeSet + q.fcfg.faeHys : Nat) : Int) < pef))
  let w (b : Bool) : Nat := if b then 1 else 0
  match q.flagRole with
  | some .middle =>
    packNat [(0, 1, w (q.syncFlag 0 0)), (1, 1, w (q.syncFlag 2 1)), (2, 1, w (q.syncFlag 0 2)),
      (3, 1, w (q.syncFlag 2 3)), (4, 1, w (q.syncFlag 0 4)), (5, 1, w (q.syncFlag 2 5))]
  | some .head =>
    packNat [(0, 1, w full), (1, 1, w (q.syncFlag 2 1)), (2, 1, w af), (3, 1, w (q.syncFlag 2 3)),
      (4, 1, w faf), (5, 1, w (q.syncFlag 2 5))]
  | some .tail =>
    packNat [(0, 1, w (q.syncFlag 0 0)), (1, 1, w empty), (2, 1, w (q.syncFlag 0 2)), (3, 1, w ae),
      (4, 1, w (q.syncFlag 0 4)), (5, 1, w fae)]
  | _ => packNat [(0, 1, w full), (1, 1, w empty), (2, 1, w af), (3, 1, w ae), (4, 1, w faf), (5, 1, w fae)]

/-- `XOFF` of a queue (R247). -/
def State.xoff (s : State) (n : Nat) : Bool :=
  let q := s.q n
  q.refuses || q.role == some .middle || q.role == some .tail ||
    (!q.b.kerb && decide (s.ccap n - q.csfill < 128))

/-- A status entry (Table BL-8). -/
def State.statusEntry (s : State) (n : Nat) : Nat :=
  let q := s.q n
  packNat [(0, 13, n), (13, 6, q.fst.levels), (19, 1, if q.fst.cold && q.st != .unbound then 1 else 0),
    (20, 1, if s.xoff n then 1 else 0), (21, 1, 1)]

/-- A STATUS word with up to 8 entries. -/
def statusWord (entries : List Nat) : List Byte :=
  cword 1 3 (entries.mapIdx fun k e => (16 + 24 * k, 24, e))

/-- Sends a queue's status entry on each Barward link that is an end of it (R116). -/
def State.sendStatus (s : State) (n : Nat) : State :=
  (s.q n).endLinks.foldl (fun s l => s.sendWord l (statusWord [s.statusEntry n])) s

/-- Posts FLAG_CHANGE with the present levels (R118, Table HI-11). DESIGN CHOICE: the fills are those the flags use, chain-wide at a
head or tail. -/
def State.postFlagChange (s : State) (n : Nat) (bounce : Bool) : State :=
  let q := s.q n
  s.post (ownerOf n)
    { code := 0x001
      body := packNat [(0, 13, n), (13, 6, q.fst.levels), (19, 1, if q.fst.cold then 1 else 0),
        (20, 1, if bounce then 1 else 0), (32, 24, q.csfill), (64, 32, s.cefill q)] }

/-- Reports a change of the masked flags in `diff`: at once outside an event interval, at its end inside (R119). -/
def State.flagEvent (s : State) (n diff : Nat) : State :=
  let q := s.q n
  let m := diff &&& q.fcfg.evmask
  if m = 0 then s
  else
    match q.fst.window with
    | none =>
      (s.setQ n { q with fst := { q.fst with window := some {} } }).postFlagChange n false
    | some w =>
      s.setQ n { q with fst := { q.fst with
        window := some { changed := w.changed ||| m, returned := w.returned ||| (w.changed &&& m) } } }

/-- Evaluates every flag of a queue and reports what changed (R96, R98, R116, R247). -/
def State.evalFlags (s : State) (n : Nat) : State :=
  if (s.q n).st = .unbound then s
  else
    let old := (s.q n).fst.levels
    let new := s.evalLevels n
    let s := s.updQ n fun q => { q with fst := { q.fst with levels := new } }
    let x := s.xoff n
    let changed := decide (old ≠ new) || (s.q n).xoff != x
    let s := s.updQ n fun q => { q with xoff := x }
    let s := if changed then s.sendStatus n else s
    s.flagEvent n (old ^^^ new)

/-! ## Balls (R113 to R115) -/

/-- The live level of ball `FLAGn`: deasserted while disabled, for kind 7, an UNBOUND queue or a disabled flag. -/
def State.flagBallLive (s : State) (i : Nat) : Bool :=
  let m := SMap.get 0 s.flagmap i
  let q := s.q (fld m 0 13)
  let kind := fld m 13 3
  let asserted :=
    bit m 17 && q.st != .unbound &&
      (if kind = 6 then q.fst.cold else if kind = 7 then false else flagBit q.fst.levels kind)
  asserted != bit m 16

/-- All eight flag balls, under pad hold at the level they had (R115, Table RS-3). -/
def State.flagBalls (s : State) : BitVec 8 :=
  if s.rst.ioHeld then s.rst.heldFlags
  else BitVec.ofNat 8 (packNat ((List.range 8).map fun i => (i, 1, if s.flagBallLive i then 1 else 0)))

end Sys2Proof.Machine
end

