-- ==== Sys2Proof/Machine/RingOps.lean ====
section
/-!
DEFINITION. Ring Road frames (spec/11): their layout and sealing, routing, hop numbering and resending, and the control
frames that commands send.
-/
namespace Sys2Proof.Machine

/-! ## Header fields (Table RR-1) -/

namespace Fr
def kind (h : BitVec 256) : Nat := fld h 0 4
def src (h : BitVec 256) : Nat := fld h 4 3
def dst (h : BitVec 256) : Nat := fld h 8 3
def bcast (h : BitVec 256) : Bool := bit h 11
def seq (h : BitVec 256) : Nat := fld h 16 16
def ack (h : BitVec 256) : Nat := fld h 32 16
def len (h : BitVec 256) : Nat := fld h 48 12
def qid (h : BitVec 256) : Nat := fld h 64 13
def epoch (h : BitVec 256) : Nat := fld h 80 8
def keysel (h : BitVec 256) : Nat := fld h 88 1
def pos (h : BitVec 256) : Nat := fld h 96 40
def nonce (h : BitVec 256) : Nat := fld h 136 64
def hcs (h : BitVec 256) : Nat := fld h 248 8
end Fr

/-- A header without SEQ, ACK and HCS, which sealing takes as 0 (R268). -/
def frameHdr (kind src dst : Nat) (bcast : Bool) (len qid epoch keysel pos nonce : Nat) : Nat :=
  packNat [(0, 4, kind), (4, 3, src), (8, 3, dst), (11, 1, if bcast then 1 else 0), (48, 12, len), (64, 13, qid),
    (80, 8, epoch), (88, 1, keysel), (96, 40, pos), (136, 64, nonce)]

/-- Every header bit but SEQ, ACK and HCS. -/
def bareMask : BitVec 256 := BitVec.ofNat 256 (2 ^ 16 - 1 + (2 ^ 200 - 1) * 2 ^ 48)

/-- Header bits with SEQ, ACK and HCS taken as 0 (R268). -/
def bareHdr (h : BitVec 256) : Nat := (h &&& bareMask).toNat

def frameCrc (h : BitVec 256) (payload : List Byte) (tag : BitVec 128) : BitVec 32 :=
  crc32 (bvBytes h ++ payload ++ bvBytes tag)

/-- A frame as it leaves on a hop: SEQ, ACK, HCS and CRC-32 filled in (R267, R270). -/
def stampFrame (f : Frame) (seq ack : BitVec 16) : Frame :=
  let v := bareHdr f.hdr + seq.toNat * 2 ^ 16 + ack.toNat * 2 ^ 32
  let h := BitVec.ofNat 256 (v + crc8 v 0 248 * 2 ^ 248)
  { f with hdr := h, crc := frameCrc h f.payload f.tag, errored := false }

def State.station (s : State) : Nat := fld s.ring.cfg 0 3

/-- Whether a side carries frames: UP, with a ring-control key, and not frozen (R284, R420, R462). -/
def State.sideLive (s : State) (d : Side) : Bool :=
  decide ((s.side d).phy.st = .up) && !s.ring.nokey && !s.errs.frozen

/-- Bytes a frame takes in the resend buffer. -/
def frameBytes (f : Frame) : Nat := 33 + f.payload.length + 20

def RingSide.room (x : RingSide) (f : Frame) : Bool :=
  decide ((x.resend.map fun e => frameBytes e.frame).sum + frameBytes f ≤ 65536)

/-- A ring side's datapath word in bytes: 64 bits for each of its four lanes. -/
def sideWord : Nat := 32

/-- A frame crosses a side's receive Crosswalk into the core (R19, R77). -/
def State.crossIn (s : State) (d : Side) (f : Frame) : State :=
  s.updSide d fun x => { x with rx := (x.rx.carry rxWindows (bytesAsWords sideWord (padUnit (frameUnit f)))).2 }

/-- A stamped frame crosses a side's transmit Crosswalk and leaves. -/
def State.sendFrame (s : State) (d : Side) (f : Frame) : State :=
  (s.updSide d fun x => { x with tx := (x.tx.carry txWindows (bytesAsWords sideWord (padUnit (frameUnit f)))).2 }).emit
    (.frame d f)

/-- Every unacknowledged frame of a side goes again, in order, and is counted (R270). -/
def State.resendFrames (s : State) (d : Side) : State :=
  (s.side d).resend.foldl (fun s e => (s.updSide d fun x => { x with resendCnt := inc32 x.resendCnt }).sendFrame d
    (stampFrame e.frame e.seq (s.side d).rxSeq)) s

/-- Sends a frame with the next SEQ and keeps it for resending. -/
def State.launch (s : State) (d : Side) (f : Frame) (ctrl : Option (Nat × List Byte)) : State :=
  let x := s.side d
  let f := stampFrame f x.txSeq x.rxSeq
  (s.setSide d { x with
    txSeq := x.txSeq + 1, resend := x.resend ++ [{ seq := x.txSeq, frame := f, ctrl := ctrl }], owesAck := false }).sendFrame
    d f

/-- The order of R272 for a station's own frames: CTRL, SYNC, KIOSK. -/
def ownClass (f : Frame) : Nat :=
  match Fr.kind f.hdr with
  | 2 => 0
  | 1 => 1
  | _ => 2

/-- The waiting frame that goes first, and the others. -/
def nextWaiting (fs : List SentFrame) : Option (SentFrame × List SentFrame) :=
  match (List.range 3).findSome? fun c => fs.findIdx? fun e => ownClass e.frame == c with
  | some i => fs[i]?.map fun e => (e, fs.eraseIdx i)
  | none => none

/-! ## Fall-forward readiness (R277, R281) -/

/-- Chain position of a stored position, and back (R275). -/
def Queue.chainPos (q : Queue) (p : Nat) : Nat := ((p : Int) - q.chain.base).toNat
def Queue.storedPos (q : Queue) (c : Nat) : Nat := ((c : Int) + q.chain.base).toNat

/-- The end of what a member may send. DEDUCED: at a head in message mode it is the end of the last whole message, since the stored
header, which goes first, holds the final SLEN and ELEMS (Table QU-1) and so commits when its message ends. -/
def Queue.ffEnd (q : Queue) : Nat := if q.role = some .head && q.b.msgMode then q.msgEnd else q.wptr

/-- Bytes of the next `DATA` frame. -/
def Queue.ffLen (q : Queue) : Nat := min 2048 (q.chainPos q.ffEnd - q.chain.sendPos)

def Queue.ffCredit (q : Queue) (cost : Nat) : Bool :=
  let room := (q.chain.ffLimit + 2 ^ 24 - q.chain.ffUsed % 2 ^ 24) % 2 ^ 24
  decide (room < 2 ^ 23) && decide (cost ≤ room)

/-- Whether a member that is not the tail can send a `DATA` frame for a queue now. -/
def State.ffReady (s : State) (n : Nat) : Bool :=
  let q := s.q n
  let g := s.group (n / 512)
  q.chain.joined && (q.role == some .head || q.role == some .middle) && (q.st == .opened || q.st == .closing) &&
    decide (0 < q.ffLen) && q.ffCredit (ceilDiv q.ffLen 256) && g.rsBound && !g.rsRevoked && s.sideLive .east

/-- Whether own `DATA` waits for a side: chains fall forward east. -/
def State.ownWaits (s : State) (d : Side) : Bool := d == .east && s.queues.any fun e => s.ffReady e.1

/-- Sends what waits on a side while the resend buffer has room, in the order of R272; own `DATA` that waits takes
every fourth place beside transit frames. -/
def State.pump (s : State) (d : Side) : Nat → State
  | 0 => s
  | fuel + 1 =>
    let x := s.side d
    if !s.sideLive d then s
    else match nextWaiting x.ctrlq with
      | some (e, rest) =>
        if x.room e.frame then ((s.setSide d { x with ctrlq := rest }).launch d e.frame e.ctrl).pump d fuel else s
      | none =>
        match x.transit with
        | f :: fs =>
          if x.room f && !(decide (3 ≤ x.sinceOwn) && s.ownWaits d) then
            ((s.setSide d { x with transit := fs, sinceOwn := x.sinceOwn + 1 }).launch d f none).pump d fuel
          else s
        | [] => s

def State.drain (s : State) (d : Side) : State :=
  s.pump d ((s.side d).ctrlq.length + (s.side d).transit.length)

/-- Puts a frame of the station's own on a side: sent with the next SEQ where the resend buffer has room, else it waits
(R270). -/
def State.pushFrame (s : State) (d : Side) (f : Frame) (ctrl : Option (Nat × List Byte)) : State :=
  if !s.sideLive d then s
  else (s.updSide d fun x => { x with ctrlq := x.ctrlq ++ [{ seq := 0, frame := f, ctrl := ctrl }] }).drain d

/-- Hops to a station on a side, none where it has not been heard there. -/
def State.hops (s : State) (d : Side) (st : Nat) : Option Nat :=
  let m := match d with
    | .east => s.ring.hopsE
    | .west => s.ring.hopsW
  match SMap.get 0 m st with
  | 0 => none
  | k + 1 => some k

/-- The side a frame for a station leaves by: the shorter path, east on a tie (R272). -/
def State.route (s : State) (dst : Nat) : Option Side :=
  match s.hops .east dst, s.hops .west dst with
  | some a, some b => some (if b < a then .west else .east)
  | some _, none => some .east
  | none, some _ => some .west
  | none, none => none

/-- Sends a frame by its route, on both sides for a broadcast. -/
def State.routeFrame (s : State) (f : Frame) : State :=
  if Fr.bcast f.hdr then (s.pushFrame .east f none).pushFrame .west f none
  else match s.route (Fr.dst f.hdr) with
    | some d => s.pushFrame d f none
    | none => s

/-- Seals a frame under the ring-control key (R268); nothing is sent without one. -/
def State.controlFrame (s : State) (kind dst : Nat) (bcast : Bool) (payload : List Byte) : Option (Frame × State) :=
  if s.ring.nokey then none
  else
    let e := s.ring.rcEpoch.toNat % 256
    let h := frameHdr kind s.station dst bcast payload.length 0 e 1 0 s.ring.rcNonce
    let (ct, tag) := gcmSeal (ringControlKey s.ring.rcParent s.ring.rcEpoch)
      (frameIv s.ring.rcNonce s.station e 1 kind) (toBytes 32 h) payload
    some ({ hdr := BitVec.ofNat 256 h, payload := ct, tag := tag, crc := 0, errored := false },
      { s with ring := { s.ring with rcNonce := s.ring.rcNonce + 1 } })

/-- A CTRL payload: opcode and arguments by byte offset and width (Table RR-3). -/
def ctrlPayload (op : Nat) (args : List (Nat × Nat × Nat)) : List Byte :=
  toBytes 16 (packNat ((0, 8, op) :: args.map fun (o, k, v) => (8 * o, 8 * k, v)))

/-- CTRL operations that are sent again after a side comes UP (R271). -/
def ctrlRepeats (op : Nat) : Bool := op == 4 || op == 5 || op == 6 || op == 8 || op == 9

/-- Seals and sends a CTRL operation out of one side. -/
def State.sendCtrlOn (s : State) (d : Side) (dst : Nat) (payload : List Byte) (keep : Bool) : State :=
  match s.controlFrame 2 dst false payload with
  | none => s
  | some (f, s) => s.pushFrame d f (if keep then some (dst, payload) else none)

/-- Sends a CTRL operation; one that R271 repeats waits for the side where it is not live. -/
def State.sendCtrl (s : State) (dst op : Nat) (args : List (Nat × Nat × Nat)) : State :=
  match s.route dst with
  | some d =>
    if s.sideLive d then s.sendCtrlOn d dst (ctrlPayload op args) (ctrlRepeats op)
    else if ctrlRepeats op then s.updSide d fun x => { x with again := x.again ++ [(dst, ctrlPayload op args)] }
    else s
  | none => s

/-- Broadcasts a CTRL operation out of both sides; R271's repeat keeps it per side, and for a side that is not live. -/
def State.broadcastCtrl (s : State) (op : Nat) (args : List (Nat × Nat × Nat)) : State :=
  let payload := ctrlPayload op args
  match s.controlFrame 2 0 true payload with
  | none => s
  | some (f, s) =>
    let send (s : State) (d : Side) : State :=
      if s.sideLive d then s.pushFrame d f (if ctrlRepeats op then some (0, payload) else none)
      else if ctrlRepeats op then s.updSide d fun x => { x with again := x.again ++ [(0, payload)] }
      else s
    send (send s .east) .west

/-! ## Chain neighbours (R264, R275) -/

/-- Whether a station other than this one has been heard within 300 µs. -/
def State.heard (s : State) (t : Nat) : Bool := (s.hops .east t).isSome || (s.hops .west t).isSome

/-- Stations in a direction, nearest first, this one last. -/
def State.around (s : State) (d : Side) : List Nat :=
  (List.range 7).map fun k =>
    match d with
    | .east => (s.station + k + 1) % 8
    | .west => (s.station + 7 - k) % 8

/-- The nearest present stations in a direction, nearest first. -/
def State.present (s : State) (d : Side) : List Nat := (s.around d).filter s.heard

/-- The nearest present station in a direction, and none where the station is alone. -/
def State.neighbour (s : State) (d : Side) : Option Nat := (s.present d).head?

/-- Members of a chain that has this station at a position: consecutive present stations (R275). -/
def State.chainStations (s : State) (pos nsta : Nat) : List Nat :=
  ((s.present .west).take pos).reverse ++ [s.station] ++ (s.present .east).take (nsta - 1 - pos)

/-- `RING_MAP.MAP`: stations heard, and the own bit while a side is UP (R264). -/
def State.ringMap (s : State) : Nat :=
  packNat ((List.range 8).map fun t =>
    (t, 1, if s.heard t || (t == s.station && ((s.side .east).phy.st == .up || (s.side .west).phy.st == .up)) then 1 else 0))

/-- The head's, or a member's, committed chain position (R276, R282). -/
def Queue.committed (q : Queue) : Nat := q.chainPos q.wptr

/-- The chain member next to this one in a direction. -/
def Queue.member (q : Queue) (d : Side) : Option Nat :=
  match d with
  | .east => q.chain.stations[q.chain.pos + 1]?
  | .west => if q.chain.pos = 0 then none else q.chain.stations[q.chain.pos - 1]?

/-- Sends a chain command downstream, to the east member (R276). -/
def State.sendChainCmd (s : State) (n code pos : Nat) : State :=
  match (s.q n).member .east with
  | some t => s.sendCtrl t 5 [(2, 2, n), (4, 1, code), (8, 5, pos % 2 ^ 40)]
  | none => s

end Sys2Proof.Machine
end

