-- ==== Sys2Proof/Machine/Sync.lean ====
section
/-!
DEFINITION. What a station tells its peers of a chained or paired queue (spec/11 R277, R282, R283): the SYNC entry, the
credit it grants upstream, and sending an entry at once.
-/
namespace Sys2Proof.Machine

/-- `ROLE` of a SYNC entry (Table RR-4). -/
def Queue.syncRole (q : Queue) : Nat :=
  match q.role with
  | some .head => 0
  | some .middle => 1
  | some .tail => 2
  | _ => 3

/-- `ACTIVE`: the station's chain reads the pair's queue (R288, R292). -/
def Queue.pairActive (q : Queue) : Bool :=
  q.pair.paired && !q.pair.shadow && !q.pair.out && !(q.pair.stopping && q.rmsg.isNone)

/-- The read point: the MSN of the oldest message not yet wholly sent, or the element count of the next element. Where
no message waits, the number that follows the last. -/
def State.rpoint (s : State) (q : Queue) : Nat :=
  if q.b.msgMode then
    match s.unread q with
    | (_, h) :: _ => h.msn.toNat
    | [] => match q.wmsg with
      | some w => w.msn.toNat
      | none => (q.msnW.toNat + 1) % 2 ^ 32
  else q.elemsRead % 2 ^ 48

/-- Element count from bind at a stored position of a stream queue. -/
def Queue.countAt (q : Queue) (pos : Nat) : Int :=
  (q.elemsRead : Int) - q.rsub + ((pos : Int) - q.rptr) / (q.b.unitBytes : Nat) * (q.b.unitElems : Nat)

/-- A mark as R160 codes it; the message after the last one begun bears the number that follows. -/
def State.markCode (s : State) (q : Queue) (m : Mark) : Nat :=
  if !m.isSet then 0
  else if q.b.msgMode then
    if !m.next && decide (m.pos < q.wptr) then s.markMsn q m else (q.msnW.toNat + 1) % 2 ^ 32
  else unsigned 48 (q.countAt m.pos)

/-- Credits a member may have outstanding upstream: the lesser of its room and 32 KiB; none unless it takes writes. -/
def State.upRoom (s : State) (n : Nat) : Nat :=
  let q := s.q n
  if q.st = .opened || q.st = .closing then min ((s.cap n - q.sfill) / 4) 128 else 0

/-- Raises the credit granted upstream to what the room allows (R277). -/
def State.grantUp (s : State) (n : Nat) : State :=
  let q := s.q n
  if q.chain.joined && (q.role == some .middle || q.role == some .tail) then
    s.setQ n { q with chain := { q.chain with granted := max q.chain.granted (q.chain.taken + s.upRoom n) } }
  else s

/-- The SYNC entry of a queue (Table RR-4). -/
def State.syncEntry (s : State) (n : Nat) : Nat :=
  let q := s.q n
  let w (b : Bool) : Nat := if b then 1 else 0
  packNat ([(0, 13, n), (13, 1, 1), (14, 2, q.syncRole), (16, 1, w q.pairActive), (17, 1, w (q.st == .held)),
    (18, 6, q.fst.levels), (24, 1, w q.fst.cold), (25, 7, q.pair.gen), (32, 24, q.sfill), (64, 24, s.cap n),
    (96, 32, s.efill q), (128, 40, q.chainPos q.wptr), (168, 24, if q.role = some .head then 0 else q.chain.granted)] ++
    (if q.pair.paired then
      [(192, 48, s.rpoint q),
        (240, 4, packNat ((List.range 4).map fun i => (i, 1, w (q.marks.toList.getD i {}).isSet)))] ++
        (List.range 4).map fun i => (256 + 48 * i, 48, s.markCode q (q.marks.toList.getD i {}))
    else []))

/-- The stations that hear of a queue by SYNC: the other members of its chain, and the pair's other tail (R283). -/
def State.peersOf (s : State) (q : Queue) : List Nat :=
  let ms := if q.chain.joined then q.chain.stations.filter fun t => t != s.station else []
  if q.pair.paired && !ms.contains q.pair.peer then ms ++ [q.pair.peer] else ms

/-- Seals and sends one SYNC frame out of a side. -/
def State.sendSyncOn (s : State) (d : Side) (t : Nat) (payload : List Byte) : State :=
  match s.controlFrame 1 t false payload with
  | none => s
  | some (f, s) => s.pushFrame d f none

/-- A SYNC frame to a peer: by its route, or on both sides for a pair's tail. -/
def State.sendSync (s : State) (t : Nat) (both : Bool) (entries : List Nat) : State :=
  let payload := entries.flatMap (toBytes 64)
  if both then (s.sendSyncOn .east t payload).sendSyncOn .west t payload
  else match s.route t with
    | some d => s.sendSyncOn d t payload
    | none => s

/-- Sends a queue's entry to every peer at once (R283). -/
def State.syncNow (s : State) (n : Nat) : State :=
  let s := s.grantUp n
  (s.peersOf (s.q n)).foldl
    (fun s t => s.sendSync t ((s.q n).pair.paired && (s.q n).pair.peer == t) [s.syncEntry n]) s

/-- Queues whose entries a station shares with a peer. -/
def State.sharedWith (s : State) (t : Nat) : List Nat :=
  (s.queues.filter fun e => (s.peersOf e.2).contains t).map (·.1)

/-- Cuts a list into runs of four. -/
def fours {α : Type} : Nat → List α → List (List α)
  | 0, _ => []
  | _, [] => []
  | fuel + 1, xs => xs.take 4 :: fours fuel (xs.drop 4)

/-- The 1 µs SYNC turn of a peer: an entry for each queue shared with it, four to a frame (R283). -/
def State.syncTurn (s : State) (t : Nat) : State :=
  match s.sharedWith t with
  | [] => s
  | ns =>
    let s := ns.foldl State.grantUp s
    let both := ns.any fun n => (s.q n).pair.paired && (s.q n).pair.peer == t
    (fours ns.length (ns.map s.syncEntry)).foldl (fun s es => s.sendSync t both es) s

end Sys2Proof.Machine
end

