-- ==== Sys2Proof/Machine/QueueOps.lean ====
section
/-!
DEFINITION. The life of a queue (spec/02): what happens when its write or read side stops, how reasons hold and release
it, how segments leave it, how marks are released, and how CLOSING ends.
-/
namespace Sys2Proof.Machine

/-! ## Message ends on the write side (R32, R64, R130, R135, R137) -/

/-- Marks set inside a message take the position where the next one begins (R144). -/
def Queue.settleMarks (q : Queue) (pos : Nat) : Vector Mark 4 :=
  q.marks.map fun m => if m.next then { m with pos := pos, next := false } else m

/-- At a head, marks sent on inside the open message: nothing, or the removed message's first byte, is their place (R144, R279). -/
def State.settleFfMarks (s : State) (n : Nat) (removed : Option Nat) : State :=
  let q := s.q n
  if q.role = some .head && !q.chain.marks.isEmpty then
    let s := s.setQ n { q with chain := { q.chain with marks := [] } }
    match removed, q.member .east with
    | some start, some t => q.chain.marks.foldl
        (fun s m => s.sendCtrl t 6 [(2, 2, n), (4, 1, m.code), (8, 5, q.chainPos start % 2 ^ 40)]) s
    | _, _ => s
  else s

/-- Stores the header of the open message, its release time and its padding, and moves the write pointer past it. -/
def State.finishMsg (s : State) (n : Nat) (trunc : Bool) : State :=
  let q := s.q n
  match q.wmsg with
  | none => s
  | some w =>
    let h : StoredHdr := { slen := w.slen, trunc := trunc, elems := w.elems, rts := q.b.pin, msn := w.msn }
    let s := s.wrBytes q w.start (h.encode ++ (if q.b.pin then toBytes 8 w.rt else []))
    let tail := w.start + h.front + w.slen
    let s := s.wrBytes q tail (List.replicate (roundUp 8 w.slen - w.slen) 0)
    let s := s.updQ n fun q => { q with
      wmsg := none, wptr := w.start + h.size, part := [], pack := [], marks := q.settleMarks (w.start + h.size)
      truncCnt := if trunc then inc32 q.truncCnt else q.truncCnt }
    s.settleFfMarks n none

/-- Commits the samples held for a block as a last block of the open message (R64, R135); `Queue.plan` has kept its room. -/
def State.flushBlock (s : State) (n : Nat) : State :=
  let q := s.q n
  match q.wmsg with
  | none => s
  | some w =>
    if q.b.packed && !q.pack.isEmpty then
      let bs := packBlock (mantBits (storeOf q.b.wfmt)) q.b.truncate q.pack
      let s := s.wrBytes q q.wptr bs
      s.setQ n { q with
        wptr := q.wptr + bs.length, pack := []
        wmsg := some { w with slen := w.slen + bs.length, elems := w.elems + q.pack.length } }
    else s

/-- The write side of a queue stops with work in flight (R64, R131, R137). At a chain member whose write side is the
ring, stored bytes stay (R280). -/
def State.stopWrite (s : State) (n : Nat) : State :=
  let q := s.q n
  let s := s.updQ n fun q => { q with skip := none, nak := none }
  if q.b.wend = .ring then s
  else if q.b.msgMode then
    match q.wmsg with
    | none => s
    | some w =>
      let partRead := match q.rmsg with
        | some r => r.start == w.start
        | none => false
      if partRead then
        let s := if q.part.isEmpty then s else s.raiseQ 0x002 n w.msn.toNat
        (s.flushBlock n).finishMsg n true
      else
        (s.settleFfMarks n (some w.start)).updQ n fun q => { q with
          wmsg := none, wptr := w.start, part := [], pack := [], marks := q.settleMarks w.start, partialCnt := inc32 q.partialCnt
          kerb := { q.kerb with stamps := q.kerb.stamps.filter fun t => decide (t.1 < w.start) } }
  else
    let s := if q.part.isEmpty then s else (s.updQ n fun q => { q with part := [] }).raiseQ 0x002 n 0
    if q.pack.isEmpty then s
    else
      let pad := 12 - q.pack.length
      let bs := packBlock (mantBits (storeOf q.b.wfmt)) q.b.truncate (q.pack ++ List.replicate pad (0, 0))
      let s := s.wrBytes (s.q n) q.wptr bs
      (s.updQ n fun q => { q with pack := [], wptr := q.wptr + bs.length }).raiseQ 0x003 n pad

/-- The read side of a queue stops in the middle of a message: the read pointer returns to its first byte (R65). -/
def State.stopRead (s : State) (n : Nat) : State :=
  s.updQ n fun q =>
    match q.rmsg with
    | some r => if q.b.rend = .ring then q else { q with rptr := r.start, rmsg := none, rsub := 0 }
    | none => q

/-! ## Segments leaving a queue (R40) -/

/-- Pages of the queue's chain that may leave: wholly before the read point of whole messages, the oldest retained
position, the downstream COMMIT, and the page the write pointer is in. -/
def Queue.freeUpTo (q : Queue) : Nat :=
  let p := min q.oldest q.msgPos
  match q.role with
  | some .head | some .middle => if q.chain.joined then min p (q.storedPos q.chain.downCommit) else p
  | _ => p

/-- The stored position of the element `k` elements before the read side of a stream-mode queue. -/
def Queue.posBack (q : Queue) (k : Nat) : Nat := q.rptr - q.b.unitBytes * ceilDiv (k - q.rsub) q.b.unitElems

/-- At a host read end in stream mode, bytes in a buffer that has not been written back have not been sent (R40). -/
def State.freeBound (s : State) (n : Nat) : Nat :=
  let q := s.q n
  match q.b.msgMode, q.b.rend, (s.dring (ownerOf n) q.b.rring).rbuf with
  | false, .host, some (_, filled) => min q.freeUpTo (q.posBack (filled / q.b.rbytes))
  | _, _, _ => q.freeUpTo

/-- Returns the segments a queue no longer needs, rejoining its chain while it holds no more than its reserve. -/
def State.freeSegs (s : State) (n : Nat) : Nat → State
  | 0 => s
  | fuel + 1 =>
    let q := s.q n
    match q.segs with
    | [] => s
    | seg :: rest =>
      if 4096 * (q.segBase + 1) ≤ s.freeBound n then
        if q.segs.length ≤ q.b.rsvSeg then
          (s.setQ n { q with segs := rest ++ [seg], segBase := q.segBase + 1, segDenied := false }).freeSegs n fuel
        else
          ((s.setQ n { q with segs := rest, segBase := q.segBase + 1 }).returnSeg false seg).freeSegs n fuel
      else s

def State.release (s : State) (n : Nat) : State := s.freeSegs n ((s.q n).segs.length + 1)

/-! ## Marks (R141 to R157) -/

def Queue.markAt (q : Queue) (m : Nat) : Mark := q.marks.toList.getD m {}

def Queue.setMark (q : Queue) (m : Nat) (x : Mark) : Queue :=
  { q with marks := q.marks.mapIdx fun j y => if j = m then x else y }

/-- Unsets a mark; an automatic mark loses its AUTO setting with it (R147). -/
def Mark.released (m : Mark) : Mark :=
  { m with isSet := false, pos := 0, c := 0, waiting := false, next := false, auto := false
           trail := if m.auto then 0 else m.trail }

def Queue.dropMarks (q : Queue) : Queue := { q with marks := q.marks.map Mark.released }

/-- Drops every mark and its settings (R157). -/
def Queue.clearMarks (q : Queue) : Queue := { q with marks := Vector.replicate 4 {} }

/-- The read pointer passes marks in CLOSING: each is released (R63, R143). -/
def Queue.passMarks (q : Queue) (old : Nat) : Queue :=
  if q.st = .closing then
    { q with marks := q.marks.map fun m =>
        if m.behind q.rptr && decide (old < m.pos) then m.released else m }
  else q

/-! ## Host-end descriptors (R66) -/

/-- Writes back one descriptor of a data ring and passes it (R317). -/
def State.writeBack (s : State) (g r : Nat) (desc : BitVec 256) (msn len status flags : Nat) : State :=
  let d := s.dring g r
  let slot := d.ci % 2 ^ d.log2
  let s := s.emit (.hostWrite (d.base + 32 * slot + 24) 8
    (packNat [(0, 32, msn), (32, 16, len), (48, 8, status), (56, 3, flags), (63, 1, 1)]))
  let s := s.setDring g r { d with ci := next32 d.ci, rbuf := none }
  if bit desc 83 && d.vecEn then s.signalVec g d.vec else s

/-- The descriptor at the front of a data ring, with the bytes its buffer holds: the one being filled, else one that lies in host
memory, whose `IRQ` bit is a free value to the block. -/
def State.frontDesc (s : State) (g r : Nat) : BitVec 256 × Nat :=
  match (s.dring g r).rbuf with
  | some x => x
  | none => (BitVec.ofNat 256 (s.freeVal % 2 * 2 ^ 83), 0)

/-- Returns every descriptor between the indices of a data ring with ABORTED, in order. -/
def State.abortRing (s : State) (g r : Nat) : Nat → State
  | 0 => s
  | fuel + 1 =>
    let d := s.dring g r
    if d.en && decide (0 < ringDist d.pi d.ci) then
      let (desc, filled) := s.frontDesc g r
      (s.drawn.writeBack g r desc 0 filled St.aborted 0).abortRing g r fuel
    else s

def State.abortAll (s : State) (g r : Nat) : State :=
  s.abortRing g r (ringDist (s.dring g r).pi (s.dring g r).ci)

def State.abortWriteEnd (s : State) (n : Nat) : State :=
  if (s.q n).b.wend = .host then s.abortAll (ownerOf n) (s.q n).b.wring else s

def State.abortReadEnd (s : State) (n : Nat) : State :=
  if (s.q n).b.rend = .host then s.abortAll (ownerOf n) (s.q n).b.rring else s

/-! ## States (R50, R51, R63) -/

/-- A CLOSING queue that is empty releases its marks and segments, becomes CLOSED, and its closes complete (R63). DESIGN CHOICE:
a REWIND that still waits takes effect first. -/
def State.tryClose (s : State) (n : Nat) : State :=
  let q := s.q n
  if q.st = .closing && s.isEmpty q && q.rewinds.isEmpty && (q.role != some .middle && q.role != some .tail || q.chain.upClosed || q.chain.void) then
    let s := s.setQ n { q.dropMarks.spoilInterval with st := .closed, closes := [], needRoom := false, segReq := false }
    let s := (s.release n).abortReadEnd n
    s.completeAll q.closes St.ok
  else s

/-- Raises a HELD reason (Table QU-3): the first stops the queue, each posts QUEUE_HELD. An active tail whose own copy
is HELD abdicates (R288). -/
def State.hold (s : State) (n reason : Nat) : State :=
  let q := s.q n
  let m := 2 ^ reason
  if q.st = .opened || q.st = .closing || (q.st = .held && q.why / m % 2 == 0) then
    let s :=
      if q.st = .held then s.setQ n { q with why := q.why ||| m }
      else ((s.stopWrite n).stopRead n).updQ n fun q => { q with st := .held, resume := q.st, why := m }
    let s := s.updQ n fun q =>
      { q.spoilInterval with pair := if q.pair.paired && !q.pair.shadow then { q.pair with out := true } else q.pair }
    let s := s.post (ownerOf n)
      { code := 0x002, body := packNat [(0, 13, n), (16, 8, (s.q n).why), (24, 8, m)] }
    let s := s.evalFlags n
    if q.st = .held then s else s.syncNow n
  else s

/-- Clears a HELD reason; the last one resumes the queue (Table QU-3). -/
def State.unhold (s : State) (n reason : Nat) : State :=
  let q := s.q n
  if q.st = .held && q.why / 2 ^ reason % 2 == 1 then
    let why := q.why - 2 ^ reason
    if why = 0 then
      let s := s.setQ n { q with st := q.resume, resume := .unbound, why := 0 }
      let s := s.post (ownerOf n)
        { code := 0x003, body := packNat [(0, 13, n), (16, 3, qstCode q.resume)] }
      ((s.tryClose n).evalFlags n).syncNow n
    else s.setQ n { q with why := why }
  else s

/-! ## Discard, reset, release (Table QU-3, R41, R511) -/

/-- Keeps the reserved segments from the write pointer's page on and returns the others for zeroing. -/
def State.shedElastic (s : State) (n : Nat) : State :=
  let q := s.q n
  let drop := min (q.wptr / 4096 - q.segBase) q.segs.length
  let order := q.segs.drop drop ++ q.segs.take drop
  let keep := order.take q.b.rsvSeg
  let s := s.setQ n { q with segs := keep, segBase := q.segBase + drop }
  s.returnSegs true (order.drop q.b.rsvSeg)

/-- The restart of a KERBSIDE queue's measurement state; the bucket starts full (R203, R200). -/
def Kerb.restart (k : Kerb) (now cyc : Nat) : Kerb :=
  let cap := if k.policy.paceBurst = 0 then 16384 else k.policy.paceBurst
  { k with stamps := [], sojAvg := 0, sojLast := 0, nsoj := 0, sampled := false, arrRate := 0, depRate := 0
           dropPer := 0, arrBytes := 0, depBytes := 0, drops := 0, lastVisit := now
           tokens := ((256 * cap : Nat) : Int), tokensAt := cyc }

/-- Waiting closes and a waiting REWIND are overtaken: each completes SUPERSEDED (R61, Table RT-3). -/
def State.supersede (s : State) (n : Nat) : State :=
  let q := s.q n
  let waits := q.chain.headWait
  let s := s.setQ n { q with
    closes := [], rewinds := [], chain := { q.chain with headWait := waits.filter fun w => w.code != 1 } }
  s.completeAll (q.closes ++ (waits.filter fun w => w.code == 1).map (·.ref) ++ q.rewinds.filterMap (·.ref))
    St.superseded

/-- Drops data, held partial elements and marks of both sides; pointers meet after the last byte committed (R511). DESIGN CHOICE:
inside a message that position may be no multiple of 8, and the next message begins there, off the granularity of R32. -/
def State.dropData (s : State) (n : Nat) : State :=
  let s := s.updQ n fun q =>
    let wptr := match q.wmsg with
      | some w => w.start + q.front + w.slen
      | none => q.wptr
    { q.clearMarks with
      wptr := wptr, rptr := wptr, rsub := 0, wmsg := none, rmsg := none, skip := none, part := [], pack := []
      nak := none, decided := [], needRoom := false, segReq := false, segDenied := false, rewinds := []
      fst := q.fst
      kerb := q.kerb.restart s.mcount s.cyc
      pin := { q.pin with resentTo := 0, judgeTo := 0, judged := none } }
  let s := s.shedElastic n
  s.updQ n fun q => { q with fst := q.fst.restart q.csfill (s.cefill q) }

/-- After its data is dropped, a chain member's committed position is that of the command (R276). -/
def State.realign (s : State) (n pos : Nat) : State :=
  s.updQ n fun q =>
    if q.chain.joined then
      { q with chain := { q.chain with
          base := (q.wptr : Int) - pos, sendPos := pos, downCommit := pos, sent := [], gapSent := false, marks := [] } }
    else q

/-- What QUEUE_DISCARD does to a queue that is OPEN, CLOSING or HELD. -/
def State.discard (s : State) (n : Nat) : State :=
  let s := ((s.supersede n).abortWriteEnd n).abortReadEnd n
  let s := (s.dropData n).updQ n fun q => { q with st := .closed, resume := .unbound, why := 0 }
  s.evalFlags n

/-- What QUEUE_RESET does to a bound queue. -/
def State.resetQueue (s : State) (n : Nat) : State :=
  let s := ((s.supersede n).abortWriteEnd n).abortReadEnd n
  let s := (s.dropData n).updQ n fun q => { q with
    st := .ready, resume := .unbound, why := 0
    truncCnt := 0, partialCnt := 0, refusedCnt := 0, segDeny := 0, evictCnt := 0, inbandRej := 0
    hostMsn := 0, msnW := 0, msnR := 0, burstMsn := 0
    kerb := { q.kerb with sojMax := 0, admitCnt := 0, dropTail := 0, dropHead := 0, dropAge := 0, nakCnt := 0
                          window := none }
    pin := { q.pin with lateCnt := 0, maxLate := 0, earlyClamp := 0, noRt := 0, unlockedRel := 0, window := none } }
  s.evalFlags n

/-- What QUEUE_RELEASE does: final status entries, every segment returned for zeroing, the context cleared (R98). -/
def State.unbind (s : State) (n : Nat) : State :=
  let q := s.q n
  let s := s.setQ n {}
  let s := s.returnSegs true q.segs
  q.endLinks.foldl (fun s l => s.sendWord l (statusWord [packNat [(0, 13, n), (20, 1, 1), (21, 1, 1)]])) s

end Sys2Proof.Machine
end

