-- ==== Sys2Proof/Machine/Data.lean ====
section
/-!
DEFINITION. How write-side bytes become stored bytes and stored bytes become read-side bursts (spec/02, 05, 07, 08):
conversion and commit, message limits, release times, Kerbside stamps and drops, mark eviction, and the read of the
next burst.
-/
namespace Sys2Proof.Machine

/-! ## Release times (R176 to R178) -/

/-- The 64-bit time nearest a stamp whose low 40 bits are given; of two equally near, the later (R176). -/
def extend40 (stamp low : Nat) : Nat :=
  let d := (low + 2 ^ 40 - stamp % 2 ^ 40) % 2 ^ 40
  if d ≤ 2 ^ 39 || stamp + d < 2 ^ 40 then (stamp + d) % 2 ^ 64 else stamp + d - 2 ^ 40

/-- When a message's first bytes arrived, and `SOURCE` and `OFFSET` of its queue then (R177, R185). -/
structure Arrival where
  stamp : Nat
  stamped : Bool
  offset : Nat
deriving DecidableEq, Repr

/-- An arrival now at a queue. -/
def State.arrival (s : State) (n : Nat) : Arrival :=
  { stamp := s.tbNs, stamped := (s.q n).pin.stamped, offset := (s.q n).pin.offset }

/-- The release time stored for a message that begins, with the counts and errors of R176 and R178. -/
def State.releaseTime (s : State) (n : Nat) (msn : BitVec 32) (at_ : Arrival) (carried : Option Nat) : State × Nat :=
  let q := s.q n
  let stamp := at_.stamp
  let stamped := (stamp + at_.offset) % 2 ^ 64
  let (s, rt) :=
    if at_.stamped then (s, stamped)
    else match carried with
      | some t => (s, t)
      | none =>
        ((s.updQ n fun q => { q with pin := { q.pin with noRt := inc32 q.pin.noRt } }).raiseQ 0x005 n msn.toNat, stamped)
  if rt > stamp + q.pin.horizon then
    ((s.updQ n fun q => { q with pin := { q.pin with earlyClamp := inc32 q.pin.earlyClamp } }).raiseQ 0x006 n msn.toNat,
      (stamp + q.pin.horizon) % 2 ^ 64)
  else (s, rt)

/-! ## Kerbside stamps, samples and drops (R187 to R198) -/

/-- The gap g in nanoseconds (R189). -/
def Policy.gapNs (p : Policy) : Nat := 1000 * max 1 (p.target / 8)

/-- Takes a stamp at an arrival (R189). -/
def Kerb.arrive (k : Kerb) (pos now rptr : Nat) : Kerb :=
  let due := match k.stamps.getLast? with
    | none => true
    | some t => decide (k.policy.gapNs ≤ 16 * (now - t.2))
  if !due then k
  else if k.stamps.length < 8 then { k with stamps := k.stamps ++ [(pos, now)] }
  else match k.stamps with
    | _ :: t :: rest => if t.1 ≤ rptr then { k with stamps := t :: rest ++ [(pos, now)] } else k
    | _ => k

/-- The sojourn sample of a message at position `x`, in nanoseconds (R190). -/
def Kerb.sample (k : Kerb) (x now : Nat) : Option Nat :=
  match (k.stamps.filter fun t => decide (t.1 ≤ x)).getLast? with
  | some t => some (16 * (now - t.2))
  | none => k.stamps.head?.map fun t => 16 * (now - t.2)

/-- Folds a sample into the statistics (R191). -/
def Kerb.record (k : Kerb) (x : Nat) : Kerb :=
  let x := min x 0xFFFFFFFF
  { k with
    sojAvg := if k.nsoj = 0 then x else ((k.sojAvg : Int) + ((x : Int) - k.sojAvg) / 8).toNat
    sojLast := x, sojMax := max k.sojMax x, nsoj := inc8 k.nsoj, sampled := true }

inductive DropKind where
  | tail | head | age
deriving DecidableEq, Repr

/-- Counts a dropped message and opens or adds to the reporting interval (R192, R198). -/
def Kerb.drop (k : Kerb) (kind : DropKind) (msn : BitVec 32) : Kerb :=
  let w := k.window.getD { msn := msn }
  match kind with
  | .tail => { k with dropTail := inc32 k.dropTail, drops := k.drops + 1, window := some { w with tail := w.tail + 1 } }
  | .head => { k with dropHead := inc32 k.dropHead, drops := k.drops + 1, window := some { w with head := w.head + 1 } }
  | .age => { k with dropAge := inc32 k.dropAge, drops := k.drops + 1, window := some { w with age := w.age + 1 } }

/-- The read pointer moves past a stored message without sending it (R196, R197). -/
def State.skipHead (s : State) (n pos : Nat) (h : StoredHdr) (kind : DropKind) : State :=
  let s := s.updQ n fun q =>
    ({ q with rptr := pos + h.size, kerb := q.kerb.drop kind h.msn }).passMarks pos
  s.release n

/-- Whether a set mark lies at or behind the read pointer. -/
def Queue.behindMark (q : Queue) : Bool := q.marks.toList.any fun m => m.behind q.rptr

/-- The admission limit L of a queue, in stored words (R193). -/
def Queue.limit (q : Queue) : Nat := q.fcfg.afSet * q.unit

/-- Head drops while `more` asks for them and a message can be removed (R197). DESIGN CHOICE: while a message is being read none
can be, since the read pointer lies inside it. -/
def State.headDrops (s : State) (n : Nat) (more : State → Bool) : Nat → State
  | 0 => s
  | fuel + 1 =>
    let q := s.q n
    if more s && !q.behindMark && q.rmsg.isNone then
      match s.unread q with
      | (pos, h) :: _ => (s.skipHead n pos h .head).headDrops n more fuel
      | [] => s
    else s

/-! ## Eviction (R154) -/

/-- The evictable behind mark furthest back, the lower number on a tie. -/
def Queue.evictee (q : Queue) : Option Nat :=
  (List.range 4).foldl (fun best i =>
    let m := q.markAt i
    if m.evictable && m.behind q.rptr then
      match best with
      | none => some i
      | some j => if m.pos < (q.markAt j).pos then some i else some j
    else best) none

/-- Releases one evictable mark and reports it. -/
def State.evict (s : State) (n i : Nat) : State :=
  let q := s.q n
  let m := q.markAt i
  let q' := (q.setMark i m.released).spoilInterval
  let freed := q.sfill - q'.sfill
  let msn := s.markMsn q m
  let s := s.setQ n { q' with evictCnt := inc32 q.evictCnt }
  let s := s.post (ownerOf n)
    { code := 0x004, body := packNat [(0, 13, n), (16, 2, i), (32, 32, msn), (64, 32, freed)] }
  s.release n

/-- Evicts until `more` is satisfied or no evictable behind mark remains. -/
def State.evictAll (s : State) (n : Nat) (more : State → Bool) : Nat → State
  | 0 => s
  | fuel + 1 =>
    if more s then
      match (s.q n).evictee with
      | some i => (s.evict n i).evictAll n more fuel
      | none => s
    else s

/-! ## Committing write-side bytes (R12, R31, R129 to R138) -/

/-- Whole elements a message may hold (R31). -/
def Binding.maxElems (b : Binding) : Nat := min (16384 / b.wbytes) (16384 / b.rbytes)

/-- What a run of write-side bytes does to a queue: bytes to store from the write pointer, and the queue after it. -/
structure Plan where
  pos : Nat
  bytes : List Byte
  q : Queue
  tooLong : Bool
  rest : Bool
  /-- Stored position the queue must hold segments up to. -/
  needEnd : Nat

/-- Packs as many whole blocks as a sample list holds. -/
def packAll (m : Nat) (trunc : Bool) : Nat → List Sample → List Byte × List Sample
  | 0, xs => ([], xs)
  | fuel + 1, xs =>
    if xs.length < 12 then ([], xs)
    else
      let (bs, rest) := packAll m trunc fuel (xs.drop 12)
      (packBlock m trunc (xs.take 12) ++ bs, rest)

/-- The queue with a new message open at its write pointer. -/
def Queue.beginMsg (q : Queue) (msn : BitVec 32) (rt : Nat) : Queue :=
  { q with
    wmsg := some { start := q.wptr, msn := msn, rt := rt }, wptr := q.wptr + q.front, part := [], pack := [], skip := none
    msnW := msn }

/-- What accepting `bs` does; `last` ends the message. Where samples stay held for a block, room for that block is kept, so that a
stop of the write side can commit it (R64, R137; DESIGN CHOICE). DESIGN CHOICE: a message ended under R31 raises MSG_OVERSIZE
alone, and FMT_PARTIAL is not judged on the bytes that are discarded (R130). -/
def Queue.plan (q : Queue) (last : Bool) (bs : List Byte) : Plan :=
  let b := q.b
  let (es, rest) := splitElems b.wbytes (q.part.length + bs.length) (q.part ++ bs)
  let have_ := match q.wmsg with
    | some w => w.elems + q.pack.length
    | none => 0
  let room := if b.msgMode then b.maxElems - have_ else es.length
  let tooLong := decide (room < es.length)
  let es' := es.take room
  let m := mantBits (storeOf b.wfmt)
  let fin := b.msgMode && (last || tooLong)
  let (stored, pack, n) :=
    if b.packed then
      let (bs, left) := packAll m b.truncate (q.pack.length + es'.length) (q.pack ++ es'.map (toSample b))
      if fin && !left.isEmpty then (bs ++ packBlock m b.truncate left, [], q.pack.length + es'.length)
      else (bs, left, q.pack.length + es'.length - left.length)
    else (es'.flatMap (convElem b (fmtOf b.wfmt) b.storedFmt), [], es'.length)
  let wptr := q.wptr + stored.length
  let wmsg := q.wmsg.map fun w =>
    { w with received := w.received + bs.length, elems := w.elems + n, slen := w.slen + stored.length }
  let keep := if b.packed && !pack.isEmpty && !q.storeForward then blockBytes m else 0
  let pad := match wmsg with
    | some w => if fin || decide (0 < keep) then roundUp 8 (w.slen + keep) - w.slen else 0
    | none => keep
  { pos := q.wptr, bytes := stored, tooLong := tooLong, rest := last && !tooLong && !rest.isEmpty && b.msgMode
    needEnd := wptr + pad
    q := { q with wptr := wptr, wmsg := wmsg, part := if fin then [] else rest, pack := pack } }

/-- Asks for the next segment when the write pointer is in the last 1 KiB of the last one held, or past it (R39). -/
def State.askSegment (s : State) (n : Nat) : State :=
  s.updQ n fun q =>
    if q.st = .opened && q.heldEnd ≤ q.wptr + 1024 && !q.segReq && (!q.segDenied || decide (q.heldEnd ≤ q.wptr)) then
      { q with segReq := true }
    else q

/-- A burst or descriptor waits for room: the queue engine goes on asking (R39). -/
def State.waitRoom (s : State) (n : Nat) : State :=
  s.updQ n fun q => { q with needRoom := true, segReq := q.segReq || !q.segDenied }

/-- Commits a plan, ending the message where `last` or a limit asks for it, and evaluates the flags. -/
def State.commit (s : State) (n : Nat) (p : Plan) (last : Bool) : State :=
  let s := s.ungate.wrBytes (s.q n) p.pos p.bytes
  let s := s.setQ n { p.q with needRoom := false }
  let s := match p.q.wmsg with
    | none => s
    | some w =>
      if p.tooLong then
        let s := s.finishMsg n true
        let s := if last then s else s.updQ n fun q => { q with skip := some (w.msn, w.received) }
        s.raiseQ 0x001 n w.msn.toNat
      else if last then
        let s := s.finishMsg n false
        if p.rest then s.raiseQ 0x002 n w.msn.toNat else s
      else s
  (s.askSegment n).evalFlags n

/-- Whether a plan fits in the segments a queue holds. -/
def Queue.fits (q : Queue) (p : Plan) : Bool := decide (p.needEnd ≤ q.heldEnd)

/-! ## Reading (R36, R129, R134, R239, R319) -/

/-- Read-side bytes of elements `i`, `i+1`, … of a directly stored payload. -/
def State.readDirect (s : State) (q : Queue) (payload : Nat) (i : Nat) : Nat → List Byte
  | 0 => []
  | k + 1 =>
    let sb := fmtBytes q.b.storedFmt
    convElem q.b q.b.storedFmt (fmtOf q.b.rfmt) (s.rdBytes q (payload + sb * i) sb) ++ s.readDirect q payload (i + 1) k

/-- Read-side bytes of samples `i`, `i+1`, … of a packed payload. -/
def State.readPacked (s : State) (q : Queue) (payload : Nat) (i : Nat) : Nat → List Byte
  | 0 => []
  | k + 1 =>
    let m := mantBits (storeOf q.b.wfmt)
    let block := s.rdBytes q (payload + blockBytes m * (i / 12)) (blockBytes m)
    ((unpackBlock m block 12).drop (i % 12)).head?.toList.flatMap (sampleOut q.b) ++ s.readPacked q payload (i + 1) k

def State.readElems (s : State) (q : Queue) (payload i k : Nat) : List Byte :=
  if q.b.packed then s.readPacked q payload i k else s.readDirect q payload i k

/-- Stored bytes from a payload's first byte up to the unit that holds element `i`. -/
def Binding.unitOff (b : Binding) (i : Nat) : Nat := b.unitBytes * (i / b.unitElems)

/-- The message the read side is in or would begin: position, MSN, elements readable, whether it is complete and
truncated, and its release time. -/
structure Head where
  pos : Nat
  msn : BitVec 32
  elems : Nat
  complete : Bool
  trunc : Bool
  size : Nat
deriving DecidableEq, Repr

/-- The message at the read side, if one is readable (R36). -/
def State.head (s : State) (q : Queue) : Option Head :=
  if q.msgPos < q.msgEnd then
    let h := s.hdrAt q q.msgPos
    some { pos := q.msgPos, msn := h.msn, elems := h.elems, complete := true, trunc := h.trunc, size := h.size }
  else match q.wmsg with
    | some w =>
      if q.storeForward || w.start != q.msgPos || w.elems = 0 then none
      else some { pos := w.start, msn := w.msn, elems := w.elems, complete := false, trunc := false, size := 0 }
    | none => none

/-- Release time of a pinned message at a position (R175). -/
def State.rtAt (s : State) (q : Queue) (pos : Nat) : Nat := ofBytes (s.rdBytes q (pos + 8) 8)

/-- A run of read-side elements taken from a queue: what a burst or host buffer carries. -/
structure Chunk where
  msn : BitVec 32
  first : Bool
  last : Bool
  trunc : Bool
  off : Nat
  payload : List Byte
  /-- Stored range it came from. -/
  lo : Nat
  len : Nat
  elems : Nat
deriving DecidableEq, Repr

/-- Elements the read side can take now. -/
def State.readable (s : State) (q : Queue) : Nat :=
  if q.b.msgMode then
    match s.head q with
    | some h => h.elems - (q.rmsg.map (·.sent)).getD 0
    | none => 0
  else s.efill q

/-- Largest number of whole read-side elements in `room` bytes. -/
def Binding.fitElems (b : Binding) (room : Nat) : Nat := room / b.rbytes

/-- The elements a burst or buffer would take: whole slots only in the bursts of a paired stream queue (R290). -/
def State.takeCount (s : State) (q : Queue) (room : Nat) : Nat :=
  let k := min (q.b.fitElems room) (s.readable q)
  if q.pair.paired && !q.b.msgMode then
    let slot := q.b.fitElems 2048
    let want := slot - q.elemsRead % slot
    match q.b.rend with
    | .link _ => if want ≤ s.readable q then want else 0
    | _ => k
  else k

/-- Moves an automatic mark when the read side begins the message at `x` (R147). DESIGN CHOICE: a message begun again after HELD
counts again, as R147's procedure counts each FIRST burst. -/
def State.autoStep (s : State) (q : Queue) (x : Nat) (m : Mark) : Mark :=
  if !m.isSet || !m.auto then m
  else if m.waiting then (if x = m.pos then { m with waiting := false } else m)
  else
    let c := if x = m.pos then m.c else m.c + 1
    if c > m.trail then { m with pos := m.pos + (s.hdrAt q m.pos).size, c := c - 1 } else { m with c := c }

/-- Takes up to `room` bytes of read-side elements of a queue, and moves its read pointer past them. A message whose
elements have all been sent and that ended meanwhile leaves without a further burst. -/
def State.take (s : State) (n room : Nat) : Option (Chunk × State) :=
  let q := s.q n
  if q.rmsg.isNone && !q.rewinds.isEmpty then none
  else if q.b.msgMode then
    match s.head q with
    | none => none
    | some h =>
      let k := s.takeCount q room
      let sent := (q.rmsg.map (·.sent)).getD 0
      let off := (q.rmsg.map (·.off)).getD 0
      let first := q.rmsg.isNone
      if k = 0 && !(h.complete && first && h.elems = 0) then none
      else
        let payload := h.pos + q.front
        let data := s.readElems q payload sent k
        let last := h.complete && decide (sent + k = h.elems)
        let lo := payload + q.b.unitOff sent
        let hi := payload + q.b.unitOff (sent + k + q.b.unitElems - 1)
        let marks := if first then q.marks.map (s.autoStep q h.pos) else q.marks
        let q' := { q with
          marks := marks
          msnR := if first then h.msn else q.msnR
          rptr := if last then h.pos + h.size else payload + q.b.unitOff (sent + k)
          rmsg := if last then none else some { start := h.pos, msn := h.msn, sent := sent + k, off := off + data.length }
          elemsRead := q.elemsRead + k }
        some ({ msn := h.msn, first := first, last := last, trunc := h.trunc, off := off, payload := data
                lo := lo, len := hi - lo, elems := k }, s.setQ n (q'.passMarks q.rptr))
  else
    let k := s.takeCount q room
    if k = 0 then none
    else
      let data := s.readElems q q.rptr q.rsub k
      let e := q.rsub + k
      let hi := q.rptr + q.b.unitOff (e + q.b.unitElems - 1)
      let q' := { q with rptr := q.rptr + q.b.unitOff e, rsub := e % q.b.unitElems, elemsRead := q.elemsRead + k }
      some ({ msn := 0, first := true, last := true, trunc := false, off := 0, payload := data
              lo := q.rptr, len := hi - q.rptr, elems := k }, s.setQ n (q'.passMarks q.rptr))

/-- A message whose every element was sent before it ended leaves the read side (R64). -/
def State.dropSentHead (s : State) (n : Nat) : State :=
  let q := s.q n
  match q.rmsg, s.head q with
  | some r, some h =>
    if h.complete && decide (r.sent = h.elems) then
      s.setQ n ({ q with rptr := h.pos + h.size, rmsg := none }.passMarks q.rptr)
    else s
  | _, _ => s

/-! ## The horizon rule (R178) -/

/-- Judges the head message of a pinned queue against the current time, once after each step or PIN_SET. In a chain only the tail's
messages wait for release. -/
def State.judgeHead (s : State) (n : Nat) : State :=
  let q := s.q n
  match s.head q with
  | none => s
  | some h =>
    if q.b.pin && q.role != some .head && q.role != some .middle && q.rmsg.isNone && decide (q.pin.resentTo ≤ h.pos) && decide (h.pos < q.pin.judgeTo) &&
        q.pin.judged != some h.pos then
      let s := s.updQ n fun q => { q with pin := { q.pin with judged := some h.pos } }
      if s.rtAt q h.pos > s.tbNs + q.pin.horizon then
        let s := s.wrBytes q (h.pos + 8) (toBytes 8 (s.tbNs + q.pin.horizon))
        (s.updQ n fun q => { q with pin := { q.pin with earlyClamp := inc32 q.pin.earlyClamp } }).raiseQ 0x006 n h.msn.toNat
      else s
    else s

/-- Every message now waiting is to be judged, the head message at once. DESIGN CHOICE: a message still being written counts as
waiting. -/
def State.rejudge (s : State) (n : Nat) : State :=
  let s := s.updQ n fun q => { q with pin := { q.pin with judgeTo := q.wptr, judged := none } }
  s.judgeHead n

/-! ## After a read -/

/-- After a read: the segments that may leave do, a CLOSING queue may close, the flags are evaluated, the next
head message is judged (R178), and an active tail that a FAILOVER stops reports that it has finished its message (R292). -/
def State.afterRead (s : State) (n : Nat) : State :=
  let s := (((s.ungate.release n).tryClose n).evalFlags n).judgeHead n
  if (s.q n).pair.stopping && (s.q n).rmsg.isNone then s.syncNow n else s

/-! ## Kerbside begin and pace (R196, R199, R200) -/

def Policy.burstCap (p : Policy) : Nat := if p.paceBurst = 0 then 16384 else p.paceBurst

/-- Tokens in the bucket now, in 1/256 byte. -/
def Kerb.tokensNow (k : Kerb) (cyc : Nat) : Int :=
  min ((256 * k.policy.burstCap : Nat) : Int) (k.tokens + ((cyc - k.tokensAt) * k.paceNow * 16 / 625 : Nat))

/-- Whether the pace lets the read side begin a message. -/
def Kerb.mayBegin (k : Kerb) (cyc : Nat) : Bool := decide (k.paceNow = 0) || decide (0 < k.tokensNow cyc)

/-- The read side begins a message of `len` read-side bytes at position `x`: its sample and its tokens. -/
def Kerb.begin_ (k : Kerb) (x len now cyc : Nat) : Kerb :=
  let k := match k.sample x now with
    | some v => k.record v
    | none => k
  let k := { k with depBytes := k.depBytes + len }
  if k.paceNow = 0 then k else { k with tokens := k.tokensNow cyc - ((256 * len : Nat) : Int), tokensAt := cyc }

/-- Ages out messages about to begin (R196): each judged in turn, its sample recorded when it is dropped. -/
def State.ageOut (s : State) (n : Nat) : Nat → State
  | 0 => s
  | fuel + 1 =>
    let q := s.q n
    if q.b.kerb && q.kerb.policy.dropmode == 2 && decide (0 < q.kerb.policy.ageMax) && q.rmsg.isNone &&
        q.kerb.mayBegin s.cyc then
      match s.unread q with
      | (pos, h) :: _ =>
        match q.kerb.sample pos s.mcount with
        | some v =>
          if v > 1000 * q.kerb.policy.ageMax then
            ((s.updQ n fun q => { q with kerb := q.kerb.record v }).skipHead n pos h .age).ageOut n fuel
          else s
        | none => s
      | [] => s
    else s

end Sys2Proof.Machine
end

