-- ==== Sys2Proof/Machine/HostCmd.lean ====
section
/-!
DEFINITION. Marks, rewinds and the commands' shared checks: who owns a queue, and what a command's fields are.
-/
namespace Sys2Proof.Machine

/-- R29: function 0 may command any queue, a VF those of its own group. -/
def owns (fn q : Nat) : Bool := actsAs fn == 0 || actsAs fn == ownerOf q

/-- `QID` of a queue command (R52). -/
def qidOf (d : Block512) : Nat := fld d 128 13

/-- A `RESULT_ADDR` that is legal: 64-byte aligned, and 0 in a start-up command (R448). -/
def resultOk (r : CmdRef) (a : Nat) : Bool := a % 64 == 0 && (r.fn != startupFn || a == 0)

/-- Whether the station may take a chain-state command: at the head, or alone once the chain is void (R276, R284). -/
def Queue.atHead (q : Queue) : Bool := !q.chained || q.role == some .head

/-! ## Marks (R144, R147 to R149) -/

/-- The position a mark takes at the read or write pointer, and whether it waits for the next message (R144). -/
def Queue.markPos (q : Queue) (atWrite : Bool) : Nat × Bool :=
  if atWrite then (q.wptr, q.b.msgMode && q.wmsg.isSome)
  else (if q.b.msgMode then q.msgPos else q.rptr, false)

/-- Sets a mark at a pointer, keeping its settings; its count restarts (R144, R145, R147). -/
def State.placeMark (s : State) (n m : Nat) (atWrite : Bool) : State :=
  let s := s.updQ n fun q =>
    let (pos, next) := q.markPos atWrite
    q.setMark m { q.markAt m with isSet := true, pos := pos, next := next, c := 0, waiting := false }
  (s.release n).evalFlags n

/-- An in-band mark at the write pointer: set here, or carried by a chain's head to the tail with the head's write position (R158,
R279). -/
def State.writeMark (s : State) (n m : Nat) : State :=
  let q := s.q n
  if q.chained then
    match q.member .east with
    | some t =>
      let s := s.sendCtrl t 6 [(2, 2, n), (4, 1, m), (8, 5, q.committed % 2 ^ 40)]
      if q.b.msgMode && q.wmsg.isSome then
        s.updQ n fun q => { q with chain := { q.chain with marks := q.chain.marks ++ [{ code := m, pos := q.committed }] } }
      else s
    | none => s
  else s.placeMark n m true

/-- An automatic mark after a rewind over `r` messages to position `t` (R147). -/
def Mark.afterRewind (m : Mark) (t r : Nat) : Mark :=
  if !m.isSet || !m.auto then m
  else if t > m.pos then { m with c := m.c - r } else { m with c := 0, waiting := decide (t ≠ m.pos) }

/-- The read pointer moves back to a target (R148, R101). -/
def State.rewindTo (s : State) (n t : Nat) : State :=
  let q := s.q n
  let r := if q.b.msgMode then
      (s.msgsFrom { q with wmsg := none, wptr := q.rptr } ((q.rptr - t) / 8 + 1) t).length
    else 0
  let back := if q.b.msgMode then 0 else (q.rptr - t) / q.b.unitBytes * q.b.unitElems + q.rsub
  let s := s.setQ n ({ q with
    rptr := t, rsub := 0, rmsg := none, elemsRead := q.elemsRead - back
    marks := q.marks.map (Mark.afterRewind · t r)
    pin := { q.pin with resentTo := max q.pin.resentTo q.rptr } }).spoilInterval
  s.evalFlags n

/-- Whether a REWIND can take effect now: no message is being read (R149, R157). -/
def Queue.atBoundary (q : Queue) : Bool := q.rmsg.isNone

/-- The mark result block (Table RT-4). -/
def State.markBlock (s : State) (n : Nat) : Nat :=
  let q := s.q n
  let bits (f : Mark → Bool) : Nat := packNat ((List.range 4).map fun i => (i, 1, if f (q.markAt i) then 1 else 0))
  let retain := if q.retaining.isEmpty then 0 else (roundDown 64 q.rptr - roundDown 64 q.oldest) / 64
  packNat ([(0, 4, bits (·.isSet)), (4, 4, bits fun m => m.isSet && !m.behind q.rptr), (8, 4, bits (·.auto)),
    (12, 4, bits (·.evictable)), (32, 32, retain), (64, 32, q.evictCnt), (96, 32, q.inbandRej)] ++
    (List.range 4).map (fun i => (128 + 32 * i, 32, s.markMsn q (q.markAt i))) ++
    (List.range 4).map (fun i => (256 + 64 * i, 64, if (q.markAt i).isSet then q.markAtPos (q.markAt i) else 0)))

/-- Whether a REWIND to a mark is legal: its status (R148). -/
def Queue.rewindStatus (q : Queue) (m : Nat) : Nat :=
  if !(q.markAt m).isSet then St.markUnset
  else if !(q.markAt m).behind q.rptr then St.markAhead
  else St.ok

/-- A waiting REWIND takes effect and completes. -/
def State.applyRewind (s : State) (n : Nat) (w : RewindWait) : State :=
  let s := (s.rewindTo n w.target).tryClose n
  match w.ref with
  | some r => s.completeResult r w.result (s.markBlock n) St.ok
  | none => s

/-- Accepts a REWIND: at once where no message is being read, else it waits with its target fixed (R149). -/
def State.startRewind (s : State) (n : Nat) (w : RewindWait) : State :=
  if (s.q n).atBoundary then s.applyRewind n w
  else s.updQ n fun q => { q with rewinds := q.rewinds ++ [w] }

/-- Unsets a mark and frees what it alone retained (R152). -/
def State.releaseMark (s : State) (n m : Nat) : State :=
  let s := s.updQ n fun q => (q.setMark m (q.markAt m).released).spoilInterval
  ((s.release n).tryClose n).evalFlags n

/-- The first failing condition of a list, else OK. -/
def firstFail : List (Bool × Nat) → Nat
  | [] => St.ok
  | (c, st) :: rest => if c then st else firstFail rest

end Sys2Proof.Machine
end

