-- ==== Sys2Proof/Machine/LinkOps.lean ====
section
/-!
DEFINITION. What a trained side is to the rest of the device (spec/09, spec/11 R262, R271, R295): its configuration,
training attempts, coming up, going down, disabling and block reset, for Barward links and ring sides alike.
-/
namespace Sys2Proof.Machine

/-! ## A side's registers and settings -/

def State.phy (s : State) : Phy → PhyState
  | .link n => (s.link n.val).phy
  | .side d => (s.side d).phy

def State.setPhy (s : State) (p : Phy) (x : PhyState) : State :=
  match p with
  | .link n => s.updLink n.val fun l => { l with phy := x }
  | .side d => s.updSide d fun r => { r with phy := x }

def State.updPhy (s : State) (p : Phy) (f : PhyState → PhyState) : State := s.setPhy p (f (s.phy p))

/-- The receiver's counts since its last unit reach `FECC`, `FECU` and `BIPE` (R220, Tables BP-11, RR-12); with FEC None there are no
codewords. -/
def State.countLanes (s : State) (p : Phy) (c : LaneCounts) : State :=
  s.updPhy p fun x => { x with
    fecc := if x.cfg.fec = 0 then x.fecc else satAdd 0xFFFFFFFF x.fecc c.corrected
    fecu := if x.cfg.fec = 0 then x.fecu else satAdd 0xFFFFFFFF x.fecu c.failed
    bipe := satAdd 0xFFFFFFFF x.bipe c.bip }

/-- Links are coded 0 to 7, the east side 8 and the west side 9 (Tables ER-1, HI-11). -/
def phyCode : Phy → Nat
  | .link n => n.val
  | .side .east => 8
  | .side .west => 9

/-- Lanes of a link in its port's split, and the 4 of a ring side (R211, R262). -/
def State.phyLanes (s : State) : Phy → Nat
  | .link n => s.lanes n.val
  | .side _ => 4

def State.phyEn (s : State) : Phy → Bool
  | .link n => (s.link n.val).en && s.linkPresent n.val
  | .side .east => bit s.ring.cfg 4
  | .side .west => bit s.ring.cfg 5

/-- The power domain a side lies in, by its bit of `PWRVOTE` (Table PW-1). -/
def phyDomain : Phy → Nat
  | .link n => if n.val < 4 then 2 else 3
  | .side _ => 4

/-- Whether a side's transmitters and receivers are powered and clocked: its domain is on in Run or Idle (R230). -/
def State.phyPowered (s : State) (p : Phy) : Bool :=
  bit s.power.domains (phyDomain p) && (s.power.cur == .run || s.power.cur == .idle)

/-- The settings read at step 1 of an attempt (R226); a ring side's are fixed (R262). -/
def State.readTrainCfg (s : State) : Phy → TrainCfg
  | .link n =>
    let c := (s.link n.val).cfg
    { nrz := bit c 1, fec := fld c 2 2, txRev := bit c 4, autoPol := bit c 5, verMax := bit c 6 }
  | .side _ => { nrz := false, fec := 2, txRev := false, autoPol := true, verMax := false }

/-- An illegal lane mode: PAM4 without FEC, or `FEC` = 3 (R213). -/
def TrainCfg.illegal (c : TrainCfg) : Bool := c.fec == 3 || (!c.nrz && c.fec == 0)

def widthCode (lanes : Nat) : Nat := if lanes = 16 then 0 else if lanes = 8 then 1 else 2

/-- `LINKn_STAT` and `RINGs_STAT` (Tables BP-11, RR-12). -/
def PhyState.stat (x : PhyState) (off : Bool) : Nat :=
  packNat [(0, 3, if off then 0 else lstateCode x.st), (3, 1, if x.st = .up && !off then x.ver else 0), (4, 4, x.fail),
    (8, 8, x.downCnt), (16, 8, x.trainFail)]

/-! ## Attempts (R213, R223, R224) -/

/-- Reports a failed attempt's cause, once for each change of it (R224). -/
def State.noteFail (s : State) (p : Phy) (cause : Nat) : State :=
  let x := s.phy p
  let s := s.setPhy p { x with trainFail := inc8 x.trainFail, fail := cause, raised := cause }
  if x.raised = cause then s else s.raise 0x202 none (phyCode p) cause 0

/-- Reports an illegal mode once (R213). -/
def State.noteCfg (s : State) (p : Phy) : State :=
  let x := s.phy p
  if x.cfgRaised then s
  else
    let v := match p with
      | .link n => (s.link n.val).cfg.toNat
      | .side _ => 0
    (s.setPhy p { x with cfgRaised := true }).raise 0x201 none (phyCode p) 2 v

/-- The state at step 1 of an attempt, with the settings read. -/
def PhyState.begin_ (x : PhyState) (c : TrainCfg) (st : LState) : PhyState :=
  { x with
    st := st, cfg := c, lanes := [], done := false, eqGood := 0, dataMode := false, cfgWait := false, txIdle := false,
    count := 0, frame := 0 }

/-- Step 1 of an attempt in a state; an illegal configuration fails it there (R213, R226). -/
def State.beginAttempt (s : State) (p : Phy) (st : LState) : State :=
  let c := s.readTrainCfg p
  if c.illegal then
    ((s.updPhy p fun x => { x.begin_ c .lock with cfgWait := true, txIdle := true }).noteCfg p).noteFail p 6
  else s.updPhy p fun x => x.begin_ c st

/-- A failed attempt: LOCK frames again from step 1 (R224). -/
def State.failAttempt (s : State) (p : Phy) (cause : Nat) : State := (s.noteFail p cause).beginAttempt p .lock

/-- Whether a side is within an attempt, after step 1. -/
def PhyState.training (x : PhyState) : Bool :=
  !x.cfgWait && (x.st == .lock || x.st == .eq || x.st == .caps || x.st == .ready)

/-! ## Down (R228, R271) -/

/-- Every queue of a link gains LINK_CLOSED (R67). -/
def State.holdLink (s : State) (n : Nat) : State :=
  (s.queues.filter fun e => e.2.endLinks.contains n).foldl (fun s e => s.hold e.1 0) s

/-- A link's state above the physical layer when it leaves UP: credit, votes and turns restart (R228, R244, R254). -/
def Link.down (l : Link) : Link :=
  { l with
    credits := [], staged := l.staged.map fun b => { b with cost := 0 }
    votes := 0, idleLead := false, reserved := none, sinceKerb := 0, rx := l.rx.clockedBy false }

/-- Control operations of a list of frames that R271 sends again. -/
def keptOps (fs : List SentFrame) : List (Nat × List Byte) := fs.filterMap (·.ctrl)

/-- A ring side's hop state when it goes down (R271). -/
def RingSide.down (x : RingSide) : RingSide :=
  { x with
    txSeq := 0, rxSeq := 0, resend := [], transit := [], ctrlq := [], again := x.again ++ keptOps (x.resend ++ x.ctrlq)
    gap := false, owesAck := false, helloSeen := false, rx := x.rx.clockedBy false }

/-- What leaving UP does above the physical layer. -/
def State.leaveUp (s : State) (p : Phy) : State :=
  let s := s.post 0 { code := 0x012, body := packNat [(0, 4, phyCode p), (8, 8, (s.phy p).downCnt)] }
  match p with
  | .link n => (s.updLink n.val Link.down).holdLink n.val
  | .side d => s.updSide d RingSide.down

/-- An UP side leaves UP, counted and reported (R228). -/
def State.phyLeave (s : State) (p : Phy) : State :=
  if (s.phy p).st = .up then (s.updPhy p fun x => { x with downCnt := inc8 x.downCnt }).leaveUp p else s

/-- An UP side goes down and returns to step 1 of training (R228). -/
def State.phyDown (s : State) (p : Phy) : State :=
  if (s.phy p).st = .up then (s.phyLeave p).beginAttempt p .lock else s

/-- The side leaves whatever it does for a state in which its transmitters are idle. -/
def State.phyStop (s : State) (p : Phy) (st : LState) : State :=
  let s := s.phyLeave p
  s.updPhy p fun x =>
    { x with
      st := st, lanes := [], done := false, eqGood := 0, dataMode := false, cfgWait := false, txIdle := true,
      count := 0, frame := 0 }

/-- `EN` is 1: the side waits for signal, or fails at step 1 where its mode is illegal (R213, R223). -/
def State.phyEnable (s : State) (p : Phy) : State :=
  if s.phyEn p && (s.phy p).st == .disabled && s.phyPowered p then s.beginAttempt p .sigdet else s

/-- A write of `EN`, `RST` apart: errors may be raised again (R213, R224), and the side is enabled or stopped. -/
def State.phyWriteEn (s : State) (p : Phy) : State :=
  let s := s.updPhy p fun x => { x with raised := 0, cfgRaised := false }
  if s.phyEn p then s.phyEnable p
  else if (s.phy p).st = .disabled || (s.phy p).st = .reset then s
  else s.phyStop p .disabled

/-- Crosswalk cells of a side (Table CW-1). -/
def phyCells : Phy → List Nat
  | .link n => [n.val, 8 + n.val]
  | .side .east => [0x10, 0x12]
  | .side .west => [0x11, 0x13]

def State.resetCells (s : State) (cs : List Nat) : State := { s with cells := cs.foldl SMap.erase s.cells }

/-- A block reset of a side: counters and Crosswalks cleared, data in flight as when it goes down (R229, R295). -/
def State.phyReset (s : State) (p : Phy) : State :=
  let s := s.phyStop p .reset
  let s := s.setPhy p { st := .reset }
  let s := match p with
    | .link n => s.updLink n.val fun l =>
        { l with hcse := 0, rxrej := 0, crce := 0, seale := 0, cwe := 0, naks := 0, rx := {}, tx := {} }
    | .side d => s.updSide d fun x =>
        { x with resendCnt := 0, rxrej := 0, authe := 0, epoche := 0, tdrop := 0, rx := {}, tx := {} }
  s.resetCells (phyCells p)

/-- A block reset ends: the side trains again if it is enabled. -/
def State.phyResetDone (s : State) (p : Phy) : State :=
  if (s.phy p).st = .reset then (s.updPhy p fun x => { x with st := .disabled }).phyEnable p else s

/-! ## Up (R223, R271, R278) -/

/-- The LINK_CLOSED reason clears from queues whose every link is UP (Table QU-4); never after a removal (R212). -/
def State.unholdLink (s : State) (n : Nat) : State :=
  (s.queues.filter fun e => e.2.endLinks.contains n && !e.2.removed).foldl
    (fun s e => if e.2.endLinks.all fun l => (s.link l).phy.st == .up then s.unhold e.1 0 else s) s

/-- The upstream member resumes a chained queue from a position (R278), with the credit used up to there. -/
def Chain.resume (c : Chain) (pos : Nat) : Chain :=
  match c.sent.find? fun e => e.1 == pos with
  | some (_, used) =>
    { c with sendPos := pos, ffUsed := used, sent := c.sent.filter fun e => decide (e.1 < pos), gapSent := false }
  | none => { c with sendPos := min c.sendPos pos }

/-- After UP, a side sends again what R271 names, and the station's chained queues downstream resume (R278). -/
def State.sideUp (s : State) (d : Side) : State :=
  let ops := (s.side d).again
  let s := s.updSide d fun x => { x with again := [], repeats := x.applied }
  let s := ops.foldl (fun s (dst, payload) =>
    if dst = 0 && payload.headD 0 = 9 then
      match s.controlFrame 2 0 true payload with
      | some (f, s) => s.pushFrame d f (some (dst, payload))
      | none => s
    else s.sendCtrlOn d dst payload true) s
  if d = .east then
    (s.queues.filter fun e => e.2.chained && (e.2.role == some .head || e.2.role == some .middle)).foldl
      (fun s e => s.updQ e.1 fun q => { q with chain := q.chain.resume q.chain.downCommit }) s
  else s

/-- Marker lock on every lane: the side is UP (R223 step 7), and its receive half runs from the recovered clock (R85). -/
def State.phyUp (s : State) (p : Phy) : State :=
  let s := s.updPhy p fun x => { x with st := .up, fail := 0, raised := 0, dataMode := false }
  let s := s.post 0 { code := 0x011, body := packNat [(0, 4, phyCode p), (4, 1, (s.phy p).ver)] }
  match p with
  | .link n =>
    ((s.updLink n.val fun l => { l with credits := [], votes := 0, rx := l.rx.clockedBy true }).sendWord n.val
      s.timeWord).unholdLink n.val
  | .side d => (s.updSide d fun x => { x with helloSeen := false, rx := x.rx.clockedBy true }).sideUp d

end Sys2Proof.Machine
end

