-- ==== Sys2Proof/Machine/Memory.lean ====
section
/-!
DEFINITION. Where stored words lie in the Plaza's banks, and what an uncorrectable error in them does (spec/13 R326 to
R330).
-/
namespace Sys2Proof.Machine

/-- A place in the Plaza: bank, granule and row. -/
structure Place where
  bank : Nat
  granule : Nat
  row : Nat
deriving DecidableEq, Repr

/-- A location as errors carry it (Table ER-1). -/
def Place.code (p : Place) : Nat := packNat [(0, 5, p.bank), (5, 3, p.granule), (8, 17, p.row)]

/-- The bank and row of a stored word, by 64·segment + word (R326, R327). -/
def placeOf (wordIdx granule : Nat) : Place :=
  let seg := wordIdx / 64
  let w := wordIdx % 64
  let j := seg % 8192
  { bank := 8 * (seg / 8192) + (w / 8 + j) % 8, granule := granule, row := 8 * j + w % 8 }

/-- The stored word at a bank and row: R327 read backwards; none for a check row. -/
def wordAt (bank row : Nat) : Option Nat :=
  if row < 65536 then
    let j := row / 8
    let k := (bank % 8 + 8 - j % 8) % 8
    some (64 * (8192 * (bank / 8) + j) + 8 * k + row % 8)
  else none

/-- Counts an uncorrectable error of a quarter. -/
def State.countUe (s : State) (quarter : Nat) : State :=
  { s with plaza := setQuarter s.plaza quarter fun x => { x with ue := inc32 x.ue } }

def State.countCe (s : State) (quarter : Nat) : State :=
  { s with plaza := setQuarter s.plaza quarter fun x => { x with ce := inc32 x.ce } }

/-- Stored words with an uncorrectable error that a range of a queue's stored space reads. -/
def State.badWords (s : State) (q : Queue) (pos : Nat) : Nat → List Nat
  | 0 => []
  | n + 1 =>
    let here := match q.addr pos with
      | some a => if SMap.get 0 s.plaza.bad (a / 64) != 0 then [a / 64] else []
      | none => []
    let rest := s.badWords q (pos + 1) n
    match here, rest with
    | [a], b :: _ => if a = b then rest else a :: rest
    | [a], [] => [a]
    | _, _ => rest

/-- Counts and reports each uncorrectable word that a read of payload meets (R330). -/
def State.reportUe (s : State) (n : Nat) (words : List Nat) (chainPos : Nat) : State :=
  words.foldl (fun s w =>
    (s.countUe (w / 64 / 8192)).raise 0x602 none (placeOf w (SMap.get 0 s.plaza.bad w - 1)).code n chainPos) s

/-- A stored header or release-time word with an uncorrectable error is fatal (R330). -/
def State.headerUe (s : State) (n : Nat) (words : List Nat) : State :=
  match words with
  | w :: _ =>
    (s.countUe (w / 64 / 8192)).raise 0x603 none (placeOf w (SMap.get 0 s.plaza.bad w - 1)).code n 0
  | [] => s

end Sys2Proof.Machine
end

