-- ==== Sys2Proof/Machine/Write.lean ====
section
/-!
DEFINITION. The write side's last steps, shared by Barward bursts and host descriptors: admission of Kerbside messages,
room for what arrives, and its commit (spec/02 R31 to R40, spec/08 R193 to R197, Table BL-4 check 9).
-/
namespace Sys2Proof.Machine

/-- A run of write-side bytes of one message: a burst, a record of a `PACKED` burst, or a host descriptor. -/
structure Piece where
  msn : BitVec 32
  first : Bool
  last : Bool
  bytes : List Byte
  /-- The release time the writer supplies, extended to 64 bits. -/
  rt : Option Nat := none
deriving DecidableEq, Repr

/-! ## Room (R39, R195) -/

/-- Segments one burst, record run or descriptor can need at once. -/
def growFuel : Nat := 24

def State.reaches (s : State) (n need : Nat) : Bool := decide (need ≤ ((s.growTo n need growFuel).q n).heldEnd)

/-- Stored space a list of pieces needs, from the queue's write pointer. -/
def Queue.needFor (q : Queue) : List Piece → Nat
  | [] => q.wptr
  | p :: ps =>
    let q := if p.first && q.b.msgMode then q.beginMsg p.msn 0 else q
    let pl := q.plan p.last p.bytes
    match ps with
    | [] => pl.needEnd
    | _ => Queue.needFor { pl.q with wptr := pl.needEnd, wmsg := if p.last then none else pl.q.wmsg } ps

/-- Room for a Kerbside burst: segments, then evictions, then head drops in HEAD mode (R195). -/
def State.kerbRoom (s : State) (n need : Nat) : State :=
  let s := s.growTo n need growFuel
  if need ≤ (s.q n).heldEnd then s
  else
    let more (s : State) : Bool := !s.reaches n need
    let s := s.evictAll n more 4
    let s :=
      if (s.q n).kerb.policy.dropmode = 2 && !(s.q n).hasRingEnd then
        s.headDrops n more ((s.unread (s.q n)).length + 1)
      else s
    s.growTo n need growFuel

/-! ## Admission (R193, R194, R197) -/

/-- The decision for one arriving message, `extra` bytes of earlier messages of the same burst counted as stored. -/
def State.admission (s : State) (n extra : Nat) (p : Piece) : State × Bool :=
  let q := s.q n
  if !p.first || !q.b.kerb then (s, true)
  else match q.decided.find? fun e => e.1 == p.msn with
    | some e => (s, e.2)
    | none =>
      let atLimit (s : State) : Bool :=
        let q := s.q n
        decide (q.limit ≤ { q with wptr := q.wptr + extra }.csfill)
      if q.kerb.policy.dropmode = 1 && atLimit s then
        (s.updQ n fun q => { q with kerb := q.kerb.drop .tail p.msn }, false)
      else
        let s := if q.kerb.policy.dropmode = 2 && !q.hasRingEnd then s.headDrops n atLimit ((s.unread q).length + 1) else s
        (s.updQ n fun q => { q with kerb := { q.kerb with admitCnt := inc32 q.kerb.admitCnt } }, true)

/-- Decides each message of a burst in turn. -/
def State.admitAll (s : State) (n extra : Nat) : List Piece → State × List (Piece × Bool)
  | [] => (s, [])
  | p :: ps =>
    let (s, ok) := s.admission n extra p
    let size := if ok then (s.q n).needFor [p] - (s.q n).wptr else 0
    let (s, rest) := s.admitAll n (extra + size) ps
    (s, (p, ok) :: rest)

/-! ## Commit -/

/-- Begins a message: its release time, its stored header's place and its Kerbside stamp. -/
def State.openMsg (s : State) (n : Nat) (at_ : Arrival) (p : Piece) : State :=
  let q := s.q n
  let (s, rt) := if q.b.pin then s.releaseTime n p.msn at_ p.rt else (s, 0)
  let now := s.mcount
  s.updQ n fun q =>
    let kerb := if q.b.kerb && !q.hasRingEnd then q.kerb.arrive q.wptr now q.rptr else q.kerb
    { q.beginMsg p.msn rt with kerb := kerb }

/-- Stores one piece, or begins to discard a message that is not admitted. -/
def State.storePiece (s : State) (n : Nat) (at_ : Arrival) (e : Piece × Bool) : State :=
  let (p, ok) := e
  if ok then
    let s := if p.first && (s.q n).b.msgMode then s.openMsg n at_ p else s
    let s := s.updQ n fun q => { q with kerb := { q.kerb with arrBytes := q.kerb.arrBytes + p.bytes.length } }
    let s := s.commit n ((s.q n).plan p.last p.bytes) p.last
    if p.last then s.updQ n fun q => { q with decided := q.decided.filter fun d => d.1 != p.msn } else s
  else
    s.updQ n fun q => { q with skip := if p.last then none else some (p.msn, p.bytes.length) }

/-- A Kerbside queue that lacks room for what arrives first evicts marks (R154); messages already tail-dropped need none. -/
def State.evictRoom (s : State) (n : Nat) (ps : List Piece) : State :=
  let q := s.q n
  if q.b.kerb then
    let need := q.needFor (ps.filter fun p => !q.decided.any fun d => d.1 == p.msn && !d.2)
    s.evictAll n (fun s => !s.reaches n need) 4
  else s

/-! ## The shadow (R160, R287) -/

/-- `a` precedes `b` in serial arithmetic. -/
def msnPrecedes (a b : Nat) : Bool :=
  let d := (b + 2 ^ 32 - a % 2 ^ 32) % 2 ^ 32
  decide (1 ≤ d) && decide (d < 2 ^ 31)

/-- The shadow discards complete messages before the read point. -/
def State.trimMsgs (s : State) (n rp : Nat) : Nat → State
  | 0 => s
  | fuel + 1 =>
    match s.unread (s.q n) with
    | (pos, h) :: _ =>
      if msnPrecedes h.msn.toNat rp then
        (s.updQ n fun q => { q with rptr := pos + h.size, rmsg := none, pair := { q.pair with fit := true } }).trimMsgs n rp fuel
      else s
    | [] => s

/-- The shadow skips stream elements before the read point. -/
def State.trimElems (s : State) (n rp : Nat) : State :=
  let q := s.q n
  let k := min (rp - q.elemsRead) (s.efill q)
  let e := q.rsub + k
  s.setQ n { q with
    rptr := q.rptr + q.b.unitOff e, rsub := e % q.b.unitElems, elemsRead := q.elemsRead + k
    pair := { q.pair with fit := q.pair.fit || decide (q.elemsRead ≤ rp) } }

/-- Whether a shadow holds every message from the read point on: its oldest message, or the one it waits for, is at the
read point or has been passed. -/
def State.fitNow (s : State) (n : Nat) : Bool :=
  let q := s.q n
  q.pair.rpointSeen && (q.pair.fit || (q.b.msgMode && s.rpoint q == q.pair.rpoint))

/-- The stored position a received mark stands for, where the shadow holds it. -/
def State.markTarget (s : State) (q : Queue) (v : Nat) : Option Nat :=
  if q.b.msgMode then
    ((s.msgsFrom q ((q.msgEnd - q.oldest) / 8 + 1) q.oldest).find? fun e => e.2.msn.toNat == v % 2 ^ 32).map (·.1)
  else
    let pos : Int := q.rptr + ((v : Int) - q.elemsRead + q.rsub) / (q.b.unitElems : Nat) * (q.b.unitBytes : Nat)
    if 0 ≤ pos then some pos.toNat else none

/-- The shadow's marks match the active tail's as last heard; one whose message is still to come takes its place with it (R160). -/
def State.followMarks (s : State) (n : Nat) : State :=
  let q := s.q n
  let step (i : Nat) (m : Mark) : Mark :=
    if q.pair.mset / 2 ^ i % 2 == 1 then
      match s.markTarget q (q.pair.codes.getD i 0) with
      | some p => { m with isSet := true, pos := p, next := false }
      | none => m
    else m.released
  s.setQ n { q with marks := q.marks.mapIdx fun i m => step i m }

/-- A shadow follows the active tail's marks and read point, and reports that it has become fit. -/
def State.followRead (s : State) (n : Nat) : State :=
  let q := s.q n
  if q.pair.paired && q.pair.shadow && q.pair.rpointSeen then
    let was := q.pair.fit
    let s := s.followMarks n
    let s := if q.b.msgMode then s.trimMsgs n (q.pair.rpoint % 2 ^ 32) ((s.unread q).length + 1)
      else s.trimElems n q.pair.rpoint
    let fit := s.fitNow n
    let s := s.updQ n fun q => { q with pair := { q.pair with fit := fit } }
    let s := s.release n
    if fit && !was then s.post 0 { code := 0x022, body := packNat [(0, 13, n)] } else s
  else s

/-! ## Taking what arrives -/

/-- Takes pieces that passed every check before room: false where they find none, with the decisions kept
(R194), and nothing evaluated yet. -/
def State.acceptPieces (s : State) (n : Nat) (at_ : Arrival) (ps : List Piece) : Bool × State :=
  match ps, (s.q n).skip with
  | [⟨_, false, last, bytes, _⟩], some (m, r) =>
    (true, s.updQ n fun q => { q with skip := if last then none else some (m, r + bytes.length) })
  | _, _ =>
    let s := s.updQ n fun q => { q with decided := q.decided.filter fun d => ps.any fun p => p.msn == d.1 }
    let (s, ds) := (s.evictRoom n ps).admitAll n 0 ps
    let need := (s.q n).needFor ((ds.filter (·.2)).map (·.1))
    let s := if (s.q n).b.kerb then s.kerbRoom n need else s.growTo n need growFuel
    if need ≤ (s.q n).heldEnd then (true, (ds.foldl (fun s e => s.storePiece n at_ e) s).followRead n)
    else
      (false, s.updQ n fun q =>
        { q with decided := if q.b.kerb then (ds.map fun e => (e.1.msn, e.2)) else q.decided })

/-- Bytes received of the open message, or of one being discarded (Table BL-4 check 8). -/
def Queue.expected (q : Queue) : Option Nat :=
  match q.skip, q.wmsg with
  | some (_, r), _ => some r
  | none, some w => some w.received
  | none, none => none

end Sys2Proof.Machine
end

