-- ==== Sys2Proof/Machine/Receive.lean ====
section
/-!
DEFINITION. Receiving a burst (spec/10 R237 to R247, R251, R256, R257): the header, the nine checks of Table BL-4 in
their order, NAKs, and ingress credit.
-/
namespace Sys2Proof.Machine

/-! ## The header (Table BL-2) -/

namespace Bh
def kind (h : BitVec 128) : Nat := fld h 0 4
def first (h : BitVec 128) : Bool := bit h 4
def last (h : BitVec 128) : Bool := bit h 5
def rt (h : BitVec 128) : Bool := bit h 6
def sealBit (h : BitVec 128) : Bool := bit h 7
def qid (h : BitVec 128) : Nat := fld h 8 13
def len (h : BitVec 128) : Nat := fld h 24 12
def msn (h : BitVec 128) : BitVec 32 := BitVec.ofNat 32 (fld h 40 32)
def rtLo (h : BitVec 128) : Nat := fld h 72 40
/-- `OFFSET`; 0 where `RT_LO` stands in its place. -/
def offset (h : BitVec 128) : Nat := if first h && rt h then 0 else fld h 72 14
def epoch (h : BitVec 128) : Nat := fld h 112 8
def hcs (h : BitVec 128) : Nat := fld h 120 8
end Bh

def hcsOk (h : BitVec 128) : Bool := Bh.hcs h == crc8 h.toNat 0 120

/-- The CRC-32 of a burst: header, payload as it travels, and the tag of a sealed one (R238). -/
def burstCrc (h : BitVec 128) (payload : List Byte) (tag : BitVec 128) : BitVec 32 :=
  crc32 (bvBytes h ++ payload ++ (if Bh.sealBit h then bvBytes tag else []))

/-- Credits a burst costs (R243). -/
def creditCost (len : Nat) (sealed_ : Bool) : Nat := max 1 (ceilDiv (len + (if sealed_ then 16 else 0)) 256)

/-! ## Ingress credit (R243 to R246) -/

/-- The pair of a group and class on a link. -/
def pairKey (group : Nat) (kerb : Bool) : Nat := 2 * group + (if kerb then 1 else 0)

def Link.credit (l : Link) (k : Nat) : Credit := SMap.get {} l.credits k
def Link.setCredit (l : Link) (k : Nat) (c : Credit) : Link := { l with credits := SMap.set {} l.credits k c }
def State.updCredit (s : State) (n k : Nat) (f : Credit → Credit) : State :=
  s.updLink n fun l => l.setCredit k (f (l.credit k))

/-- The pair a queue's bursts charge. -/
def State.pairOf (s : State) (q : Nat) : Nat := pairKey (q / 512) (s.q q).b.kerb

def Credit.covers (limit used : BitVec 24) (cost : Nat) : Bool :=
  decide ((limit - used).toNat < 2 ^ 23) && decide (cost ≤ (limit - used).toNat)

/-- A burst has arrived and charges its pair. -/
def State.charge (s : State) (n k cost : Nat) : State :=
  s.updCredit n k fun c => { c with rxUsed := c.rxUsed + BitVec.ofNat 24 cost }

/-- A burst's credit returns (R246). -/
def State.giveBack (s : State) (n k cost : Nat) : State :=
  s.updCredit n k fun c => { c with outstanding := c.outstanding - cost }

/-! ## Errors and NAKs (R242, R251) -/

/-- Core cycles in 1 ms. -/
def cyclesPerMs : Nat := 1250000

/-- Raises an error of Table BL-4, at most once per link per 1 ms. -/
def State.raiseLimited (s : State) (n code : Nat) (owner : Option Nat) (a b c : Nat) : State :=
  let last := SMap.get 0 (s.link n).lastErr code
  if last = 0 || last - 1 + cyclesPerMs ≤ s.cyc then
    (s.updLink n fun l => { l with lastErr := SMap.set 0 l.lastErr code (s.cyc + 1) }).raise code owner a b c
  else s

/-- Reasons of a NAK (Table BL-9). -/
inductive NakReason where
  | noRoom | state | crc | sealFail | gap | malformed
deriving DecidableEq, Repr

def nakCode : NakReason → Nat
  | .noRoom => 0
  | .state => 1
  | .crc => 2
  | .sealFail => 3
  | .gap => 4
  | .malformed => 5

/-- Answers a Kerbside burst with a NAK; the rest of its message, from the queue's write end, is then discarded (R251). -/
def State.nak (s : State) (n qid : Nat) (why : NakReason) (msn : BitVec 32) (offset : Nat) : State :=
  let s := s.updQ qid fun q => { q with
    nak := if q.b.wend.isLink n then some (msn, offset) else q.nak
    kerb := match why with
      | .noRoom | .state => { q.kerb with nakCnt := inc32 q.kerb.nakCnt }
      | _ => q.kerb }
  let s := s.updLink n fun l => { l with naks := inc32 l.naks }
  s.sendWord n (cword 2 1 [(16, 13, qid), (29, 3, nakCode why), (32, 32, msn.toNat), (64, 14, offset)])

/-- A failed check: a Kerbside burst is NAKed, an Express burst discarded. -/
def State.refuse (s : State) (n qid : Nat) (why : NakReason) (h : BitVec 128) : State :=
  if (s.q qid).b.kerb && (s.q qid).st != .unbound then s.nak n qid why (Bh.msn h) (Bh.offset h) else s

def bumpRej (l : Link) : Link := { l with rxrej := inc32 l.rxrej }

/-! ## Check 2 (R237, R240) -/

/-- Header faults that need no payload. -/
def State.headerBad (s : State) (n : Nat) (h : BitVec 128) : Bool :=
  let q := s.q (Bh.qid h)
  decide (2 ≤ Bh.kind h) || decide (2048 < Bh.len h) || (Bh.rt h && !Bh.first h) ||
    (Bh.kind h == 1 &&
      ((s.link n).phy.ver == 0 || !Bh.first h || !Bh.last h || Bh.rt h || Bh.sealBit h ||
        (q.st != .unbound && !q.b.msgMode)))

/-- Splits a `PACKED` payload into records; none where it is malformed. -/
def records : Nat → List Byte → Option (List (List Byte))
  | 0, bs => if bs.isEmpty then some [] else none
  | fuel + 1, bs =>
    match bs with
    | [] => some []
    | [_] => none
    | _ =>
      let rlen := le bs 0 2 % 4096
      if 2046 < rlen || bs.length < 2 + rlen then none
      else (records fuel (bs.drop (2 + rlen))).map fun rs => ((bs.drop 2).take rlen) :: rs

/-- The pieces a burst carries; record i of a `PACKED` burst carries `MSN` + i. -/
def burstPieces (h : BitVec 128) (payload : List Byte) (stamp : Nat) : List Piece :=
  if Bh.kind h = 1 then
    ((records payload.length payload).getD []).mapIdx fun i bs =>
      { msn := Bh.msn h + BitVec.ofNat 32 i, first := true, last := true, bytes := bs }
  else
    [{ msn := Bh.msn h, first := Bh.first h, last := Bh.last h, bytes := payload
       rt := if Bh.rt h then some (extend40 stamp (Bh.rtLo h)) else none }]

/-! ## Check 6 (R256, R257, R419) -/

/-- The receive children that `EPOCH` may name: the current epoch's and the previous one's in its grace. -/
def QueueKeys.receiveKeys (k : QueueKeys) (qid : Nat) : List (Nat × BitVec 256) :=
  (if k.bound && !k.revoked then [(k.epoch.toNat % 256, queueKeyIn k.parent qid k.epoch)] else []) ++
    (match k.prev with
      | some (e, p) => [(e.toNat % 256, queueKeyIn p qid e)]
      | none => [])

/-- The plaintext of a burst under check 6; none where the check fails. -/
def State.openBurst (s : State) (b : Burst) : Option (List Byte) :=
  let qid := Bh.qid b.hdr
  let q := s.q qid
  if Bh.sealBit b.hdr != q.b.sealedQ then none
  else if !q.b.sealedQ then some b.payload
  else
    ((q.keys.receiveKeys qid).filter fun e => e.1 == Bh.epoch b.hdr).findSome? fun e =>
      gcmOpen e.2 (burstIv (Bh.offset b.hdr) (Bh.msn b.hdr).toNat qid (Bh.epoch b.hdr) false) (bvBytes b.hdr) b.payload b.tag

/-- A sealed message has been counted: SEAL_WARN at 2^31, and the child counts as revoked at 2^32 (R257). -/
def State.sealCount (s : State) (n cnt dir : Nat) : State :=
  if cnt = 2 ^ 31 then
    s.post (ownerOf n) { code := 0x007, body := packNat [(0, 13, n), (16, 1, dir)] }
  else if cnt = 2 ^ 32 then
    ((s.updQ n fun q => { q with keys := { q.keys with revoked := true } }).hold n 1).raiseQ 0x302 n dir
  else s

/-- Counts a message received under the current epoch. -/
def State.countSealedIn (s : State) (b : Burst) : State :=
  let qid := Bh.qid b.hdr
  let q := s.q qid
  if q.b.sealedQ && Bh.first b.hdr && Bh.epoch b.hdr == q.keys.epoch.toNat % 256 then
    (s.updQ qid fun q => { q with keys := { q.keys with inCnt := q.keys.inCnt + 1 } }).sealCount qid (q.keys.inCnt + 1) 0
  else s

/-! ## Checks 7 to 9 -/

def Staged.arrival (x : Staged) : Arrival := { stamp := x.stamp, stamped := x.stamped, offset := x.offset }

/-- Checks 7 to 9 of a burst whose payload is open: whether it is resolved, else it waits in staging. -/
def State.tryBurst (s : State) (n : Nat) (x : Staged) : Bool × State :=
  let h := x.hdr
  let qid := Bh.qid h
  let q := s.q qid
  let k := s.pairOf qid
  if q.refuses then
    let s := s.updQ qid fun q => { q with refusedCnt := inc32 q.refusedCnt }
    (true, (s.giveBack n k x.cost).refuse n qid .state h)
  else
    let s := if Bh.first h && q.b.msgMode then s.stopWrite qid else s
    let q := s.q qid
    if !Bh.first h && q.expected != some (Bh.offset h) then
      let s := s.giveBack n k x.cost
      if q.b.kerb then (true, s.nak n qid .gap (Bh.msn h) (q.expected.getD 0))
      else (true, (if q.b.msgMode then s.stopWrite qid else s).evalFlags qid)
    else
      let (ok, s) := s.acceptPieces qid x.arrival (burstPieces h x.payload x.stamp)
      if ok then (true, s.giveBack n k x.cost)
      else if q.b.kerb then (true, ((s.giveBack n k x.cost).nak n qid .noRoom (Bh.msn h) (Bh.offset h)).evalFlags qid)
      else (false, (s.evalFlags qid).waitRoom qid)

/-- A burst that passed check 6: it goes on at once, or behind earlier bursts of its queue in staging. -/
def State.finishChecks (s : State) (n : Nat) (x : Staged) : State :=
  let earlier := (s.link n).staged.any fun y => Bh.qid y.hdr == Bh.qid x.hdr
  let (done, s') := if earlier then (false, s) else s.tryBurst n x
  if done then s' else s'.updLink n fun l => { l with staged := l.staged ++ [x] }

/-- The later bursts of a NAKed message are discarded until the NAK's offset or a FIRST burst comes (R251). -/
def Queue.nakDiscards (q : Queue) (h : BitVec 128) : Bool :=
  match q.nak with
  | some (m, o) => !Bh.first h && Bh.offset h != o && Bh.msn h == m
  | none => false

/-- The checks of Table BL-4 from check 4 on, for a burst of this link's queue. -/
def State.rxRouted (s : State) (n : Nat) (b : Burst) : State :=
  let h := b.hdr
  let qid := Bh.qid h
  let k := s.pairOf qid
  let cost := creditCost (Bh.len h) (Bh.sealBit h)
  let c := (s.link n).credit k
  if !Credit.covers c.limit c.rxUsed cost then
    (s.updLink n bumpRej).raiseLimited n 0x205 none n qid (packNat [(0, 4, qid / 512), (4, 1, if (s.q qid).b.kerb then 1 else 0)])
  else
    let s := s.charge n k cost
    if (s.q qid).nakDiscards h then s.giveBack n k cost
    else
      let s := s.updQ qid fun q => { q with nak := none }
      if b.payErr || b.payload.length != Bh.len h || burstCrc h b.payload b.tag != b.crc then
        ((s.updLink n fun l => { l with crce := inc32 l.crce }).giveBack n k cost).refuse n qid .crc h
      else match s.openBurst b with
        | none =>
          (((s.updLink n fun l => { l with seale := inc32 l.seale }).giveBack n k cost).raiseLimited n 0x301
            (some (ownerOf qid)) n qid (Bh.epoch h)).refuse n qid .sealFail h
        | some payload =>
          let a := s.arrival qid
          (s.countSealedIn b).finishChecks n
            { hdr := h, payload := payload, cost := cost, stamp := a.stamp, stamped := a.stamped, offset := a.offset }

/-- A burst fails check 2 or 3: it is counted and reported, and its credit returns where its pair is known (R246). -/
def State.rxReject (s : State) (n code : Nat) (h : BitVec 128) : State :=
  let qid := Bh.qid h
  let cost := creditCost (Bh.len h) (Bh.sealBit h)
  let s := if (s.q qid).st = .unbound then s
    else (s.charge n (s.pairOf qid) cost).giveBack n (s.pairOf qid) cost
  (s.updLink n bumpRej).raiseLimited n code none n qid (fld h 0 32)

/-- `PACKED` records that are malformed, judged once the CRC-32 has passed (R240). -/
def recordsBad (b : Burst) : Bool :=
  Bh.kind b.hdr == 1 && !b.payErr && b.payload.length == Bh.len b.hdr && burstCrc b.hdr b.payload b.tag == b.crc &&
    (records b.payload.length b.payload).isNone

/-- A link's datapath word in bytes: 64 bits for each lane (spec/01). -/
def State.linkWord (s : State) (n : Nat) : Nat := 8 * s.lanes n

/-- A unit crosses the link's receive Crosswalk into the core (R19, R77). -/
def State.crossRx (s : State) (n : Nat) (unit : List Byte) : State :=
  s.updLink n fun l => { l with rx := (l.rx.carry rxWindows (bytesAsWords (s.linkWord n) (padUnit unit))).2 }

/-- A unit crosses the link's transmit Crosswalk. -/
def State.crossTx (s : State) (n : Nat) (unit : List Byte) : State :=
  s.updLink n fun l => { l with tx := (l.tx.carry txWindows (bytesAsWords (s.linkWord n) (padUnit unit))).2 }

/-- A whole burst received on a link that is UP (R242). -/
def State.rxBurst (s : State) (n : Nat) (b : Burst) : State :=
  let h := b.hdr
  let qid := Bh.qid h
  let q := s.q qid
  if !s.linkLive n then s
  else
  let s := s.crossRx n (burstUnit b)
  if b.hdrErr || !hcsOk h then
    if hn : n < 8 then (s.updLink n fun l => { l with hcse := inc32 l.hcse }).phyDown (.link ⟨n, hn⟩) else s
  else
    let mine := q.st != .unbound && q.b.wend.isLink n
    if s.headerBad n h || recordsBad b then
      let t := s.rxReject n 0x203 h
      if mine && q.nakDiscards h then t else t.refuse n qid .malformed h
    else if !mine then s.rxReject n 0x204 h
    else s.rxRouted n b

def execBurstReceive (n : Fin 8) (x : RxBurst) (s : State) : Host.Outcome State Fault Refusal :=
  .next (if s.linkLive n.val then (s.countLanes (.link n) x.lanes).rxBurst n.val x.burst else s)

/-! ## Staging (check 9) -/

/-- The first staged burst, oldest of its queue, that can now be resolved. -/
def State.commitStaged (s : State) (n : Nat) (before : List Staged) : List Staged → State
  | [] => s
  | x :: rest =>
    if before.any fun y => Bh.qid y.hdr == Bh.qid x.hdr then s.commitStaged n (before ++ [x]) rest
    else
      let (done, s') := s.tryBurst n x
      if done then
        let s' := s'.updLink n fun l => { l with staged := before ++ rest }
        x.marks.foldl (fun s m => s.writeMark (Bh.qid x.hdr) m) s'
      else s.commitStaged n (before ++ [x]) rest

def execStagedBurstCommit (n : Fin 8) (s : State) : Host.Outcome State Fault Refusal :=
  .next (if s.errs.frozen then s else s.commitStaged n.val [] (s.link n.val).staged)

/-! ## Granting (R244, R246) -/

/-- Ingress staging of a link, in credits. -/
def stagingCredits (lanes : Nat) : Nat := 64 * lanes

/-- A pair is eligible while it has an OPEN queue with its write end on the link. -/
def State.eligible (s : State) (n k : Nat) : Bool :=
  s.queues.any fun e => pairKey (e.1 / 512) e.2.b.kerb == k && e.2.st == .opened && e.2.b.wend.isLink n

/-- Credit a pair may be raised by now. -/
def State.grantRoom (s : State) (n k : Nat) : Nat :=
  let l := s.link n
  let total := stagingCredits (s.lanes n)
  min (total / 2 - (l.credit k).outstanding) (total - (l.credits.map fun e => e.2.outstanding).sum)

def creditWord (k : Nat) (limit : BitVec 24) : List Byte :=
  cword 0 0 [(16, 4, k / 2), (20, 1, k % 2), (24, 24, limit.toNat)]

/-- Raises a pair's LIMIT in one step and sends it. -/
def State.grant (s : State) (n k : Nat) : State :=
  let r := s.grantRoom n k
  let s := s.updCredit n k fun c => { c with limit := c.limit + BitVec.ofNat 24 r, outstanding := c.outstanding + r }
  (s.updLink n fun l => { l with rrGrant := (k + 1) % 32 }).sendWord n (creditWord k ((s.link n).credit k).limit)

/-- The next eligible pair in turn that can be raised. -/
def State.grantTurn (s : State) (n : Nat) : State :=
  match ((List.range 32).map fun i => ((s.link n).rrGrant + i) % 32).find? fun k =>
      s.eligible n k && decide (0 < s.grantRoom n k) with
  | some k => s.grant n k
  | none => s

def execCreditGrant (n : Fin 8) (s : State) : Host.Outcome State Fault Refusal :=
  .next (if s.linkLive n.val then s.grantTurn n.val else s)

/-- The 10 µs refresh: `LIMIT` again for each pair that has been granted credit. -/
def execCreditRefresh (n : Fin 8) (s : State) : Host.Outcome State Fault Refusal :=
  .next (((s.link n.val).credits.filter fun e => e.2.limit != 0 || e.2.outstanding != 0 || e.2.rxUsed != 0).foldl
    (fun s e => s.sendWord n.val (creditWord e.1 e.2.limit)) s)

/-- The partner's LIMIT for the device's egress. -/
def execCredit (n : Fin 8) (group : Fin 16) (kerb : Bool) (limit : BitVec 24) (s : State) :
    Host.Outcome State Fault Refusal :=
  .next (if s.linkLive n.val then s.updCredit n.val (pairKey group.val kerb) fun c => { c with txLimit := limit } else s)

end Sys2Proof.Machine
end

