-- ==== Sys2Proof/Machine/ControlWords.lean ====
section
/-!
DEFINITION. Control words other than credits (spec/10 R249 to R255): status refresh, time words, in-band mark operations
(spec/06 R145, R146), and words that are discarded.
-/
namespace Sys2Proof.Machine

/-! ## STATUS and TIME (R117, R250, R255) -/

/-- Up to eight bound queues of a link in turn from `start`. -/
def State.statusTurn (s : State) (l start : Nat) : List Nat :=
  let qs := (s.queues.filter fun e => e.2.st != .unbound && e.2.endLinks.contains l).map (·.1)
  (qs.filter (fun n => decide (start ≤ n)) ++ qs.filter (fun n => decide (n < start))).take 8

def State.statusRefresh (s : State) (l : Nat) : State :=
  match s.statusTurn l (s.link l).rrStatus with
  | [] => s
  | ns =>
    (s.updLink l fun x => { x with rrStatus := (ns.getLast?.getD 0) + 1 }).sendWord l
      (statusWord (ns.map fun n => s.statusEntry n))

def execStatusRefresh (n : Fin 8) (s : State) : Host.Outcome State Fault Refusal := .next (s.statusRefresh n.val)

/-- A TIME word on each link that is UP. -/
def execTimeWordTimer (s : State) : Host.Outcome State Fault Refusal := .next s.sendTimes

/-! ## In-band marks (R145, R146, R279) -/

/-- An in-band operation that is not accepted changes nothing else (R146). -/
def State.rejectInband (s : State) (l n op : Nat) : State :=
  let s := s.updQ n fun q => { q with inbandRej := inc32 q.inbandRej }
  s.raise 0x004 (some (ownerOf n)) n (packNat [(0, 2, op), (8, 4, l)]) 0

/-- The mark comes behind the last of its queue's bursts in staging, where there is one (R252). -/
def markBehind (n m : Nat) : List Staged → Option (List Staged)
  | [] => none
  | x :: rest =>
    match markBehind n m rest with
    | some rest' => some (x :: rest')
    | none => if Bh.qid x.hdr == n then some ({ x with marks := x.marks ++ [m] } :: rest) else none

def State.inbandMark (s : State) (l n m : Nat) : State :=
  let q := s.q n
  if q.st = .unbound then s.rejectInband l n 0
  else if q.b.rend.isLink l then s.placeMark n m false
  else if q.b.wend.isLink l && q.st != .closing && !(q.markAt m).auto then
    match markBehind n m (s.link l).staged with
    | some staged => s.updLink l fun x => { x with staged := staged }
    | none => s.writeMark n m
  else s.rejectInband l n 0

def State.inbandRewind (s : State) (l n m : Nat) : State :=
  let q := s.q n
  if q.st != .unbound && q.b.rend.isLink l && q.rewindStatus m == St.ok then
    s.startRewind n { mark := Fin.ofNat 4 m, target := (q.markAt m).pos }
  else s.rejectInband l n 1

def State.inbandRelease (s : State) (l n m : Nat) : State :=
  let q := s.q n
  if q.st != .unbound && q.b.rend.isLink l then
    if (q.markAt m).isSet then s.releaseMark n m else s
  else s.rejectInband l n 2

def execInbandMark (n : Fin 8) (q : Fin 8192) (m : Fin 4) (s : State) : Host.Outcome State Fault Refusal :=
  .next (if s.linkLive n.val then s.inbandMark n.val q.val m.val else s)
def execInbandRewind (n : Fin 8) (q : Fin 8192) (m : Fin 4) (s : State) : Host.Outcome State Fault Refusal :=
  .next (if s.linkLive n.val then s.inbandRewind n.val q.val m.val else s)
def execInbandReleaseMark (n : Fin 8) (q : Fin 8192) (m : Fin 4) (s : State) : Host.Outcome State Fault Refusal :=
  .next (if s.linkLive n.val then s.inbandRelease n.val q.val m.val else s)

/-! ## Discarded words (R249, Table BL-6) -/

/-- `EXT` of a kind a partner may send; none for a kind the device does not accept. -/
def acceptedExt (kind : Nat) : Option Nat :=
  match kind with
  | 0 => some 0
  | 3 => some 0
  | 4 => some 2
  | 6 => some 0
  | _ => none

/-- Whether the device discards a control word. -/
def wordBad (bytes : List Byte) : Bool :=
  let v := ofBytes bytes
  let kind := v / 256 % 16
  let ext := v / 4096 % 4
  let bits := 64 * (1 + ext)
  bytes.length != 8 * (1 + ext) || v / 2 ^ (bits - 8) != crc8 v 8 (bits - 16) || acceptedExt kind != some ext

def execControlWordDiscard (n : Fin 8) (bytes : List Byte) (s : State) : Host.Outcome State Fault Refusal :=
  .next (if s.linkLive n.val && wordBad bytes then s.updLink n.val fun l => { l with cwe := inc32 l.cwe } else s)

end Sys2Proof.Machine
end

