-- ==== Sys2Proof/Decode.lean ====
section
/-!
DEFINITION. Commands by bits. spec/opcode_table.json gives no row any bits: the block's commands reach it as descriptors,
register accesses, frames and events. A control word received on a link is the one that spells its row by bits (R249 to
R254), and a write to a doorbell page the one that the page's table names (R306).
-/
namespace Sys2Proof

/-- The command that a word spells by the bits of spec/opcode_table.json: none, since no row has bits. -/
def decodeTableWord (_nbits _w : Nat) : Option Instr := none

/-- A field of a word as an index below a power of two. -/
def wordField (v lo w : Nat) : Fin (2 ^ w) := Fin.ofNat (2 ^ w) (v / 2 ^ lo)

/-- The command a received control word spells: its KIND and the fields of Tables BL-7, BL-10, BL-11 and BL-12, or its discard.
None for a reserved OP of `MARK` and for a CODE of `POWER` that a partner does not send, which have no effect. -/
def wordCommand (n : Fin 8) (bytes : List Byte) : Option Instr :=
  if Machine.wordBad bytes then some (.controlWordDiscard n bytes)
  else
    let v := Machine.ofBytes bytes
    match v / 256 % 16 with
    | 0 => some (.credit n (wordField v 16 4) (v / 2 ^ 20 % 2 == 1) (BitVec.ofNat 24 (v / 2 ^ 24)))
    | 3 =>
      let q : Fin 8192 := wordField v 16 13
      let m : Fin 4 := wordField v 32 2
      match v / 2 ^ 29 % 4 with
      | 0 => some (.inbandMark n q m)
      | 1 => some (.inbandRewind n q m)
      | 2 => some (.inbandReleaseMark n q m)
      | _ => none
    | 4 =>
      some (.kioskReq n (wordField v 16 2) (BitVec.ofNat 8 (v / 2 ^ 24)) (wordField v 32 15) (BitVec.ofNat 64 (v / 2 ^ 64)))
    | 6 =>
      let vote := BitVec.ofNat 6 (v / 2 ^ 16)
      match v / 2 ^ 24 % 16 with
      | 0 => some (.powerVote n vote)
      | 1 => some (.sleepReq n vote)
      | _ => none
    | _ => none

/-- The command that a write to a function's doorbell page is (Table HI-6). None where R306 ignores it: a write of another size
or alignment, or to a reserved offset. -/
def doorbellCommand (fn : Fin 16) (bytes off : Nat) (v : Word32) : Option Instr :=
  if bytes != 4 || off % 4 != 0 then none
  else if off = 0x000 then some (.cmdPi fn v)
  else if off = 0x004 then some (.cplCi fn v)
  else if off = 0x008 then some (.evtCi fn v)
  else if 0x800 ≤ off ∧ off < 0x1000 then some (.dringPi fn (Fin.ofNat 512 ((off - 0x800) / 4)) v)
  else none

/-- What a read of a doorbell page returns, at every offset (R306). -/
def doorbellPageRead (_off : Nat) : Nat := 0

end Sys2Proof
end

