-- ==== Sys2Proof/Machine/Time.lean ====
section
/-!
DEFINITION. The time base (spec/07 R163 to R174): counting, the increment, the PPS discipline, the lock states,
`PPS_OUT`, the setup registers, and TIME_SET.
-/
namespace Sys2Proof.Machine

/-- `NOM_INC`: 4 ns with 32 fraction bits (R163). -/
def nomInc : Nat := 0x400000000

/-- The increment of R164; the quotient rounds toward zero. -/
def TimeBase.inc (t : TimeBase) : Int := nomInc - Int.tdiv (nomInc * clampI (t.f + t.p) (-200000) 200000) 1000000000

/-- One time-base cycle (R163, R165). -/
def TimeBase.tick (t : TimeBase) : TimeBase :=
  if t.running then { t with tb := unsigned 96 (t.tb + t.inc), cycles := t.cycles + 1 } else t

/-- The state a reset of the time base leaves (R165, R86): `TB_CTRL` and `TB_COMP` are not part of it. -/
def TimeBase.cleared (t : TimeBase) : TimeBase := { ctrl := t.ctrl, comp := t.comp }

/-- The setup registers of R167. -/
def TimeBase.ppsEn (t : TimeBase) : Bool := bit t.ctrl 0
def TimeBase.ppsoMode (t : TimeBase) : Nat := fld t.ctrl 1 2
def TimeBase.ppsoWidth (t : TimeBase) : Nat := max 1 (min 999 (fld t.ctrl 3 10))
def TimeBase.ppsiComp (t : TimeBase) : Int := signed 16 (fld t.comp 0 16)
def TimeBase.ppsoComp (t : TimeBase) : Int := signed 16 (fld t.comp 16 16)

/-- `TB_STAT` (Table PL-3). -/
def TimeBase.stat (t : TimeBase) : Nat :=
  packNat [(0, 2, lockCode t.lock), (2, 1, if t.tod.isSome then 1 else 0), (3, 1, if t.todDone then 1 else 0),
    (8, 8, t.ppsRej), (16, 16, unsigned 16 (clampI t.phaseErr (-32767) 32767))]

/-- Moves the time base by a signed number of nanoseconds. -/
def TimeBase.shift (t : TimeBase) (ns : Int) : TimeBase := { t with tb := unsigned 96 (t.tb + ns * 4294967296) }

/-- Every pinned queue judges its waiting messages after a step of the time base (R178). -/
def State.rejudgeAll (s : State) : State :=
  (s.queues.filter fun e => e.2.b.pin).foldl (fun s e => s.rejudge e.1) s

def TimeBase.ppsoEnabled (t : TimeBase) : Bool :=
  t.ppsoMode == 2 || (t.ppsoMode == 1 && t.lock != .unlocked)

/-- `PPS_OUT` is low where the mode or the lock state disables it, a pulse under way included (Table PL-1). -/
def TimeBase.gatePps (t : TimeBase) : TimeBase := { t with ppsOut := t.ppsOut && t.ppsoEnabled }

/-- Moves the lock state, posting TB_LOCK_CHANGE and sending TIME where it changes (R171, R255). -/
def State.setLock (s : State) (l : Lock) (e : Int) : State :=
  let old := s.time.lock
  if old = l then s
  else
    (({ s with time := ({ s.time with lock := l }).gatePps }).post 0
      { code := 0x010
        body := packNat [(0, 2, lockCode old), (2, 2, lockCode l), (32, 32, unsigned 32 e)] }).sendTimes

/-- Completes the waiting TIME_SET, if there is one. -/
def State.endTod (s : State) (status : Nat) : State :=
  match s.time.tod with
  | none => s
  | some w =>
    let s := { s with time := { s.time with tod := none } }
    match w.ref with
    | some r => s.complete r status
    | none => s

/-- The result block of Table PL-7. `PPS_STAMP` is the stamp taken in the delivering cycle (R168); DESIGN CHOICE: it stays so
where the same edge then steps the time base (R170, R173). -/
def State.timeBlock (s : State) : Nat :=
  packNat [(0, 64, s.tbNs), (64, 32, s.tbFrac), (96, 2, lockCode s.time.lock), (128, 64, s.time.stamp),
    (192, 32, unsigned 32 s.time.e), (224, 32, unsigned 32 s.time.f)]

/-! ## PPS_IN (R168 to R171) -/

/-- The phase error of a stamp: its distance from the nearest whole second. -/
def phaseOf (stamp : Int) : Int :=
  let m := stamp % 1000000000
  if 500000000 < m then m - 1000000000 else m

/-- An accepted or rejected edge in UNLOCKED (R170). -/
def State.edgeUnlocked (s : State) (e : Int) : State :=
  let t := s.time
  let f := if t.stepped then clampI (t.f + e) (-200000) 200000 else t.f
  let big := decide (50 < e.natAbs)
  let good := if big then 0 else t.good + 1
  let t := { t with f := f, stepped := big, good := good, p := if big then t.p else e }
  let t := if big then t.shift (-e) else t
  let s := { s with time := t }
  let s := if decide (2 ≤ good) && t.todDone then s.setLock .locked e else s
  if big then s.rejudgeAll else s

/-- An edge in LOCKED or HOLDOVER (R170). DESIGN CHOICE: an accepted edge that leaves HOLDOVER in force sets p = e, as R170's
procedure has it, though R171 says that p is 0 in HOLDOVER. -/
def State.edgeLocked (s : State) (e : Int) : State :=
  let t := s.time
  if 1000 < e.natAbs then
    let t := { t with rej := t.rej + 1, ppsRej := inc8 t.ppsRej }
    if t.rej = 4 then
      let t := ({ t with stepped := true, good := 0, rej := 0 }).shift (-e)
      let s := ({ s with time := t }).setLock .unlocked e
      (s.raise 0x102 none 0 (unsigned 32 e) 0).rejudgeAll
    else { s with time := t }
  else
    let good := if e.natAbs ≤ 50 then t.good + 1 else 0
    let t := { t with rej := 0, f := clampI (t.f + e / 4) (-200000) 200000, p := e, good := good }
    let s := { s with time := t }
    if t.lock = .holdover ∧ 2 ≤ good then s.setLock .locked e else s

/-- A rising edge of `PPS_IN`. The first after the time base's half entered reset is consumed (R86); the cell delivers no edge
to a time base that does not run (R80, R366). -/
def State.ppsEdge (s : State) : State :=
  if s.time.ppsArm then { s with time := { s.time with ppsArm := false } }
  else if !s.time.running then s
  else
    let stamp : Int := s.tbNs - 10 - s.time.ppsiComp
    let e := phaseOf stamp
    let s := { s with time := { s.time with stamp := unsigned 64 stamp, e := e, phaseErr := e } }
    if !s.time.ppsEn then s
    else match s.time.tod with
      | some w =>
        let tb := unsigned 96 ((w.value + 10 + s.time.ppsiComp) * 4294967296)
        let s := { s with time := { s.time with tb := tb, todDone := true, stepped := true, good := 0, tod := none } }
        let s := (s.setLock .unlocked e).rejudgeAll
        match w.ref with
        | some r => s.completeResult r w.result s.timeBlock St.ok
        | none => s
      | none =>
        match s.time.lock with
        | .locked | .holdover => s.edgeLocked e
        | .unlocked | .freerun => s.edgeUnlocked e

/-- No edge for 1,100 ms while LOCKED: holdover at the last f (R171). The count of good edges stays (R170). -/
def State.ppsLoss (s : State) : State :=
  if s.time.lock = .locked then
    let s := { s with time := { s.time with p := 0 } }
    (s.setLock .holdover 0).raise 0x101 none 0 0 0
  else s

def execPpsEdge (s : State) : Host.Outcome State Fault Refusal := .next s.ppsEdge

def execPpsLossTimeout (s : State) : Host.Outcome State Fault Refusal := .next s.ppsLoss

/-- One second after the edge that set it, p returns to 0 (R164). -/
def execPhaseTermEnd (s : State) : Host.Outcome State Fault Refusal :=
  .next { s with time := { s.time with p := 0 } }

/-! ## PPS_OUT (R172) -/

/-- Whether `TB_NS` + `PPSO_COMP` reached a whole second in the last time-base cycle. -/
def TimeBase.atSecond (t : TimeBase) : Bool :=
  decide ((t.tb + t.ppsoComp * 4294967296) % (1000000000 * 4294967296) < t.inc)

def execPpsOutRise (s : State) : Host.Outcome State Fault Refusal :=
  .next (if s.time.running && s.time.ppsoEnabled && s.time.atSecond then
    { s with time := { s.time with ppsOut := true } } else s)

def execPpsOutFall (s : State) : Host.Outcome State Fault Refusal :=
  .next { s with time := { s.time with ppsOut := false } }

/-- The `PPS_OUT` ball, under pad hold at the level it had (Table RS-3). -/
def State.ppsOutBall (s : State) : Bool := if s.rst.ioHeld then s.rst.heldPps else s.time.ppsOut

/-! ## Registers (R166, R167, R171, R476) -/

/-- A write of `TB_CTRL`: PPS_EN moves the lock state as Table PL-4 states. -/
def State.writeTbCtrl (s : State) (v : Word32) : State :=
  let s := { s with time := ({ s.time with ctrl := v &&& 0x1FFF#32 }).gatePps }
  if bit v 0 then
    if s.time.lock = .freerun then s.setLock .unlocked 0 else s
  else if s.time.lock = .locked ∨ s.time.lock = .holdover then
    ({ s with time := { s.time with p := 0 } }).setLock .freerun 0
  else s

def execPpsEnWrite (v : Word32) (s : State) : Host.Outcome State Fault Refusal := .next
  (s.coreWrite 0x200 v (s.writeTbCtrl v))

/-- The number of an accessor's latch. -/
def accessorNum : Accessor → Nat
  | .fn g => g.val
  | .svc => 16
  | .warden => 17

/-- A read of `TB_NOW_LO` latches the accessor's upper word and fraction. -/
def State.latchTb (s : State) (acc : Accessor) : State :=
  { s with time := { s.time with
      latches := SMap.set (0, 0) s.time.latches (accessorNum acc) (s.tbNs / 2 ^ 32, s.tbFrac) } }

def State.readTbNowLo (s : State) (acc : Accessor) : Nat × State := (s.tbNs % 2 ^ 32, s.latchTb acc)

/-! ## TIME_SET (R173, R174) -/

/-- The status of a TIME_SET. -/
def State.timeStatus (s : State) (r : CmdRef) (d : Block512) : Nat :=
  let op := fld d 128 4
  let freq := signed 32 (fld d 160 32)
  firstFail [
    (actsAs r.fn != 0, St.notOwner),
    (decide (4 ≤ op), St.badField),
    (op == 2 && (decide (freq < -200000) || decide (200000 < freq)), St.badField),
    (op == 0 && !s.time.ppsEn, St.badField),
    (!resultOk r (fld d 256 64), St.badField)]

/-- The lock state after a time of day set now. -/
def TimeBase.lockAfterNow (t : TimeBase) : Lock :=
  if t.ppsEn then .unlocked
  else match t.lock with
    | .unlocked | .freerun => .freerun
    | l => l

/-- TIME_SET (R173). DESIGN CHOICE: the step of `OP` = 1 leaves no `stepped` behind, so the next edge does not move f. -/
def State.doTimeSet (s : State) (r : CmdRef) (d : Block512) : State :=
  let st := s.timeStatus r d
  let a := fld d 256 64
  if st ≠ St.ok then s.complete r st
  else
    let op := fld d 128 4
    if op = 0 then
      let s := s.endTod St.superseded
      { s with time := { s.time with tod := some { ref := some r, value := fld d 192 64, result := a } } }
    else if op = 1 then
      let s := s.endTod St.superseded
      let l := s.time.lockAfterNow
      let t := { s.time with
        tb := fld d 192 64 * 2 ^ 32, todDone := true, stepped := false, good := 0
        p := if l = .freerun then 0 else s.time.p }
      let s := (({ s with time := t }).setLock l 0).rejudgeAll
      s.completeResult r a s.timeBlock St.ok
    else if op = 2 then
      let s := { s with time := { s.time with f := signed 32 (fld d 160 32) } }
      s.completeResult r a s.timeBlock St.ok
    else s.completeResult r a s.timeBlock St.ok

def execTimeSetEdgeTimeout (s : State) : Host.Outcome State Fault Refusal := .next (s.endTod St.noPps)

end Sys2Proof.Machine
end

