-- ==== Sys2Proof/Machine/Kiosk.lean ====
section
/-!
DEFINITION. The Kiosk (spec/13 R341 to R346; spec/10 R253): accesses, collisions and locks, windows, and its commands.
Each access takes one core cycle of the port; an idle step lets five pass.
-/
namespace Sys2Proof.Machine

/-- Who asks, numbered as the bits of `KIOSK_CFG.BUSY_MASK`. -/
inductive Asker where
  | sequencer | portA | portB | ring | host
deriving DecidableEq, Repr

def askerBit : Asker → Nat
  | .sequencer => 0
  | .portA => 1
  | .portB => 2
  | .ring => 3
  | .host => 4

/-- A Kiosk operation (Table BL-11). -/
inductive KOp where
  | read | write | add | swap
deriving DecidableEq, Repr

/-- What an access answers: data, the BUSY outcome, or nothing after a fatal error. -/
inductive KAnswer where
  | value (v : Word64)
  | busy (v : Word64)
  | dead
deriving DecidableEq, Repr

def Kiosk.word (k : Kiosk) (a : Nat) : Word64 := SMap.get 0 k.words a
def Kiosk.put (k : Kiosk) (a : Nat) (v : Word64) : Kiosk :=
  { k with words := SMap.set 0 k.words a v, bad := SMap.erase k.bad a }

/-- Core cycles pass: writes whose time has come commit in grant order, and locks end (R342, R343). -/
def Kiosk.advance (k : Kiosk) (cycles : Nat) : Kiosk :=
  let k' := (k.writes.filter fun w => decide (w.left ≤ cycles) && !w.lock).foldl (fun k w => k.put w.addr w.data) k
  { k' with writes := (k.writes.filter fun w => decide (cycles < w.left)).map fun w => { w with left := w.left - cycles } }

/-- Cycles until a word is neither locked nor waits for a commit. -/
def Kiosk.waitFor (k : Kiosk) (a : Nat) (locksOnly : Bool) : Nat :=
  (k.writes.filter fun w => w.addr == a && (w.lock || !locksOnly)).foldl (fun m w => max m w.left) 0

/-- One granted access of the port, which leaves its cycle behind: a write has its two cycles to go, a lock two of its
three. `BUSY_N` stays released while a reset runs (Table RS-3). -/
def State.kioskAccess (s : State) (who : Asker) (op : KOp) (a : Nat) (data : Word64) : KAnswer × State :=
  let s := { s.ungate with kiosk := s.kiosk.advance (s.kiosk.waitFor a true) }
  let colliding := s.kiosk.writes.any fun w => w.addr == a && !w.lock
  match op with
  | .write =>
    (.value 0, { s with kiosk :=
      let k := s.kiosk.advance 1
      { k with writes := k.writes ++ [{ addr := a, data := data, left := 2, lock := false }] } })
  | .read =>
    if colliding && who != .host then
      let v := BitVec.ofNat 64 s.freeVal
      let k := s.kiosk.advance 1
      let low := bit k.cfg (askerBit who) && s.rst.active.isNone
      (.busy v, { s.drawn with kiosk := { k with busyc := inc32 k.busyc, busyN := k.busyN && !low } })
    else
      let k := (s.kiosk.advance (s.kiosk.waitFor a false)).advance 1
      if SMap.get false k.bad a then
        (.dead, ({ s with kiosk := k }).raise 0x605 none a (2 ^ askerBit who) 0)
      else (.value (k.word a), { s with kiosk := k })
  | .add | .swap =>
    let k := (s.kiosk.advance (s.kiosk.waitFor a false)).advance 1
    if SMap.get false k.bad a then
      (.dead, ({ s with kiosk := k }).raise 0x605 none a (2 ^ askerBit who) 0)
    else
      let old := k.word a
      let new := match op with
        | .add => old + data
        | _ => data
      let k := k.put a new
      (.value old, { s with kiosk := { k with writes := k.writes ++ [{ addr := a, data := new, left := 2, lock := true }] } })

/-! ## Windows (R345) -/

namespace Kwin
def base (w : BitVec 32) : Nat :=
  let size := 2 ^ fld w 16 4
  fld w 0 15 / size * size
def covers (w : BitVec 32) (a : Nat) : Bool := decide (base w ≤ a) && decide (a < base w + 2 ^ fld w 16 4)
def allows (w : BitVec 32) (op : KOp) : Bool :=
  match op with
  | .read => bit w 20
  | .write => bit w 21
  | .add | .swap => bit w 22
def permits (w : BitVec 32) (op : KOp) (a : Nat) : Bool := bit w 23 && covers w a && allows w op
end Kwin

def kopOf (op : Nat) : KOp :=
  match op with
  | 0 => .read
  | 1 => .write
  | 2 => .add
  | _ => .swap

/-- A street-side request: the response's status and data, none where no response is sent (R253, R345, R346). -/
def State.streetAccess (s : State) (who : Asker) (win : BitVec 32) (v10 : Bool) (op a : Nat) (data : Word64) :
    Option (Nat × Word64) × State :=
  let k := kopOf op
  if v10 && (k == .add || k == .swap) then (some (3, 0), s)
  else if !Kwin.permits win k a then (some (2, 0), s)
  else match s.kioskAccess who k a data with
    | (.value v, s) => (some (0, v), s)
    | (.busy v, s) => (some (1, v), s)
    | (.dead, s) => (none, s)

/-- Fields of a `KIOSK_RSP`, behind the common bits (Table BL-11). -/
def kioskFields (op status tag a : Nat) (data : Word64) : List (Nat × Nat × Nat) :=
  [(16, 2, op), (18, 3, status), (24, 8, tag), (32, 15, a), (64, 64, data.toNat)]

/-! ## Commands -/

/-- A request from a link partner. -/
def State.kioskReq (s : State) (n op tag a : Nat) (data : Word64) : State :=
  let who := if n < 4 then Asker.portA else .portB
  match s.streetAccess who (SMap.get 0 s.kiosk.win n) ((s.link n).phy.ver == 0) op a data with
  | (some (st, v), s) => s.sendWord n (cword 5 2 (kioskFields op st tag a v))
  | (none, s) => s

def execKioskReq (n : Fin 8) (op : Fin 4) (tag : Byte) (addr : Fin 32768) (data : Word64) (s : State) :
    Host.Outcome State Fault Refusal :=
  .next (if s.linkLive n.val then s.kioskReq n.val op.val tag.toNat addr.val data else s)

/-- Whether a request reaches the Kiosk BAR: the host block and function 0 are out of reset, and the function is in D0 (R297,
R324, R325). -/
def State.barReached (s : State) : Bool := !s.host.inReset && !(s.func 0).flrBusy && !(s.func 0).cfg.d3hot

/-- Gives an access's read data to PCIe. -/
def KAnswer.toHost : KAnswer × State → State
  | (.value v, s) => s.emit (.readData v.toNat)
  | (.busy v, s) => s.emit (.readData v.toNat)
  | (.dead, s) => s

/-- Low or high half of a word. -/
def half (v : Word64) (high : Bool) : Nat := if high then v.toNat / 2 ^ 32 else v.toNat % 2 ^ 32

/-- Whether the Kiosk BAR takes a request of a length at an offset: aligned reads and writes of 32 and 64 bits, FetchAdd and Swap
of 64 bits. -/
def BarOp.supported (op : BarOp) (bytes off : Nat) : Bool :=
  match op with
  | .read | .write => (bytes == 4 || bytes == 8) && off % bytes == 0
  | .fetchAdd | .swap => bytes == 8 && off % 8 == 0
  | .cas => false

/-- A host read of the Kiosk (R342, R483). -/
def State.kioskRead (s : State) (bytes off : Nat) : State :=
  match s.kioskAccess .host .read (off / 8) 0 with
  | (.value v, s) => s.emit (.readData (if bytes = 8 then v.toNat else half v (off % 8 == 4)))
  | (_, s) => s

/-- A 32-bit write merges into its word under the lock of R343. -/
def State.kioskMerge (s : State) (a : Nat) (high : Bool) (v : Nat) : State :=
  let k := s.kiosk.advance (s.kiosk.waitFor a false)
  let old := k.word a
  let new := if high then BitVec.ofNat 64 (old.toNat % 2 ^ 32 + v % 2 ^ 32 * 2 ^ 32)
    else BitVec.ofNat 64 (old.toNat / 2 ^ 32 * 2 ^ 32 + v % 2 ^ 32)
  (({ s with kiosk := k }).kioskAccess .host .swap a new).2

/-- A request of the Kiosk BAR as the core serves it: one that the BAR does not take is an Unsupported Request (R300). -/
def State.kioskServe (s : State) (op : BarOp) (bytes off : Nat) (v : Word64) : State :=
  if !op.supported bytes off then s.emit .unsupported
  else match op with
    | .read => s.kioskRead bytes off
    | .write => if bytes = 8 then (s.kioskAccess .host .write (off / 8) v).2 else s.kioskMerge (off / 8) (off % 8 == 4) v.toNat
    | .fetchAdd => KAnswer.toHost (s.kioskAccess .host .add (off / 8) v)
    | .swap | .cas => KAnswer.toHost (s.kioskAccess .host .swap (off / 8) v)

/-- A request that reaches the Kiosk BAR: in Sleep it waits in the host bridge for CORE (R323). -/
def State.kioskBar (s : State) (op : BarOp) (bytes off : Nat) (v : Word64) : State :=
  if !s.barReached then s
  else if s.power.cur = .sleep then
    { s with host := { s.host with stalled := s.host.stalled ++ [.kiosk op bytes off v] } }
  else if s.coreRuns then s.kioskServe op bytes off v
  else s

def execKioskBarRead (off : BitVec 18) (wide : Bool) (s : State) : Host.Outcome State Fault Refusal :=
  .next (s.kioskBar .read (if wide then 8 else 4) off.toNat 0)
def execKioskBarWrite (off : BitVec 18) (wide : Bool) (v : Word64) (s : State) : Host.Outcome State Fault Refusal :=
  .next (s.kioskBar .write (if wide then 8 else 4) off.toNat v)
def execKioskFetchadd (off : BitVec 18) (v : Word64) (s : State) : Host.Outcome State Fault Refusal :=
  .next (s.kioskBar .fetchAdd 8 off.toNat v)
def execKioskSwap (off : BitVec 18) (v : Word64) (s : State) : Host.Outcome State Fault Refusal :=
  .next (s.kioskBar .swap 8 off.toNat v)

/-- 20 to 24 ns after the last BUSY read the ball is released (R344). -/
def execBusyNRelease (s : State) : Host.Outcome State Fault Refusal :=
  .next { s with kiosk := { s.kiosk with busyN := true } }

end Sys2Proof.Machine
end

