-- ==== Sys2Proof/Machine/QueueCmds.lean ====
section
/-!
DEFINITION. The queue commands (spec/02), FLAG_SET (spec/04), the mark commands (spec/06), PIN_SET (spec/07) and
POLICY_SET (spec/08): what each does once it takes effect. A command's effect takes the reference its completion echoes.
-/
namespace Sys2Proof.Machine

/-! ## QUEUE_BIND (R53, Tables QU-5, QU-10) -/

/-- A queue end code (Table QU-6); none where it is reserved or names a link absent from its port's split. -/
def State.endOf (s : State) (code : Nat) : Option QEnd :=
  if h : code < 8 then (if s.linkPresent code then some (.link ⟨code, h⟩) else none)
  else if code = 8 then some .host
  else if code = 9 then some .ring
  else none

def bindingOf (s : State) (d : Block512) : Binding :=
  { kerb := bit d 144, msgMode := bit d 145, pin := bit d 146, sealedQ := bit d 147, affinity := fld d 148 4
    wfmt := fld d 160 8, rfmt := fld d 168 8
    wend := (s.endOf (fld d 176 8)).getD .host, rend := (s.endOf (fld d 184 8)).getD .host
    rsvSeg := fld d 192 16, maxSeg := fld d 208 16, wring := fld d 224 16, rring := fld d 240 16, conv := fld d 256 2 }

/-- The status of a QUEUE_BIND, its fields checked in the order of Table QU-5. DESIGN CHOICE: QUOTA and NO_SPACE, which judge
`RSV_SEG`, come after every BAD_FIELD. -/
def State.bindStatus (s : State) (fn : Nat) (d : Block512) : Nat :=
  let n := qidOf d
  let b := bindingOf s d
  let g := n / 512
  firstFail [
    (!owns fn n, St.notOwner),
    ((s.q n).st != .unbound, St.badState),
    (b.kerb && !b.msgMode, St.badField),
    (b.pin && (b.kerb || !b.msgMode), St.badField),
    (b.affinity == 0, St.badField),
    (!formatsLegal b.wfmt b.rfmt, St.badFormat),
    ((s.endOf (fld d 176 8)).isNone, St.badField),
    ((s.endOf (fld d 184 8)).isNone, St.badField),
    (b.rsvSeg == 0 || decide (32768 < b.rsvSeg), St.badField),
    (decide (32768 < b.maxSeg) || decide (b.maxSeg < b.rsvSeg), St.badField),
    (decide ((s.group g).gqRsv < s.groupRsv g + b.rsvSeg) || decide ((s.group g).gqMax < s.groupHeld g + b.rsvSeg),
      St.quota),
    (decide (s.plaza.freeFor b.affinity < b.rsvSeg), St.noSpace)]

/-- Wakes the quarters at rest that a binding names (R358). -/
def State.wakeQuarters (s : State) (aff : Nat) : State :=
  let wake (i : Nat) (x : Quarter) : Quarter := if affine aff i then { x with rest := false } else x
  { s with plaza := { s.plaza with quarters := s.plaza.quarters.mapIdx wake } }

def State.doQueueBind (s : State) (r : CmdRef) (d : Block512) : State :=
  let n := qidOf d
  let st := s.bindStatus r.fn d
  if st ≠ St.ok then s.complete r st
  else
    let b := bindingOf s d
    let s := s.wakeQuarters b.affinity
    let s := s.setQ n { st := .ready, b := b, kerb := Kerb.restart {} s.mcount s.cyc }
    let s := s.takeSegs n b.affinity b.rsvSeg
    (s.evalFlags n).complete r St.ok

/-! ## Commands of a chained queue, accepted at the head (R276) -/

/-- The command waits until the members have applied it. -/
def State.waitMembers (s : State) (n : Nat) (r : CmdRef) (code pos : Nat) : State :=
  s.updQ n fun q => { q with chain := { q.chain with
    headWait := q.chain.headWait ++ [{ ref := r, code := code, pos := pos }] } }

/-- The chain position that what the head sends downstream ends at. -/
def Queue.ffPos (q : Queue) : Nat := q.chainPos q.ffEnd

/-! ## QUEUE_OPEN (R50, R55, R67) -/

/-- Whether the keys a sealed queue needs are bound (R55, R419). -/
def State.keysBound (s : State) (n : Nat) : Bool :=
  let q := s.q n
  !q.b.sealedQ ||
    (q.keys.bound && !q.keys.revoked &&
      (!q.hasRingEnd || ((s.group (n / 512)).rsBound && !(s.group (n / 512)).rsRevoked)))

/-- The queue enters OPEN; an end on a link that is not UP holds it at once (R67). -/
def State.openQueue (s : State) (n : Nat) : State :=
  let s := (s.updQ n fun q => { q.spoilInterval with st := .opened }).evalFlags n
  if (s.q n).endLinks.any (fun l => (s.link l).phy.st != .up) then s.hold n 0 else s

def State.doQueueOpen (s : State) (r : CmdRef) (d : Block512) : State :=
  let n := qidOf d
  let q := s.q n
  let st := firstFail [
    (!owns r.fn n, St.notOwner),
    (q.st == .unbound, St.badState),
    (!q.atHead, St.notHead),
    (q.st == .closing || q.st == .held, St.badState),
    (q.hasRingEnd && !q.chained, St.badState),
    (!s.keysBound n, St.keyMissing)]
  if st ≠ St.ok || q.st == .opened then s.complete r st
  else
    let s := s.openQueue n
    if q.chained then
      let pos := (s.q n).ffPos
      (s.waitMembers n r 0 pos).sendChainCmd n 0 pos
    else s.complete r St.ok

/-! ## QUEUE_CLOSE (R50, R61, R63, R66) -/

/-- Writes are refused from now on and the queue drains. -/
def State.closeQueue (s : State) (n : Nat) : State :=
  let s := (s.stopWrite n).abortWriteEnd n
  let s := s.updQ n fun q => { q with st := .closing, needRoom := false, segReq := false, decided := [] }
  (s.tryClose n).evalFlags n

def State.doQueueClose (s : State) (r : CmdRef) (d : Block512) : State :=
  let n := qidOf d
  let q := s.q n
  let st := firstFail [
    (!owns r.fn n, St.notOwner),
    (q.st == .unbound, St.badState),
    (!q.atHead, St.notHead)]
  if st ≠ St.ok then s.complete r st
  else match q.st with
    | .opened =>
      if q.chained then
        let s := s.closeQueue n
        let pos := (s.q n).ffPos
        (s.waitMembers n r 1 pos).sendChainCmd n 1 pos
      else (s.updQ n fun q => { q with closes := q.closes ++ [r] }).closeQueue n
    | .closing =>
      if q.chained then s.waitMembers n r 1 q.ffPos
      else s.updQ n fun q => { q with closes := q.closes ++ [r] }
    | .held =>
      let s := s.updQ n fun q => { q with resume := .closing, decided := [] }
      let s := s.abortWriteEnd n
      if q.chained then
        let pos := (s.q n).ffPos
        (s.waitMembers n r 1 pos).sendChainCmd n 1 pos
      else s.updQ n fun q => { q with closes := q.closes ++ [r] }
    | _ => s.complete r St.ok

/-! ## QUEUE_DISCARD, QUEUE_RESET, QUEUE_RELEASE (R50, R511, R98) -/

/-- A READY or CLOSED queue keeps its state (Table QU-3); its host ends' descriptors complete ABORTED and its predictor restarts
(R66, R103, R203). -/
def State.discardIdle (s : State) (n : Nat) : State :=
  let s := (s.abortWriteEnd n).abortReadEnd n
  (s.updQ n fun q => { q with
    fst := q.fst.restart q.csfill (s.cefill q), kerb := q.kerb.restart s.mcount s.cyc }).evalFlags n

def State.discardAny (s : State) (n : Nat) : State :=
  match (s.q n).st with
  | .opened | .closing | .held => s.discard n
  | .unbound => s
  | _ => s.discardIdle n

def State.doQueueDiscard (s : State) (r : CmdRef) (d : Block512) : State :=
  let n := qidOf d
  let q := s.q n
  let st := firstFail [
    (!owns r.fn n, St.notOwner), (q.st == .unbound, St.badState), (!q.atHead, St.notHead)]
  if st ≠ St.ok then s.complete r st
  else
    let pos := q.ffPos
    let s := (s.discardAny n).realign n pos
    if q.chained then (s.waitMembers n r 2 pos).sendChainCmd n 2 pos
    else s.complete r St.ok

def State.doQueueReset (s : State) (r : CmdRef) (d : Block512) : State :=
  let n := qidOf d
  let q := s.q n
  let st := firstFail [
    (!owns r.fn n, St.notOwner), (q.st == .unbound, St.badState), (!q.atHead, St.notHead)]
  if st ≠ St.ok then s.complete r st
  else
    let pos := q.ffPos
    let s := (s.resetQueue n).realign n pos
    if q.chained then (s.waitMembers n r 3 pos).sendChainCmd n 3 pos
    else s.complete r St.ok

def State.doQueueRelease (s : State) (r : CmdRef) (d : Block512) : State :=
  let n := qidOf d
  let q := s.q n
  let st := firstFail [
    (!owns r.fn n, St.notOwner),
    (q.st != .ready && q.st != .closed, St.badState),
    (q.chained, St.badState)]
  if st ≠ St.ok then s.complete r st
  else (s.unbind n).complete r St.ok

/-! ## QUERY_QUEUE and GROUP_SET (R57, R58) -/

/-- The result block of Table QU-9; every field but STATE is 0 for an UNBOUND queue. -/
def State.queryBlock (s : State) (n : Nat) : Nat :=
  let q := s.q n
  let w (b : Bool) : Nat := if b then 1 else 0
  if q.st = .unbound then 0
  else packNat [
    (0, 3, qstCode q.st), (3, 3, if q.st = .held then qstCode q.resume else 0), (8, 8, q.why),
    (16, 1, w q.b.kerb), (17, 1, w q.b.msgMode), (18, 1, w q.b.pin), (19, 1, w q.b.sealedQ), (20, 4, q.b.affinity),
    (32, 16, q.segs.length), (48, 16, q.b.rsvSeg), (64, 24, q.sfill), (96, 32, s.efill q), (128, 32, s.mfill q),
    (160, 32, q.msnW.toNat), (192, 32, q.msnR.toNat), (224, 32, q.truncCnt), (256, 32, q.partialCnt),
    (288, 32, q.refusedCnt), (320, 32, q.segDeny)]

def State.doQueryQueue (s : State) (r : CmdRef) (d : Block512) : State :=
  let n := qidOf d
  let a := fld d 192 64
  let st := firstFail [
    (!owns r.fn n, St.notOwner), (a == 0 || !resultOk r a, St.badField)]
  if st ≠ St.ok then s.complete r st else s.completeResult r a (s.queryBlock n) St.ok

def State.doGroupSet (s : State) (r : CmdRef) (d : Block512) : State :=
  let g := fld d 128 4
  let rsv := fld d 160 16
  let mx := fld d 176 16
  let st := firstFail [
    (actsAs r.fn != 0, St.notOwner),
    (decide (32768 < rsv) || decide (32768 < mx), St.badField),
    (decide (rsv < s.groupRsv g), St.quota)]
  if st ≠ St.ok then s.complete r st
  else (s.setGroup g { s.group g with gqRsv := rsv, gqMax := mx }).complete r St.ok

/-! ## FLAG_SET (R110 to R112) -/

def flagCfgOf (d : Block512) : FlagCfg :=
  { enable := fld d 144 4, afUnit := bit d 148, alpha := fld d 149 3, evmask := fld d 152 6
    afSet := fld d 160 21, fafSet := fld d 192 21, aeSet := fld d 224 24, faeSet := fld d 256 24
    afHys := fld d 288 16, fafHys := fld d 304 16, aeHys := fld d 320 16, faeHys := fld d 336 16
    fullHys := fld d 352 12, emptyHys := fld d 368 12, fafLead := fld d 384 20, faeLead := fld d 416 20 }

def leadBad (x : Nat) : Bool := decide (x < 100) || decide (1000000 < x)

/-- The result block of Table FL-5. -/
def State.flagBlock (s : State) (n : Nat) : Nat :=
  let q := s.q n
  packNat [(0, 6, q.fst.levels), (6, 1, if q.fst.cold then 1 else 0), (8, 5, q.fst.nsamp),
    (64, 64, unsigned 64 q.fst.rs), (128, 64, unsigned 64 q.fst.re), (192, 32, (s.psf q).toNat),
    (224, 32, (s.pef q).toNat), (256, 24, q.csfill), (288, 32, s.cefill q)]

/-- A flag that new settings enable starts from 0 (R99). -/
def startLevels (levels old new : Nat) : Nat :=
  packNat ((List.range 6).map fun i =>
    (i, 1, if i < 2 then levels / 2 ^ i else
      if old / 2 ^ (i - 2) % 2 == 1 && new / 2 ^ (i - 2) % 2 == 1 then levels / 2 ^ i else 0))

def State.doFlagSet (s : State) (r : CmdRef) (d : Block512) : State :=
  let n := qidOf d
  let q := s.q n
  let c := flagCfgOf d
  let a := fld d 448 64
  let en (i : Nat) : Bool := c.enable / 2 ^ i % 2 == 1
  let st := firstFail [
    (!owns r.fn n, St.notOwner),
    (q.st == .unbound, St.badState),
    (en 2 && leadBad c.fafLead || en 3 && leadBad c.faeLead, St.badField),
    (en 0 && decide (c.afSet < c.afHys), St.badField),
    (en 2 && decide (c.fafSet < c.fafHys), St.badField),
    (c.afUnit && !q.hasRingEnd, St.badField),
    (!resultOk r a, St.badField)]
  if st ≠ St.ok then s.complete r st
  else
    let before := q.fst.levels
    let s := s.setQ n { q with fcfg := c }
    let s := (s.updQ n fun x => { x with fst := { x.fst with levels := startLevels before q.fcfg.enable c.enable } })
    -- the evaluation reports changes against the levels before the command
    let new := s.evalLevels n
    let s := s.updQ n fun x => { x with fst := { x.fst with levels := new } }
    let s := if before ≠ new then (s.sendStatus n).flagEvent n (before ^^^ new) else s
    s.completeResult r a (s.flagBlock n) St.ok

/-! ## MARK, REWIND, RELEASE_MARK (R144 to R162) -/

/-- The checks that the mark commands share (Table RT-3), in order. -/
def State.markChecks (s : State) (fn n : Nat) (atWrite : Bool) : List (Bool × Nat) :=
  [(!owns fn n, St.notOwner),
   ((s.q n).st == .unbound || atWrite && (s.q n).st == .closing, St.badState),
   ((s.q n).chained && (s.q n).role != some .tail, St.notTail)]

def State.doMark (s : State) (r : CmdRef) (d : Block512) : State :=
  let n := qidOf d
  let q := s.q n
  let m := fld d 144 2
  let atW := bit d 146
  let auto := bit d 147
  let ev := bit d 148
  let trail := fld d 152 7
  let a := fld d 192 64
  let st := firstFail (s.markChecks r.fn n atW ++ [
    (auto && (!q.b.msgMode || atW), St.badField),
    (auto && (trail == 0 || decide (64 < trail)), St.badField),
    (ev && !q.b.kerb, St.badField),
    (!resultOk r a, St.badField)])
  if st ≠ St.ok then s.complete r st
  else
    let s := s.updQ n fun q => q.setMark m
      { q.markAt m with auto := auto, evictable := ev, trail := if auto then trail else 0 }
    let s := s.placeMark n m atW
    s.completeResult r a (s.markBlock n) St.ok

def State.doRewind (s : State) (r : CmdRef) (d : Block512) : State :=
  let n := qidOf d
  let q := s.q n
  let m := fld d 144 2
  let a := fld d 192 64
  let st := firstFail (s.markChecks r.fn n false ++ [(!resultOk r a, St.badField)])
  let st := if st ≠ St.ok then st else q.rewindStatus m
  if st ≠ St.ok then s.complete r st
  else s.startRewind n { mark := Fin.ofNat 4 m, target := (q.markAt m).pos, ref := some r, result := a }

def State.doReleaseMark (s : State) (r : CmdRef) (d : Block512) : State :=
  let n := qidOf d
  let a := fld d 192 64
  let st := firstFail (s.markChecks r.fn n false ++ [(!resultOk r a, St.badField)])
  if st ≠ St.ok then s.complete r st
  else
    let s := if ((s.q n).markAt (fld d 144 2)).isSet then s.releaseMark n (fld d 144 2) else s
    s.completeResult r a (s.markBlock n) St.ok

/-! ## PIN_SET (R185, R186) -/

/-- The result block of Table PL-9. -/
def State.pinBlock (s : State) (n : Nat) : Nat :=
  let q := s.q n
  let next := match s.head q with
    | some h => s.rtAt q h.pos
    | none => 0
  packNat [(0, 32, q.pin.lateCnt), (32, 32, q.pin.maxLate), (64, 32, q.pin.earlyClamp), (96, 32, q.pin.noRt),
    (128, 32, q.pin.unlockedRel), (160, 64, next)]

def State.doPinSet (s : State) (r : CmdRef) (d : Block512) : State :=
  let n := qidOf d
  let q := s.q n
  let off := fld d 160 32
  let hor := fld d 192 32
  let a := fld d 256 64
  let st := firstFail [
    (!owns r.fn n, St.notOwner),
    (q.st == .unbound || !q.b.pin, St.badState),
    (decide (1000000000 < off), St.badField),
    (hor != 0 && (decide (hor < 1000) || decide (1000000000 < hor)), St.badField),
    (!resultOk r a, St.badField)]
  if st ≠ St.ok then s.complete r st
  else
    let hor' := if hor = 0 then 1000000000 else hor
    let s := s.setQ n { q with pin := { q.pin with
      stamped := bit d 144, release := bit d 145, offset := off, horizon := hor' } }
    let s := if hor' ≠ q.pin.horizon then s.rejudge n else s
    s.completeResult r a (s.pinBlock n) St.ok

/-! ## POLICY_SET (R208 to R210) -/

def policyOf (d : Block512) : Policy :=
  { adapt := bit d 147, dropmode := fld d 148 2, weight := fld d 152 8, afInit := fld d 160 21, afMin := fld d 192 21
    afMax := fld d 224 21, target := fld d 256 20, ageMax := fld d 288 20, paceMin := fld d 320 20
    paceMax := fld d 352 20, paceBurst := fld d 384 16 }

/-- Frozen under R203: ADAPT is set and fewer than 32 samples have been taken. -/
def Kerb.frozen (k : Kerb) : Bool := k.policy.adapt && decide (k.nsoj < 32)

/-- The result block of Table KB-4. -/
def Queue.policyBlock (q : Queue) : Nat :=
  let k := q.kerb
  packNat [(0, 1, if k.frozen then 1 else 0), (8, 8, k.nsoj), (32, 21, q.fcfg.afSet), (64, 20, k.paceNow),
    (96, 32, k.sojAvg), (128, 32, k.sojMax), (160, 32, k.sojLast), (192, 32, k.admitCnt), (224, 32, k.dropTail),
    (256, 32, k.dropHead), (288, 32, k.dropAge), (320, 32, k.nakCnt), (352, 32, k.arrRate), (384, 32, k.depRate),
    (416, 32, k.dropPer)]

def policyBad (q : Queue) (p : Policy) : Bool :=
  p.dropmode == 3 || p.weight == 0 || decide (p.target < 100) || decide (1000000 < p.target) ||
    decide (800000 < p.paceMax) || (p.paceMax != 0 && decide (p.paceMax < p.paceMin)) ||
    (p.adapt && (decide (p.afMax < p.afMin) || decide (p.afInit < p.afMin) || decide (p.afMax < p.afInit))) ||
    (p.adapt && q.hasRingEnd)

/-- Writes the static settings of a policy (R204, R209). -/
def Queue.applyStatic (q : Queue) : Queue :=
  let p := q.kerb.policy
  { q with
    kerb := { q.kerb with paceNow := p.paceMax }
    fcfg := { q.fcfg with afSet := if p.adapt || p.afInit != 0 then p.afInit else q.fcfg.afSet } }

def State.doPolicySet (s : State) (r : CmdRef) (d : Block512) : State :=
  let n := qidOf d
  let q := s.q n
  let op := fld d 144 2
  let clr := bit d 146
  let p := policyOf d
  let a := fld d 448 64
  let st := firstFail [
    (!owns r.fn n, St.notOwner),
    (q.st == .unbound || !q.b.kerb, St.badState),
    (decide (2 ≤ op) || !resultOk r a, St.badField),
    (op == 0 && policyBad q p, St.badField)]
  if st ≠ St.ok then s.complete r st
  else
    let s :=
      if op = 0 then
        let q := { q with kerb := { q.kerb with policy := p } }.applyStatic
        (s.setQ n { q with kerb := q.kerb.restart s.mcount s.cyc }).evalFlags n
      else s
    let block := (s.q n).policyBlock
    let s := if clr then
        s.updQ n fun q => { q with kerb := { q.kerb with
          admitCnt := 0, dropTail := 0, dropHead := 0, dropAge := 0, nakCnt := 0, sojMax := 0 } }
      else s
    s.completeResult r a block St.ok

end Sys2Proof.Machine
end

