-- ==== Sys2Proof/Machine/RingData.lean ====
section
/-!
DEFINITION. What Ring Road does to a queue (spec/11 R275 to R293): bytes that fall forward, messages learned from their
stored headers, chain commands, station loss, and the shadow's read point, takeover and marks.
-/
namespace Sys2Proof.Machine

/-! ## Bytes that arrive at a member (R14, R33, R188) -/

/-- The whole chain's stored fill and capacity as a tail last heard them (R159, R207). -/
def State.chainFill (s : State) (n : Nat) : Nat := (s.q n).sfill + ((s.q n).members.map (·.sfill)).sum
def State.chainCap (s : State) (n : Nat) : Nat := s.cap n + ((s.q n).members.map (·.cap)).sum

/-- A message arrives at the tail of a KERBSIDE chain: its stamp, and the head drops for the limit, which count what is stored before
it (R188, R197, R207). -/
def State.arriveTail (s : State) (n start : Nat) : State :=
  let q := s.q n
  if q.b.kerb && q.role == some .tail then
    let s := s.setQ n { q with kerb := q.kerb.arrive start s.mcount q.rptr }
    if q.kerb.policy.dropmode = 2 then
      let before (t : State) : Nat := ({ t.q n with wptr := start } : Queue).sfill + ((t.q n).members.map (·.sfill)).sum
      s.headDrops n (fun t => decide ((t.q n).limit ≤ before t)) ((s.unread (s.q n)).length + 1)
    else s
  else s

/-- Follows stored headers from a message's first byte: complete messages become readable, the last stays open. -/
def State.learnMsgs (s : State) (n oldEnd start : Nat) : Nat → State
  | 0 => s
  | fuel + 1 =>
    let q := s.q n
    if q.wptr ≤ start then s.setQ n { q with wmsg := none }
    else if q.wptr < start + q.front then s.setQ n { q with wmsg := some { start := start, msn := 0 } }
    else
      let h := s.hdrAt q start
      let s := s.setQ n { q with msnW := h.msn, wmsg := some { start := start, msn := h.msn } }
      let s := if oldEnd < start + q.front then s.arriveTail n start else s
      let q := s.q n
      if start + h.size ≤ q.wptr then
        (s.setQ n { q with wmsg := none, marks := q.settleMarks (start + h.size) }).learnMsgs n oldEnd (start + h.size) fuel
      else
        let have_ := q.wptr - start - q.front
        s.setQ n { q with
          wmsg := some { start := start, msn := h.msn, slen := have_
                         elems := min h.elems (have_ / q.b.unitBytes * q.b.unitElems) } }

/-- Commits stored bytes from upstream at the write pointer, which has room for them. -/
def State.commitRaw (s : State) (n : Nat) (bytes : List Byte) : State :=
  let q := s.q n
  let start := (q.wmsg.map (·.start)).getD q.wptr
  let s := s.wrBytes q q.wptr bytes
  let s := s.setQ n { q with wptr := q.wptr + bytes.length }
  if q.b.msgMode then s.learnMsgs n q.wptr start (bytes.length / 8 + 2) else s

/-- A full tail of a full KERBSIDE chain whose upstream member shows bytes waiting evicts until it can grant credit (R159). -/
def State.tailEvict (s : State) (n : Nat) (upCommit : Nat) : State :=
  let q := s.q n
  let ahead := (upCommit + 2 ^ 40 - q.committed % 2 ^ 40) % 2 ^ 40
  if q.b.kerb && q.role == some .tail && decide (0 < ahead) && decide (ahead < 2 ^ 39) && s.upRoom n == 0 &&
      decide (s.chainCap n ≤ s.chainFill n) then
    s.evictAll n (fun t => t.upRoom n == 0) 4
  else s

/-- Room for a frame at a member: segments, and at the tail of a full KERBSIDE chain evictions (R159). -/
def State.ringRoom (s : State) (n need : Nat) : State :=
  let s := s.growTo n need growFuel
  if need ≤ (s.q n).heldEnd then s
  else if (s.q n).b.kerb && (s.q n).role == some .tail && decide (s.chainCap n ≤ s.chainFill n) then
    (s.evictAll n (fun t => !t.reaches n need) 4).growTo n need growFuel
  else s

/-! ## Takeover and abdication (R288 to R293) -/

def failoverEvent (n gen : Nat) (refused unfit demoted : Bool) : Event :=
  let w (b : Bool) : Nat := if b then 1 else 0
  { code := 0x023
    body := packNat [(0, 13, n), (16, 1, w refused), (17, 1, w unfit), (18, 1, w demoted), (19, 7, gen)] }

/-- Completes the FAILOVER commands waiting at a tail. -/
def State.endFailovers (s : State) (n : Nat) : State :=
  let rs := (s.q n).pair.failoverWait
  (s.updQ n fun q => { q with pair := { q.pair with failoverWait := [] } }).completeAll rs St.ok

/-- The shadow takes over, or refuses where its own copy is HELD. -/
def State.takeover (s : State) (n : Nat) : State :=
  let q := s.q n
  if q.pair.paired && q.pair.shadow then
    if q.st = .held then s.post 0 (failoverEvent n q.pair.gen true false false)
    else
      let gen := (q.pair.gen + 1) % 128
      let s := s.setQ n { q with pair := { q.pair with
        shadow := false, out := false, stopping := false, gen := gen, peerActive := false, failWatch := false } }
      let s := s.syncNow n
      (s.post 0 (failoverEvent n gen false (!q.pair.fit) false)).endFailovers n
  else s

/-- The active tail abdicates: it stops reading and says so at once. -/
def State.abdicate (s : State) (n : Nat) : State :=
  if (s.q n).pair.paired && !(s.q n).pair.shadow && !(s.q n).pair.out then
    ((s.updQ n fun q => { q with pair := { q.pair with out := true } }).stopRead n).syncNow n
  else s

/-- Serial order modulo 128. -/
def genGreater (a b : Nat) : Bool :=
  let d := (a + 128 - b % 128) % 128
  decide (1 ≤ d) && decide (d < 64)

/-- An active tail that hears a greater GEN becomes the shadow. -/
def State.demote (s : State) (n : Nat) (y : SyncIn) : State :=
  let s := (s.updQ n fun q => { q with pair := { q.pair with
    shadow := true, out := false, stopping := false, fit := false, gen := y.gen, peerActive := true
    rpoint := y.rpoint, rpointSeen := true } }).stopRead n
  ((s.syncNow n).post 0 (failoverEvent n y.gen false false true)).endFailovers n

/-- A SYNC entry from the pair's other tail. -/
def State.pairSync (s : State) (n : Nat) (y : SyncIn) : State :=
  let q := s.q n
  let was := q.pair.peerActive
  let s := s.setQ n { q with pair := { q.pair with
    failWatch := false, peerHeld := y.heldq, peerActive := y.active, rpoint := y.rpoint, rpointSeen := true
    mset := y.mset, codes := y.marks } }
  if q.pair.shadow then
    let s := if y.active || was then (s.followRead n).evalFlags n else s
    if !y.active && was then s.takeover n else s
  else if y.active then
    if !q.pair.out && !q.pair.stopping then
      if genGreater y.gen q.pair.gen then s.demote n y else s
    else (s.updQ n fun q => { q with pair := { q.pair with out := true, stopping := false } }).endFailovers n
  else s

/-! ## Downstream progress (R277) -/

/-- Moves the read pointer of a head or middle member to a stored position that its downstream member has committed. -/
def State.passTo (s : State) (n target : Nat) : Nat → State
  | 0 => s
  | fuel + 1 =>
    let q := s.q n
    if q.b.msgMode then
      let start := q.msgPos
      if start < q.msgEnd then
        let h := s.hdrAt q start
        if start + h.size ≤ target then (s.setQ n { q with rptr := start + h.size, rmsg := none }).passTo n target fuel
        else if start < target then
          let passed := min h.elems ((target - start - q.front) / q.b.unitBytes * q.b.unitElems)
          s.setQ n { q with rptr := target, rmsg := some { start := start, msn := h.msn, sent := passed, off := 0 } }
        else s
      else s.setQ n { q with rptr := max q.rptr target }
    else s.setQ n { q with rptr := max q.rptr target }

/-- A COMMIT and FFLIMIT from the downstream member. -/
def State.downSync (s : State) (n : Nat) (y : SyncIn) : State :=
  let q := s.q n
  let adv := (y.commit + 2 ^ 40 - q.chain.downCommit % 2 ^ 40) % 2 ^ 40
  let c := if q.chain.downCommit + adv ≤ q.chain.sendPos then q.chain.downCommit + adv else q.chain.downCommit
  let s := s.setQ n { q with chain := { q.chain with
    ffLimit := y.fflimit, downCommit := c, sent := q.chain.sent.filter fun e => decide (c ≤ e.1) } }
  let s := s.passTo n (q.storedPos c) ((q.wptr - q.msgPos) / 8 + 2)
  (s.release n).tryClose n

/-! ## Commands waiting at the head (R276) -/

/-- Whether an entry shows that its sender has applied a command. SYNC carries no state, so the entry's fields stand for
it (DEDUCED): for OPEN an entry that is not HELD and grants credit, which only an OPEN member does (R277, R280); for CLOSE the empty
tail; for the others the emptied member. -/
def HeadWait.shownBy (w : HeadWait) (y : SyncIn) : Bool :=
  match w.code with
  | 0 => !y.heldq && y.fflimit != 0
  | 1 => y.role == 2 && y.efill == 0 && y.commit == w.pos % 2 ^ 40
  | _ => y.sfill == 0 && y.commit == w.pos % 2 ^ 40

def HeadWait.note (w : HeadWait) (y : SyncIn) : HeadWait :=
  if w.shownBy y && !w.seen.contains y.station then { w with seen := y.station :: w.seen } else w

def HeadWait.done (w : HeadWait) (nsta : Nat) : Bool :=
  if w.code = 1 then !w.seen.isEmpty else decide (nsta - 1 ≤ w.seen.length)

def State.noteWaits (s : State) (n : Nat) (y : SyncIn) : State :=
  let q := s.q n
  let ws := q.chain.headWait.map fun w => w.note y
  let s := s.setQ n { q with chain := { q.chain with headWait := ws.filter fun w => !w.done q.chain.nsta } }
  s.completeAll ((ws.filter fun w => w.done q.chain.nsta).map (·.ref)) St.ok

/-! ## A SYNC entry (R282) -/

/-- The fields of an entry from a station. -/
def syncOf (t : Nat) (v : Nat) : SyncIn :=
  let f (lo w : Nat) : Nat := v / 2 ^ lo % 2 ^ w
  { station := t, role := f 14 2, active := f 16 1 == 1, heldq := f 17 1 == 1, flags := f 18 6, cold := f 24 1 == 1
    gen := f 25 7, sfill := f 32 24, cap := f 64 24, efill := f 96 32, commit := f 128 40, fflimit := f 168 24
    rpoint := f 192 48, mset := f 240 4, marks := (List.range 4).map fun i => f (256 + 48 * i) 48 }

/-- The chain's part of an entry. -/
def State.chainSync (s : State) (n : Nat) (y : SyncIn) : State :=
  let q := s.q n
  let s := s.setQ n { q with chain := { q.chain with
    sync := (q.chain.sync.filter fun z => z.station != y.station) ++ [y] } }
  let s := if q.member .west = some y.station then s.tailEvict n y.commit else s
  let s := if q.member .east = some y.station then s.downSync n y else s
  let s := if q.member .west = some y.station && q.st == .closing && y.sfill == 0 then
      (s.updQ n fun q => { q with chain := { q.chain with upClosed := true } }).tryClose n
    else s
  (s.noteWaits n y).evalFlags n

/-- Tells a station that this one holds no chain setup for a queue (R284). -/
def State.sendGone (s : State) (n t : Nat) : State := s.sendCtrl t 10 [(2, 2, n)]

/-- One entry of a SYNC frame. -/
def State.syncEntryIn (s : State) (t v : Nat) : State :=
  let n := v % 2 ^ 13
  let y := syncOf t v
  let q := s.q n
  if v / 2 ^ 13 % 2 = 0 then s
  else
    let inChain := q.chain.joined && q.chain.stations.contains t && !q.chain.lost.contains t
    let inPair := q.pair.paired && q.pair.peer == t
    let s := if inChain then s.chainSync n y else s
    let s := if inPair then s.pairSync n y else s
    if !q.chain.joined && q.chain.wait.isNone && !inPair && y.role != 3 then s.sendGone n t else s

/-! ## Station loss (R284, Table RR-7) -/

def State.reportLost (s : State) (t : Nat) : State :=
  ({ s with ring := { s.ring with lost := s.ring.lost ||| BitVec.ofNat 8 (2 ^ t) } }).post 0
    { code := 0x020, body := packNat [(0, 3, t)] }

/-- The chain neighbours that are not lost hear that the setup is void, and pass it on (R280, R284; DESIGN CHOICE: by TEARDOWN). -/
def State.tellLoss (s : State) (n : Nat) : State :=
  let q := s.q n
  let ts := (((q.member .west).toList ++ (q.member .east).toList).filter fun t => !q.chain.lost.contains t)
  ts.foldl (fun s t => s.sendCtrl t 5 [(2, 2, n), (4, 1, 4), (8, 5, q.committed % 2 ^ 40)]) s

/-- A member of one queue's chain is lost: the head's loss lets the others drain, any other breaks the chain. -/
def State.loseMember (s : State) (n t : Nat) : State :=
  let q := s.q n
  if q.chained && q.chain.stations.contains t && t != s.station then
    let headLost := q.chain.stations.head? = some t
    let s := s.setQ n { q with chain := { q.chain with void := true, lost := q.chain.lost ++ [t] } }
    let s := (s.tellLoss n).abdicate n
    if headLost then s else s.hold n 3
  else s

/-- TEARDOWN: a member has left a closed chain, or tells that another member is lost, which is then one this station no longer hears
(R275, R284). -/
def State.teardown (s : State) (n : Nat) : State :=
  let q := s.q n
  if !q.chained then s
  else if q.st = .ready || q.st = .closed then s.setQ n { q with chain := { q.chain with void := true } }
  else
    let gone := q.chain.stations.filter fun t => t != s.station && !s.heard t
    match gone.getLast? with
    | some t => ((s.loseMember n t).reportLost t)
    | none =>
      (((s.setQ n { q with chain := { q.chain with void := true } }).tellLoss n).abdicate n).hold n 3

/-- Queues whose chain uses the hop on a side to a station, or to any where none is named. -/
def State.hopQueues (s : State) (d : Side) : List (Nat × Nat) :=
  s.queues.filterMap fun e => if e.2.chained then (e.2.member d).map fun t => (e.1, t) else none

/-- The members beyond a side for which `gone` holds are lost, each reported once. -/
def State.loseBeyond (s : State) (d : Side) (gone : Nat → Bool) : State :=
  let lost := (s.hopQueues d).filter fun e => gone e.2
  let s := lost.foldl (fun s e => s.loseMember e.1 e.2) s
  (lost.map (·.2)).eraseDups.foldl (fun s t => s.reportLost t) s

/-! ## Chain commands and marks at a member (R276, R279) -/

/-- A member applies a chain command. -/
def State.memberCmd (s : State) (n : Nat) (c : ChainCmd) : State :=
  match c.code with
  | 0 =>
    let q := s.q n
    if (q.st = .ready || q.st = .closed) && s.keysBound n then
      (s.updQ n fun q => { q with chain := { q.chain with upClosed := false } }).openQueue n
    else s
  | 1 =>
    match (s.q n).st with
    | .opened => s.closeQueue n
    | .held => (s.updQ n fun q => { q with resume := .closing }).abortWriteEnd n
    | _ => s
  | 2 => (s.discardAny n).realign n c.pos
  | 3 => (s.resetQueue n).realign n c.pos
  | _ => s.teardown n

/-- Whether the committed position has reached a command. DEDUCED: DISCARD and RESET are applied on arrival, since the bytes before
their position that the head had not sent are dropped and never come. -/
def Queue.reached (q : Queue) (c : ChainCmd) : Bool := decide (2 ≤ c.code) || decide (c.pos ≤ q.committed)

/-- Applies the oldest chain command that is due, and forwards it downstream. -/
def State.applyChainCmd (s : State) (n : Nat) : State :=
  match (s.q n).chain.cmds with
  | c :: rest =>
    if (s.q n).reached c then
      let s := s.updQ n fun q => { q with chain := { q.chain with cmds := rest } }
      let held := (s.q n).st == .held
      let s := s.memberCmd n c
      let s := if c.code < 4 then s.sendChainCmd n c.code c.pos else s
      if held && (s.q n).st != .held then s.syncNow n else s.grantUp n
    else s
  | [] => s

/-- The boundary a carried position stands for: the end of the stored message it lies inside, else itself; never data that the queue
no longer holds (R142, R144). -/
def State.ffBoundary (s : State) (q : Queue) (p : Nat) : Nat :=
  let p := if q.b.msgMode then
      match (s.msgsFrom q ((q.msgEnd - q.oldest) / 8 + 1) (min q.oldest q.msgPos)).find? fun e =>
          decide (e.1 < p) && decide (p < e.1 + e.2.size) with
      | some e => e.1 + e.2.size
      | none => p
    else p
  max p (min q.oldest q.msgPos)

/-- A mark carried to the tail takes its position there, or that of the next message where it lies inside the open one; one that the
command would refuse is rejected (R146). -/
def State.placeFfMark (s : State) (n m pos : Nat) : State :=
  let q := s.q n
  if (q.markAt m).auto || q.st = .closing then
    (s.setQ n { q with inbandRej := inc32 q.inbandRej }).raise 0x004 (some (ownerOf n)) n (packNat [(8, 4, 9)]) 0
  else
    let p := q.storedPos pos
    let inside := q.b.msgMode && (match q.wmsg with
      | some w => decide (w.start < p)
      | none => false)
    let q := q.setMark m
      { q.markAt m with isSet := true, pos := if inside then p else s.ffBoundary q p, next := inside, c := 0, waiting := false }
    ((s.setQ n q).release n).evalFlags n

/-- Applies or forwards the oldest FF_MARK whose position has been committed. -/
def State.applyFfMark (s : State) (n : Nat) : State :=
  match (s.q n).chain.marks with
  | c :: rest =>
    if (s.q n).role != some .head && decide (c.pos ≤ (s.q n).committed) then
      let s := s.updQ n fun q => { q with chain := { q.chain with marks := rest } }
      match (s.q n).member .east with
      | some t => s.sendCtrl t 6 [(2, 2, n), (4, 1, c.code), (8, 5, c.pos % 2 ^ 40)]
      | none => s.placeFfMark n c.code c.pos
    else s
  | [] => s

end Sys2Proof.Machine
end

