-- ==== Sys2Proof/Machine/RingRx.lean ====
section
/-!
DEFINITION. Receiving ring frames (spec/11 R264 to R294): hop delivery, opening, transit, and what each kind of frame does
at the station it is for.
-/
namespace Sys2Proof.Machine

/-! ## Hop checks (R267, R269, R270) -/

/-- HCS, length and CRC-32 hold and no block is errored. -/
def frameGood (f : Frame) : Bool :=
  !f.errored && Fr.hcs f.hdr == crc8 f.hdr.toNat 0 248 && f.payload.length == Fr.len f.hdr &&
    frameCrc f.hdr f.payload f.tag == f.crc

/-- `KIND`, `LEN` and `KEYSEL` are legal (Table RR-2). -/
def frameLegal (h : BitVec 256) : Bool :=
  let len := Fr.len h
  match Fr.kind h with
  | 0 => decide (1 ≤ len) && decide (len ≤ 2048) && Fr.keysel h == 0
  | 1 => len % 64 == 0 && decide (len ≤ 256) && Fr.keysel h == 1
  | 2 => len == 16 && Fr.keysel h == 1
  | 3 => len == 24 && Fr.keysel h == 1
  | _ => false

/-- The neighbour on a side, for frames that end at the next hop. -/
def State.hopStation (s : State) (d : Side) : Nat :=
  match (s.side d).facing with
  | some (t, _) => t
  | none => (s.neighbour d).getD s.station

/-- While a gap lasts, RESEND goes out at most once per 1 µs. -/
def State.gapResend (s : State) (d : Side) : State :=
  let x := s.side d
  if x.lastResend = 0 || x.lastResend - 1 + 1250 ≤ s.cyc then
    let s := s.setSide d { x with gap := true, lastResend := s.cyc + 1 }
    s.sendCtrlOn d (s.hopStation d) (ctrlPayload 3 [(2, 2, x.rxSeq.toNat)]) false
  else s.setSide d { x with gap := true }

def State.countRej (s : State) (d : Side) : State := s.updSide d fun x => { x with rxrej := inc32 x.rxrej }

/-- Frames whose SEQ precedes the one the neighbour expects are acknowledged. -/
def RingSide.ackTo (x : RingSide) (a : BitVec 16) : RingSide :=
  { x with resend := x.resend.filter fun e => !(decide (1 ≤ (a - e.seq).toNat) && decide ((a - e.seq).toNat < 2 ^ 15)) }

/-- Whether a CTRL payload is a TEARDOWN of a queue. -/
def isTeardown (n : Nat) (bs : List Byte) : Bool := le bs 0 1 == 5 && le bs 4 1 == 4 && le bs 2 2 == n

def RingSide.holdsTeardown (x : RingSide) (n : Nat) : Bool :=
  ((x.resend ++ x.ctrlq).any fun e => match e.ctrl with
    | some (_, bs) => isTeardown n bs
    | none => false) || x.again.any fun e => isTeardown n e.2

/-- A CHAIN_SETUP that leaves completes once the neighbours have acknowledged (R275). -/
def State.endLeaves (s : State) : State :=
  (s.queues.filter fun e => match e.2.chain.wait with
    | some w => w.leave && !(s.side .east).holdsTeardown e.1 && !(s.side .west).holdsTeardown e.1
    | none => false).foldl
    (fun s e => match e.2.chain.wait with
      | some w => (s.updQ e.1 fun q => { q with chain := {} }).complete w.ref St.ok
      | none => s) s

/-- Room for a frame in the transit buffer of a side (R272). -/
def State.transitRoom (s : State) (d : Side) (f : Frame) : Bool :=
  let x := s.side d
  decide ((x.transit.map frameBytes).sum + frameBytes f ≤ 16384) || (x.transit.isEmpty && s.sideLive d && x.room f)

/-! ## Opening (R268, R294, R419) -/

/-- What opening a frame gives. -/
inductive Opened where
  | plain (bytes : List Byte)
  | revoked
  | noKey
  | badTag
deriving DecidableEq, Repr

def tryKeys (f : Frame) (keys : List (Nat × BitVec 256)) : Opened :=
  let h := f.hdr
  match keys.filter fun k => k.1 == Fr.epoch h with
  | [] => .noKey
  | ks =>
    match ks.findSome? fun k =>
        gcmOpen k.2 (frameIv (Fr.nonce h) (Fr.src h) (Fr.epoch h) (Fr.keysel h) (Fr.kind h)) (toBytes 32 (bareHdr h))
          f.payload f.tag with
    | some bs => .plain bs
    | none => .badTag

def State.openFrame (s : State) (f : Frame) : Opened :=
  let h := f.hdr
  if Fr.keysel h = 1 then
    tryKeys f ((if s.ring.nokey then [] else [(s.ring.rcEpoch.toNat % 256, ringControlKey s.ring.rcParent s.ring.rcEpoch)]) ++
      (match s.ring.rcPrev with
        | some (e, p) => [(e.toNat % 256, ringControlKey p e)]
        | none => []))
  else
    let gi := Fr.qid h / 512
    let g := s.group gi
    if g.rsGone.contains (Fr.epoch h) then .revoked
    else tryKeys f ((if g.rsBound && !g.rsRevoked then [(g.rsEpoch.toNat % 256, ringSessionKey g.rsParent gi g.rsEpoch)] else []) ++
      (match g.rsPrev with
        | some (e, p) => [(e.toNat % 256, ringSessionKey p gi e)]
        | none => []))

/-- A frame whose tag fails is counted and reported (R268). -/
def State.authFail (s : State) (d : Side) (h : BitVec 256) : State :=
  (s.updSide d fun x => { x with authe := inc32 x.authe }).raise 0x402 none (Fr.src h) (Fr.kind h) (Fr.qid h)

/-! ## DATA (R277, R278) -/

/-- A discarded DATA frame: FF_REWIND goes out once for a gap, naming the position expected. A frame at that position that is
discarded as well opens a gap of its own. -/
def State.ffReject (s : State) (n src pos : Nat) : State :=
  let q := s.q n
  if q.chain.gapSent && pos != q.committed % 2 ^ 40 then s
  else (s.setQ n { q with chain := { q.chain with gapSent := true } }).sendCtrl src 7
    [(2, 2, n), (8, 5, q.committed % 2 ^ 40)]

/-- Commits an opened DATA frame in position order. -/
def State.dataIn (s : State) (src n pos : Nat) (bytes : List Byte) : State :=
  let q := s.q n
  if !q.chain.joined then s.sendGone n src
  else if pos != q.committed % 2 ^ 40 || !(q.st == .opened || q.st == .closing) then s.ffReject n src pos
  else
    let need := q.wptr + bytes.length
    let s := s.ringRoom n need
    if (s.q n).heldEnd < need then s.ffReject n src pos
    else
      let s := s.updQ n fun q => { q with chain := { q.chain with
        gapSent := false, taken := q.chain.taken + ceilDiv bytes.length 256 } }
      let s := (s.commitRaw n bytes).followRead n
      (s.askSegment n).evalFlags n

/-- A DATA frame for this station. -/
def State.dataFrame (s : State) (d : Side) (f : Frame) : State :=
  let h := f.hdr
  let n := Fr.qid h
  if !(s.q n).chain.joined then s.sendGone n (Fr.src h)
  else match s.openFrame f with
  | .plain bs => s.dataIn (Fr.src h) n (Fr.pos h) bs
  | .revoked => (s.updSide d fun x => { x with epoche := inc32 x.epoche }).ffReject n (Fr.src h) (Fr.pos h)
  | .noKey => s.ffReject n (Fr.src h) (Fr.pos h)
  | .badTag => (s.authFail d h).ffReject n (Fr.src h) (Fr.pos h)

/-! ## SYNC (R282, R288) -/

/-- Any SYNC frame from a pair's other tail ends the watch that PAIR_FAIL_N began. -/
def State.hearPeer (s : State) (t : Nat) : State :=
  (s.queues.filter fun e => e.2.pair.failWatch && e.2.pair.peer == t).foldl
    (fun s e => s.updQ e.1 fun q => { q with pair := { q.pair with failWatch := false } }) s

def State.syncIn (s : State) (t : Nat) (payload : List Byte) : State :=
  ((List.range (payload.length / 64)).map fun i => le payload (64 * i) 64).foldl (fun s v => s.syncEntryIn t v)
    (s.hearPeer t)

/-! ## CTRL (Table RR-3) -/

/-- HELLO from another station (R264): the map, the neighbour beyond the side, and stations found again. -/
def State.helloFrom (s : State) (d : Side) (o hops : Nat) (dev : BitVec 64) : State :=
  let set (m : SMap Nat) : SMap Nat := SMap.set 0 m o (hops + 1)
  let s := match d with
    | .east => { s with ring := { s.ring with hopsE := set s.ring.hopsE } }
    | .west => { s with ring := { s.ring with hopsW := set s.ring.hopsW } }
  let s := { s with ring := { s.ring with devids := SMap.set 0 s.ring.devids o dev } }
  let s := if bit s.ring.lost o then
      ({ s with ring := { s.ring with lost := s.ring.lost &&& ~~~(BitVec.ofNat 8 (2 ^ o)) } }).post 0
        { code := 0x021, body := packNat [(0, 3, o)] }
    else s
  let s := s.updSide d fun x => { x with helloSeen := true }
  if hops = 0 then
    let old := (s.side d).facing
    let s := s.updSide d fun x => { x with facing := some (o, dev) }
    match old with
    | some (p, pd) => if p = o && pd == dev then s else s.loseBeyond d fun t => t != o || p == o
    | none => s
  else s

/-- A HELLO broadcast; another station's goes on, one hop older, out of the other side, until seven stations have
forwarded it. -/
def State.helloIn (s : State) (d : Side) (payload : List Byte) : State :=
  let o := le payload 1 1 % 8
  let hops := le payload 2 1
  let dev : BitVec 64 := BitVec.ofNat 64 (le payload 8 8)
  if o = s.station then
    let s := s.updSide d fun x => { x with helloSeen := true }
    if dev.toNat = s.nv.devid.toNat % 2 ^ 64 then
      match d with
      | .east => { s with ring := { s.ring with closedE := true, closedEAt := s.cyc } }
      | .west => { s with ring := { s.ring with closedW := true, closedWAt := s.cyc } }
    else
      ({ s with ring := { s.ring with dup := true, dupAt := s.cyc } }).raise 0x401 none o (dev.toNat % 2 ^ 32) (dev.toNat / 2 ^ 32)
  else
    let s := s.helloFrom d o hops dev
    if hops < 7 then
      match s.controlFrame 2 0 true (ctrlPayload 1 [(1, 1, o), (2, 1, hops + 1), (8, 8, dev.toNat)]) with
      | some (f, s) => s.pushFrame (otherSide d) f none
      | none => s
    else s

/-- The queue that a join names; the bits above are reserved (R10). -/
def joinQid (payload : List Byte) : Nat := le payload 2 2 % 2 ^ 13

/-- A join kept until it is matched; a newer one from the same station for the same queue replaces it. -/
def State.keepJoin (s : State) (t : Nat) (payload : List Byte) : State :=
  let op := le payload 0 1
  let same (j : JoinHeard) : Bool := j.op == op && j.station == t && joinQid j.payload == joinQid payload
  { s with ring := { s.ring with
      joins := (s.ring.joins.filter fun j => !same j) ++ [{ op := op, station := t, payload := payload }] } }

def State.joinFrom (s : State) (op n t : Nat) : Option (List Byte) :=
  (s.ring.joins.find? fun j => j.op == op && j.station == t && joinQid j.payload == n).map (·.payload)

/-- The binding fields that every member shares, as CHAIN_JOIN carries them (R274). -/
def joinFields (q : Queue) : List (Nat × Nat × Nat) :=
  let w (b : Bool) : Nat := if b then 1 else 0
  [(6, 1, packNat [(0, 1, w q.b.kerb), (1, 1, w q.b.msgMode), (2, 1, w q.b.pin), (3, 1, w q.b.sealedQ)]),
    (7, 1, q.b.wfmt), (8, 1, q.b.rfmt), (9, 1, q.b.conv)]

/-- Whether a join's binding fields are this station's; its reserved bits are ignored (R10). -/
def Queue.joinAgrees (q : Queue) (payload : List Byte) : Bool :=
  (joinFields q).all fun (o, k, v) => (if o = 6 then le payload o k % 16 else le payload o k) == v

/-- Whether a neighbour's CHAIN_JOIN agrees with this station's setup. -/
def Queue.chainMatches (q : Queue) (n pos : Nat) (payload : List Byte) : Bool :=
  joinQid payload == n && le payload 4 1 == pos && le payload 5 1 == q.chain.nsta && q.joinAgrees payload

/-- Ends a CHAIN_SETUP that fails. -/
def State.failChain (s : State) (n : Nat) (status : Nat) : State :=
  match (s.q n).chain.wait with
  | some w => (s.updQ n fun q => { q with chain := {} }).complete w.ref status
  | none => s

/-- Judges the joins a CHAIN_SETUP waits for (R275). -/
def State.judgeChain (s : State) (n : Nat) : State :=
  let q := s.q n
  match q.chain.wait with
  | none => s
  | some w =>
    if w.leave then s
    else
      let heardOf (d : Side) (need : Bool) : Option (Option (List Byte)) :=
        if need then (q.member d).map fun t => s.joinFrom 4 n t else some none
      let ok (pos : Nat) (j : Option (Option (List Byte))) (need : Bool) : Bool × Bool :=
        match j with
        | some (some p) => (q.chainMatches n pos p, true)
        | _ => (true, !need)
      let (okE, hasE) := ok (q.chain.pos + 1) (heardOf .east w.east) w.east
      let (okW, hasW) := ok (q.chain.pos - 1) (heardOf .west w.west) w.west
      let forget (s : State) : State := { s with ring := { s.ring with
        joins := s.ring.joins.filter fun j => !(j.op == 4 && joinQid j.payload == n) } }
      if !okE || !okW then forget (s.failChain n St.chainMismatch)
      else if hasE && hasW then
        let stations := s.chainStations q.chain.pos q.chain.nsta
        (forget ((s.updQ n fun q => { q with chain := { q.chain with joined := true, wait := none, stations := stations } }).evalFlags
          n)).complete w.ref St.ok
      else s

/-- Whether the other tail's PAIR_JOIN agrees: the other role, and the same fields. -/
def Queue.pairMatches (q : Queue) (n role : Nat) (payload : List Byte) : Bool :=
  joinQid payload == n && le payload 4 1 == 1 - role && q.joinAgrees payload

/-- Judges the PAIR_JOIN a PAIR_SETUP waits for (R285). -/
def State.judgePair (s : State) (n : Nat) : State :=
  let q := s.q n
  match q.pair.wait with
  | none => s
  | some r =>
    match s.joinFrom 8 n q.pair.peer with
    | none => s
    | some p =>
      let s := { s with ring := { s.ring with
        joins := s.ring.joins.filter fun j => !(j.op == 8 && joinQid j.payload == n && j.station == q.pair.peer) } }
      if q.pairMatches n (if q.pair.shadow then 1 else 0) p then
        let s := s.updQ n fun q => { q with pair := { q.pair with
          paired := true, wait := none, peerActive := q.pair.shadow } }
        let s := if (s.q n).pairActive then s.syncNow n else s
        (if q.pair.shadow then s.stopRead n else s).complete r St.ok
      else (s.updQ n fun q => { q with pair := {} }).complete r St.chainMismatch

/-- Ring-session children of an epoch are revoked, and frames under it known from then on (R294). -/
def Group.revoke (g : Group) (epoch : Nat) : Group :=
  { g with
    rsRevoked := g.rsRevoked || (g.rsBound && g.rsEpoch.toNat % 256 == epoch)
    rsPrev := g.rsPrev.filter fun e => e.1.toNat % 256 != epoch
    rsGone := if g.rsGone.contains epoch then g.rsGone else g.rsGone ++ [epoch] }

/-- REVOKE (R294): ring-session children of the group and epoch, and KEY_REVOKED on its chained queues. -/
def State.revokeGroup (s : State) (g epoch : Nat) : State :=
  let s := s.setGroup g ((s.group g).revoke epoch)
  (s.queues.filter fun e => e.1 / 512 == g && e.2.chain.joined).foldl (fun s e => s.hold e.1 1) s

/-- A CTRL operation at the station it is for. -/
def State.ctrlOp (s : State) (d : Side) (src : Nat) (payload : List Byte) : State :=
  let n := le payload 2 2 % 2 ^ 13
  match le payload 0 1 with
  | 1 => s.helloIn d payload
  | 3 =>
    let a : BitVec 16 := BitVec.ofNat 16 (le payload 2 2)
    let s := s.updSide d fun x => x.ackTo a
    s.resendFrames d
  | 4 => (s.keepJoin src payload).judgeChain n
  | 5 =>
    if (s.q n).chain.joined then
      s.updQ n fun q =>
        let adv := (le payload 8 5 + 2 ^ 40 - q.committed % 2 ^ 40) % 2 ^ 40
        let pos := if adv < 2 ^ 39 then q.committed + adv else q.committed
        { q with chain := { q.chain with cmds := q.chain.cmds ++ [{ code := le payload 4 1, pos := pos }] } }
    else s.sendGone n src
  | 6 =>
    if (s.q n).chain.joined then
      s.updQ n fun q =>
        let adv := (le payload 8 5 + 2 ^ 40 - q.committed % 2 ^ 40) % 2 ^ 40
        let pos := if adv < 2 ^ 39 then q.committed + adv else q.committed
        let m := le payload 4 1 % 4
        { q with chain := { q.chain with marks := (q.chain.marks.filter fun c => c.code != m) ++ [{ code := m, pos := pos }] } }
    else s.sendGone n src
  | 7 =>
    if (s.q n).chain.joined then
      s.updQ n fun q =>
        let adv := (le payload 8 5 + 2 ^ 40 - q.chain.downCommit % 2 ^ 40) % 2 ^ 40
        let pos := q.chain.downCommit + adv
        if pos ≤ q.chain.sendPos then { q with chain := q.chain.resume pos } else q
    else s.sendGone n src
  | 8 => (s.keepJoin src payload).judgePair n
  | 9 =>
    s.revokeGroup (le payload 1 1 % 16) (le payload 2 1)
  | 10 =>
    if (s.q n).chained && (s.q n).chain.stations.contains src then (s.loseMember n src).reportLost src else s
  | _ => s

/-- Nothing more that arrives on a side repeats what it brought before it went down. -/
def State.endRepeats (s : State) (d : Side) : State := s.updSide d fun x => { x with repeats := [] }

/-- A CTRL payload: a repeat of one already applied is ignored (R271). The neighbour sends its repeats first after UP, so
the first frame that is none ends them. -/
def State.ctrlIn (s : State) (d : Side) (src : Nat) (payload : List Byte) : State :=
  if ctrlRepeats (le payload 0 1) then
    if (s.side d).repeats.contains (src, payload) then
      s.updSide d fun x => { x with repeats := x.repeats.erase (src, payload) }
    else ((s.endRepeats d).updSide d fun x => { x with applied := x.applied ++ [(src, payload)] }).ctrlOp d src payload
  else (s.endRepeats d).ctrlOp d src payload

/-! ## KIOSK (R345) -/

/-- A Kiosk request over the ring is answered to its sender; a response needs nothing more. -/
def State.kioskIn (s : State) (src : Nat) (payload : List Byte) : State :=
  let v := ofBytes payload
  let f (lo w : Nat) : Nat := v / 2 ^ lo % 2 ^ w
  if f 8 4 = 4 then
    match s.streetAccess .ring s.kiosk.winRing false (f 16 2) (f 32 15) (BitVec.ofNat 64 (f 64 64)) with
    | (some (st, data), s) =>
      match s.controlFrame 3 src false (cword 5 2 (kioskFields (f 16 2) st (f 24 8) (f 32 15) data)) with
      | some (fr, s) => s.routeFrame fr
      | none => s
    | (none, s) => s
  else s

/-! ## The whole receipt -/

/-- Whether a broadcast goes on: it has not come back to its sender, nor crossed seven hops (R272). -/
def State.goesOn (s : State) (d : Side) (f : Frame) : Bool :=
  Fr.bcast f.hdr && Fr.src f.hdr != s.station && decide ((s.hops d (Fr.src f.hdr)).getD 0 < 7)

/-- A broadcast goes on out of the other side. A HELLO has gone on already, one hop older; a REVOKE is kept for R271's repeat. -/
def State.forwardCast (s : State) (d : Side) (f : Frame) : State :=
  if s.goesOn d f then
    match Fr.kind f.hdr, s.openFrame f with
    | 2, .plain bs =>
      if le bs 0 1 = 1 then s
      else if le bs 0 1 = 9 && !s.sideLive (otherSide d) then
        s.updSide (otherSide d) fun x => { x with again := x.again ++ [(0, bs)] }
      else s.pushFrame (otherSide d) f (if le bs 0 1 = 9 then some (0, bs) else none)
    | _, _ => s.pushFrame (otherSide d) f none
  else s

/-- What a frame does at the station it is for. -/
def State.consume (s : State) (d : Side) (f : Frame) : State :=
  let h := f.hdr
  if Fr.kind h = 0 then (s.endRepeats d).dataFrame d f
  else match s.openFrame f with
    | .plain bs =>
      match Fr.kind h with
      | 1 => (s.endRepeats d).syncIn (Fr.src h) bs
      | 2 => s.ctrlIn d (Fr.src h) bs
      | _ => (s.endRepeats d).kioskIn (Fr.src h) bs
    | .badTag => s.authFail d h
    | _ => s

/-- Whether a frame only passes through this station (R272). -/
def State.passes (s : State) (h : BitVec 256) : Bool := !Fr.bcast h && Fr.dst h != s.station

/-- A transit frame leaves by the other side as soon as it can. -/
def State.forward (s : State) (d : Side) (f : Frame) : State :=
  let s := s.endRepeats d
  if Fr.src f.hdr = s.station then s
  else (s.updSide (otherSide d) fun x => { x with transit := x.transit ++ [f] }).drain (otherSide d)

/-- A frame accepted on the hop: its ACK, then its use. -/
def State.acceptFrame (s : State) (d : Side) (f : Frame) : State :=
  let s := s.updSide d fun x =>
    { x.ackTo (BitVec.ofNat 16 (Fr.ack f.hdr)) with rxSeq := x.rxSeq + 1, gap := false, owesAck := true }
  let s := (s.drain d).endLeaves
  if s.passes f.hdr then s.forward d f else (s.forwardCast d f).consume d f

/-- A frame arrives on a side (R270). -/
def State.rxFrame (s : State) (d : Side) (f : Frame) : State :=
  let ahead := (BitVec.ofNat 16 (Fr.seq f.hdr) - (s.side d).rxSeq).toNat
  if !s.sideLive d then s
  else
  let s := s.crossIn d f
  if !frameGood f || !frameLegal f.hdr then (s.countRej d).gapResend d
  else if ahead ≠ 0 then
    if ahead < 2 ^ 15 then (s.countRej d).gapResend d
    else (s.countRej d).updSide d fun x => { x with owesAck := true }
  else if s.passes f.hdr && !s.transitRoom (otherSide d) f then
    (s.updSide d fun x => { x with tdrop := inc32 x.tdrop }).gapResend d
  else s.acceptFrame d f

/-! ## Meanings of the frame commands -/

def execRingDataFrame (d : Side) (x : RxFrame) (s : State) : Host.Outcome State Fault Refusal :=
  .next (if s.sideLive d then (s.countLanes (.side d) x.lanes).rxFrame d x.frame else s)
def execSyncFrame (d : Side) (f : Frame) (s : State) : Host.Outcome State Fault Refusal := .next (s.rxFrame d f)
def execRingHello (d : Side) (f : Frame) (s : State) : Host.Outcome State Fault Refusal := .next (s.rxFrame d f)
def execAck (d : Side) (f : Frame) (s : State) : Host.Outcome State Fault Refusal := .next (s.rxFrame d f)
def execResend (d : Side) (f : Frame) (s : State) : Host.Outcome State Fault Refusal := .next (s.rxFrame d f)
def execChainJoin (d : Side) (f : Frame) (s : State) : Host.Outcome State Fault Refusal := .next (s.rxFrame d f)
def execChainCmd (d : Side) (f : Frame) (s : State) : Host.Outcome State Fault Refusal := .next (s.rxFrame d f)
def execFfMark (d : Side) (f : Frame) (s : State) : Host.Outcome State Fault Refusal := .next (s.rxFrame d f)
def execFfRewind (d : Side) (f : Frame) (s : State) : Host.Outcome State Fault Refusal := .next (s.rxFrame d f)
def execPairJoin (d : Side) (f : Frame) (s : State) : Host.Outcome State Fault Refusal := .next (s.rxFrame d f)
def execRevoke (d : Side) (f : Frame) (s : State) : Host.Outcome State Fault Refusal := .next (s.rxFrame d f)
def execGone (d : Side) (f : Frame) (s : State) : Host.Outcome State Fault Refusal := .next (s.rxFrame d f)
def execKioskFrame (d : Side) (f : Frame) (s : State) : Host.Outcome State Fault Refusal := .next (s.rxFrame d f)
def execRingFrameTransit (d : Side) (f : Frame) (s : State) : Host.Outcome State Fault Refusal := .next (s.rxFrame d f)

end Sys2Proof.Machine
end

