-- ==== Sys2Proof/Machine/Transmit.lean ====
section
/-!
DEFINITION. Egress (spec/10 R239, R240, R248, R256; spec/08 R199, R200; spec/07 R179 to R184): which queue sends next on
a link, the burst it sends, and the release of pinned messages.
-/
namespace Sys2Proof.Machine

/-! ## Readiness -/

/-- Whether the read side of a queue may serve reads: OPEN or CLOSING, not a shadow, not frozen, not stopped. -/
def Queue.reads (q : Queue) : Bool :=
  (q.st == .opened || q.st == .closing) && (!q.pair.paired || q.pairActive)

/-- Egress credit a link has for a queue's pair. -/
def State.txCredit (s : State) (n q cost : Nat) : Bool :=
  let c := (s.link n).credit (s.pairOf q)
  Credit.covers c.txLimit c.txUsed cost

def State.spend (s : State) (n q cost : Nat) : State :=
  s.updCredit n (s.pairOf q) fun c => { c with txUsed := c.txUsed + BitVec.ofNat 24 cost }

/-- Read-side payload of the message at the read side. -/
def State.headLen (s : State) (q : Queue) : Nat :=
  match s.head q with
  | some h => h.elems * q.b.rbytes
  | none => 0

/-! ## One chunk -/

/-- The read side begins a Kerbside message (R190, R199, R200). -/
def State.beginKerb (s : State) (n : Nat) : State :=
  let q := s.q n
  if q.b.kerb && q.rmsg.isNone then
    s.setQ n { q with kerb := q.kerb.begin_ q.msgPos (s.headLen q) s.mcount s.cyc }
  else s

/-- The stream burst number of R239, or of R290 in a pair. -/
def streamMsn (q : Queue) : Nat :=
  if q.pair.paired then q.elemsRead / q.b.fitElems 2048 % 2 ^ 32 else q.burstMsn.toNat

/-- Stored header bytes that beginning a message reads, where their words cannot be corrected. -/
def State.headBad (s : State) (q : Queue) : List Nat :=
  match s.head q with
  | some h => if q.rmsg.isNone && h.complete then s.badWords q h.pos q.front else []
  | none => []

/-! ## Packing (R240) -/

/-- Whether the head message may go in a `PACKED` burst, `room` bytes of it left and `want` the MSN it must carry. -/
def State.packable (s : State) (n room : Nat) (want : Option (BitVec 32)) : Bool :=
  let q := s.q n
  match s.head q with
  | some h =>
    h.complete && q.rmsg.isNone && q.rewinds.isEmpty && decide (s.headLen q ≤ 2046) &&
      decide (2 + s.headLen q ≤ room) && (want.isNone || want == some h.msn) && (s.headBad q).isEmpty &&
      (!q.b.kerb || q.kerb.mayBegin s.cyc)
  | none => false

/-- Takes packable messages while they fit. -/
def State.packRun (s : State) (n room : Nat) (want : Option (BitVec 32)) : Nat → List Chunk × State
  | 0 => ([], s)
  | fuel + 1 =>
    let s' := s.ageOut n ((s.unread (s.q n)).length + 1)
    if s'.packable n room want then
      match (s'.beginKerb n).take n 2046 with
      | some (c, s'') =>
        let (cs, t) := s''.packRun n (room - 2 - c.payload.length) (some (c.msn + 1)) fuel
        (c :: cs, t)
      | none => ([], s)
    else ([], s)

/-- Whether a queue's messages may be packed on a link at all. -/
def State.packs (s : State) (l n : Nat) : Bool :=
  let b := (s.q n).b
  (s.link l).phy.ver == 1 && b.msgMode && !b.pin && !b.sealedQ && (s.q n).rmsg.isNone

/-! ## The burst -/

/-- A burst formed for sending, with its read-side payload, record headers apart, and what sending it costs. -/
structure OutBurst where
  burst : Burst
  bytes : Nat
  cost : Nat
deriving DecidableEq, Repr

/-- Header bits without `HCS`, and `HCS` over them. -/
def mkHdr (fields : List (Nat × Nat × Nat)) : BitVec 128 :=
  let v := packNat fields
  BitVec.ofNat 128 (v + crc8 v 0 120 * 2 ^ 120)

/-- Seals a payload as R256 states, or leaves it plain. -/
def Queue.sealPayload (q : Queue) (n : Nat) (hdr : BitVec 128) (payload : List Byte) : List Byte × BitVec 128 :=
  if q.b.sealedQ then
    gcmSeal (queueKeyOut q.keys.parent n q.keys.epoch)
      (burstIv (Bh.offset hdr) (Bh.msn hdr).toNat n (Bh.epoch hdr) true) (bvBytes hdr) payload
  else (payload, 0)

/-- A burst from its header and payload; a range with an uncorrectable word inverts the CRC-32 (R330). -/
def Queue.mkBurst (q : Queue) (n : Nat) (hdr : BitVec 128) (payload : List Byte) (bad : Bool) : OutBurst :=
  let (ct, tag) := q.sealPayload n hdr payload
  let crc := burstCrc hdr ct tag
  { burst := { hdr := hdr, payload := ct, tag := tag, crc := if bad then ~~~crc else crc, hdrErr := false, payErr := false }
    bytes := payload.length, cost := creditCost payload.length q.b.sealedQ }

/-- The header of a `DATA` burst for a chunk of a queue. -/
def Queue.dataHdr (q : Queue) (n : Nat) (c : Chunk) (msn rt : Nat) : BitVec 128 :=
  let pinFirst := q.b.pin && c.first
  mkHdr ([(0, 4, 0), (4, 1, if c.first then 1 else 0), (5, 1, if c.last then 1 else 0), (6, 1, if pinFirst then 1 else 0),
    (7, 1, if q.b.sealedQ then 1 else 0), (8, 13, n), (24, 12, c.payload.length), (40, 32, msn),
    (112, 8, if q.b.sealedQ then q.keys.epoch.toNat else 0)] ++
    (if pinFirst then [(72, 40, rt)] else [(72, 14, c.off)]))

/-- Counts a message sealed for sending. -/
def State.countSealedOut (s : State) (n : Nat) (first : Bool) : State :=
  let q := s.q n
  if q.b.sealedQ && first then
    (s.setQ n { q with keys := { q.keys with outCnt := q.keys.outCnt + 1 } }).sealCount n (q.keys.outCnt + 1) 1
  else s

/-- The next `DATA` burst of a queue and the state once its bytes have been taken. -/
def State.dataBurst (s : State) (n : Nat) : Option (OutBurst × State) :=
  let q := s.q n
  match (s.beginKerb n).take n 2048 with
  | none => none
  | some (c, t) =>
    let bad := s.badWords q c.lo c.len
    let msn := if q.b.msgMode then c.msn.toNat else streamMsn q
    let rt := if q.b.pin then s.rtAt q q.msgPos else 0
    let ob := q.mkBurst n (q.dataHdr n c msn rt) c.payload (!bad.isEmpty)
    let t := if q.b.msgMode then t else t.updQ n fun q => { q with burstMsn := q.burstMsn + 1 }
    some (ob, t.reportUe n bad (q.chainPos c.lo % 2 ^ 32))

/-- A `PACKED` burst of at least two messages, or none. -/
def State.packedBurst (s : State) (l n : Nat) : Option (OutBurst × State) :=
  if s.packs l n then
    let q := s.q n
    match s.packRun n 2048 none 1024 with
    | (c :: d :: cs, t) =>
      let payload := (c :: d :: cs).flatMap fun x => toBytes 2 x.payload.length ++ x.payload
      let bad := (c :: d :: cs).flatMap fun x => s.badWords q x.lo x.len
      let hdr := mkHdr [(0, 4, 1), (4, 1, 1), (5, 1, 1), (8, 13, n), (24, 12, payload.length), (40, 32, c.msn.toNat)]
      let ob := q.mkBurst n hdr payload (!bad.isEmpty)
      some ({ ob with bytes := ((c :: d :: cs).map fun x => x.payload.length).sum }, t.reportUe n bad 0)
    | _ => none
  else none

/-- The next burst a queue would send on a link. -/
def State.nextBurst (s : State) (l n : Nat) : Option (OutBurst × State) :=
  match s.packedBurst l n with
  | some x => some x
  | none => s.dataBurst n

/-- Whether a queue is ready to send its next burst on a link (R248): something to send, credit, and tokens to begin. -/
def State.ready (s : State) (l n : Nat) : Option (OutBurst × State) :=
  let q := s.q n
  if q.reads && q.b.rend.isLink l && (!q.b.kerb || !q.rmsg.isNone || q.kerb.mayBegin s.cyc) then
    match s.nextBurst l n with
    | some (b, t) => if s.txCredit l n b.cost then some (b, t) else none
    | none => none
  else none

/-- Age-out of a queue that is about to begin a message (R196), where its reader has credit. -/
def State.ageReady (s : State) (l n : Nat) : State :=
  if (s.q n).b.kerb && (s.ready l n).isSome then
    (s.ageOut n ((s.unread (s.q n)).length + 1)).afterRead n
  else s

/-- Sends a burst that is ready: a stored header that cannot be corrected is fatal instead (R330). -/
def State.sendBurst (s : State) (l : Fin 8) (n : Nat) (ob : OutBurst) (t : State) : State :=
  match s.headBad (s.q n) with
  | [] =>
    let t := t.spend l.val n ob.cost
    let t := (t.crossTx l.val (burstUnit ob.burst)).emit (.burst l ob.burst)
    let t := t.countSealedOut n (Bh.first ob.burst.hdr)
    (t.dropSentHead n).afterRead n
  | bad => s.headerUe n bad

/-! ## Choosing (R199, R248) -/

/-- Queues of a group and class with their read end on a link, unpinned, in order from `start`. -/
def State.readersFrom (s : State) (l g : Nat) (kerb : Bool) (start : Nat) : List Nat :=
  let qs := (s.queues.filter fun e => e.1 / 512 == g && e.2.b.rend.isLink l && e.2.b.kerb == kerb && !e.2.b.pin &&
    e.2.st != .unbound).map (·.1)
  qs.filter (fun n => decide (start ≤ n)) ++ qs.filter (fun n => decide (n < start))

/-- What a class of a group can send next: the queue, the burst, and the state with turns and deficits moved. -/
structure Choice where
  n : Nat
  ob : OutBurst
  before : State
  after : State

/-- Express queues of a group round robin, one burst per turn. -/
def State.pickExpress (s : State) (l g : Nat) : Option Choice :=
  let key := 2 * g
  (s.readersFrom l g false (SMap.get 0 (s.link l).rrQueue key)).findSome? fun n =>
    match s.ready l n with
    | some (b, t) =>
      let turn (s : State) : State := s.updLink l fun x => { x with rrQueue := SMap.set 0 x.rrQueue key (n + 1) }
      some { n := n, ob := b, before := turn s, after := turn t }
    | none => none

def Policy.quantum (p : Policy) : Nat := 256 * p.weight

/-- Deficit round robin over the Kerbside queues of a group (R199): a queue whose turn comes (`fresh`) with something to send gains
its quantum, and it sends while its deficit covers its bursts. One without tokens keeps its deficit; one with no readable
message loses it. -/
def State.drr (s : State) (l g : Nat) : Nat → Bool → List Nat → Option Choice
  | 0, _, _ => none
  | _, _, [] => none
  | fuel + 1, fresh, n :: rest =>
    let s := s.ageReady l n
    if s.readable (s.q n) = 0 && (s.head (s.q n)).isNone then
      (s.updQ n fun q => { q with kerb := { q.kerb with deficit := 0 } }).drr l g fuel true (rest ++ [n])
    else if (s.ready l n).isNone then s.drr l g fuel true (rest ++ [n])
    else
      let s := if fresh then
          s.updQ n fun q => { q with kerb := { q.kerb with deficit := q.kerb.deficit + q.kerb.policy.quantum } }
        else s
      match s.ready l n with
      | none => s.drr l g fuel true (rest ++ [n])
      | some (b, t) =>
        if b.bytes ≤ (s.q n).kerb.deficit then
          let turn (s : State) : State := s.updLink l fun x => { x with rrQueue := SMap.set 0 x.rrQueue (2 * g + 1) n }
          let paid := turn (t.updQ n fun q => { q with kerb := { q.kerb with deficit := q.kerb.deficit - b.bytes } })
          some { n := n, ob := b, before := turn s, after := paid }
        else s.drr l g fuel true (rest ++ [n])

/-- The turn stays with the queue that sent last; any other queue's turn is fresh. -/
def State.pickKerb (s : State) (l g : Nat) : Option Choice :=
  let last := SMap.get 0 (s.link l).rrQueue (2 * g + 1)
  let qs := s.readersFrom l g true last
  if qs.any fun n => (s.ready l n).isSome then s.drr l g (10 * qs.length + 10) (qs.head? != some last) qs else none

/-- Kerbside queues of a link that would begin a message now drop what is stale, although nothing is left to send (R196). -/
def State.ageLink (s : State) (l : Nat) : State :=
  (s.queues.filter fun e => e.2.b.kerb && e.2.b.rend.isLink l).foldl (fun s e => s.ageReady l e.1) s

/-- The next group in turn of a class that has something to send. -/
def State.pickClass (s : State) (l : Nat) (kerb : Bool) : Option Choice :=
  let start := if kerb then (s.link l).rrKerb else (s.link l).rrExpress
  ((List.range 16).map fun i => (start + i) % 16).findSome? fun g =>
    match (if kerb then s.pickKerb l g else s.pickExpress l g) with
    | some c =>
      let turn (s : State) : State := s.updLink l fun x =>
        if kerb then { x with rrKerb := (g + 1) % 16, sinceKerb := 0 }
        else { x with rrExpress := (g + 1) % 16 }
      some { c with before := turn c.before, after := turn c.after }
    | none => none

/-- The lock states in which pinned messages are released at T (R180). -/
def Lock.releases : Lock → Bool
  | .unlocked => false
  | _ => true

/-- A pinned queue of a link in the middle of a message: its bursts follow back to back (R181). -/
def State.pinnedRunning (s : State) (l : Nat) : Option Nat :=
  (s.queues.find? fun e => e.2.b.pin && e.2.b.rend.isLink l && e.2.rmsg.isSome).map (·.1)

/-- Nanoseconds a burst takes on a link at nominal rate (Table BP-4), rounded up. -/
def State.burstNs (s : State) (l bytes : Nat) : Nat :=
  let lanes := s.lanes l
  let c := (s.link l).phy.cfg
  let rate16 := if !c.nrz then 7999 else if c.fec = 0 then 4000 else 3882
  ceilDiv (8 * roundUp 8 bytes * 10 * 16) (rate16 * lanes)

/-- The release times of the pinned messages that wait on a link at their T − 400 ns or later, by queue (R181). -/
def State.pinsDue (s : State) (l : Nat) : List (Nat × Nat) :=
  if s.time.lock.releases then
    s.queues.filterMap fun e =>
      if e.2.b.pin && e.2.b.rend.isLink l && e.2.reads && e.2.rmsg.isNone then
        match s.head e.2 with
        | some h => if s.rtAt e.2 h.pos ≤ s.tbNs + 400 then some (e.1, s.rtAt e.2 h.pos) else none
        | none => none
      else none
  else []

/-- Whether a burst ends before the launch of every pinned message that is due on a reserved link (R181). -/
def State.endsInTime (s : State) (l : Nat) (ob : OutBurst) : Bool :=
  (s.link l).reserved.isNone || (s.pinsDue l).all fun e => decide (s.tbNs + s.burstNs l (burstBytes ob.burst.hdr) ≤ e.2)

/-- The choice of R248 on a link. -/
def State.choose (s : State) (l : Nat) : Option Choice :=
  match s.pinnedRunning l with
  | some n => (s.ready l n).map fun (b, t) => { n := n, ob := b, before := s, after := t }
  | none =>
    let ok (c : Choice) : Bool := s.endsInTime l c.ob
    let ex := (s.pickClass l false).filter ok
    let kb := (s.pickClass l true).filter ok
    match ex, kb with
    | some e, some k =>
      let count (s : State) : State := s.updLink l fun x => { x with sinceKerb := x.sinceKerb + 1 }
      if (s.link l).sinceKerb < 7 then some { e with before := count e.before, after := count e.after } else some k
    | some e, none => some e
    | none, k => k

def State.transmit (s : State) (l : Fin 8) : State :=
  if s.linkLive l.val then
    match s.choose l.val with
    | some c => c.before.sendBurst l c.n c.ob c.after
    | none => if (s.pinnedRunning l.val).isNone && (s.pickClass l.val true).isNone then s.ageLink l.val else s
  else s

def execBurstTransmit (n : Fin 8) (s : State) : Host.Outcome State Fault Refusal := .next (s.transmit n)

/-! ## Pinned release (R178 to R184) -/

/-- The lateness of a message begun now: 0 where its first bit leaves within `slack` tenths of a nanosecond after its release
time. -/
def State.late (s : State) (rt slack : Nat) : Nat :=
  if (10 * rt + slack) * 2 ^ 32 < 10 * s.time.tb then s.tbNs - rt else 0

/-- Counts a late message and its reporting interval (R182). -/
def Pin.noteLate (p : Pin) (msn : BitVec 32) (by_ : Nat) : Pin :=
  let w := p.window.getD { msn := msn, count := 0, worst := 0 }
  { p with
    lateCnt := inc32 p.lateCnt, maxLate := max p.maxLate (min 0xFFFFFFFF by_)
    window := some { w with count := w.count + 1, worst := max w.worst (min 0xFFFFFFFF by_) } }

/-- The counters of a pinned message that begins now; `slack` is the lateness allowed, in tenths of a nanosecond. -/
def State.beginPinned (s : State) (n slack : Nat) (h : Head) : State :=
  let q := s.q n
  let rt := s.rtAt q h.pos
  if s.time.lock = .unlocked then
    s.setQ n { q with pin := { q.pin with unlockedRel := inc32 q.pin.unlockedRel, judged := none } }
  else if h.pos < q.pin.resentTo then s.setQ n { q with pin := { q.pin with judged := none } }
  else
    let d := s.late rt slack
    s.setQ n { q with pin := { (if d = 0 then q.pin else q.pin.noteLate h.msn d) with judged := none } }

/-- Whether the head message of a pinned queue may begin: its release time has come, or it is re-sent, or the lock state
and policy release it (R151, R179, R183). -/
def State.pinDue (s : State) (n : Nat) (h : Head) : Bool :=
  let q := s.q n
  if s.time.lock = .unlocked then q.pin.release
  else decide (h.pos < q.pin.resentTo) || decide (s.rtAt q h.pos ≤ s.tbNs)

/-- Of the pinned queues of a link, the lower number goes first on equal release times (R180); a release in UNLOCKED has no regard to
T (R183). -/
def State.pinBlocked (s : State) (l n rt : Nat) : Bool :=
  s.queues.any fun e =>
    e.1 != n && e.2.b.pin && e.2.b.rend.isLink l && e.2.reads &&
      (e.2.rmsg.isSome || (s.time.lock != .unlocked && decide (e.1 < n) && (match s.head e.2 with
        | some h => s.pinDue e.1 h && s.rtAt e.2 h.pos == rt
        | none => false)))

/-- Sends the FIRST burst of a pinned queue's head message when it is due. -/
def State.pinRelease (s : State) (n : Nat) : State :=
  let s := s.judgeHead n
  let q := s.q n
  match q.b.rend, s.head q with
  | .link l, some h =>
    if q.b.pin && q.reads && q.rmsg.isNone && s.linkLive l.val && s.pinDue n h && !s.pinBlocked l.val n (s.rtAt q h.pos) then
      match s.ready l.val n with
      | some _ =>
        let s := s.beginPinned n 64 h
        match s.ready l.val n with
        | some (b, t) =>
          let s := s.updLink l.val fun x => { x with reserved := none }
          let t := t.updLink l.val fun x => { x with reserved := none }
          s.sendBurst l n b t
        | none => s
      | none => s
    else s
  | _, _ => s

def execPinRelease (q : Fin 8192) (s : State) : Host.Outcome State Fault Refusal := .next (s.pinRelease q.val)

/-- At T − 400 ns the read link is reserved for the pinned queue whose message is due first, the lower number on a tie (R181). -/
def State.pinReserve (s : State) (l : Nat) : State :=
  let first := (s.pinsDue l).foldl (fun best e =>
    match best with
    | some (b : Nat × Nat) => if e.2 < b.2 then some e else best
    | none => some e) none
  match first with
  | some (n, _) => s.updLink l fun x => { x with reserved := some n }
  | none => s

def execPinReserve (n : Fin 8) (s : State) : Host.Outcome State Fault Refusal :=
  .next (if s.linkLive n.val then s.pinReserve n.val else s)

/-- The end of a late-reporting interval posts one PIN_LATE (R182). -/
def execPinLateIntervalEnd (q : Fin 8192) (s : State) : Host.Outcome State Fault Refusal :=
  .next (match (s.q q.val).pin.window with
    | none => s
    | some w =>
      (s.updQ q.val fun x => { x with pin := { x.pin with window := none } }).post (ownerOf q.val)
        { code := 0x006
          body := packNat [(0, 13, q.val), (32, 32, w.msn.toNat), (64, 16, min 0xFFFF w.count), (96, 32, w.worst)] })

end Sys2Proof.Machine
end

