-- ==== Sys2Proof/Machine/RingCmds.lean ====
section
/-!
DEFINITION. Ring Road's commands, timers and registers (spec/11): CHAIN_SETUP, PAIR_SETUP and FAILOVER, fall-forward, HELLO,
acknowledgement and SYNC timers, station loss, PAIR_FAIL_N and RING_CFG.
-/
namespace Sys2Proof.Machine

/-! ## CHAIN_SETUP (R274, R275, Table RR-6) -/

/-- Whether a queue's ends are those of a chain position (R274). -/
def Queue.endsFor (q : Queue) (pos nsta : Nat) : Bool :=
  q.st != .unbound && q.role == some (if pos = 0 then Role.head else if pos + 1 = nsta then .tail else .middle)

def State.sideUpNow (s : State) (d : Side) : Bool := (s.side d).phy.st == .up

/-- Whether the hop to the neighbour on a side is UP, with a station present there. -/
def State.hopUp (s : State) (d : Side) : Bool := s.sideUpNow d && (s.neighbour d).isSome

/-- Whether a hop to a chain neighbour is missing, or the ring refuses setups (R264, Table RR-6). -/
def State.chainRingDown (s : State) (pos nsta : Nat) : Bool :=
  s.ring.dup || s.ring.nokey || (decide (0 < pos) && !s.hopUp .west) || (decide (pos + 1 < nsta) && !s.hopUp .east)

def State.chainStatus (s : State) (fn : Nat) (d : Block512) : Nat :=
  let n := qidOf d
  let q := s.q n
  let op := fld d 144 2
  let pos := fld d 146 2
  let nsta := fld d 148 3
  firstFail [
    (!owns fn n, St.notOwner),
    (decide (2 ≤ op) || decide (nsta < 2) || decide (4 < nsta) || decide (nsta ≤ pos) || !q.endsFor pos nsta, St.badField),
    (q.st != .ready && q.st != .closed, St.badState),
    (op == 0 && (q.chain.joined || q.chain.wait.isSome) || op == 1 && !q.chain.joined, St.badState),
    (s.chainRingDown pos nsta, St.ringDown)]

/-- The station's setup for a chain it asks to join. -/
def State.newChain (s : State) (n : Nat) (r : CmdRef) (pos nsta : Nat) : Chain :=
  { pos := pos, nsta := nsta, stations := s.chainStations pos nsta, base := (s.q n).wptr
    wait := some { ref := r, east := decide (pos + 1 < nsta), west := decide (0 < pos) } }

/-- Sends an operation to each chain neighbour. -/
def State.toNeighbours (s : State) (n op : Nat) (args : List (Nat × Nat × Nat)) : State :=
  let ts := ((s.q n).member .west).toList ++ ((s.q n).member .east).toList
  ts.foldl (fun s t => s.sendCtrl t op args) s

def State.doChainSetup (s : State) (r : CmdRef) (d : Block512) : State :=
  let n := qidOf d
  let st := s.chainStatus r.fn d
  if st ≠ St.ok then s.complete r st
  else if fld d 144 2 = 0 then
    let c := s.newChain n r (fld d 146 2) (fld d 148 3)
    let s := s.updQ n fun q => { q with chain := c }
    let s := s.toNeighbours n 4 ([(2, 2, n), (4, 1, c.pos), (5, 1, c.nsta)] ++ joinFields (s.q n))
    s.judgeChain n
  else
    let s := s.toNeighbours n 5 [(2, 2, n), (4, 1, 4), (8, 5, (s.q n).committed % 2 ^ 40)]
    let s := s.updQ n fun q => { q with chain := { wait := some { ref := r, leave := true } } }
    s.endLeaves

/-- 100 ms after fetch, a CHAIN_SETUP whose joins have not arrived fails. -/
def execChainSetupTimeout (q : Fin 8192) (s : State) : Host.Outcome State Fault Refusal :=
  .next (match (s.q q.val).chain.wait with
    | some w => if w.leave then s else s.failChain q.val St.chainTimeout
    | none => s)

/-! ## PAIR_SETUP (R285, Table RR-9) -/

def State.pairStatus (s : State) (fn : Nat) (d : Block512) : Nat :=
  let n := qidOf d
  let q := s.q n
  let op := fld d 144 2
  let peer := fld d 148 3
  let tmo := fld d 152 8
  let own := if q.chain.joined then q.chain.stations.contains peer else q.st != .unbound && peer == s.station
  let early := match s.joinFrom 8 n peer with
    | some p => op == 0 && !({ q with pair := {} }).pairMatches n (fld d 146 1) p
    | none => false
  firstFail [
    (!owns fn n, St.notOwner),
    (decide (2 ≤ op) || (tmo != 0 && (decide (tmo < 5) || decide (100 < tmo))) || own, St.badField),
    (q.role == some .head || q.role == some .middle, St.notTail),
    (op == 0 && (q.st == .unbound || q.st == .held || q.pair.paired || q.pair.wait.isSome), St.badState),
    (op == 1 && !q.pair.paired, St.notPaired),
    (early, St.chainMismatch),
    (s.ring.dup || s.ring.nokey || (s.route (if op = 0 then peer else q.pair.peer)).isNone, St.ringDown)]

def State.doPairSetup (s : State) (r : CmdRef) (d : Block512) : State :=
  let n := qidOf d
  let st := s.pairStatus r.fn d
  if st ≠ St.ok then s.complete r st
  else if fld d 144 2 = 0 then
    let role := fld d 146 1
    let tmo := fld d 152 8
    let p : Pair := { shadow := role == 1, peer := fld d 148 3, tmo := if tmo = 0 then 50 else tmo, wait := some r }
    let s := s.updQ n fun q => { q with pair := p }
    let s := s.sendCtrl p.peer 8 ([(2, 2, n), (4, 1, role)] ++ joinFields (s.q n))
    s.judgePair n
  else
    let s := s.endFailovers n
    (s.updQ n fun q => { q with pair := {} }).complete r St.ok

def execPairSetupTimeout (q : Fin 8192) (s : State) : Host.Outcome State Fault Refusal :=
  .next (match (s.q q.val).pair.wait with
    | some r => (s.updQ q.val fun x => { x with pair := {} }).complete r St.chainTimeout
    | none => s)

/-! ## FAILOVER (R292) -/

/-- Whether the shadow lacks messages from the active read point on: at the shadow its own fitness, at the active tail
the shadow's last read point against its own. -/
def State.shadowUnfit (s : State) (n : Nat) : Bool :=
  let q := s.q n
  if q.pair.shadow then !q.pair.fit
  else !q.pair.rpointSeen ||
    (if q.b.msgMode then msnPrecedes (s.rpoint q) (q.pair.rpoint % 2 ^ 32) else decide (s.rpoint q < q.pair.rpoint))

def State.failoverStatus (s : State) (fn : Nat) (d : Block512) : Nat :=
  let n := qidOf d
  let q := s.q n
  let force := bit d 144
  firstFail [
    (!owns fn n, St.notOwner),
    (q.role == some .head || q.role == some .middle, St.notTail),
    (!q.pair.paired, St.notPaired),
    (if q.pair.shadow then q.st == .held else q.pair.peerHeld, St.badState),
    (!force && s.shadowUnfit n, St.unfit),
    (!force && (match s.route q.pair.peer with
      | some side => !s.sideLive side
      | none => true), St.ringDown)]

def State.doFailover (s : State) (r : CmdRef) (d : Block512) : State :=
  let n := qidOf d
  let st := s.failoverStatus r.fn d
  if st ≠ St.ok then s.complete r st
  else
    let s := s.updQ n fun q => { q with pair := { q.pair with failoverWait := q.pair.failoverWait ++ [r] } }
    if (s.q n).pair.shadow then (if bit d 144 then s.takeover n else s)
    else if bit d 144 then s.abdicate n
    else
      let s := s.updQ n fun q => { q with pair := { q.pair with stopping := true } }
      if (s.q n).rmsg.isNone then s.syncNow n else s

/-! ## Takeover triggers (R288) -/

/-- No SYNC frame from the active tail for TMO. -/
def execSyncTimeout (q : Fin 8192) (s : State) : Host.Outcome State Fault Refusal := .next (s.takeover q.val)

/-- PAIR_FAIL_N has been low for 1 µs: every shadow watches for its active tail. -/
def execPairFailNLow (s : State) : Host.Outcome State Fault Refusal :=
  .next ((s.queues.filter fun e => e.2.pair.paired && e.2.pair.shadow).foldl
    (fun s e => s.updQ e.1 fun q => { q with pair := { q.pair with failWatch := true } }) s)

/-- No SYNC frame came in the next 5 µs. -/
def execPairFailSyncTimeout (q : Fin 8192) (s : State) : Host.Outcome State Fault Refusal :=
  .next (if (s.q q.val).pair.failWatch then s.takeover q.val else s)

/-! ## Commands and marks at their position -/

def execChainCmdApply (q : Fin 8192) (s : State) : Host.Outcome State Fault Refusal := .next (s.applyChainCmd q.val)
def execFfMarkApply (q : Fin 8192) (s : State) : Host.Outcome State Fault Refusal := .next (s.applyFfMark q.val)

/-! ## Fall-forward (R277, R281) -/

/-- The queue whose DATA turn it is: the first ready one from the turn on. -/
def State.dataTurn (s : State) : Option Nat :=
  let ready := (s.queues.filter fun e => s.ffReady e.1).map (·.1)
  match ready.find? fun n => decide ((s.side .east).rrData ≤ n) with
  | some n => some n
  | none => ready.head?

/-- Whether own DATA may go next on the east side: nothing of R272's higher classes waits, and transit has had its
share. -/
def State.ownTurn (s : State) (f : Frame) : Bool :=
  let x := s.side .east
  x.ctrlq.isEmpty && (x.transit.isEmpty || decide (3 ≤ x.sinceOwn)) && x.room f

/-- The next DATA frame of a queue, sealed. -/
def State.dataOut (s : State) (n : Nat) : Frame :=
  let q := s.q n
  let g := s.group (n / 512)
  let e := g.rsEpoch.toNat % 256
  let bytes := s.rdBytes q (q.storedPos q.chain.sendPos) q.ffLen
  let h := frameHdr 0 s.station ((q.member .east).getD 0) false bytes.length n e 0 (q.chain.sendPos % 2 ^ 40) g.rsNonce
  let (ct, tag) := gcmSeal (ringSessionKey g.rsParent (n / 512) g.rsEpoch) (frameIv g.rsNonce s.station e 0 0)
    (toBytes 32 h) bytes
  { hdr := BitVec.ofNat 256 h, payload := ct, tag := tag, crc := 0, errored := false }

/-- Sends a queue's next DATA frame in its turn. -/
def State.fallForward (s : State) (n : Nat) : State :=
  let f := s.dataOut n
  if s.dataTurn = some n && s.ownTurn f then
    let q := s.q n
    let len := q.ffLen
    let bad := s.badWords q (q.storedPos q.chain.sendPos) len
    let s := s.setQ n { q with chain := { q.chain with
      sendPos := q.chain.sendPos + len, ffUsed := (q.chain.ffUsed + ceilDiv len 256) % 2 ^ 24
      sent := q.chain.sent ++ [(q.chain.sendPos, q.chain.ffUsed)] } }
    let g := s.group (n / 512)
    let s := s.setGroup (n / 512) { g with rsNonce := g.rsNonce + 1 }
    let s := s.launch .east f none
    let s := s.updSide .east fun x => { x with sinceOwn := 0, rrData := n + 1 }
    (s.reportUe n bad (q.chain.sendPos % 2 ^ 32)).drain .east
  else s

def execFallForwardSend (q : Fin 8192) (s : State) : Host.Outcome State Fault Refusal := .next (s.fallForward q.val)

/-! ## Timers (R264, R270, R283, R284) -/

/-- HELLO out of each side that is UP. -/
def execHelloTimer (s : State) : Host.Outcome State Fault Refusal :=
  .next (s.broadcastCtrl 1 [(1, 1, s.station), (2, 1, 0), (8, 8, s.nv.devid.toNat % 2 ^ 64)])

/-- 300 µs in core cycles. -/
def mapCycles : Nat := 375000

/-- For a station's own number, whichever of its HELLO on each side and a duplicate has been heard longest ago ends, and what is
as old as 300 µs with it (R264, Table RR-11). -/
def Ring.expireOwn (r : Ring) (now : Nat) : Ring :=
  let ages := (if r.closedE then [r.closedEAt] else []) ++ (if r.closedW then [r.closedWAt] else []) ++
    (if r.dup then [r.dupAt] else [])
  let oldest := ages.foldl min now
  let kept (t : Nat) : Bool := decide (oldest < t) && decide (now < t + mapCycles)
  { r with closedE := r.closedE && kept r.closedEAt, closedW := r.closedW && kept r.closedWAt, dup := r.dup && kept r.dupAt }

/-- 300 µs without a HELLO from a station. -/
def State.mapExpiry (s : State) (t : Nat) : State :=
  if t = s.station then { s with ring := s.ring.expireOwn s.cyc }
  else { s with ring := { s.ring with hopsE := SMap.erase s.ring.hopsE t, hopsW := SMap.erase s.ring.hopsW t } }

def execRingMapExpiry (station : Fin 8) (s : State) : Host.Outcome State Fault Refusal := .next (s.mapExpiry station.val)

/-- No HELLO within 1 ms of UP: the side goes down with `FAIL` = 5 (R262). -/
def execRingHelloMissing (d : Side) (s : State) : Host.Outcome State Fault Refusal :=
  .next (if (s.side d).phy.st = .up && !(s.side d).helloSeen then
    (s.phyDown (.side d)).updPhy (.side d) fun x => { x with fail := 5 } else s)

/-- Nothing was sent within 500 ns of accepting a frame: ACK. -/
def execRingAckTimer (d : Side) (s : State) : Host.Outcome State Fault Refusal :=
  .next (if (s.side d).owesAck then s.sendCtrlOn d (s.hopStation d) (ctrlPayload 2 []) false else s)

/-- The oldest frame is 10 µs old without acknowledgement: every frame goes again, in order. -/
def State.resendAll (s : State) (d : Side) : State :=
  if s.sideLive d then s.resendFrames d else s

def execRingResendTimeout (d : Side) (s : State) : Host.Outcome State Fault Refusal := .next (s.resendAll d)

def execSyncTimer (peer : Fin 8) (s : State) : Host.Outcome State Fault Refusal := .next (s.syncTurn peer.val)

/-- The side has stayed down for 50 ms: the members beyond it are lost. -/
def execSideDownTimeout (d : Side) (s : State) : Host.Outcome State Fault Refusal :=
  .next (if s.sideUpNow d then s else s.loseBeyond d fun _ => true)

/-- A hop paused for over 200 µs: an active tail that uses it abdicates (Table RR-7). -/
def execHopPauseTimeout (d : Side) (s : State) : Host.Outcome State Fault Refusal :=
  .next (if s.sideUpNow d then s else (s.hopQueues d).foldl (fun s e => s.abdicate e.1) s)

/-! ## RING_CFG and the bypass (R265, R295) -/

/-- A write of `RING_CFG`: `STATION` only while it is not locked, the RW fields, then the block resets. -/
def State.writeRingCfg (s : State) (v : Word32) : State :=
  let keep : BitVec 32 := if s.rst.ioLocked then 7#32 else 0#32
  let s := { s with ring := { s.ring with cfg := (s.ring.cfg &&& keep) ||| (v &&& 0x77#32 &&& ~~~keep) } }
  let s := (s.phyWriteEn (.side .east)).phyWriteEn (.side .west)
  let s := if bit v 7 then s.phyReset (.side .east) else s
  if bit v 8 then s.phyReset (.side .west) else s

def execRingSideEnable (v : Word32) (s : State) : Host.Outcome State Fault Refusal := .next
  (s.coreWrite 0x1400 v (s.writeRingCfg v))
def execRingSideDisable (v : Word32) (s : State) : Host.Outcome State Fault Refusal := .next
  (s.coreWrite 0x1400 v (s.writeRingCfg v))
def execRingInsert (v : Word32) (s : State) : Host.Outcome State Fault Refusal := .next
  (s.coreWrite 0x1400 v (s.writeRingCfg v))
def execRingSideRst (v : Word32) (s : State) : Host.Outcome State Fault Refusal := .next
  (s.coreWrite 0x1400 v (s.writeRingCfg v))

/-- `RING_BYPASS_N`: after IOREL, which sets the lock of R9, high exactly when INSERT is 1 and the RING domain is on; pad hold
after a core reset leaves it (R265, R384, Table RS-3). -/
def State.ringBypassN (s : State) : Bool := s.rst.ioLocked && bit s.ring.cfg 6 && bit s.power.domains 4

/-- `RING_MAP` (Table RR-11). `NOKEY` shows a missing key once the firmware that binds keys runs, so it reads 0 after a
reset. -/
def State.ringMapReg (s : State) : Nat :=
  packNat [(0, 8, s.ringMap), (8, 1, if s.ring.closedE && s.ring.closedW then 1 else 0),
    (9, 1, if s.ring.nokey && s.fw.ready then 1 else 0), (10, 1, if s.ring.dup then 1 else 0)]

end Sys2Proof.Machine
end

