-- ==== Sys2Proof/Machine/Maint.lean ====
section
/-!
DEFINITION. The Plaza's upkeep (spec/13 R329 to R340, spec/14 R358, spec/03 R80 to R84): the maintenance engine's activities,
patrol scrub, segment zeroing, quarters at rest, and event cells.
-/
namespace Sys2Proof.Machine

/-! ## Activities (Tables PK-1, PK-2, PK-4) -/

def actCode : Activity → Nat
  | .wipe => 1
  | .verify => 2
  | .bist => 3

/-- `MAINT_STAT.ACT` of a quarter: the scrub shows where nothing else runs. -/
def State.quarterAct (s : State) (i : Nat) : Nat :=
  match (s.plaza.quarter i).act with
  | some a => actCode a
  | none => if bit s.plaza.ctrl 0 && s.coreRuns && !(s.plaza.quarter i).rest then 4 else 0

/-- `MAINT_STAT`. -/
def State.maintStat (s : State) : Nat :=
  packNat ((List.range 4).flatMap fun i =>
    let x := s.plaza.quarter i
    [(8 * i, 3, s.quarterAct i), (8 * i + 3, 1, if x.pend.isEmpty then 0 else 1), (8 * i + 4, 1, if x.qoff then 1 else 0),
      (8 * i + 5, 1, if fld s.plaza.bankstat (8 * i) 8 = 0 then 0 else 1)])

/-- `MAINT_RES`. -/
def State.maintRes (s : State) : Nat :=
  packNat [(0, 8, s.plaza.resStatus), (8, 1, if s.plaza.ksweepRun then 1 else 0)]

def State.updQuarter (s : State) (i : Nat) (f : Quarter → Quarter) : State :=
  { s with plaza := setQuarter s.plaza i f }

/-- Whether a start in a quarter would be deferred: an activity it neither merges with nor overtakes runs. -/
def Quarter.defers (x : Quarter) (a : Activity) : Bool :=
  match x.act with
  | none => false
  | some b => a != b && !(a == .wipe && b == .bist)

/-- Starts an activity in a quarter, merges it with the running one, or defers it (Table PK-2); a resting quarter wakes. -/
def State.startAct (s : State) (a : Activity) (i : Nat) : State :=
  s.ungate.updQuarter i fun x =>
    let x := { x with rest := false }
    match x.act with
    | none => { x with act := some a }
    | some _ => if x.defers a && !x.pend.contains a then { x with pend := x.pend ++ [a] } else x

/-! ## MAINT_CTRL (R335, R336, R339) -/

/-- Quarters of a four-bit mask. -/
def quartersOf (m : Nat) : List Nat := (List.range 4).filter fun i => m / 2 ^ i % 2 == 1

/-- A bound queue holds a segment in the quarter. -/
def State.quarterHeld (s : State) (i : Nat) : Bool := s.plaza.owner.any fun e => quarterOf e.1 == i

/-- A queue of the device is OPEN, CLOSING or HELD. -/
def State.anyLive (s : State) : Bool :=
  s.queues.any fun e => e.2.st == .opened || e.2.st == .closing || e.2.st == .held

/-- Starts by `MAINT_CTRL` in every quarter named, reported by MAINT_DONE when they end (R340). -/
def State.hostStart (s : State) (a : Activity) (mask : Nat) : State :=
  let qs := quartersOf mask
  let late := qs.any fun i => (s.plaza.quarter i).defers a
  let s := qs.foldl (fun s i => s.startAct a i) s
  { s with plaza := { s.plaza with
      resStatus := if late then St.deferred else St.ok
      jobs := s.plaza.jobs ++ [{ act := a, named := mask, left := mask }] } }

def State.maintStatus (s : State) (st : Nat) : State := { s with plaza := { s.plaza with resStatus := st } }

/-- A write of `MAINT_CTRL`: the RW fields, then at most one kind of start. -/
def State.writeMaintCtrl (s : State) (v : Word32) : State :=
  let wipe := fld v 8 4
  let bist := fld v 12 4
  let ks := bit v 16
  let s := { s with plaza := { s.plaza with ctrl := v &&& 0xF#32 } }
  if (wipe != 0 && bist != 0) || (ks && (wipe != 0 || bist != 0)) then s.maintStatus St.badField
  else if wipe ≠ 0 then
    if (quartersOf wipe).any s.quarterHeld then s.maintStatus St.badState else s.hostStart .wipe wipe
  else if bist ≠ 0 then
    if s.anyLive then s.maintStatus St.badState else s.hostStart .bist bist
  else if ks then
    { s with plaza := { s.plaza with ksweepRun := true, ksweepHost := true, resStatus := St.ok } }
  else s

def execMaintWipe (v : Word32) (s : State) : Host.Outcome State Fault Refusal := .next
  (s.coreWrite 0x1800 v (s.writeMaintCtrl v))
def execMaintBist (v : Word32) (s : State) : Host.Outcome State Fault Refusal := .next
  (s.coreWrite 0x1800 v (s.writeMaintCtrl v))
def execMaintKsweep (v : Word32) (s : State) : Host.Outcome State Fault Refusal := .next
  (s.coreWrite 0x1800 v (s.writeMaintCtrl v))

/-! ## What ends (R335, R336, R340) -/

/-- Zeroes a quarter: its stored bytes, their errors and its zeroing list. -/
def State.wipeQuarter (s : State) (i : Nat) : State :=
  let s := { s with plaza := { s.plaza with
    mem := s.plaza.mem.filter fun e => quarterOf (e.1 / 4096) != i
    bad := s.plaza.bad.filter fun e => quarterOf (e.1 / 64) != i } }
  s.updQuarter i fun x => { x with zeroing := [] }

/-- Posts MAINT_DONE. -/
def State.maintDone (s : State) (code quarters status failing : Nat) : State :=
  s.post 0 { code := 0x060, body := packNat [(0, 3, code), (4, 4, quarters), (8, 8, status), (32, 32, failing)] }

/-- Whether the end of an activity ends a job's work in the quarter: its own, or a wipe that a BIST served. -/
def MaintJob.servedBy (j : MaintJob) (a : Activity) : Bool := j.act == a || (j.act == .wipe && a == .bist)

def MaintJob.endIn (j : MaintJob) (a : Activity) (i : Nat) (failing : Nat) : MaintJob :=
  if j.servedBy a && j.left / 2 ^ i % 2 == 1 then
    { j with left := j.left - 2 ^ i
             failing := if j.act = .bist then j.failing ||| BitVec.ofNat 32 (failing * 2 ^ (8 * i)) else j.failing }
  else j

/-- Jobs that have ended in every quarter they named are reported. -/
def State.endJobs (s : State) (a : Activity) (i failing : Nat) : State :=
  let js := s.plaza.jobs.map fun j => j.endIn a i failing
  let s := { s with plaza := { s.plaza with jobs := js.filter fun j => j.left != 0 } }
  (js.filter fun j => j.left == 0).foldl (fun s j =>
    s.maintDone (actCode j.act) j.named (if j.failing = 0 then St.ok else St.badState) j.failing.toNat) s

/-- The deferred start that goes next, in rank order. -/
def nextPending (ps : List Activity) : Option Activity := [Activity.wipe, .verify, .bist].find? ps.contains

/-- The activity of a quarter ends. -/
def State.actEnd (s : State) (i failing : Nat) : State :=
  match (s.plaza.quarter i).act with
  | none => s
  | some a =>
    let s := if a = .verify then s else s.wipeQuarter i
    let failed := a == .bist && failing != 0
    let s := s.updQuarter i fun x => { x with act := none, qoff := x.qoff || failed }
    let s := if failed then s.raise 0x606 none i (failing * 2 ^ (8 * i)) 0 else s
    let s := s.endJobs a i (if a = .bist then failing else 0)
    match nextPending (s.plaza.quarter i).pend with
    | some b => s.updQuarter i fun x => { x with act := some b, pend := x.pend.erase b }
    | none => s

/-! ## Segment zeroing (R332) -/

/-- A segment of the zeroing list becomes zero and free. -/
def State.zeroSegment (s : State) (seg : Nat) : State :=
  let s := { s with plaza := { s.plaza with
    mem := s.plaza.mem.filter fun e => e.1 / 4096 != seg
    bad := s.plaza.bad.filter fun e => e.1 / 64 != seg } }
  s.updQuarter (quarterOf seg) fun x => { x with zeroing := x.zeroing.filter (· != seg) }

/-- Whether a segment still waits to be zeroed. -/
def Plaza.dirty (p : Plaza) (seg : Nat) : Bool := (p.quarter (quarterOf seg)).zeroing.contains seg

/-- TENANT_RELEASE commands whose every segment has been zeroed complete (R423). -/
def State.endReleases (s : State) : State :=
  let done (w : CmdRef × List Nat) : Bool := !w.2.any s.plaza.dirty
  let ws := s.plaza.releases
  let s' := { s with plaza := { s.plaza with releases := ws.filter fun w => !done w } }
  s'.completeAll ((ws.filter done).map (·.1)) St.ok

def State.segmentZeroed (s : State) (seg : Nat) : State :=
  if s.plaza.dirty seg then (s.zeroSegment seg).endReleases else s

def execSegmentZeroed (seg : Fin 32768) (s : State) : Host.Outcome State Fault Refusal := .next (s.segmentZeroed seg.val)

/-! ## Patrol scrub (R329, R330, R337) -/

/-- Core cycles in one second. -/
def cyclesPerSecond : Nat := 1250000000

/-- PLAZA_CE: at most once per bank per second, and never for an error of a marked column (R329). -/
def State.reportCe (s : State) (bank : Nat) (marked : Bool) (place qid : Nat) : State :=
  let last := SMap.get 0 s.errs.ceAt bank
  if marked || (last != 0 && decide (s.cyc < last - 1 + cyclesPerSecond)) then s
  else
    ({ s with errs := { s.errs with ceAt := SMap.set 0 s.errs.ceAt bank (s.cyc + 1) } }).raise 0x601 none place qid 0

/-- A corrected error of a Plaza bank: counted, and reported. -/
def State.correctedError (s : State) (bank granule row : Nat) (marked : Bool) (qid : Nat) : State :=
  (s.countCe (bank / 8)).reportCe bank marked (Place.code { bank := bank, granule := granule, row := row }) qid

/-- The number that stands for the Kiosk among the banks of R329. -/
def kioskBank : Nat := 32

/-- No queue, as error arguments carry it. -/
def noQueue : Nat := 0xFFFFFFFF

/-- A corrected error of the Kiosk (R346); where it lies has no code in Table ER-1, so that the report's place is a free value. -/
def State.kioskCorrected (s : State) (marked : Bool) : State :=
  let place := s.freeVal
  let s := { s.drawn with kiosk := { s.kiosk with ce := satAdd 0xFFFF s.kiosk.ce 1 } }
  s.reportCe kioskBank marked place noQueue

/-- An uncorrectable error of a Kiosk word that the scrub reads: fatal error KIOSK_UE (R346); the scrub has no requester's code, so
that the argument is a free value. -/
def State.kioskUncorrectable (s : State) (a : Nat) : State :=
  let who := s.freeVal
  ({ s.drawn with kiosk := { s.kiosk with bad := SMap.set false s.kiosk.bad a true } }).raise 0x605 none a who 0

/-- The queue that holds a stored word, as errors carry it. -/
def State.holderOf (s : State) (w : Nat) : Nat :=
  match SMap.get 0 s.plaza.owner (w / 64) with
  | 0 => noQueue
  | k + 1 => k

/-- Whether the scrub of a quarter runs and visits a place in it. -/
def State.scrubVisits (s : State) (quarter bank row : Nat) : Option Nat :=
  if s.quarterAct quarter == 4 && bank / 8 == quarter then
    (wordAt bank row).filter fun w => SMap.get 0 s.plaza.owner (w / 64) != 0
  else none

/-- One read of the patrol scrub; a corrected word is written back, which leaves what it holds. -/
def State.scrubRead (s : State) (quarter : Nat) (found : ScrubFinding) : State :=
  match found with
  | .clean => s
  | .corrected bank granule row marked =>
    match s.scrubVisits quarter bank.val row.val with
    | some w => s.correctedError bank.val granule.val row.val marked (s.holderOf w)
    | none => s
  | .uncorrectable bank granule row =>
    match s.scrubVisits quarter bank.val row.val with
    | some w =>
      let s := { s with plaza := { s.plaza with bad := SMap.set 0 s.plaza.bad w (granule.val + 1) } }
      (s.countUe quarter).raise 0x602 none
        (Place.code { bank := bank.val, granule := granule.val, row := row.val }) (s.holderOf w) 0
    | none => s
  | .kioskCorrected _ marked => if s.quarterAct quarter = 4 then s.kioskCorrected marked else s
  | .kioskUncorrectable word => if s.quarterAct quarter = 4 then s.kioskUncorrectable word.val else s

def execScrubRead (quarter : Fin 4) (found : ScrubFinding) (s : State) : Host.Outcome State Fault Refusal :=
  .next (s.scrubRead quarter.val found)

/-! ## Event cells (R80 to R83) -/

def cellRx (c : Nat) : Bool := decide (c < 8) || c == 0x10 || c == 0x11

/-- What clocks a half of a cell: a domain, by bit of `PWRVOTE`, the AON block, the time base or the `PPS_IN` ball. -/
inductive Half where
  | domain (d : Nat)
  | aon
  | timeBase
  | ppsIn
deriving DecidableEq, Repr

def linkDomain (c : Nat) : Nat := if 0x10 ≤ c then 4 else if c % 8 < 4 then 2 else 3
def cellSource (c : Nat) : Half :=
  if cellRx c then .domain (linkDomain c) else if c = 0x15 then .domain 5 else if c = 0x17 then .aon
  else if c = 0x18 then .ppsIn else .domain 0
def cellDest (c : Nat) : Half :=
  if cellRx c || c = 0x15 || c = 0x17 then .domain 0 else if c = 0x14 then .domain 5
  else if c = 0x16 then .aon else if c = 0x18 then .timeBase else .domain (linkDomain c)

/-- Whether the clock of a cell's half runs. A receive half has one with and without the recovered clock (R85). -/
def State.halfRuns (s : State) : Half → Bool
  | .domain d => (s.power.cur == .run || s.power.cur == .idle) && bit s.power.domains d
  | .aon => match s.rst.active with
    | some (.por, _) => false
    | _ => true
  | .timeBase => s.time.running
  | .ppsIn => true

/-- A cell's halves have both left reset (R84, R86): no reset of Table CW-3 holds it. -/
def State.cellLive (s : State) (c : Nat) : Bool :=
  (match s.rst.active with
    | some (.por, _) | some (.system, _) => false
    | _ => true) &&
  (if c < 0x10 then (s.link (c % 8)).phy.st != .reset
   else if c < 0x14 then (if c % 2 = 0 then s.ring.east else s.ring.west).phy.st != .reset
   else if c < 0x16 then !s.host.inReset
   else c != 0x18 || !s.time.ppsArm)

/-- The source half of a cell can take an event. -/
def State.cellTakes (s : State) (c : Nat) : Bool := s.halfRuns (cellSource c) && s.cellLive c

/-- An event at the source half: a request, a pending count, or a loss (R82, R83). The first edge of `PPS_IN` after the time
base's half entered reset ends the PPS cell's reset and is consumed (R86). -/
def State.cellEvent (s : State) (c : Nat) : State :=
  let x := SMap.get {} s.cells c
  let put (s : State) (x : EventCell) : State := { s with cells := SMap.set {} s.cells c x }
  if c = 0x18 && s.time.ppsArm then { s with time := { s.time with ppsArm := false } }
  else if !s.cellTakes c then s
  else if !x.outstanding then put s { x with toggle := !x.toggle, outstanding := true, count := 1 }
  else if x.pending < 255 then put s { x with pending := x.pending + 1 }
  else if x.loss then s
  else (put s { x with loss := true }).raise 0x701 none c 0 0

def execCrosswalkEvent (cell : Fin 25) (s : State) : Host.Outcome State Fault Refusal := .next (s.cellEvent cell.val)

/-- The destination, where its clock runs, detects a changed toggle: it delivers one event with the count presented and returns
the level as its acknowledge (R80). -/
def State.cellDeliver (s : State) (c : Nat) : State :=
  let x := SMap.get {} s.cells c
  if x.outstanding && x.ack != x.toggle && s.halfRuns (cellDest c) && s.cellLive c then
    ({ s with cells := SMap.set {} s.cells c { x with ack := x.toggle } }).emit (.crossed c x.count)
  else s

/-- The source, where its clock runs, sees the acknowledge: the request ends, and pending events raise the next one (R82). -/
def State.cellAck (s : State) (c : Nat) : State :=
  let x := SMap.get {} s.cells c
  if x.outstanding && x.ack == x.toggle && s.halfRuns (cellSource c) && s.cellLive c then
    let x := if x.pending = 0 then { x with outstanding := false, count := 0 }
      else { x with toggle := !x.toggle, count := x.pending, pending := 0 }
    { s with cells := SMap.set {} s.cells c x }
  else s

def State.deliverCells (s : State) : State := (s.cells.map (·.1)).foldl (fun s c => (s.cellDeliver c).cellAck c) s

/-- `XW_LOSS` (R461). -/
def State.xwLoss (s : State) : Nat :=
  packNat ((List.range 25).map fun c => (c, 1, if (SMap.get {} s.cells c).loss then 1 else 0))

end Sys2Proof.Machine
end

