-- ==== Sys2Proof/Machine/Slots.lean ====
section
/-!
DEFINITION. The key store and the working keys (spec/16 R406 to R423, spec/13 R338): slots and their tags, invalidating a
parent, REKEY, KEY_QUERY, TENANT_RELEASE, and the ends of sweeps and grace times.
-/
namespace Sys2Proof.Machine

/-! ## Slots (Table SE-1, R407) -/

/-- Bits [383:0] of a slot. -/
def Slot.bits (x : Slot) : BitVec 384 :=
  BitVec.ofNat 384 (packNat [(0, 256, x.material.toNat), (256, 8, x.typ), (264, 8, x.scope), (288, 12, x.ctr)])

def State.slot (s : State) (i : Nat) : Slot := SMap.get {} s.nv.slots i
def State.setSlot (s : State) (i : Nat) (x : Slot) : State :=
  { s with nv := { s.nv with slots := SMap.set {} s.nv.slots i x } }

/-- Whether a slot's tag holds; an empty slot has none to check. -/
def State.tagOk (s : State) (i : Nat) : Bool :=
  (s.slot i).typ == 0 || (s.slot i).tag == Config.slotTag s.nv.deviceKey (s.slot i).bits i

def Slot.valid (x : Slot) : Bool := x.typ != 0 && !x.bad
def Slot.isParent (x : Slot) (scope : Nat) : Bool := x.typ == 1 && x.scope == scope && !x.bad

/-- SCOPE of the ring-control parent. -/
def ringScope : Nat := 0x10

/-- SLOT_CHANGE to function 0, and to function g for a PARENT slot of group g (R413). -/
def State.slotChange (s : State) (i kind typ scope : Nat) : State :=
  let e : Event := { code := 0x070, body := packNat [(0, 6, i), (6, 2, kind), (8, 8, typ), (16, 8, scope)] }
  let s := s.post 0 e
  if typ = 1 && decide (0 < scope) && decide (scope < 16) then s.post scope e else s

/-! ## Invalidating a parent (R420, R294) -/

/-- The children of a queue are revoked. -/
def State.revokeQueue (s : State) (n : Nat) : State :=
  (s.updQ n fun q => { q with keys := { q.keys with revoked := true, prev := none } }).hold n 1

/-- The ring-session children of a group are revoked, and its chained queues held. -/
def State.revokeSession (s : State) (g : Nat) : State :=
  let x := s.group g
  let s := s.setGroup g { x.revoke (x.rsEpoch.toNat % 256) with rsPrev := none }
  (s.queues.filter fun e => ownerOf e.1 == g && e.2.chain.joined).foldl (fun s e => s.hold e.1 1) s

/-- Every child derived from the parent of a scope is revoked. -/
def State.invalidate (s : State) (scope : Nat) : State :=
  if scope = ringScope then { s with ring := { s.ring with nokey := true, rcPrev := none } }
  else
    let s := (s.queues.filter fun e => ownerOf e.1 == scope && e.2.b.sealedQ && e.2.keys.bound).foldl
      (fun s e => s.revokeQueue e.1) s
    let epoch := (s.group scope).rsEpoch.toNat % 256
    (s.broadcastCtrl 9 [(1, 1, scope), (2, 1, epoch)]).revokeSession scope

/-- A slot whose tag fails is marked BAD (R407). -/
def State.markBad (s : State) (i : Nat) : State :=
  let x := s.slot i
  let s := (s.setSlot i { x with bad := true }).slotChange i 2 x.typ x.scope
  if x.typ = 1 then s.invalidate x.scope else s

/-- Reads a slot, checking its tag. -/
def State.checkSlot (s : State) (i : Nat) : State :=
  if (s.slot i).bad || s.tagOk i then s else s.markBad i

/-- The slot that holds the valid parent of a scope (R416). -/
def State.parentSlot (s : State) (scope : Nat) : Option Nat :=
  (List.range 64).find? fun i => (s.slot i).isParent scope

/-- Reads the parent of a scope: its material, none where there is no valid slot. -/
def State.readParent (s : State) (scope : Nat) : State × Option (BitVec 256) :=
  match s.parentSlot scope with
  | none => (s, none)
  | some i =>
    let s := s.checkSlot i
    (s, if (s.slot i).isParent scope then some (s.slot i).material else none)

/-! ## The key-slot sweep (R338, R340, R444) -/

/-- The sweep ends: every slot's tag has been checked, and MAINT_DONE tells of it. -/
def State.sweepEnd (s : State) : State :=
  let s := (List.range 64).foldl State.checkSlot s
  let s := { s with
    plaza := { s.plaza with ksweepRun := false, ksweepHost := false }, fw := { s.fw with sweepDone := true } }
  s.maintDone 6 0 St.ok 0

/-- An activity ends in a quarter, or the key-slot sweep ends. -/
def State.maintEnd (s : State) (quarter : Option Nat) (failing : Nat) : State :=
  match quarter with
  | some i => (s.actEnd i failing).endReleases
  | none =>
    if s.plaza.ksweepRun then
      if s.plaza.ksweepHost then s.sweepEnd
      else
        -- the start-up sweep is the firmware's own and posts no event
        let s := (List.range 64).foldl State.checkSlot s
        { s with plaza := { s.plaza with ksweepRun := false }, fw := { s.fw with sweepDone := true } }
    else s

def execMaintActivityEnd (quarter : Option (Fin 4)) (failing : Byte) (s : State) : Host.Outcome State Fault Refusal :=
  .next (s.maintEnd (quarter.map (·.val)) failing.toNat)

/-! ## The working-key cache (R417) -/

def QueueKeys.cached (k : QueueKeys) : Nat :=
  (if k.bound && !k.revoked then 2 else 0) + (if k.prev.isSome then 1 else 0)
def Group.cached (g : Group) : Nat :=
  (if g.rsBound && !g.rsRevoked then 1 else 0) + (if g.rsPrev.isSome then 1 else 0)
def Ring.cached (r : Ring) : Nat := (if r.nokey then 0 else 1) + (if r.rcPrev.isSome then 1 else 0)

def State.cacheUsed (s : State) : Nat :=
  (s.queues.map fun e => e.2.keys.cached).sum + (s.groups.map fun e => e.2.cached).sum + s.ring.cached

def cacheSize : Nat := 256

/-! ## REKEY (R419, Table SE-4) -/

/-- A queue's keys under a new epoch; a revoked scope keeps no previous one. -/
def QueueKeys.rekey (k : QueueKeys) (epoch : BitVec 16) (parent : BitVec 256) : QueueKeys :=
  { bound := true, epoch := epoch, parent := parent
    prev := if k.bound && !k.revoked then some (k.epoch, k.parent) else none }

/-- The sealing count that a key has reached, kept by epoch and parent (R268). -/
def keepCount (l : List (BitVec 16 × BitVec 256 × Nat)) (epoch : BitVec 16) (parent : BitVec 256) (n : Nat) :
    List (BitVec 16 × BitVec 256 × Nat) :=
  if n = 0 then l else (l.filter fun x => !(x.1 == epoch && x.2.1 == parent)) ++ [(epoch, parent, n)]

/-- The count from which a key goes on. -/
def countOf (l : List (BitVec 16 × BitVec 256 × Nat)) (epoch : BitVec 16) (parent : BitVec 256) : Nat :=
  match l.find? fun x => x.1 == epoch && x.2.1 == parent with
  | some x => x.2.2
  | none => 0

def Group.spent (g : Group) : List (BitVec 16 × BitVec 256 × Nat) := keepCount g.rsSpent g.rsEpoch g.rsParent g.rsNonce
def Ring.spent (r : Ring) : List (BitVec 16 × BitVec 256 × Nat) := keepCount r.rcSpent r.rcEpoch r.rcParent r.rcNonce

def Group.rekey (g : Group) (epoch : BitVec 16) (parent : BitVec 256) : Group :=
  { g with
    rsBound := true, rsEpoch := epoch, rsParent := parent, rsRevoked := false
    rsNonce := countOf g.spent epoch parent, rsSpent := g.spent, rsGone := g.rsGone.filter (· != epoch.toNat % 256)
    rsPrev := if g.rsBound && !g.rsRevoked then some (g.rsEpoch, g.rsParent) else none }

def Ring.rekey (r : Ring) (epoch : BitVec 16) (parent : BitVec 256) : Ring :=
  { r with
    nokey := false, rcEpoch := epoch, rcParent := parent, rcNonce := countOf r.spent epoch parent, rcSpent := r.spent
    rcPrev := if r.nokey then none else some (r.rcEpoch, r.rcParent) }

/-- Whether every child that a queue uses is bound and not revoked: its own where it is sealed, its group's ring-session
child where it is chained. -/
def State.keysWhole (s : State) (n : Nat) : Bool :=
  s.keysBound n && (!(s.q n).chain.joined || !(s.group (ownerOf n)).rsRevoked)

/-- KEY_REVOKED clears from a queue whose children are whole again. -/
def State.rekeyed (s : State) (n : Nat) : State := if s.keysWhole n then s.unhold n 1 else s

def State.rekeyedScope (s : State) (scope n g : Nat) : State :=
  match scope with
  | 0 => s.rekeyed n
  | 1 => ((s.groupQueues g).filter fun e => e.2.hasRingEnd).foldl (fun s e => s.rekeyed e.1) s
  | _ => s

/-- The state with the children of a scope made current. -/
def State.bindKeys (s : State) (scope n g : Nat) (epoch : BitVec 16) (parent : BitVec 256) : State :=
  match scope with
  | 0 => s.updQ n fun q => { q with keys := q.keys.rekey epoch parent }
  | 1 => s.setGroup g ((s.group g).rekey epoch parent)
  | _ => { s with ring := s.ring.rekey epoch parent }

/-- The current epoch of a scope. -/
def State.scopeEpoch (s : State) (scope n g : Nat) : BitVec 16 :=
  match scope with
  | 0 => (s.q n).keys.epoch
  | 1 => (s.group g).rsEpoch
  | _ => s.ring.rcEpoch

def State.rekeyStatus (s : State) (fn : Nat) (d : Block512) : Nat :=
  let n := qidOf d
  let scope := fld d 144 2
  let epoch := fld d 160 16
  firstFail [
    (if scope = 0 then !owns fn n else scope != 3 && actsAs fn != 0, St.notOwner),
    (scope == 0 && ((s.q n).st == .unbound || !(s.q n).b.sealedQ), St.badState),
    (scope == 3 || epoch % 256 == (s.scopeEpoch scope n (fld d 148 4)).toNat % 256, St.badField)]

def State.doRekey (s : State) (r : CmdRef) (d : Block512) : State :=
  let n := qidOf d
  let scope := fld d 144 2
  let g := if scope = 0 then ownerOf n else fld d 148 4
  let st := s.rekeyStatus r.fn d
  if st ≠ St.ok then s.complete r st
  else match s.readParent (if scope = 2 then ringScope else g) with
    | (s, none) => s.complete r St.keyMissing
    | (s, some parent) =>
      let t := s.bindKeys scope n g (BitVec.ofNat 16 (fld d 160 16)) parent
      if cacheSize < t.cacheUsed then s.complete r St.keyCacheFull
      else
        (t.rekeyedScope scope n g).complete r St.ok

/-- One millisecond after a REKEY, the previous epoch ends (R257). -/
def State.graceEnd (s : State) (scope target : Nat) : State :=
  match scope with
  | 0 => s.updQ target fun q => { q with keys := { q.keys with prev := none } }
  | 1 => if target < 16 then s.setGroup target { s.group target with rsPrev := none } else s
  | _ => { s with ring := { s.ring with rcPrev := none } }

def execEpochGraceEnd (scope : Fin 3) (target : Fin 8192) (s : State) : Host.Outcome State Fault Refusal :=
  .next (s.graceEnd scope.val target.val)

/-! ## KEY_QUERY (R430, Table SE-9) -/

def Slot.stat (x : Slot) : Nat := if x.bad then 2 else if x.typ = 0 then 0 else 1

def State.keyBlock (s : State) : Nat :=
  packNat ((List.range 64).map (fun i => (2 * i, 2, (s.slot i).stat)) ++
    (List.range 64).map (fun i => (128 + i, 1, if (s.slot i).typ == 1 && !(s.slot i).bad then 1 else 0)) ++
    [(192, 12, s.nv.ctr), (208, 3, s.nv.lc), (211, 1, if s.nv.ownerLock then 1 else 0), (224, 9, s.cacheUsed),
      (256, 128, s.nv.devid.toNat)])

def State.doKeyQuery (s : State) (r : CmdRef) (d : Block512) : State :=
  let a := fld d 128 64
  if resultOk r a then s.writeResult r a s.keyBlock St.ok else s.complete r St.badField

/-! ## TENANT_RELEASE (R423) -/

/-- Whether a queue belongs to a chain or pair. -/
def Queue.bonded (q : Queue) : Bool := q.chain.joined || q.pair.paired

/-- QUEUE_DISCARD and then QUEUE_RELEASE on each bound queue of a group; its children and quotas. -/
def State.releaseTenant (s : State) (g : Nat) : State :=
  let s := ((s.groupQueues g).map (·.1)).foldl (fun s n => (s.discardAny n).unbind n) s
  s.setGroup g { s.group g with gqRsv := 2048, gqMax := 32768, rsBound := false, rsPrev := none }

/-- DESIGN CHOICE: a reserved bit that is set gives BAD_FIELD, as R423 says of this command, although R10 has a receiver ignore
reserved fields. -/
def State.doTenantRelease (s : State) (r : CmdRef) (d : Block512) : State :=
  let g := fld d 128 4
  let st := firstFail [
    (actsAs r.fn != 0, St.notOwner),
    (fld d 132 380 != 0, St.badField),
    ((s.groupQueues g).any fun e => e.2.bonded, St.badState)]
  if st ≠ St.ok then s.complete r st
  else
    let segs := (s.groupQueues g).flatMap fun e => e.2.segs
    let s := s.releaseTenant g
    ({ s with plaza := { s.plaza with releases := s.plaza.releases ++ [(r, segs)] } }).endReleases

end Sys2Proof.Machine
end

