-- ==== Sys2Proof/Machine/Votes.lean ====
section
/-!
DEFINITION. Power votes (spec/14 R351 to R355): who votes for which domain. Domains are numbered as the bits of `PWRVOTE`:
0 CORE, 1 PLAZA, 2 PORTA, 3 PORTB, 4 RING, 5 HOST.
-/
namespace Sys2Proof.Machine

namespace Dom
def core := 0
def plaza := 1
def portA := 2
def portB := 3
def ring := 4
def host := 5
end Dom

def PState.awake (p : PState) : Bool := p == .run || p == .idle

/-- Whether an entry into Sleep, Deep Sleep or Off runs. -/
def Power.entering (p : Power) : Bool := p.running.isSome && !p.exiting

/-- A power-domain mask from a list of domains. -/
def domMask (ds : List Nat) : Nat := packNat (ds.map fun d => (d, 1, 1))

/-- Whether a queue has data to move over a link (R352). -/
def State.moves (s : State) (q : Queue) (l : Nat) : Bool :=
  (q.st == .opened || q.st == .closing || q.st == .held) &&
    ((q.b.rend.isLink l && (decide (0 < s.efill q) || (q.b.pin && decide (0 < s.mfill q)))) ||
      (q.b.wend.isLink l && q.wmsg.isSome))

/-- Whether the sequencer votes for a link's port because of the link. -/
def State.linkWanted (s : State) (l : Nat) : Bool :=
  (s.link l).en && (!(s.link l).wakeEn || s.queues.any fun e => s.moves e.2 l)

/-- The votes the sequencer casts (R352); in Recovery mode only CORE runs (R404). -/
def State.seqWants (s : State) : Nat :=
  if !s.power.cur.awake || s.power.entering then 0
  else if s.rst.recovery then domMask [Dom.core]
  else domMask ([Dom.core, Dom.plaza, Dom.host] ++ (if bit s.ring.cfg 6 then [Dom.ring] else []) ++
    (if (List.range 4).any s.linkWanted then [Dom.portA] else []) ++
    (if (List.range 4).any fun l => s.linkWanted (4 + l) then [Dom.portB] else []))

def State.seqCast (s : State) : Nat := if s.rst.ctlReturn then s.power.seqVotes.toNat else s.seqWants

/-- Whether a chain or pair of the station uses a side's hop (R355). -/
def State.usesHop (s : State) (d : Side) : Bool :=
  !(s.hopQueues d).isEmpty || s.queues.any fun e => e.2.pair.paired && s.route e.2.pair.peer == some d

/-- The domains a voting client votes for (Table PW-5); a vote for PORTA, PORTB, RING or HOST counts for CORE too. -/
def State.clientVotes (s : State) (slot : Nat) : Nat :=
  let v :=
    if slot < 16 then (s.func slot).vote
    else if slot = 16 then s.seqCast
    else if slot < 25 then (s.link (slot - 17)).votes
    else if slot = 25 then (if (s.side .east).phy.st == .up && s.usesHop .east then domMask [Dom.ring] else 0)
    else if slot = 26 then (if (s.side .west).phy.st == .up && s.usesHop .west then domMask [Dom.ring] else 0)
    else if slot = 27 then
      domMask ((if (List.range 4).any fun l => (s.link l).wakeVote then [Dom.portA] else []) ++
        (if (List.range 4).any fun l => (s.link (4 + l)).wakeVote then [Dom.portB] else []))
    else 0
  if v / 4 ≠ 0 then v ||| 1 else v

/-- `VOTEMAPd`. -/
def State.voteMap (s : State) (d : Nat) : Nat :=
  packNat ((List.range 32).map fun c => (c, 1, s.clientVotes c / 2 ^ d % 2))

def State.voted (s : State) (d : Nat) : Bool := s.voteMap d != 0

/-! ## Quarters at rest (R358) -/

/-- A client other than the sequencer votes for PLAZA. -/
def State.plazaWanted (s : State) : Bool :=
  (List.range 32).any fun c => c != 16 && s.clientVotes c / 2 % 2 == 1

/-- Whether a quarter may rest. -/
def State.mayRest (s : State) (i : Nat) : Bool :=
  let x := s.plaza.quarter i
  s.coreRuns && !(s.queues.any fun e => e.2.st != .unbound && affine e.2.b.affinity i) && !s.quarterHeld i &&
    x.act.isNone && x.pend.isEmpty && x.zeroing.isEmpty && !s.plazaWanted

def execQuarterRest (quarter : Fin 4) (s : State) : Host.Outcome State Fault Refusal :=
  .next (if s.mayRest quarter.val then s.updQuarter quarter.val fun x => { x with rest := true } else s)

def execQuarterWake (quarter : Fin 4) (s : State) : Host.Outcome State Fault Refusal :=
  .next (s.updQuarter quarter.val fun x => { x with rest := false })

/-- `PWRDOM` (Table PW-14). -/
def State.pwrdom (s : State) : Nat :=
  packNat ((0, 6, s.power.domains.toNat) ::
    (List.range 4).map fun i => (8 + i, 1, if (s.plaza.quarter i).rest then 1 else 0))

end Sys2Proof.Machine
end

