-- ==== Sys2Proof/Machine/Reset.lean ====
section
/-!
DEFINITION. Resets (spec/15 R387 to R401): the three levels, what each leaves, their sources, trim load, pad hold and
`IOREL`.
-/
namespace Sys2Proof.Machine

/-! ## RSTCAUSE bits (Table RS-2) -/

namespace Cause
def por := 0
def bor := 1
def pin := 2
def clkloss := 3
def supply := 4
def swsys := 5
def fatal := 6
def wdog := 7
def trial := 8
def depot := 9
def lcycle := 10
def warden := 11
def swcore := 16
def wdcore := 17
def fwcore := 18
end Cause

def rlevelRank : RLevel → Nat
  | .core => 0
  | .system => 1
  | .por => 2

/-! ## Balls under pad hold (Table RS-3) -/

/-- `INT_N` from live logic, high when released (R302). -/
def State.intNLive (s : State) : Bool :=
  let f := s.func 0
  !(f.intnEn && f.evtPi != f.evtCi)

def State.intNBall (s : State) : Bool := if s.rst.ioHeld then s.rst.heldIntN else s.intNLive
def State.pairFailNBall (s : State) : Bool := if s.rst.ioHeld then s.rst.heldPairN else s.ring.pairFailN
def State.pcieWakeNBall (s : State) : Bool := if s.rst.ioHeld then s.rst.heldPcieN else s.host.pcieWakeN

/-- Pad hold begins: the held group keeps the levels it has. -/
def State.padHold (s : State) : State :=
  { s with rst := { s.rst with
      ioHeld := true, heldFlags := s.flagBalls, heldPps := s.ppsOutBall, heldIntN := s.intNBall
      heldPairN := s.pairFailNBall, heldPcieN := s.pcieWakeNBall } }

/-- `IOREL.REL`: pad hold ends, the lock of R9 is set, `RST_STATE_N` rises (R398, R400). -/
def State.ioRelease (s : State) : State :=
  { s with rst := { s.rst with ioHeld := false, ioLocked := true, rstStateN := true, released := true } }

/-! ## What each level leaves (R387, R394, Table RG-6) -/

/-- The power block after a system reset: its AON registers stay, apart from `WAKESRC` (R385), and VDD is on. -/
def Power.afterReset (p : Power) : Power :=
  { lastId := p.lastId, lastStatus := p.lastStatus, retmask := p.retmask, tsense := p.tsense, pmbCfg := p.pmbCfg
    wsenseCfg := p.wsenseCfg, depot := p.depot, nonce := p.nonce, vddMv := p.vddMv
    pwrfailN := p.pwrfailN, voutRead := p.voutRead }

/-- The errors block: `DUMP_STAT` and the flash dump halves stay (R467, R468). -/
def Errors.afterReset (e : Errors) : Errors :=
  { dumpDest := e.dumpDest, dumpDone := e.dumpDone, dumpTimeout := e.dumpTimeout, dumpLater := e.dumpLater
    dumpSeq := e.dumpSeq, half0 := e.half0, half1 := e.half1, newestHalf := e.newestHalf }

/-- Firmware state: the flash, `SVC_CFG` and the Warden debug state stay (R387, R452). -/
def Firmware.afterReset (f : Firmware) : Firmware :=
  { dir := f.dir, slotA := f.slotA, slotB := f.slotB, copy0 := f.copy0, copy1 := f.copy1, svcCfg := f.svcCfg
    baud := f.baud }

/-- Quarters after a system reset: `QOFF` stays until a POR (R336). -/
def Plaza.afterReset (p : Plaza) : Plaza := { quarters := p.quarters.map fun x => { qoff := x.qoff } }

/-- The reset block after a system reset. -/
def Reset.afterReset (r : Reset) : Reset :=
  { cause := r.cause, refclk := r.refclk, trimRun := r.rstN, trimRetry := r.trimRetry, bootcnt := r.bootcnt
    rstN := r.rstN, active := none, released := r.released
    heldFlags := r.heldFlags, heldPps := r.heldPps, heldIntN := r.heldIntN, heldPairN := r.heldPairN
    heldPcieN := r.heldPcieN }

/-- VDD comes back where Deep Sleep or Off has turned it off: every reset but a power-on finds the regulator as PMBus left it. -/
def State.vddBack (s : State) : State := if s.power.vrOn then s else s.emit (.pmbus 1 0x80)

/-- What a system reset leaves. -/
def State.systemReset (s : State) : State :=
  let s := s.vddBack.padHold
  { pending := s.pending, host := { perstN := s.host.perstN }, cmdSerial := s.cmdSerial
    plaza := s.plaza.afterReset, power := s.power.afterReset, rst := s.rst.afterReset, nv := s.nv
    fw := s.fw.afterReset, errs := s.errs.afterReset, cyc := s.cyc, free := s.free, out := s.out }

/-- What a POR leaves: `BOOTCNT`, `RSTCAUSE.BOR`, non-volatile contents and the levels of input balls (R387). -/
def State.porReset (s : State) : State :=
  { pending := s.pending, host := { perstN := s.host.perstN }, cmdSerial := s.cmdSerial
    nv := s.nv
    rst := { cause := (s.rst.cause &&& 2#32) ||| 1#32, active := none, refclk := s.rst.refclk
             bootcnt := s.rst.bootcnt, rstN := s.rst.rstN, trimRun := s.rst.rstN }
    fw := { s.fw.afterReset with svcCfg := BitVec.ofNat 32 s.nv.svcAddr, baud := none }
    errs := { half0 := s.errs.half0, half1 := s.errs.half1, newestHalf := s.errs.newestHalf }, cyc := s.cyc, free := s.free, out := s.out }

/-- Every queue with `ADAPT` = 1 falls back to its static settings (R204), its bucket filled to now at the old pace (R200). -/
def State.staticKerb (s : State) : State :=
  (s.queues.filter fun e => e.2.b.kerb && e.2.kerb.policy.adapt).foldl
    (fun s e => (s.updQ e.1 fun q => ({ q with kerb := { q.kerb with
      tokens := q.kerb.tokensNow s.cyc, tokensAt := s.cyc } }).applyStatic).evalFlags e.1) s

/-- What a core reset does: commands fetched and not completed wait for the return, doorbells are latched, the pads are
held (R394, R400). -/
def State.coreReset (s : State) : State :=
  let votes := BitVec.ofNat 6 s.seqCast
  let s := s.staticKerb
  let s := if s.rst.ioHeld then s else s.padHold
  { s with
    funcs := s.funcs.map fun e => (e.1, { e.2 with aborted := e.2.inflight, fenced := [] })
    kiosk := { s.kiosk with busyN := true }
    fw := { s.fw with ready := false, upload := none, svcState := 0 }
    power := { s.power with seqVotes := votes }
    rst := { s.rst with control := false, ctlReturn := true } }

def State.applyReset (s : State) : RLevel → State
  | .core => s.coreReset
  | .system => s.systemReset
  | .por => s.porReset

/-! ## Sources and absorption (R388, R389, R392) -/

def State.setCause (s : State) (i : Nat) : State :=
  { s with rst := { s.rst with cause := s.rst.cause ||| BitVec.ofNat 32 (2 ^ i) } }

/-- A trim load under way begins again once the reset that reached it is released (R392). -/
def Reset.abortTrim (r : Reset) : Reset := if r.trimRun then { r with trimValid := false, trimRun := r.rstN } else r

/-- A reset of a level arrives from a source: absorbed by a running one that is as high, else it starts its sequence. -/
def State.startReset (s : State) (lvl : RLevel) (source : Nat) : State :=
  match s.rst.active with
  | some (l, _) =>
    if rlevelRank lvl ≤ rlevelRank l then
      let s := s.setCause source
      { s with rst := s.rst.abortTrim }
    else
      let s := (s.setCause source).applyReset lvl
      { s with rst := { s.rst with active := some (lvl, source) } }
  | none =>
    let s := (s.setCause source).applyReset lvl
    { s with rst := { s.rst with active := some (lvl, source) } }

/-- A reset sequence completes: `RSTCAUSE.LAST` names the source that started it. -/
def Reset.done (r : Reset) (source : Nat) : Reset :=
  { r with active := none, cause := (r.cause &&& 0xE0FFFFFF#32) ||| BitVec.ofNat 32 (source * 2 ^ 24) }

/-- CORE, PLAZA and HOST are powered, wipes begin, the time base counts from 0, and PCIe training follows (Table RS-5 step 3,
R335, R399). -/
def State.releaseCore (s : State) : State :=
  let p := s.plaza
  { s with
    power := { s.power with domains := 0x23#6 }
    plaza := { p with quarters := p.quarters.map fun x => { x with act := some .wipe } }
    time := { s.time with running := true }
    host := { s.host with inReset := !s.host.perstN, training := s.host.perstN } }

/-- REFCLK is present and the root PLL locked: the reset that waits completes (R390, R393). -/
def State.completeReset (s : State) : State :=
  match s.rst.active with
  | none => s
  | some (.core, src) =>
    { s with rst := { s.rst.done src with wdogAt := if src = Cause.wdcore then some s.cyc else s.rst.wdogAt } }
  | some (_, src) =>
    if s.rst.rstN && s.rst.trimValid then
      ({ s with rst := { s.rst.done src with refclk := true } }).releaseCore
    else s

/-! ## Commands -/

/-- VAON rises: everything is reset, and trim load begins. What VAON holds ahead of its regulator, `BOOTCNT` and `RSTCAUSE.BOR`, is
lost with VAON alone (R387, R403). -/
def State.por (s : State) (refclk vaonLost : Bool) : State :=
  let s := s.porReset
  { s with rst := { s.rst with
      bootcnt := if vaonLost then 0 else s.rst.bootcnt, cause := if vaonLost then 1#32 else s.rst.cause
      refclk := refclk, active := some (.por, Cause.por) } }

def execPor (x : PorInput) (s : State) : Host.Outcome State Fault Refusal := .next (s.por x.refclk x.vaonLost)

/-- The AON regulator browns out: a POR with `BOR` set (R376). -/
def State.brownOut (s : State) : State :=
  let s := s.vddBack.porReset.setCause Cause.bor
  { s with rst := { s.rst with active := some (.por, Cause.bor) } }

def execBrownOut (s : State) : Host.Outcome State Fault Refusal := .next s.brownOut

/-- Whether the filter accepts a low pulse of `RST_N` (R391). -/
def rstAccepted (ns : Nat) : Bool :=
  if ns < 250 then false else if ns < 1000 then Config.shortPulse ns else true

def State.rstLow (s : State) : State :=
  ({ s with rst := { s.rst with rstN := false } }).startReset .system Cause.pin

def execRstNAssert (ns : Nat) (s : State) : Host.Outcome State Fault Refusal :=
  .next (if rstAccepted ns then s.rstLow else s)

/-- `RST_N` has been high for 1 µs: trim load begins unless it has passed. -/
def execRstNRelease (s : State) : Host.Outcome State Fault Refusal :=
  .next (if s.rst.rstN then s
    else { s with rst := { s.rst with rstN := true, trimRun := !s.rst.trimValid } })

/-- The AON block misses REFCLK, or the root PLL reports loss of lock: a system reset in every power state, as the monitor is in
the AON block (R20). -/
def execRefclkLoss (s : State) : Host.Outcome State Fault Refusal :=
  .next (({ s with rst := { s.rst with refclk := false } }).startReset .system Cause.clkloss)

/-- Whether a rail feeds a domain that is on (R347, R388, R487). -/
def State.railOn (s : State) : Rail → Bool
  | .vdd => s.power.domains != 0 && s.power.vrPg
  | .vdds => bit s.power.domains 1
  | .vser | .vserh => fld s.power.domains 2 4 != 0
  | .vio => s.power.domains != 0

def execSupplyMonitorTrip (r : Rail) (s : State) : Host.Outcome State Fault Refusal :=
  .next (if s.railOn r then s.startReset .system Cause.supply else s)

/-- The watchdog of the sequencer expires (R395). -/
def State.watchdog (s : State) : State :=
  if !s.coreRuns || s.rst.recovery then s
  else match s.rst.wdogAt with
    | some t =>
      if s.cyc ≤ t + cyclesPerSecond then s.startReset .system Cause.wdog else s.startReset .core Cause.wdcore
    | none => s.startReset .core Cause.wdcore

def execWatchdogExpiry (s : State) : Host.Outcome State Fault Refusal := .next s.watchdog

def execFwcoreRequest (s : State) : Host.Outcome State Fault Refusal :=
  .next (if s.rst.control then s.startReset .core Cause.fwcore else s)

/-- The trial timer of 30 s expires (R445). -/
def execTrialTimeout (s : State) : Host.Outcome State Fault Refusal :=
  .next (if s.fw.trial && !s.fw.healthOk then s.startReset .system Cause.trial else s)

/-! ## Trim load (R392, R393) -/

def State.trimDone (s : State) (ok : Bool) (degraded : BitVec 32) (kioskDegraded : Bool) : State :=
  if !s.rst.trimRun then s
  else if ok then
    { s with
      rst := { s.rst with trimRun := false, trimValid := true }
      plaza := { s.plaza with bankstat := degraded }, kiosk := { s.kiosk with degr := kioskDegraded } }
  else { s with rst := { s.rst with trimRun := false, trimValid := false, trimRetry := inc8 s.rst.trimRetry } }

def execTrimLoadDone (crcOk : Bool) (degraded : BitVec 32) (kioskDegraded : Bool) (s : State) :
    Host.Outcome State Fault Refusal := .next (s.trimDone crcOk degraded kioskDegraded)

def execTrimRetry (s : State) : Host.Outcome State Fault Refusal :=
  .next (if (s.rst.active.isSome || s.power.exiting) && s.rst.rstN && !s.rst.trimValid then
    { s with rst := { s.rst with trimRun := true } } else s)

/-! ## RSTCTL and IOREL (R400, R405) -/

/-- A write of `RSTCTL`. -/
def State.writeRstctl (s : State) (v : Word32) : State :=
  if fld v 8 8 ≠ 0x5A then s
  else if bit v 0 then s.startReset .system Cause.swsys
  else if bit v 1 then s.startReset .core Cause.swcore
  else s

/-- The sequencer writes `IOREL`; it never does in Recovery mode (R404). -/
def State.writeIorel (s : State) (v : Word32) : State :=
  if bit v 0 && s.coreRuns && s.rst.active.isNone && !s.rst.recovery then s.ioRelease else s

/-- `RSTSTAT` and `IOREL` (Table RS-6). -/
def State.rststat (s : State) : Nat :=
  packNat [(0, 1, if s.rst.trimValid then 1 else 0), (1, 1, if s.rst.recovery then 1 else 0),
    (2, 1, if s.rst.refclk then 1 else 0), (8, 8, s.rst.trimRetry)]

def State.iorel (s : State) : Nat :=
  packNat [(1, 1, if s.rst.ioLocked then 1 else 0), (2, 1, if s.rst.ioHeld then 1 else 0)]

end Sys2Proof.Machine
end

