-- ==== Sys2Proof/Machine/HostBlock.lean ====
section
/-!
DEFINITION. The host block (spec/12 R297 to R307, R315, R316, R321, R323 to R325, spec/19 R472): functions, their rings and
doorbells, base registers, resets of the block and of one function, MSI-X hold-off and failed DMA.
-/
namespace Sys2Proof.Machine

/-! ## Functions (R298) -/

/-- Whether a function exists: VFs with VF Enable set and NumVFs at least their number. -/
def State.fnExists (s : State) (g : Nat) : Bool := g == 0 || (s.host.vfEnable && decide (g ≤ s.host.numVfs))

/-- Whether a configuration access reaches a function: the block and the function are out of reset. -/
def State.fnConfigured (s : State) (g : Nat) : Bool := !s.host.inReset && s.fnExists g && !(s.func g).flrBusy

/-- Whether a memory access of the host reaches a function: it is configured and in D0, not in D3hot (R296). -/
def State.fnReached (s : State) (g : Nat) : Bool := s.fnConfigured g && !(s.func g).cfg.d3hot

/-- Whether a queue has a host end. -/
def Queue.hostEnd (q : Queue) : Bool := q.b.wend == .host || q.b.rend == .host

/-- Every queue of a function with a host end gains HOST_RESET. -/
def State.holdHost (s : State) (g : Nat) : State :=
  ((s.groupQueues g).filter fun e => e.2.hostEnd).foldl (fun s e => s.hold e.1 4) s

/-- The version under which the commands fetched so far still take effect once their ring has stopped (R303, R324). -/
def Func.versionKept (f : Func) : Option Nat := if f.verSet then some f.ver else f.orphanVer

/-- A function's registers, doorbells, MSI-X and rings return to reset. Commands already fetched still take effect, but
their completions are lost; events held across Deep Sleep stay (R324, R368). -/
def Func.afterReset (f : Func) (g : Nat) : Func :=
  { vote := if g = 0 then 0x3F else 0, fenced := f.fenced, orphanVer := f.versionKept
    heldEvents := f.heldEvents, heldOver := f.heldOver }

/-- Accesses of a function that wait in the host bridge are discarded. -/
def State.dropStalled (s : State) (g : Nat) : State :=
  { s with host := { s.host with stalled := s.host.stalled.filter fun a => a.fn != g } }

/-- What R324 does to one function. -/
def State.resetFunc (s : State) (g : Nat) : State :=
  let s := s.dropStalled g
  let s := if g = 0 then { s with errs := { s.errs with dumpLow := none } } else s
  (s.setFunc g ((s.func g).afterReset g)).holdHost g

/-- A block reset of the host block (R324). -/
def State.resetHost (s : State) : State :=
  let s := { s with host := { perstN := s.host.perstN, pcieWakeN := s.host.pcieWakeN } }
  ((List.range 16).foldl State.resetFunc s).resetCells [0x14, 0x15]

/-- PERST_N low, a hot reset or a link disable; after the last two the link trains again. -/
def State.hostBlockReset (s : State) (c : HostResetCause) : State :=
  let s := s.resetHost
  match c with
  | .perst => { s with host := { s.host with perstN := false } }
  | .hotReset | .linkDisable =>
    { s with host := { s.host with inReset := false, training := bit s.power.domains Dom.host } }

def execHostBlockReset (cause : HostResetCause) (s : State) : Host.Outcome State Fault Refusal :=
  .next (s.hostBlockReset cause)

/-- The HOST block starts: training begins where PERST_N is high (R324, R399). -/
def State.startHost (s : State) : State :=
  { s with host := { s.host with inReset := !s.host.perstN, training := s.host.perstN } }

def execPerstNRise (s : State) : Host.Outcome State Fault Refusal :=
  .next (let s := { s with host := { s.host with perstN := true } }
    if bit s.power.domains Dom.host then s.startHost else s)

/-- Request Retry Status ends. -/
def execPcieConfigReady (s : State) : Host.Outcome State Fault Refusal :=
  .next (if s.host.training then { s with host := { s.host with cfgReady := true } } else s)

/-- The PCIe link reaches L0: PCIE_WAKE_N is released (R367). -/
def execPcieL0Reached (s : State) : Host.Outcome State Fault Refusal :=
  .next (if s.host.training then { s with host := { s.host with l0 := true, pcieWakeN := true } } else s)

/-! ## FLR and VF Enable (R298, R325) -/

def State.flrOne (s : State) (g : Nat) : State := (s.resetFunc g).updFunc g fun f => { f with flrBusy := true }

/-- The VFs that a change of VF Enable or NumVFs removes undergo an FLR. -/
def State.setVfs (s : State) (enable : Bool) (num : Nat) : State :=
  let removed := (List.range 16).filter fun g => g != 0 && s.fnExists g && !(enable && decide (g ≤ num))
  let s := { s with host := { s.host with vfEnable := enable, numVfs := num } }
  removed.foldl State.flrOne s

/-- An FLR of a function; one of function 0 clears VF Enable. -/
def State.flr (s : State) (g : Nat) : State :=
  if s.host.inReset || !s.fnExists g then s
  else if g = 0 then (s.setVfs false 0).flrOne 0
  else s.flrOne g

def execFlr (fn : Fin 16) (s : State) : Host.Outcome State Fault Refusal := .next (s.flr fn.val)
def execFlrComplete (fn : Fin 16) (s : State) : Host.Outcome State Fault Refusal :=
  .next (s.updFunc fn.val fun f => { f with flrBusy := false })
def execVfEnableChange (enable : Bool) (numVfs : Fin 16) (s : State) : Host.Outcome State Fault Refusal :=
  .next (if s.fnConfigured 0 then s.setVfs enable numVfs.val else s)

/-! ## HRING_CTRL (R303, Table HI-5) -/

def ringLogOk (x : Nat) : Bool := decide (6 ≤ x) && decide (x ≤ 16)
def hringCfgOk (v : BitVec 32) : Bool := ringLogOk (fld v 0 5) && ringLogOk (fld v 8 5) && ringLogOk (fld v 16 5)

/-- The RW fields of `HRING_CTRL`; `INTN_EN` is reserved in VFs. -/
def hctrlMask (g : Nat) : BitVec 32 := if g = 0 then 0xFF3F3F03#32 else 0xFF3F3F01#32

/-- The three rings start: both indices of each at 0 (R304). -/
def Func.started (f : Func) (v : BitVec 32) : Func :=
  { f with
    hctrl := v, fault := false, verSet := false, cmdPi := 0, cmdCi := 0, cplPi := 0, cplCi := 0, evtPi := 0, evtCi := 0
    evtSeq := 0, inflight := [], aborted := [] }

/-- The three rings stop, as by an FLR, and hold no entry; fetched commands still take effect (R303, R325). -/
def Func.stopped (f : Func) (v : BitVec 32) : Func :=
  { f with
    hctrl := v, fault := false, verSet := false, inflight := [], aborted := [], cplHeld := false, evtHeld := false
    orphanVer := f.versionKept, cmdPi := 0, cmdCi := 0, cplPi := 0, cplCi := 0, evtPi := 0, evtCi := 0 }

/-- Held events are posted first, in the order raised; those beyond the 64 held count as lost (R368). -/
def State.postHeld (s : State) (g : Nat) : State :=
  let f := s.func g
  let s := s.setFunc g { f with
    heldEvents := [], heldOver := 0, evtLost := satAdd 0xFFFF f.evtLost f.heldOver, lostSince := f.lostSince + f.heldOver }
  (f.heldEvents.foldl (fun s e => s.putEvent g e) s).postLost g

/-- A write of `HRING_CTRL`. -/
def State.writeHringCtrl (s : State) (g : Nat) (v : Word32) : State :=
  let f := s.func g
  let v := v &&& hctrlMask g
  if bit v 0 then
    if f.en then s.setFunc g { f with hctrl := v }
    else if hringCfgOk f.hcfg then (s.setFunc g (f.started v)).postHeld g
    else s.setFunc g { f with hctrl := v &&& 0xFFFFFFFE#32, dberr := true }
  else if f.en then s.setFunc g (f.stopped v)
  else s.setFunc g { f with hctrl := v }

/-- `HRING_STAT`. -/
def Func.hstat (f : Func) : Nat :=
  packNat [(0, 1, if f.running then 1 else 0), (1, 1, if f.fault then 1 else 0), (2, 1, if f.dberr then 1 else 0),
    (3, 1, if f.verSet then 1 else 0), (8, 8, f.ver), (16, 16, f.evtLost)]

/-! ## 64-bit base registers (R472) -/

def Func.low (f : Func) : BaseReg → Option Word32
  | .cmdq => f.cmdLow
  | .cplq => f.cplLow
  | .evtq => f.evtLow
  | .dump => none

def Func.setLow (f : Func) (r : BaseReg) (x : Option Word32) : Func :=
  match r with
  | .cmdq => { f with cmdLow := x }
  | .cplq => { f with cplLow := x }
  | .evtq => { f with evtLow := x }
  | .dump => f

def Func.base (f : Func) : BaseReg → Nat
  | .cmdq => f.cmdBase
  | .cplq => f.cplBase
  | .evtq => f.evtBase
  | .dump => 0

def Func.setBase (f : Func) (r : BaseReg) (x : Nat) : Func :=
  match r with
  | .cmdq => { f with cmdBase := x }
  | .cplq => { f with cplBase := x }
  | .evtq => { f with evtBase := x }
  | .dump => f

/-- A low word is held; while the rings run it has no effect (R303). -/
def State.writeBaseLow (s : State) (g : Nat) (r : BaseReg) (v : Word32) : State :=
  match r with
  | .dump => if g = 0 then { s with errs := { s.errs with dumpLow := some v } } else s
  | r => if (s.func g).en then s else s.updFunc g fun f => f.setLow r (some v)

/-- A base of both words, its reserved bits 0. -/
def ringBase (high low : Nat) : Nat := high * 2 ^ 32 + low / 4096 * 4096

/-- A high word takes effect with the low word held; the held value is discarded while the rings run. -/
def State.writeBaseHigh (s : State) (g : Nat) (r : BaseReg) (v : Word32) : State :=
  match r with
  | .dump =>
    if g = 0 then
      let low := (s.errs.dumpLow.map (·.toNat)).getD (s.errs.dumpBase % 2 ^ 32)
      { s with errs := { s.errs with dumpLow := none, dumpBase := ringBase v.toNat low + low % 2 } }
    else s
  | r =>
    s.updFunc g fun f =>
      if f.en then f.setLow r none
      else
        let low := ((f.low r).map (·.toNat)).getD (f.base r % 2 ^ 32)
        (f.setBase r (ringBase v.toNat low)).setLow r none

/-! ## Doorbells (R304 to R307, R323) -/

/-- Whether a producer index may become `v`: never backwards, nor beyond the consumer by more than the ring. -/
def piOk (v pi ci size : Nat) : Bool :=
  decide (ringDist v ci ≤ size) && decide (ringDist pi ci ≤ ringDist v ci)

/-- Whether a consumer index may become `v`: never backwards, nor beyond the producer. -/
def ciOk (v pi ci : Nat) : Bool := decide (ringDist v ci ≤ ringDist pi ci)

/-- A rejected doorbell changes nothing but `DBERR`. -/
def State.rejectDoorbell (s : State) (g off v : Nat) : State :=
  (s.updFunc g fun f => { f with dberr := true }).raise 0x501 none g off v

/-- Applies a doorbell value at an offset of the page (Table HI-6). -/
def State.applyDoorbell (s : State) (g off v : Nat) : State :=
  let f := s.func g
  if off = 0 then
    if f.en && piOk v f.cmdPi f.cmdCi f.cmdSize then s.setFunc g { f with cmdPi := v } else s.rejectDoorbell g off v
  else if off = 4 then
    if f.en && ciOk v f.cplPi f.cplCi then s.setFunc g { f with cplCi := v } else s.rejectDoorbell g off v
  else if off = 8 then
    if f.en && ciOk v f.evtPi f.evtCi then (s.setFunc g { f with evtCi := v }).postLost g
    else s.rejectDoorbell g off v
  else
    let r := (off - 0x800) / 4
    let d := s.dring g r
    if d.en && piOk v d.pi d.ci (2 ^ d.log2) then s.setDring g r { d with pi := v } else s.rejectDoorbell g off v

/-- A doorbell write: latched while CORE is not ready or a core reset runs, discarded during an FLR. -/
def State.doorbell (s : State) (g off v : Nat) : State :=
  if !s.fnReached g then s
  else if s.coreRuns && !s.rst.ctlReturn then s.applyDoorbell g off v
  else s.updFunc g fun f => { f with latched := SMap.set 0 f.latched off (v + 1) }

/-- The latest value of each doorbell latched is applied when CORE is ready (R323). -/
def State.applyLatched (s : State) : State :=
  (List.range 16).foldl (fun s g =>
    let l := (s.func g).latched
    l.foldl (fun s e => s.applyDoorbell g e.1 (e.2 - 1)) (s.updFunc g fun f => { f with latched := [] })) s

/-- Whether an access of a doorbell page meets a doorbell of Table HI-6: an aligned one of 4 bytes. -/
def doorbellAt (off size : Nat) : Bool :=
  size == 4 && (off == 0 || off == 4 || off == 8 || (decide (0x800 ≤ off) && decide (off < 0x1000) && off % 4 == 0))

/-- A write of a function's doorbell page; one of another size, alignment or offset is ignored (R306). -/
def State.pageWrite (s : State) (g off size v : Nat) : State := if doorbellAt off size then s.doorbell g off v else s

/-- A read of a doorbell page (R306). -/
def pageRead : Nat := 0

def execCmdPi (fn : Fin 16) (v : Word32) (s : State) : Host.Outcome State Fault Refusal :=
  .next (s.pageWrite fn.val 0 4 v.toNat)
def execCplCi (fn : Fin 16) (v : Word32) (s : State) : Host.Outcome State Fault Refusal :=
  .next (s.pageWrite fn.val 4 4 v.toNat)
def execEvtCi (fn : Fin 16) (v : Word32) (s : State) : Host.Outcome State Fault Refusal :=
  .next (s.pageWrite fn.val 8 4 v.toNat)
def execDringPi (fn : Fin 16) (ring : Fin 512) (v : Word32) (s : State) : Host.Outcome State Fault Refusal :=
  .next (s.pageWrite fn.val (0x800 + 4 * ring.val) 4 v.toNat)

/-! ## Data rings (R316) -/

def QEnd.onRing (e : QEnd) (ring r : Nat) : Bool := e == .host && ring == r

/-- Whether a data ring is an end of a queue. -/
def Queue.usesRing (q : Queue) (r : Nat) : Bool := q.b.wend.onRing q.b.wring r || q.b.rend.onRing q.b.rring r

/-- Every host end of a queue uses an enabled ring. -/
def State.ringsReady (s : State) (g : Nat) (q : Queue) : Bool :=
  (q.b.wend != .host || (s.dring g q.b.wring).en) && (q.b.rend != .host || (s.dring g q.b.rring).en)

/-- HOST_RESET clears from the function's queues whose host ends all use enabled rings. -/
def State.clearHostReset (s : State) (g : Nat) : State :=
  ((s.groupQueues g).filter fun e => e.2.hostEnd && s.ringsReady g e.2).foldl (fun s e => s.unhold e.1 4) s

/-- A queue that keeps its ring from being disabled. -/
def Queue.pinsRing (q : Queue) (r : Nat) : Bool :=
  q.usesRing r && (q.st == .opened || q.st == .closing || (q.st == .held && q.why / 16 % 2 == 0))

def State.dringStatus (s : State) (g : Nat) (d : Block512) : Nat :=
  let r := fld d 128 9
  firstFail [
    (!ringLogOk (fld d 145 5) || fld d 192 64 % 4096 != 0, St.badField),
    (bit d 144 && (s.dring g r).en || !bit d 144 && (s.groupQueues g).any fun e => e.2.pinsRing r, St.badState)]

def State.doDringSet (s : State) (r : CmdRef) (d : Block512) : State :=
  let g := actsAs r.fn
  let n := fld d 128 9
  let st := s.dringStatus g d
  if st ≠ St.ok then s.complete r st
  else if bit d 144 then
    let x : DRing := { en := true, log2 := fld d 145 5, vecEn := bit d 150, vec := fld d 152 6, flush := fld d 160 16
                       base := fld d 192 64 }
    ((s.setDring g n x).clearHostReset g).complete r St.ok
  else ((s.abortAll g n).setDring g n {}).complete r St.ok

/-! ## MSI-X hold-off (R301) -/

/-- A HOLDOFF interval ends: a signal held back is sent, and opens the next interval. -/
def State.holdoffEnd (s : State) (g : Nat) (event : Bool) : State :=
  let f := s.func g
  if event then
    if f.evtHoldoff && f.evtHeld then (s.setFunc g { f with evtHeld := false }).signal g f.evtVec
    else s.setFunc g { f with evtHoldoff := false }
  else
    if f.cplHoldoff && f.cplHeld then (s.setFunc g { f with cplHeld := false }).signal g f.cplVec
    else s.setFunc g { f with cplHoldoff := false }

def execMsixHoldoffEnd (fn : Fin 16) (event : Bool) (s : State) : Host.Outcome State Fault Refusal :=
  .next (s.holdoffEnd fn.val event)

/-! ## Failed DMA (R321) -/

def dmaKindNum : DmaKind → Nat
  | .data => 0
  | .command => 1
  | .completion => 2
  | .event => 3
  | .result => 3

/-- Raises HOST_DMA_ERR; the coding of the ring kind is open. -/
def State.raiseDma (s : State) (g : Nat) (k : DmaKind) (ring addr : Nat) : State :=
  s.raise 0x502 none (packNat [(0, 4, g), (4, 2, (Config.ringKind (dmaKindNum k)).toNat), (16, 9, ring)])
    (addr % 2 ^ 32) (addr / 2 ^ 32)

/-- A data ring stops as though its function had undergone an FLR, and its queues gain HOST_RESET. -/
def State.stopRing (s : State) (g r : Nat) : State :=
  (((s.groupQueues g).filter fun e => e.2.usesRing r)).foldl (fun s e => s.hold e.1 4) (s.setDring g r {})

def State.dmaFailure (s : State) (g : Nat) (k : DmaKind) (ring addr : Nat) : State :=
  if !s.fnReached g then s
  else match k with
    | .data =>
      let d := s.dring g ring
      if d.en then
        let s := s.raiseDma g k ring addr
        let (desc, filled) := s.frontDesc g ring
        let s := if 0 < ringDist d.pi d.ci then s.drawn.writeBack g ring desc 0 filled St.dmaError 0 else s
        s.stopRing g ring
      else s
    | .result => s.updFunc g fun f => { f with resFail := true }
    | k =>
      if (s.func g).en then (s.raiseDma g k 0 addr).updFunc g fun f => { f with fault := true } else s

def execHostDmaFailure (fn : Fin 16) (kind : DmaKind) (ring : Fin 512) (addr : Word64) (s : State) :
    Host.Outcome State Fault Refusal := .next (s.dmaFailure fn.val kind ring.val addr.toNat)

end Sys2Proof.Machine
end

