-- ==== Sys2Proof/Machine/Messages.lean ====
section
/-!
DEFINITION. Update messages (spec/16 R408 to R416, R424 to R429): their layout, the checks in order, the authorities, and the
four operations.
-/
namespace Sys2Proof.Machine

/-! ## Layout (Table SE-2) -/

namespace Msg
def op (m : List Byte) : Nat := le m 5 1
def auth (m : List Byte) : Nat := le m 6 1
def authSlot (m : List Byte) : Nat := le m 7 1
def ctr (m : List Byte) : Nat := le m 24 4
def slot (m : List Byte) : Nat := le m 28 1
def typ (m : List Byte) : Nat := le m 29 1
def scope (m : List Byte) : Nat := le m 30 1
def arg (m : List Byte) : Nat := le m 32 2
def opInstall := 0x01
def opErase := 0x02
def opLcSet := 0x10
def opOwnerLock := 0x11
end Msg

/-- LC_SET and OWNER_LOCK messages. -/
def Msg.isLife (m : List Byte) : Bool := Msg.op m == Msg.opLcSet || Msg.op m == Msg.opOwnerLock

/-- Check 1 of Table SE-3. -/
def msgMalformed (m : List Byte) : Bool :=
  le m 0 4 != 0x554B514C || le m 4 1 != 1 ||
    !(Msg.op m == Msg.opInstall || Msg.op m == Msg.opErase || Msg.isLife m) || decide (1 < Msg.auth m) ||
    m.length != (if Msg.auth m = 1 then 144 else 308) || decide (3 < Msg.typ m) || decide (4096 ≤ Msg.ctr m) ||
    decide (64 ≤ Msg.slot m) || le m 31 1 != 0 || le m 34 14 != 0 || le m 60 4 != 0 ||
    (Msg.auth m == 0 && le m 209 3 != 0) || (Msg.isLife m && le m 28 3 != 0) ||
    (Msg.op m == Msg.opOwnerLock && decide (1 < Msg.arg m))

/-! ## Life-cycle states and authorities (Table SE-5) -/

namespace Lc
def manufacture := 0
def provisioned := 1
def deployed := 2
def returned := 3
def scrapped := 4
end Lc

/-- Who a message's AUTHSLOT names. -/
inductive Authority where
  | owner (material : BitVec 256)
  | tenant (g : Nat) (material : BitVec 256)
  | transport
  | worit
deriving DecidableEq, Repr

def ownerScope : Nat := 0xFF

/-- The ADMIN slot a message names, where it is valid and of the message's kind. -/
def Slot.authority (x : Slot) (auth : Nat) : Option Authority :=
  if x.bad || x.typ != (if auth = 0 then 2 else 3) then none
  else if x.scope = ownerScope then some (.owner x.material)
  else some (.tenant x.scope x.material)

/-- Whether an authority is accepted in a state at all. -/
def Authority.accepted : Authority → Nat → Bool
  | .owner _, lc => lc == Lc.manufacture || lc == Lc.provisioned || lc == Lc.deployed
  | .tenant _ _, lc => lc == Lc.deployed
  | .transport, lc => lc == Lc.provisioned
  | .worit, lc => decide (lc < Lc.scrapped)

/-- Check 4: the authority, none where the message is refused. -/
def State.authority (s : State) (m : List Byte) : Option Authority :=
  let a := Msg.authSlot m
  let who :=
    if a < 64 then (s.slot a).authority (Msg.auth m)
    else if a = 0xFE && Msg.auth m == 1 then some .transport
    else if a = 0xFF && Msg.auth m == 0 then some .worit
    else none
  who.filter fun w => w.accepted s.nv.lc

def State.transportKey (s : State) : BitVec 256 := Config.transportKey s.nv.deviceKey s.nv.devid

/-- The key an HMAC authority uses. -/
def State.macKey (s : State) : Authority → BitVec 256
  | .owner k => k
  | .tenant _ k => k
  | .transport => s.transportKey
  | .worit => 0

/-- Whether a message's public key has the hash its authority holds: the whole hash in fuses, or its first 32 bytes. -/
def State.hashOk (s : State) (m : List Byte) : Authority → Bool
  | .owner k => BitVec.ofNat 256 (Config.sha384 ((m.drop 112).take 97)).toNat == k
  | .tenant _ k => BitVec.ofNat 256 (Config.sha384 ((m.drop 112).take 97)).toNat == k
  | .worit => Config.sha384 ((m.drop 112).take 97) == s.nv.woritHash
  | .transport => false

/-- Check 5: the authentication over bytes 0 to 111. -/
def State.authentic (s : State) (m : List Byte) (a : Authority) : Bool :=
  let body := m.take 112
  if Msg.auth m = 1 then (Config.hmacSha256 (s.macKey a) body).toNat == le m 112 32
  else s.hashOk m a && Config.ecdsaVerify ((m.drop 112).take 97) body ((m.drop 212).take 96)

/-! ## Permission (check 8: R412, R414, R416, R424, R427) -/

/-- Whether another valid slot holds the scope of a PARENT to be installed. -/
def State.scopeTaken (s : State) (slot scope : Nat) : Bool :=
  (List.range 64).any fun i => i != slot && (s.slot i).isParent scope

def State.mayInstall (s : State) (m : List Byte) (a : Authority) : Bool :=
  let old := s.slot (Msg.slot m)
  let fresh := !(Msg.typ m == 1 && s.scopeTaken (Msg.slot m) (Msg.scope m))
  fresh && (match a with
    | .owner _ => true
    | .tenant g _ =>
      Msg.typ m == 1 && Msg.scope m == g && !old.bad && (old.typ == 0 || old.isParent g)
    | .transport => (Msg.typ m == 2 || Msg.typ m == 3) && Msg.scope m == ownerScope
    | .worit => s.nv.lc == Lc.manufacture || s.nv.lc == Lc.returned)

/-- The type and scope a slot holds, as an ERASE names them: none that can be trusted in an empty or BAD slot. -/
def Slot.named (x : Slot) : Nat × Nat := if x.valid then (x.typ, x.scope) else (0, 0)

def State.mayErase (s : State) (m : List Byte) (a : Authority) : Bool :=
  let old := s.slot (Msg.slot m)
  old.named == (Msg.typ m, Msg.scope m) && (match a with
    | .owner _ => true
    | .tenant g _ => old.isParent g
    | .transport => false
    | .worit => old.valid && (s.nv.lc == Lc.manufacture || s.nv.lc == Lc.returned))

/-- The transitions of Table SE-5. -/
def lcAllowed (lc target : Nat) (a : Authority) : Bool :=
  match lc, target, a with
  | 0, 1, .worit | 0, 4, .worit => true
  | 1, 2, .transport | 1, 2, .owner _ => true
  | 1, 4, .worit | 1, 4, .owner _ => true
  | 2, 3, .owner _ | 2, 3, .worit | 2, 4, .owner _ | 2, 4, .worit => true
  | 3, 1, .worit | 3, 4, .worit => true
  | _, _, _ => false

def State.permitted (s : State) (m : List Byte) (a : Authority) : Bool :=
  if Msg.op m = Msg.opInstall then s.mayInstall m a
  else if Msg.op m = Msg.opErase then s.mayErase m a
  else if Msg.op m = Msg.opLcSet then lcAllowed s.nv.lc (Msg.arg m) a
  else (match a with
    | .owner _ => s.nv.lc == Lc.deployed
    | _ => false)

/-! ## The path a message takes (R429) -/

inductive MsgPath where
  | keyUpdate (fn : Nat)
  | lcSubmit (fn : Nat)
  | service
deriving DecidableEq, Repr

def MsgPath.allows : MsgPath → List Byte → Bool
  | .keyUpdate fn, m => !Msg.isLife m && (fn == 0 || Msg.scope m == fn)
  | .lcSubmit fn, m => Msg.isLife m && fn == 0
  | .service, _ => true

/-! ## Operations -/

/-- The unwrapped MATERIAL of an INSTALL (check 9). -/
def State.unwrap (s : State) (m : List Byte) : Option (BitVec 256) :=
  (gcmOpen s.transportKey ((m.drop 48).take 12) (m.take 48) ((m.drop 64).take 32)
    (BitVec.ofNat 128 (le m 96 16))).map fun bs => BitVec.ofNat 256 (ofBytes bs)

/-- A PARENT slot that held a key is invalidated by being written over or erased. -/
def State.dropParent (s : State) (i : Nat) : State :=
  if (s.slot i).typ = 1 && !(s.slot i).bad then s.invalidate (s.slot i).scope else s

def State.install (s : State) (m : List Byte) (material : BitVec 256) : State :=
  let i := Msg.slot m
  let s := s.dropParent i
  let x : Slot := { material := material, typ := Msg.typ m, scope := Msg.scope m, ctr := Msg.ctr m }
  (s.setSlot i { x with tag := Config.slotTag s.nv.deviceKey x.bits i }).slotChange i 0 x.typ x.scope

def State.eraseSlot (s : State) (m : List Byte) : State :=
  let i := Msg.slot m
  ((s.dropParent i).setSlot i {}).slotChange i 1 (Msg.typ m) (Msg.scope m)

/-- An accepted LC_SET (R425): its reset clears the Depot too. -/
def State.lcSet (s : State) (target : Nat) : State :=
  let s := { s with nv := { s.nv with lc := target, ownerLock := false } }
  let s :=
    if target = Lc.returned || target = Lc.scrapped then
      let s := (List.range 64).foldl State.dropParent s
      { s with nv := { s.nv with slots := [] } }
    else s
  let s := s.startReset .system Cause.lcycle
  { s with power := { s.power with depot := {} } }

/-- The operation of a message that has passed every check. -/
def State.performMsg (s : State) (m : List Byte) (material : BitVec 256) : State :=
  if Msg.op m = Msg.opInstall then s.install m material
  else if Msg.op m = Msg.opErase then s.eraseSlot m
  else if Msg.op m = Msg.opLcSet then s.lcSet (Msg.arg m)
  else { s with nv := { s.nv with ownerLock := Msg.arg m == 1 } }

/-- Reads the slots a message names, checking their tags (R407). -/
def State.readMsgSlots (s : State) (m : List Byte) : State :=
  let s := if Msg.authSlot m < 64 then s.checkSlot (Msg.authSlot m) else s
  if Msg.isLife m then s else s.checkSlot (Msg.slot m)

/-- The counter advances, and the operation is performed unless the non-volatile write fails three times (R411). -/
def State.applyMsg (s : State) (m : List Byte) (material : BitVec 256) : State × Nat :=
  let s := { s with nv := { s.nv with ctr := Msg.ctr m } }
  if Config.nvFails s.free then (s.drawn, St.nvFail) else (s.drawn.performMsg m material, St.ok)

/-- Checks 4 to 10 of Table SE-3, in order, and the operation. -/
def State.authMsg (s : State) (m : List Byte) : State × Nat :=
  match s.authority m with
  | none => (s, St.slotBad)
  | some a =>
    let st := firstFail [
      (!s.authentic m a, St.authFail),
      (s.nv.ctr == 4095, St.ctrExhausted),
      (decide (Msg.ctr m ≤ s.nv.ctr) || decide (s.nv.ctr + 16 < Msg.ctr m), St.ctrStale),
      (!s.permitted m a, St.notPermitted)]
    if st ≠ St.ok then (s, st)
    else if Msg.op m = Msg.opInstall then
      match s.unwrap m with
      | none => (s, St.authFail)
      | some k => s.applyMsg m k
    else s.applyMsg m 0

/-- Takes an update message over a path: its status, and the state it leaves. -/
def State.keyMessage (s : State) (path : MsgPath) (m : List Byte) : State × Nat :=
  let st := firstFail [
    (msgMalformed m, St.badMessage),
    (!path.allows m, St.notPermitted),
    (!s.power.pwrfailN, St.lowPower),
    (le m 8 16 != s.nv.devid.toNat, St.wrongDevice)]
  if st ≠ St.ok then (s, st) else (s.readMsgSlots m).authMsg m

/-- The status and state of KEY_UPDATE and LC_SUBMIT. -/
def State.doKeyCommand (s : State) (r : CmdRef) (path : MsgPath) (msg : Option (List Byte)) : State :=
  match msg with
  | none => s.complete r St.dmaError
  | some m =>
    let (s, st) := s.keyMessage path m
    s.complete r st

def State.doKeyUpdate (s : State) (r : CmdRef) (msg : Option (List Byte)) : State :=
  s.doKeyCommand r (.keyUpdate (actsAs r.fn)) msg

def State.doLcSubmit (s : State) (r : CmdRef) (msg : Option (List Byte)) : State :=
  s.doKeyCommand r (.lcSubmit (actsAs r.fn)) msg

/-! ## LCSTATE and KEYSTAT (Table SE-11) -/

def State.lcstate (s : State) : Nat := packNat [(0, 3, s.nv.lc), (3, 1, if s.nv.ownerLock then 1 else 0)]

/-- Slots that are valid or BAD are shown after the start-up sweep. -/
def State.keystat (s : State) : Nat :=
  let count (p : Slot → Bool) : Nat := ((List.range 64).filter fun i => p (s.slot i)).length
  packNat [(0, 12, s.nv.ctr), (16, 7, if s.fw.sweepDone then count Slot.valid else 0),
    (24, 7, if s.fw.sweepDone then count (·.bad) else 0)]

end Sys2Proof.Machine
end

