-- ==== Sys2Proof/Machine/HostCmds.lean ====
section
/-!
DEFINITION. Host commands (spec/12 R308 to R313): fetching, the header's checks, FENCE and HELLO, and the meaning of each
command of Table HI-8.
-/
namespace Sys2Proof.Machine

/-! ## The header (Table HI-7, R310) -/

namespace Hdr
def opcode (d : Block512) : Nat := fld d 0 8
def ver (d : Block512) : Nat := fld d 8 8
def tag (d : Block512) : Nat := fld d 16 16
def fence (d : Block512) : Bool := bit d 32
end Hdr

def opHello : Nat := 0x01

/-- The minor version that an opcode dates from, none for one that is not in Table HI-8. -/
def opcodeFrom (op : Nat) : Option Nat :=
  if op = 0x01 ∨ op = 0x02 ∨ (0x10 ≤ op ∧ op ≤ 0x17) ∨ op = 0x20 ∨ (0x28 ≤ op ∧ op ≤ 0x2A) ∨ op = 0x30 ∨ op = 0x31 ∨
      op = 0x38 ∨ op = 0x50 ∨ (0x52 ≤ op ∧ op ≤ 0x54) then some 0
  else if 0x40 ≤ op ∧ op ≤ 0x42 then some 1
  else if op = 0x51 then some 2
  else none

/-- The versions the device supports, coded as `VER_MAP`. -/
def versionsMap : Nat := 7

def verSupported (v : Nat) : Bool := decide (0x10 ≤ v) && decide (v ≤ 0x12)

/-- The version in force for a command: the one agreed on its ring, the one agreed before its ring stopped, or a start-up
command's own (R303, R310, R448). -/
def State.agreed (s : State) (r : CmdRef) (ver : Nat) : Option Nat :=
  let f := s.func r.fn
  if r.fn = startupFn then (if verSupported ver then some ver else none)
  else if f.inflight.contains r then (if f.verSet then some f.ver else none)
  else f.orphanVer

/-- The status of a command's header. -/
def State.headerStatus (s : State) (r : CmdRef) (d : Block512) : Nat :=
  match opcodeFrom (Hdr.opcode d) with
  | none => St.badOpcode
  | some v =>
    if Hdr.opcode d = opHello then St.ok
    else match s.agreed r (Hdr.ver d) with
      | none => St.badVersion
      | some a => if Hdr.ver d ≠ a then St.badVersion else if a < 0x10 + v then St.badOpcode else St.ok

/-! ## HELLO (R311) -/

/-- The highest version of a map that the device supports. -/
def bestVersion (map : Nat) : Option Nat :=
  if map / 4 % 2 = 1 then some 0x12 else if map / 2 % 2 = 1 then some 0x11 else if map % 2 = 1 then some 0x10 else none

def helloInfo (ver fn : Nat) : Nat := packNat [(0, 8, ver), (8, 3, versionsMap), (16, 4, fn)]

def State.doHello (s : State) (r : CmdRef) (d : Block512) : State :=
  match bestVersion (fld d 128 3) with
  | none => s.completeInfo r St.badVersion (helloInfo (s.func r.fn).ver r.fn)
  | some v =>
    let s := s.updFunc r.fn fun f =>
      if f.inflight.contains r then { f with verSet := true, ver := v } else { f with orphanVer := some v }
    s.completeInfo r St.ok (helloInfo v r.fn)

/-! ## Effects -/

/-- What a command does once its header has passed (Table HI-8). -/
def State.hostEffect (s : State) (r : CmdRef) (d : Block512) (msg : Option (List Byte)) : State :=
  match r.opcode with
  | 0x01 => s.doHello r d
  | 0x02 => s.doDringSet r d
  | 0x10 => s.doQueueBind r d
  | 0x11 => s.doQueueOpen r d
  | 0x12 => s.doQueueClose r d
  | 0x13 => s.doQueueDiscard r d
  | 0x14 => s.doQueueReset r d
  | 0x15 => s.doQueueRelease r d
  | 0x16 => s.doQueryQueue r d
  | 0x17 => s.doGroupSet r d
  | 0x20 => s.doFlagSet r d
  | 0x28 => s.doMark r d
  | 0x29 => s.doRewind r d
  | 0x2A => s.doReleaseMark r d
  | 0x30 => s.doTimeSet r d
  | 0x31 => s.doPinSet r d
  | 0x38 => s.doPolicySet r d
  | 0x40 => s.doChainSetup r d
  | 0x41 => s.doPairSetup r d
  | 0x42 => s.doFailover r d
  | 0x50 => s.doRekey r d
  | 0x51 => s.doKeyUpdate r msg
  | 0x52 => s.doLcSubmit r msg
  | 0x53 => s.doKeyQuery r d
  | 0x54 => s.doTenantRelease r d
  | _ => s

/-- A command takes effect: its header is checked, and it completes at once where the check fails. -/
def State.takeEffect (s : State) (r : CmdRef) (d : Block512) (msg : Option (List Byte)) : State :=
  let st := s.headerStatus r d
  if st ≠ St.ok then s.complete r st else s.hostEffect r d msg

/-! ## Fetching (R309, R312) -/

/-- Fetched commands of a function that have not completed, at most. -/
def maxInflight : Nat := 256

/-- A function's ring has a command that may be fetched: the ring runs and holds one, and a completion slot is free. -/
def State.ringWaits (s : State) (g : Nat) : Bool :=
  let f := s.func g
  s.fnReached g && f.running && f.cmdPi != f.cmdCi && decide (f.inflight.length < maxInflight) &&
    decide (ringDist f.cplPi f.cplCi + f.inflight.length < f.cplSize)

/-- The function whose turn it is: the rings are served round robin, one command per turn (R309). -/
def State.nextRing (s : State) : Option Nat :=
  ((List.range 16).map fun i => (s.host.fetchTurn + i) % 16).find? s.ringWaits

/-- The sequencer fetches from a function's ring: its turn has come, and the control plane runs. A HELLO is fetched before the
firmware is ready too, and waits (R311). -/
def State.fetches (s : State) (g : Nat) (d : Block512) : Bool :=
  s.ringWaits g && s.coreRuns && !s.errs.frozen && !s.rst.ctlReturn &&
    (if s.rst.control then s.nextRing == some g else Hdr.opcode d == opHello)

/-- A command that waits for every earlier one of its ring: FENCE, or HELLO. -/
def fencing (d : Block512) : Bool := Hdr.fence d || Hdr.opcode d == opHello

/-- A fetched command may take effect: it does not fence, or nothing earlier of its ring is in flight; HELLO needs the
firmware. -/
def State.mayAct (s : State) (r : CmdRef) (d : Block512) : Bool :=
  (!fencing d || !(s.func r.fn).inflight.contains r || (s.func r.fn).inflight.head? == some r) &&
    (s.rst.control || Hdr.opcode d != opHello)

/-- Fetches a command of a function's ring; it takes effect at once, or waits behind a fence. -/
def State.fetch (s : State) (g : Nat) (d : Block512) (msg : Option (List Byte)) : State :=
  if s.fetches g d then
    let r : CmdRef := { fn := g, id := s.cmdSerial, opcode := Hdr.opcode d, tag := Hdr.tag d }
    let s := { s with cmdSerial := s.cmdSerial + 1, host := { s.host with fetchTurn := (g + 1) % 16 } }
    let s := s.updFunc g fun f => { f with cmdCi := next32 f.cmdCi, inflight := f.inflight ++ [r] }
    if (s.func g).fenced.isEmpty && s.mayAct r d then s.takeEffect r d msg
    else s.updFunc g fun f => { f with fenced := f.fenced ++ [(r, d, msg)] }
  else s

/-- Commands that waited behind a fence take effect, in order, as far as they may. -/
def State.releaseFenced (s : State) (g : Nat) : Nat → State
  | 0 => s
  | fuel + 1 =>
    match (s.func g).fenced with
    | [] => s
    | (r, d, msg) :: rest =>
      if s.mayAct r d then
        ((s.updFunc g fun f => { f with fenced := rest }).takeEffect r d msg).releaseFenced g fuel
      else s

/-- Every function's fenced commands that may take effect do. -/
def State.releaseFences (s : State) : State :=
  if s.rst.ctlReturn || s.errs.frozen || !s.coreRuns then s
  else (s.funcs.map (·.1)).foldl (fun s g => s.releaseFenced g ((s.func g).fenced.length + 1)) s

/-- A row's command: the descriptor at the front of the function's ring carries its opcode; one of another opcode that the
row does not spell is no command of Table HI-8. -/
def State.hostCommand (s : State) (g op : Nat) (d : Block512) (msg : Option (List Byte)) : State :=
  if Hdr.opcode d = op then s.fetch g d msg
  else if (opcodeFrom (Hdr.opcode d)).isNone then s.fetch g d none
  else s

/-! ## Commands -/

def execHello (fn : Fin 16) (d : Block512) (s : State) : Host.Outcome State Fault Refusal :=
  .next (s.hostCommand fn.val 0x01 d none)
def execDringSet (fn : Fin 16) (d : Block512) (s : State) : Host.Outcome State Fault Refusal :=
  .next (s.hostCommand fn.val 0x02 d none)
def execQueueBind (fn : Fin 16) (d : Block512) (s : State) : Host.Outcome State Fault Refusal :=
  .next (s.hostCommand fn.val 0x10 d none)
def execQueueOpen (fn : Fin 16) (d : Block512) (s : State) : Host.Outcome State Fault Refusal :=
  .next (s.hostCommand fn.val 0x11 d none)
def execQueueClose (fn : Fin 16) (d : Block512) (s : State) : Host.Outcome State Fault Refusal :=
  .next (s.hostCommand fn.val 0x12 d none)
def execQueueDiscard (fn : Fin 16) (d : Block512) (s : State) : Host.Outcome State Fault Refusal :=
  .next (s.hostCommand fn.val 0x13 d none)
def execQueueReset (fn : Fin 16) (d : Block512) (s : State) : Host.Outcome State Fault Refusal :=
  .next (s.hostCommand fn.val 0x14 d none)
def execQueueRelease (fn : Fin 16) (d : Block512) (s : State) : Host.Outcome State Fault Refusal :=
  .next (s.hostCommand fn.val 0x15 d none)
def execQueryQueue (fn : Fin 16) (d : Block512) (s : State) : Host.Outcome State Fault Refusal :=
  .next (s.hostCommand fn.val 0x16 d none)
def execGroupSet (fn : Fin 16) (d : Block512) (s : State) : Host.Outcome State Fault Refusal :=
  .next (s.hostCommand fn.val 0x17 d none)
def execFlagSet (fn : Fin 16) (d : Block512) (s : State) : Host.Outcome State Fault Refusal :=
  .next (s.hostCommand fn.val 0x20 d none)
def execMark (fn : Fin 16) (d : Block512) (s : State) : Host.Outcome State Fault Refusal :=
  .next (s.hostCommand fn.val 0x28 d none)
def execRewind (fn : Fin 16) (d : Block512) (s : State) : Host.Outcome State Fault Refusal :=
  .next (s.hostCommand fn.val 0x29 d none)
def execReleaseMark (fn : Fin 16) (d : Block512) (s : State) : Host.Outcome State Fault Refusal :=
  .next (s.hostCommand fn.val 0x2A d none)
def execTimeSet (fn : Fin 16) (d : Block512) (s : State) : Host.Outcome State Fault Refusal :=
  .next (s.hostCommand fn.val 0x30 d none)
def execPinSet (fn : Fin 16) (d : Block512) (s : State) : Host.Outcome State Fault Refusal :=
  .next (s.hostCommand fn.val 0x31 d none)
def execPolicySet (fn : Fin 16) (d : Block512) (s : State) : Host.Outcome State Fault Refusal :=
  .next (s.hostCommand fn.val 0x38 d none)
def execChainSetup (fn : Fin 16) (d : Block512) (s : State) : Host.Outcome State Fault Refusal :=
  .next (s.hostCommand fn.val 0x40 d none)
def execPairSetup (fn : Fin 16) (d : Block512) (s : State) : Host.Outcome State Fault Refusal :=
  .next (s.hostCommand fn.val 0x41 d none)
def execFailover (fn : Fin 16) (d : Block512) (s : State) : Host.Outcome State Fault Refusal :=
  .next (s.hostCommand fn.val 0x42 d none)
def execRekey (fn : Fin 16) (d : Block512) (s : State) : Host.Outcome State Fault Refusal :=
  .next (s.hostCommand fn.val 0x50 d none)
def execKeyUpdate (fn : Fin 16) (d : Block512) (msg : Option (List Byte)) (s : State) :
    Host.Outcome State Fault Refusal := .next (s.hostCommand fn.val 0x51 d msg)
def execLcSubmit (fn : Fin 16) (d : Block512) (msg : Option (List Byte)) (s : State) :
    Host.Outcome State Fault Refusal := .next (s.hostCommand fn.val 0x52 d msg)
def execKeyQuery (fn : Fin 16) (d : Block512) (s : State) : Host.Outcome State Fault Refusal :=
  .next (s.hostCommand fn.val 0x53 d none)
def execTenantRelease (fn : Fin 16) (d : Block512) (s : State) : Host.Outcome State Fault Refusal :=
  .next (s.hostCommand fn.val 0x54 d none)

/-! ## Start-up commands (R448) -/

/-- Runs start-up commands as function 0, each numbered by its place. -/
def State.startupCommands (s : State) (i : Nat) : List Block512 → State
  | [] => s
  | d :: ds =>
    let r : CmdRef := { fn := startupFn, id := s.cmdSerial, opcode := Hdr.opcode d, tag := i }
    (({ s with cmdSerial := s.cmdSerial + 1 }).takeEffect r d none).startupCommands (i + 1) ds

end Sys2Proof.Machine
end

