-- ==== Sys2Proof/Machine/Power.lean ====
section
/-!
DEFINITION. Power states (spec/14 R347 to R386): requests and their refusal, votes and domains, the entries and exits of
Sleep, Deep Sleep and Off, retention failure, wake sources, the Idle clock gate, and the VDD regulator on PMBus.
-/
namespace Sys2Proof.Machine

/-! ## Requests (R360 to R363) -/

def pstateOf (t : Nat) : Option PState :=
  match t with
  | 0 => some .run
  | 1 => some .idle
  | 2 => some .sleep
  | 3 => some .deepSleep
  | 4 => some .off
  | _ => none

def setPower (s : State) (f : Power → Power) : State := { s with power := f s.power }

/-- The outcome of the last request, as `PWRSTATE` shows it. -/
def State.noteOutcome (s : State) (id status : Nat) : State :=
  setPower s fun p => { p with lastId := id, lastStatus := status }

/-- Posts PWR_DONE (Table PW-18). -/
def State.pwrDone (s : State) (id target status : Nat) (slot : Option Nat) : State :=
  (s.noteOutcome id status).post 0 { code := 0x050, body := packNat [(0, 8, id), (8, 3, target), (16, 8, status),
    (24, 5, slot.getD 0), (29, 1, if slot.isSome then 1 else 0)] }

/-- A request ends with a status; a wake has no request to answer. -/
def State.endReq (s : State) (r : PwrReq) (status : Nat) (slot : Option Nat) : State :=
  match r.id with
  | some id => s.pwrDone id (pstateCode r.target) status slot
  | none => s

/-- Latches a pending target, superseding an earlier one (R361). -/
def State.latchPend (s : State) (r : PwrReq) : State :=
  let old := s.power.pend
  let s := setPower s fun p => { p with pend := some r }
  match old with
  | some o => s.endReq o St.superseded none
  | none => s

/-- The domains that a target turns off or stops and that a host vote therefore blocks (Table PW-7). -/
def blockMask : PState → Nat
  | .sleep => domMask [Dom.core, Dom.plaza]
  | .deepSleep | .off => 0x3F
  | _ => 0

/-- The lowest host function that blocks an entry. -/
def State.blocker (s : State) (t : PState) : Option Nat :=
  (List.range 16).find? fun g => s.clientVotes g &&& blockMask t != 0

/-- Retention current of one quarter in 1/800 mA, at a temperature in 0.25 °C units (Table PW-9, interpolated). -/
def retentionIq (t : Int) : Int :=
  let line (x0 x1 y0 y1 : Int) : Int := 80 * y0 + (y1 - y0) * (t - x0) * (80 / (x1 - x0))
  if t ≤ 120 then 7200
  else if t ≤ 200 then line 120 200 90 115
  else if t ≤ 280 then line 200 280 115 150
  else if t ≤ 360 then line 280 360 150 195
  else if t ≤ 440 then line 360 440 195 240
  else line 440 460 240 250

/-- Quarters set in `RETMASK`. -/
def Power.retained (p : Power) (i : Nat) : Bool := bit p.retmask i
def Power.nRetained (p : Power) : Nat := ((List.range 4).filter p.retained).length

/-- The retention budget of R371 is exceeded. -/
def Power.overBudget (p : Power) : Bool :=
  let t : Int := signed 12 (fld p.tsense 0 12) + 20
  let n := p.nRetained
  (decide (460 < t) && decide (0 < n)) || decide (67200 < 4800 + (n : Int) * retentionIq t)

/-- Pages of a queue's `SFILL` span that lie in a quarter which is not retained. -/
def State.strayPage (s : State) (q : Queue) : Bool :=
  decide (0 < q.sfill) && (List.range ((q.wptr - 1) / 4096 - q.oldest / 4096 + 1)).any fun k =>
    match q.segs[q.oldest / 4096 + k - q.segBase]? with
    | some seg => !s.power.retained (quarterOf seg)
    | none => false

def State.anyBound (s : State) : Bool := s.queues.any fun e => e.2.st != .unbound

/-- Condition 2 of Table PW-7. -/
def State.losesData (s : State) : Bool :=
  (decide (fld s.power.retmask 0 4 = 0) && s.anyBound) || s.queues.any fun e => s.strayPage e.2

/-- The refusal checks of Table PW-7: status and blocking slot. -/
def State.refusal (s : State) (r : PwrReq) : Option (Nat × Option Nat) :=
  match s.blocker r.target with
  | some g => some (St.badState, some g)
  | none =>
    if r.target == .deepSleep && s.losesData then some (St.badState, none)
    else if r.target == .deepSleep && s.power.overBudget then some (St.retentionBudget, none)
    else if r.target == .off && s.anyBound && !r.force then some (St.badState, none)
    else none

/-- A POWER word of the device (Table BL-12): IDLE_NOTICE is code 2 and SLEEP_DENY 3. -/
def powerWord (code : Nat) : List Byte := cword 6 0 [(24, 4, code)]

/-- IDLE_NOTICE on a link that is UP; its lead of 2 µs runs. -/
def State.idleNotice (s : State) (l : Nat) : State :=
  if s.linkLive l then (s.sendWord l (powerWord 2)).updLink l fun x => { x with idleLead := true } else s

/-- The regulator is told to turn on or off (`OPERATION`). -/
def State.operation (s : State) (on : Bool) : State :=
  (setPower s fun p => { p with vrOn := on, vrPg := p.vrPg && on }).emit (.pmbus 1 (if on then 0x80 else 0))

/-- An exit to Run starts (Table PW-11); VDD comes up first where it is off. -/
def State.startExit (s : State) (r : PwrReq) : State :=
  let s := setPower s fun p => { p with running := some r, exiting := true, vrTries := 0 }
  if s.power.cur = .sleep then s else s.operation true

/-- A transition to a request's target starts: checks, then the entry; Run and Idle take effect at once. A target other than
Run reached from Sleep goes by way of Run. -/
def State.startReq (s : State) (r : PwrReq) : State :=
  if r.target = s.power.cur then s.endReq r St.ok none
  else if s.power.cur.awake then
    if r.target.awake then (setPower s fun p => { p with cur := r.target, gated := false }).endReq r St.ok none
    else match s.refusal r with
      | some (st, slot) => s.endReq r st slot
      | none =>
        (List.range 8).foldl State.idleNotice (setPower s fun p => { p with running := some r, exiting := false })
  else if r.target = .run then s.startExit r
  else (s.latchPend r).startExit { target := .run }

/-- A request (R360, R361). -/
def State.request (s : State) (r : PwrReq) : State := if s.power.running.isSome then s.latchPend r else s.startReq r

/-- The running transition has ended: the device acts on the pending target. -/
def State.actPending (s : State) : State :=
  match s.power.pend with
  | none => s
  | some r => (setPower s fun p => { p with pend := none }).startReq r

/-- A write of `PWRCTL`. -/
def State.writePwrctl (s : State) (v : Word32) : State :=
  let id := fld v 8 8
  match pstateOf (fld v 0 3) with
  | none => s.pwrDone id (fld v 0 3) St.badField none
  | some t => s.request { target := t, force := bit v 3, id := some id }

/-- An entry that has reached its state ends, and the pending target is acted on. -/
def State.pendingStart (s : State) : State :=
  match s.power.running with
  | some r =>
    if !s.power.exiting && s.power.cur == r.target then
      (setPower s fun p => { p with running := none }).actPending
    else s
  | none => s.actPending

/-- `TSENSE` takes a sample (R372). -/
def State.sampleTj (s : State) (tj : BitVec 12) : State := setPower s fun p => { p with tsense := BitVec.ofNat 32 tj.toNat }

def execPwrPendingStart (s : State) : Host.Outcome State Fault Refusal := .next s.pendingStart

/-- `PWRSTATE` (Table PW-13). -/
def Power.stateReg (p : Power) : Nat :=
  packNat [(0, 3, pstateCode p.cur), (3, 1, if p.running.isSome then 1 else 0),
    (4, 3, ((p.running.map fun r => pstateCode r.target).getD 0)), (7, 1, if p.pend.isSome then 1 else 0),
    (8, 3, ((p.pend.map fun r => pstateCode r.target).getD 0)), (16, 8, p.lastId), (24, 8, p.lastStatus)]

/-! ## Domains (R351 to R356) -/

/-- The links and ring sides of a domain. -/
def domPhys (d : Nat) : List Phy :=
  match d with
  | 2 => [.link 0, .link 1, .link 2, .link 3]
  | 3 => [.link 4, .link 5, .link 6, .link 7]
  | 4 => [.side .east, .side .west]
  | _ => []

/-- A domain turns off: its links and sides go down and idle. -/
def State.dropDomain (s : State) (d : Nat) : State :=
  let s := (domPhys d).foldl (fun s p => s.phyStop p .disabled) s
  setPower s fun p => { p with domains := p.domains &&& ~~~(BitVec.ofNat 6 (2 ^ d)) }

/-- The data cells of a link or a ring side are reset (R84). -/
def State.resetDataCells (s : State) (p : Phy) : State :=
  match p with
  | .link n => s.updLink n.val fun l => { l with rx := {}, tx := {} }
  | .side d => s.updSide d fun x => { x with rx := {}, tx := {} }

/-- A domain is powered and released from reset with its Crosswalks (R87); its links and sides train. -/
def State.raiseDomain (s : State) (d : Nat) : State :=
  let s := setPower s fun p => { p with domains := p.domains ||| BitVec.ofNat 6 (2 ^ d) }
  let s := (domPhys d).foldl State.resetDataCells (s.resetCells ((domPhys d).flatMap phyCells))
  (domPhys d).foldl State.phyEnable s

/-- A link of a port waits for the end of its IDLE_NOTICE lead. -/
def State.leadRuns (s : State) (d : Nat) : Bool :=
  (domPhys d).any fun p => match p with
    | .link n => (s.link n.val).idleLead
    | .side _ => false

/-- Whether domains follow their votes now. -/
def State.votesAct (s : State) : Bool := s.power.cur.awake && !s.power.entering

/-- A port or ring domain whose last vote was withdrawn drops (R351), after any lead that runs (R354). -/
def State.settleDomain (s : State) (d : Nat) : State :=
  if s.votesAct && bit s.power.domains d && !s.voted d && !s.leadRuns d then s.dropDomain d else s

def State.settleVotes (s : State) : State := [Dom.portA, Dom.portB, Dom.ring].foldl State.settleDomain s

/-- A domain that gained its first vote; in Recovery mode only CORE runs (R404). -/
def State.domainPowerUp (s : State) (d : Nat) : State :=
  if s.votesAct && !s.rst.recovery && s.coreRuns && !bit s.power.domains d && s.voted d then s.raiseDomain d else s

def execDomainPowerUp (d : Fin 6) (s : State) : Host.Outcome State Fault Refusal := .next (s.domainPowerUp d.val)

/-- A write of `PWRVOTE`. -/
def State.writePwrvote (s : State) (g : Nat) (v : Word32) : State :=
  (s.updFunc g fun f => { f with vote := fld v 0 6 }).settleVotes

/-- The links of a link's port that hear an IDLE_NOTICE because of its partner: the other ones, and itself for a SLEEP_REQ. -/
def noticedBy (l : Nat) (sleepReq : Bool) : List Nat :=
  (List.range 8).filter fun n => linkDomain n == linkDomain l && (n != l || sleepReq)

/-- A partner's votes replace those of its link; the answer to SLEEP_REQ follows, and IDLE_NOTICE goes to the port's other
links where the port has no vote left (R354). -/
def State.partnerVote (s : State) (l vote : Nat) (sleepReq : Bool) : State :=
  let s := s.updLink l fun x => { x with votes := vote }
  if s.voted (linkDomain l) then (if sleepReq then s.sendWord l (powerWord 3) else s).settleVotes
  else ((noticedBy l sleepReq).foldl State.idleNotice s |>.updLink l fun x => { x with idleLead := true }).settleVotes

def execPowerVote (n : Fin 8) (vote : BitVec 6) (s : State) : Host.Outcome State Fault Refusal :=
  .next (if s.linkLive n.val then s.partnerVote n.val vote.toNat false else s)
def execSleepReq (n : Fin 8) (vote : BitVec 6) (s : State) : Host.Outcome State Fault Refusal :=
  .next (if s.linkLive n.val then s.partnerVote n.val vote.toNat true else s)

/-- The links of a domain whose lead runs. -/
def State.leads (s : State) (d : Nat) : List Phy :=
  (domPhys d).filter fun p => match p with
    | .link n => (s.link n.val).idleLead
    | .side _ => false

/-- The lead of a link ends: its transmitters idle (R254). -/
def State.endLead (s : State) (p : Phy) : State :=
  match p with
  | .link n => (s.updLink n.val fun x => { x with idleLead := false }).phyStop p .disabled
  | .side _ => s

/-- 2 µs after IDLE_NOTICE the transmitters of its links idle, and the port turns off unless it has a vote again. -/
def State.leadEnd (s : State) (d : Nat) : State :=
  let ps := s.leads d
  if ps.isEmpty then s
  else
    let s := ps.foldl State.endLead s
    if s.power.entering then s
    else if s.voted d then ps.foldl State.phyEnable s
    else s.dropDomain d

def portDomain : Port → Nat
  | .a => Dom.portA
  | .b => Dom.portB

def execIdleNoticeLeadEnd (p : Port) (s : State) : Host.Outcome State Fault Refusal := .next (s.leadEnd (portDomain p))

/-- The wake logic's vote for a link's port ends once the link has been UP for 1 ms (R355). -/
def State.wakeVoteRelease (s : State) (l : Nat) : State :=
  if (s.link l).phy.st = .up then (s.updLink l fun x => { x with wakeVote := false }).settleVotes else s

def execWakeVoteRelease (n : Fin 8) (s : State) : Host.Outcome State Fault Refusal := .next (s.wakeVoteRelease n.val)

/-! ## Entries (R364 to R366, R384) -/

/-- The transition that runs is an entry into `t` which waits for nothing more: no lead, no maintenance activity but the
scrub, no AVS step (R334, R365). -/
def State.entryReady (s : State) (t : PState) : Bool :=
  s.power.cur.awake && !s.power.exiting && (match s.power.running with
    | some r => r.target == t
    | none => false) &&
    !(List.range 8).any (fun l => (s.link l).idleLead) &&
    (s.plaza.quarters.toList.all fun x => x.act.isNone && x.pend.isEmpty) && !s.plaza.ksweepRun && s.power.avsPrev.isNone

/-- Every link and ring side idles, and their domains turn off. -/
def State.idlePhys (s : State) : State := [2, 3, 4].foldl State.dropDomain s

/-- The request whose entry has reached its state. -/
def State.entryId (s : State) : Nat := ((s.power.running.bind (·.id)).getD s.power.lastId)

/-- PWR_DONE `OK` for the running request. -/
def State.entryDone (s : State) : State :=
  match s.power.running with
  | some r => s.endReq r St.ok none
  | none => s

/-- An entry has reached its state. It ends there, unless a pending target waits to be acted on. -/
def State.entryEnds (s : State) : State :=
  if s.power.pend.isSome then s else setPower s fun p => { p with running := none }

/-- The device enters Sleep: links idle, the clocks of both halves of the data Crosswalks stop, and all data is kept. -/
def State.enterSleep (s : State) : State :=
  if s.entryReady .sleep then
    (setPower s.idlePhys.entryDone.allHalvesStop fun p => { p with cur := .sleep, gated := false }).entryEnds
  else s

def execSleepEntry (s : State) : Host.Outcome State Fault Refusal := .next s.enterSleep

/-- The image of Table PW-10. -/
def State.depotImage (s : State) : Depot :=
  { tbCtrl := s.time.ctrl, tbComp := s.time.comp, portCfg := s.portCfg, portPol := s.portPol
    linkCfg := SMap.setList 0x68 [] 0 ((List.range 8).map fun n => (s.link n).cfg)
    ringCfg := s.ring.cfg &&& 0x7F#32, flagmap := s.flagmap, maintCtrl := s.plaza.ctrl, kwin := s.kiosk.win
    kwinRing := s.kiosk.winRing, kioskCfg := s.kiosk.cfg, retmask := s.power.retmask, pmbCfg := s.power.pmbCfg
    wsenseCfg := s.power.wsenseCfg, locked := s.rst.ioLocked }

/-- Balls through Deep Sleep and Off: `PPS_OUT` low, the CMOS outputs at their last level, the open-drain ones released
(R366). -/
def State.sleepPads (s : State) : State :=
  let s := { s with time := { s.time with ppsOut := false }, kiosk := { s.kiosk with busyN := true } }
  let s := s.padHold
  { s with rst := { s.rst with heldPps := false, heldIntN := true, heldPairN := true, heldPcieN := true } }

/-- The host block stops: rings, doorbells, `PWRVOTE` and MSI-X return to reset. Its queues gain HOST_RESET when the exit
starts it again (R365 step 4, R367). -/
def State.stopHost (s : State) : State :=
  let s := { s with host := { perstN := s.host.perstN, pcieWakeN := true } }
  ((List.range 16).foldl (fun s g => s.setFunc g ((s.func g).afterReset g)) s).resetCells [0x14, 0x15]

/-- VDD turns off, and the Error FIFO empties as CORE does (R458). -/
def State.coreOff (s : State) : State :=
  let s := s.operation false
  { s with
    power := { s.power with domains := 0, gated := false }
    errs := { s.errs with fifo := [] }, time := { s.time with running := false } }

/-- The device enters Deep Sleep (Table PW-8). -/
def State.enterDeepSleep (s : State) (nonce : Word64) : State :=
  if s.entryReady .deepSleep then
    let s := s.idlePhys
    let id := s.entryId
    let s := setPower s fun p => { p with nonce := nonce, depot := s.depotImage }
    let s := (setPower s.sleepPads fun p => { p with cur := .deepSleep }).stopHost.coreOff
    (s.noteOutcome id St.ok).entryEnds
  else s

def execDeepSleepEntry (nonce : Word64) (s : State) : Host.Outcome State Fault Refusal := .next (s.enterDeepSleep nonce)

/-- The wake logic's votes, with the links otherwise at reset (R355). -/
def State.wakeVotes (s : State) : SMap Link :=
  SMap.setList {} [] 0 ((List.range 8).map fun n => { wakeVote := (s.link n).wakeVote })

/-- What the wake logic of the AON block knows of the links in Off: `LINKn_CFG` with its `WAKE_EN`, and its own votes (R231,
R355, R381). -/
def State.wakeLinks (s : State) : SMap Link :=
  SMap.setList {} [] 0 ((List.range 8).map fun n => { cfg := (s.link n).cfg, wakeVote := (s.link n).wakeVote })

/-- What Off keeps: the AON block without the Depot and the Warden debug state, and what no state loses. -/
def State.offKept (s : State) : State :=
  { pending := s.pending, host := { perstN := s.host.perstN }, cmdSerial := s.cmdSerial
    portCfg := s.portCfg, links := s.wakeLinks
    power := { s.power with depot := {}, nonce := 0, gated := false }, nv := s.nv
    rst := { s.rst with ioLocked := false, control := false, booted := false, recovery := false, wdogAt := none }
    fw := { s.fw.afterReset with baud := none }, errs := { s.errs.afterReset with counts := s.errs.counts }
    cyc := s.cyc, free := s.free, out := s.out }

/-- The device enters Off, saving nothing. -/
def State.enterOff (s : State) : State :=
  if s.entryReady .off then
    let id := s.entryId
    let s := (setPower s.idlePhys.sleepPads fun p => { p with cur := .off }).coreOff.offKept
    (s.noteOutcome id St.ok).entryEnds
  else s

def execOffEntry (s : State) : Host.Outcome State Fault Refusal := .next s.enterOff

/-! ## Wake sources (R355, R362, R381 to R383) -/

def setWake (s : State) (i : Nat) : State := setPower s fun p => { p with wakesrc := p.wakesrc ||| BitVec.ofNat 32 (2 ^ i) }

/-- A wake event: during an entry it sets the pending target to Run, and in Sleep, Deep Sleep or Off the exit begins. -/
def State.wake (s : State) (i : Nat) : State :=
  if s.power.entering then (setWake (setWake s i) 12).latchPend { target := .run }
  else if s.power.cur.awake then s
  else
    let s := setWake s i
    if s.power.running.isSome then s else s.startExit { target := .run }

/-- Normal service: the pads are released, and the device is not in Recovery mode (Table PW-12). -/
def State.normalService (s : State) : Bool := !s.rst.recovery

def execWakeN (s : State) : Host.Outcome State Fault Refusal := .next (if s.normalService then s.wake 1 else s)
def execSvcAddressMatch (s : State) : Host.Outcome State Fault Refusal := .next (if s.normalService then s.wake 0 else s)

/-- A TLP or an exit from L1.2, in Sleep or on the way into it. -/
def State.pcieWake (s : State) : State :=
  let toSleep := match s.power.running with
    | some r => s.power.entering && r.target == .sleep
    | none => s.power.cur == .sleep
  if s.normalService && (toSleep || s.power.cur == .sleep) then s.wake 10 else s

def execPcieWake (s : State) : Host.Outcome State Fault Refusal := .next s.pcieWake

/-- A lane-0 signal of a link of the split with `WAKE_EN`. The wake logic votes for the port. In Idle, with the port off, the vote and
the record are the whole effect; in Run the detector has none (R231). -/
def State.laneSignal (s : State) (l : Nat) : State :=
  if s.normalService && s.linkPresent l && (s.link l).wakeEn then
    let vote (s : State) : State := s.updLink l fun x => { x with wakeVote := true }
    if s.power.entering || !s.power.cur.awake then (vote s).wake (2 + l)
    else if s.power.cur == .idle && !bit s.power.domains (linkDomain l) then setWake (vote s) (2 + l)
    else s
  else s

def execLaneSignalDetect (n : Fin 8) (s : State) : Host.Outcome State Fault Refusal := .next (s.laneSignal n.val)

/-- Whether the `WAKE_SENSE` comparator is powered (R382). -/
def State.senseActs (s : State) : Bool :=
  bit s.power.wsenseCfg 8 && (s.rst.recovery || !s.rst.released || s.nv.lc == 0)

/-- The comparator's threshold in mV. -/
def Power.senseMv (p : Power) : Nat := 200 + 10 * min 140 (fld p.wsenseCfg 0 8)

def execWakeSense (mv : BitVec 12) (s : State) : Host.Outcome State Fault Refusal :=
  .next (if s.senseActs && decide (s.power.senseMv < mv.toNat) then s.wake 11 else s)

/-! ## Exits (R364, R367, R373 to R375, R384) -/

def exitFrom (s : State) (st : PState) : Bool := s.power.exiting && s.power.cur == st

/-- `WAKESRC.PREV`. -/
def setPrev (s : State) (n : Nat) : State :=
  setPower s fun p => { p with wakesrc := (p.wakesrc &&& 0xFF1FFFFF#32) ||| BitVec.ofNat 32 (n * 2 ^ 21) }

/-- Posts PWR_WAKE. -/
def State.postWake (s : State) : State := s.post 0 { code := 0x051, body := packNat [(0, 32, s.power.wakesrc.toNat)] }

/-- The exit ends in Run: a request for Run completes, its PWR_DONE held where the exit is one from Deep Sleep (R368), and the
pending target is acted on. -/
def State.exitDone (s : State) : State :=
  let s := match s.power.running with
    | some r => s.endReq r St.ok none
    | none => s
  (setPower s fun p => { p with cur := .run, running := none, exiting := false }).actPending

/-- The exit from Sleep: the clocks restart. -/
def State.exitSleep (s : State) : State :=
  if exitFrom s .sleep then
    let s := setPrev s 2
    (setPower s fun p => { p with cur := .run }).postWake.exitDone
  else s


/-- The registers of CORE after its power-up: those of the Depot are restored, the others at reset (R369, Table RG-6). -/
def State.restoreCore (s : State) : State :=
  let d := s.power.depot
  { s with
    time := { ctrl := d.tbCtrl, comp := d.tbComp, running := true }
    portCfg := d.portCfg, portPol := d.portPol, portPolstat := []
    links := SMap.setList {} [] 0 ((List.range 8).map fun n =>
      { cfg := SMap.get 0x68 d.linkCfg n, wakeVote := (s.link n).wakeVote })
    ring := {
      cfg := d.ringCfg, nokey := s.ring.nokey, rcEpoch := s.ring.rcEpoch, rcParent := s.ring.rcParent
      rcNonce := s.ring.rcNonce, rcSpent := s.ring.rcSpent }
    flagmap := d.flagmap, cells := []
    plaza := { s.plaza with
      ctrl := d.maintCtrl, resStatus := 0, jobs := [], releases := []
      quarters := s.plaza.quarters.map fun x => { x with ce := 0, ue := 0, rest := false } }
    kiosk := { cfg := d.kioskCfg, win := d.kwin, winRing := d.kwinRing, degr := s.kiosk.degr }
    errs := { s.errs with dumpBase := 0, dumpLow := none, ceAt := [] }
    power := { s.power with retmask := d.retmask, pmbCfg := d.pmbCfg, wsenseCfg := d.wsenseCfg, domains := 0x23 }
    rst := { s.rst with ioLocked := d.locked, ioHeld := false } }

/-- Quarters with an uncorrectable error in an occupied segment, which the ECC sweep finds. -/
def Plaza.sweepFails (p : Plaza) : Nat :=
  domMask ((List.range 4).filter fun i => p.bad.any fun e => quarterOf (e.1 / 64) == i && SMap.get 0 p.owner (e.1 / 64) != 0)

/-- A queue of a condemned quarter loses its data; a live one is held with RETENTION_LOST (R374). -/
def State.condemnQueue (s : State) (n : Nat) : State :=
  ((((s.supersede n).abortWriteEnd n).abortReadEnd n).dropData n).hold n 2

/-- A quarter is condemned. -/
def State.condemn (s : State) (i tests : Nat) : State :=
  let qs := (s.queues.filter fun e => e.2.segs.any fun seg => quarterOf seg == i).map (·.1)
  let s := (qs.foldl State.condemnQueue s).wipeQuarter i
  (setWake s (16 + i)).raise 0x607 none (2 ^ i) tests 0

/-- The context store's monitor is set: every queue is unbound and every quarter wiped (R375). -/
def State.loseContexts (s : State) : State :=
  let s := { s with queues := [], groups := [], plaza := { s.plaza with owner := [] } }
  (setWake ((List.range 4).foldl State.wipeQuarter s) 20).raise 0x607 none 0x10 1 0

/-- A queue's children are derived again from its group's parent; without one it gains KEY_REVOKED (R417). -/
def State.rederiveQueue (s : State) (n : Nat) : State :=
  match s.readParent (ownerOf n) with
  | (s, some p) => s.updQ n fun q => { q with keys := { q.keys with parent := p, prev := none } }
  | (s, none) => s.revokeQueue n

def State.rederiveGroup (s : State) (g : Nat) : State :=
  match s.readParent g with
  | (s, some p) => s.setGroup g { s.group g with rsParent := p, rsPrev := none }
  | (s, none) => s.revokeSession g

def State.rederiveRing (s : State) : State :=
  if s.ring.nokey then s
  else match s.readParent ringScope with
    | (s, some p) => { s with ring := { s.ring with rcParent := p } }
    | (s, none) => { s with ring := { s.ring with nokey := true } }

def State.rederiveKeys (s : State) : State :=
  let s := ((s.queues.filter fun e => e.2.keys.bound && !e.2.keys.revoked).map (·.1)).foldl State.rederiveQueue s
  let s := ((s.groups.filter fun e => e.2.rsBound && !e.2.rsRevoked).map (·.1)).foldl State.rederiveGroup s
  s.rederiveRing

/-- Predictors restart, flag levels are evaluated afresh without an event, and the Kerbside loop returns to its static
settings (R103, R205). -/
def State.restartFlags (s : State) (n : Nat) : State :=
  let s := s.updQ n fun q =>
    let q := { q with kerb := if q.b.kerb then q.kerb.restart 0 s.cyc else q.kerb }
    if q.b.kerb && q.kerb.policy.adapt then q.applyStatic else q
  let s := s.updQ n fun q => { q with fst := ({} : FlagState).restart q.sfill (s.efill q) }
  let levels := s.evalLevels n
  s.updQ n fun q => { q with fst := { q.fst with levels := levels } }

/-- Quarters that fail verification, as masks by test: droop, check rows, ECC sweep; of the retained ones. -/
def verdict (ret droop rows ecc i : Nat) : Nat :=
  if ret / 2 ^ i % 2 = 1 then droop / 2 ^ i % 2 + 2 * (rows / 2 ^ i % 2) + 4 * (ecc / 2 ^ i % 2) else 0

/-- Queues held with RETENTION_LOST. -/
def State.retLost (s : State) : Nat := (s.queues.filter fun e => e.2.st == .held && e.2.why / 4 % 2 == 1).length

/-- Verification ends: what failed is condemned, and RET_FAIL tells of it (R373 to R375, R386). Without a context store no queue is
bound any more. -/
def State.verifyRetained (s : State) (ret droop rows ecc : Nat) (ctx : Bool) : State :=
  let ecc := ecc ||| s.plaza.sweepFails
  let failed := (List.range 4).filter fun i => verdict ret droop rows ecc i != 0
  let s := if ctx then s.loseContexts else s
  let before := s.retLost
  let s := failed.foldl (fun s i => s.condemn i (verdict ret droop rows ecc i)) s
  let held := min 255 (s.retLost - before)
  if failed.isEmpty && !ctx then s
  else s.post 0 { code := 0x052, body := packNat [(0, 4, domMask failed), (4, 1, if ctx then 1 else 0), (8, 8, held)] }

/-- The exit from Deep Sleep after the Depot's CRC-32 has held (Table PW-11 steps 6 to 8). -/
def State.resumeDeepSleep (s : State) (droop rows ecc : Nat) (ctx : Bool) : State :=
  let ret := fld s.power.retmask 0 4
  let s := (setPrev s.restoreCore 3).postWake
  let s := ((List.range 4).filter fun i => ret / 2 ^ i % 2 == 0).foldl State.wipeQuarter s
  let s := s.verifyRetained ret droop rows ecc ctx
  let s := s.rederiveKeys
  let s := (s.queues.map (·.1)).foldl State.restartFlags s
  let s := (List.range 16).foldl State.holdHost s
  let s := if s.power.vrFailed then
      (setPower s fun p => { p with vrFailed := false }).raise 0x802 none s.power.vddMv s.power.vddMv 0
    else s
  let s := { s.startHost with host := { s.startHost.host with pcieWakeN := false } }
  s.exitDone

/-- The device resumes from Deep Sleep, or is reset where the Depot fails its check (R370). -/
def State.exitDeepSleep (s : State) (depotOk : Bool) (droop rows ecc : Nat) (ctx : Bool) : State :=
  if exitFrom s .deepSleep && s.power.vrPg && s.rst.trimValid then
    if depotOk then s.resumeDeepSleep droop rows ecc ctx
    else
      (setPower s fun p => { p with cur := .run, running := none, exiting := false, pend := none }).startReset
        .system Cause.depot
  else s

def execDeepSleepExit (depotOk : Bool) (droop rows ecc : BitVec 4) (ctxDroop : Bool) (s : State) :
    Host.Outcome State Fault Refusal := .next (s.exitDeepSleep depotOk droop.toNat rows.toNat ecc.toNat ctxDroop)

/-- The exit from Off: the start-up after a POR, with the registers of R384 kept. -/
def State.exitOff (s : State) : State :=
  if exitFrom s .off && s.power.vrPg then
    let s := setPrev s 4
    { s.offKept with
      portCfg := [], links := s.wakeVotes
      power := { lastId := s.power.lastId, lastStatus := s.power.lastStatus, wakesrc := s.power.wakesrc
                 pwrfailN := s.power.pwrfailN }
      rst := { cause := s.rst.cause, bootcnt := s.rst.bootcnt, refclk := s.rst.refclk, rstN := s.rst.rstN
               trimRun := s.rst.rstN, active := some (.por, fld s.rst.cause 24 5), rstStateN := s.rst.rstStateN
               heldFlags := s.rst.heldFlags, released := s.rst.released }
      fw := { s.offKept.fw with svcCfg := BitVec.ofNat 32 s.nv.svcAddr } }
  else s

def execOffExit (s : State) : Host.Outcome State Fault Refusal := .next s.exitOff

/-! ## Idle (R357) -/

/-- The datapath has had no request for 16 core cycles: none waits in the Kiosk or in a quarter. -/
def State.datapathQuiet (s : State) : Bool :=
  s.kiosk.writes.isEmpty && s.plaza.quarters.toList.all fun x => x.act.isNone && x.zeroing.isEmpty

def execIdleClockGate (s : State) : Host.Outcome State Fault Refusal :=
  .next (if s.power.cur == .idle && s.datapathQuiet then setPower s fun p => { p with gated := true } else s)
def execPlayoutUngate (s : State) : Host.Outcome State Fault Refusal := .next s.ungate

/-! ## The VDD regulator (R377 to R380, R495) -/

/-- `VR_PG` rises while an exit waits for VDD: trim load follows at the power-up of CORE (R392). -/
def State.vrRise (s : State) : State :=
  if s.power.exiting && s.power.vrOn && !s.power.vrPg then
    let s := setPower s fun p => { p with vrPg := true }
    { s with rst := { s.rst with trimValid := false, trimRun := s.rst.rstN } }
  else s

def execVrPgRise (s : State) : Host.Outcome State Fault Refusal := .next s.vrRise

/-- `VR_PG` is not high within 2 ms: VDD is switched off again. After a second failure the next wake event is awaited. -/
def State.vrTimeout (s : State) : State :=
  if exitFrom s .deepSleep && s.power.vrOn && !s.power.vrPg then
    let s := setPower (setWake (s.operation false) 13) fun p => { p with vrFailed := true, vrTries := p.vrTries + 1 }
    if 2 ≤ s.power.vrTries then setPower s fun p => { p with running := none, exiting := false } else s
  else s

def execVrPgTimeout (s : State) : Host.Outcome State Fault Refusal := .next s.vrTimeout

/-- The one retry, 10 ms later. -/
def execVrRetry (s : State) : Host.Outcome State Fault Refusal :=
  .next (if exitFrom s .deepSleep && !s.power.vrOn && s.power.vrTries == 1 then s.operation true else s)

/-- Whether the sequencer may move VDD to a point. -/
def State.avsMay (s : State) (mv : Nat) : Bool :=
  s.coreRuns && s.rst.control && !s.power.entering && bit s.power.pmbCfg 10 && s.power.avsPrev.isNone &&
    decide (700 ≤ mv) && decide (mv ≤ 850) && mv % 5 == 0 && mv != s.power.vddMv

/-- `VOUT_COMMAND` of a new operating point. -/
def State.avsStep (s : State) (mv : Nat) (raiseNeeded : Bool) : State :=
  if s.avsMay mv then
    (setPower s fun p => { p with vddMv := mv, avsPrev := some (p.vddMv, raiseNeeded && decide (p.vddMv < mv)), pmbRetry := 0 }).emit
      (.pmbus 0x21 mv)
  else s

def execAvsStep (mv : Fin 1024) (raiseNeeded : Bool) (s : State) : Host.Outcome State Fault Refusal :=
  .next (s.avsStep mv.val raiseNeeded)
def execAvsAck (s : State) : Host.Outcome State Fault Refusal :=
  .next (setPower s fun p => { p with avsPrev := none })

/-- No acknowledgement within 2 ms: the previous point is written and kept. -/
def State.avsFail (s : State) : State :=
  match s.power.avsPrev with
  | none => s
  | some (old, needed) =>
    let asked := s.power.vddMv
    let s := (setPower s fun p => { p with vddMv := old, avsPrev := none }).emit (.pmbus 0x21 old)
    let s := s.raise 0x802 none asked old 0
    if needed then s.raise 0x804 none asked old 0 else s

def execAvsAckTimeout (s : State) : Host.Outcome State Fault Refusal := .next s.avsFail

/-- A transfer stretched beyond 25 ms is a NACK: it is retried up to 3 times. -/
def State.stretchTimeout (s : State) : State :=
  if s.power.avsPrev.isSome && decide (s.power.pmbRetry < 3) then
    (setPower s fun p => { p with pmbRetry := p.pmbRetry + 1 }).emit (.pmbus 0x21 s.power.vddMv)
  else s

def execPmbusStretchTimeout (s : State) : Host.Outcome State Fault Refusal := .next s.stretchTimeout

/-- `PMB_ALERT_N` is handled: `STATUS_WORD` is read and reported, and the faults are cleared. -/
def State.handleAlert (s : State) (status : Nat) : State :=
  if s.coreRuns then
    let s := (setPower s fun p => { p with alertHoldoff := true }).emit (.pmbus 0x79 status)
    (s.raise 0x803 none status 0 0).emit (.pmbus 3 0)
  else s

def execPmbAlertN (statusWord : BitVec 16) (s : State) : Host.Outcome State Fault Refusal :=
  .next (if s.power.alertHoldoff then s else s.handleAlert statusWord.toNat)
def execVrAlertHoldoffEnd (alertLow : Bool) (statusWord : BitVec 16) (s : State) : Host.Outcome State Fault Refusal :=
  .next (let s := setPower s fun p => { p with alertHoldoff := false }
    if alertLow then s.handleAlert statusWord.toNat else s)

end Sys2Proof.Machine
end

