-- ==== Sys2Proof/Machine/Training.lean ====
section
/-!
DEFINITION. Training of links and ring sides (spec/09 R221 to R231): training blocks, the phases, the failure causes and
the end of each attempt, and the meanings of the training commands.
-/
namespace Sys2Proof.Machine

/-! ## Training blocks (Table BP-5) -/

namespace Tb
def lane (b : BitVec 64) : Nat := fld b 8 4
def phase (b : BitVec 64) : Nat := fld b 12 3
def done (b : BitVec 64) : Bool := bit b 15
def coefReq (b : BitVec 64) : Nat := fld b 16 8
def coefStat (b : BitVec 64) : Nat := fld b 24 8
def verMap (b : BitVec 64) : Nat := fld b 32 2
def fec (b : BitVec 64) : Nat := fld b 34 2
def modu (b : BitVec 64) : Nat := fld b 36 1
def width (b : BitVec 64) : Nat := fld b 37 2
end Tb

/-- A training block that a receiver does not ignore: its type and `CHK` (R221). -/
def blockValid (b : BitVec 64) : Bool := fld b 0 8 == 0xE1 && fld b 56 8 == crc8 b.toNat 0 56

/-- What an inverted lane makes of a block: in PAM4, level k arrives as 3 − k, which flips the first bit of each pair
(R214, Table BP-8). -/
def invertBlock (nrz : Bool) (b : BitVec 64) : BitVec 64 :=
  b ^^^ (if nrz then BitVec.allOnes 64 else 0x5555555555555555#64)

/-- The physical lane of a link's lane in its port (Table BP-1). -/
def State.physLane (s : State) (n lane : Nat) : Nat := n % 4 * s.lanes n + lane

/-- Whether `RX_INV` inverts a lane. -/
def State.rxInv (s : State) (p : Phy) (lane : Nat) : Bool :=
  match p with
  | .link n => bit (SMap.get 0 s.portPol (portOf n.val)) (16 + s.physLane n.val lane)
  | .side _ => false

/-- Records the polarity in use on a lane (Table BP-9). -/
def State.notePol (s : State) (p : Phy) (lane : Nat) (inv : Bool) : State :=
  match p with
  | .link n =>
    let port := portOf n.val
    let old := SMap.get 0 s.portPolstat port
    let m : BitVec 32 := BitVec.ofNat 32 (2 ^ s.physLane n.val lane)
    { s with portPolstat := SMap.set 0 s.portPolstat port (if inv then old ||| m else old &&& ~~~m) }
  | .side _ => s

/-- The block a lane delivers after polarity, and whether the lane is inverted; none where it is ignored. -/
def State.polarised (s : State) (p : Phy) (lane : Nat) (b : BitVec 64) : Option (BitVec 64 × Bool) :=
  let c := (s.phy p).cfg
  if c.autoPol then
    if blockValid b then some (b, false)
    else if blockValid (invertBlock c.nrz b) then some (invertBlock c.nrz b, true)
    else none
  else
    let b := if s.rxInv p lane then invertBlock c.nrz b else b
    if blockValid b then some (b, s.rxInv p lane) else none

/-- One tap's request: the tap and the reply after it (R222); each request is applied once. -/
def tapStep (tap lo hi : Int) (stat req : Nat) : Int × Nat :=
  if req = 0 then (tap, 0)
  else if stat ≠ 0 then (tap, stat)
  else if req = 1 then (if tap < hi then (tap + 1, 1) else (tap, 3))
  else if req = 2 then (if lo < tap then (tap - 1, 1) else (tap, 2))
  else (tap, stat)

/-- The coefficient requests of a block applied to this end's transmitter (R222); taps in steps of 0.025. -/
def LaneTrain.coef (l : LaneTrain) (req : Nat) : LaneTrain :=
  let st (i : Nat) : Nat := l.coefStat / 4 ^ i % 4
  let rq (i : Nat) : Nat := req / 4 ^ i % 4
  let preset := req / 64 % 2 == 1
  let stPre := l.coefStat / 64 % 2
  let (a, sa) := tapStep l.tapPre (-10) 0 (st 0) (rq 0)
  let (b, sb) := tapStep l.tapMain (-20) 0 (st 1) (rq 1)
  let (c, sc) := tapStep l.tapPost (-10) 0 (st 2) (rq 2)
  let apply := preset && stPre == 0
  { l with
    tapPre := if apply then 0 else a, tapMain := if apply then 0 else b, tapPost := if apply then 0 else c
    coefStat := packNat [(0, 2, sa), (2, 2, sb), (4, 2, sc), (6, 1, if preset then 1 else 0)] }

/-- The requester's side: each request is held until the matching reply is non-zero, then hold is sent (R222). -/
def LaneTrain.replied (l : LaneTrain) (stat : Nat) : LaneTrain :=
  let kept (i w : Nat) : Nat × Nat × Nat := (i, w, if stat / 2 ^ i % 2 ^ w = 0 then l.coefReq / 2 ^ i else 0)
  { l with coefReq := packNat [kept 0 2, kept 2 2, kept 4 2, kept 6 1], partnerStat := stat }

/-- A lane after a valid block. -/
def LaneTrain.take (l : LaneTrain) (b : BitVec 64) : LaneTrain :=
  { (l.coef (Tb.coefReq b)).replied (Tb.coefStat b) with
    good := min 8 (l.good + 1), lane := some (Tb.lane b), phase := Tb.phase b, done := Tb.done b, verMap := Tb.verMap b
    fec := Tb.fec b, modu := Tb.modu b, width := Tb.width b }

def PhyState.lanesOf (x : PhyState) (n : Nat) : List LaneTrain := SMap.getList {} x.lanes 0 n

/-- Whether the lane numbers received are 0 to N − 1, each once. -/
def lanesOk (ls : List LaneTrain) (n : Nat) : Bool :=
  (List.range n).all fun k => (ls.filter fun l => l.lane == some k).length == 1

/-- This end's step-2 decision: every lane has 8 consecutive valid blocks (Table BP-6). -/
def State.judgeLock (s : State) (p : Phy) : State :=
  let n := s.phyLanes p
  let ls := (s.phy p).lanesOf n
  if ls.all fun l => l.good == 8 then
    if lanesOk ls n then s.updPhy p fun x => { x with done := true } else s.failAttempt p 2
  else s

/-- Versions this end offers (R225, R262). -/
def TrainCfg.offers (c : TrainCfg) : Nat := if c.verMax then 3 else 1

/-- The checks of CAPS, in the order of Table BP-7, once every lane has shown a CAPS block. -/
def State.judgeCaps (s : State) (p : Phy) : State :=
  let n := s.phyLanes p
  let x := s.phy p
  let ls := x.lanesOf n
  if !x.done && ls.all fun l => decide (2 ≤ l.phase) then
    let common := ls.foldl (fun m l => m &&& l.verMap) x.cfg.offers
    if ls.any fun l => l.width != widthCode n then s.failAttempt p 3
    else if ls.any fun l => l.fec != x.cfg.fec || l.modu != (if x.cfg.nrz then 1 else 0) then s.failAttempt p 4
    else if common = 0 then s.failAttempt p 5
    else s.updPhy p fun x => { x with done := true, ver := if 2 ≤ common then 1 else 0 }
  else s

/-- A received training block (R221, R222, R224). After this end's last READY frame it hears only a partner that is back in
LOCK, which takes it to step 1 too. -/
def State.trainBlock (s : State) (p : Phy) (lane : Nat) (b : BitVec 64) : State :=
  let x := s.phy p
  if !x.training || decide (s.phyLanes p ≤ lane) then s
  else match s.polarised p lane b with
    | none =>
      let l := SMap.get {} x.lanes lane
      if x.dataMode then s else s.setPhy p { x with lanes := SMap.set {} x.lanes lane { l with good := 0 } }
    | some (b, inv) =>
      let l := SMap.get {} x.lanes lane
      if x.dataMode && Tb.phase b != 0 then s
      else
      let s := (s.setPhy p { x with lanes := SMap.set {} x.lanes lane (l.take b) }).notePol p lane inv
      if Tb.phase b = 0 && x.st != .lock then s.beginAttempt p .lock
      else match x.st with
        | .lock => s.judgeLock p
        | .caps => s.judgeCaps p
        | _ => s

def phaseOfState : LState → Nat
  | .eq => 1
  | .caps => 2
  | .ready => 3
  | _ => 0

/-- Both ends DONE: this end's, and the partner's in the same phase or a later one on every lane (R222). -/
def State.mayAdvance (s : State) (p : Phy) : Bool :=
  let x := s.phy p
  x.done && (x.lanesOf (s.phyLanes p)).all fun l => l.done && decide (phaseOfState x.st ≤ l.phase)

def State.advance (s : State) (p : Phy) : State :=
  let next (st : LState) : State := s.updPhy p fun x => { x with st := st, done := false, eqGood := 0 }
  if s.mayAdvance p && !(s.phy p).cfgWait then
    match (s.phy p).st with
    | .lock => next .eq
    | .eq => next .caps
    | .caps => s.updPhy p fun x => { x with st := .ready, done := false, eqGood := 0, count := 64, frame := 0 }
    | _ => s
  else s

/-- The frame's training block this end sends on a physical lane (Table BP-5); in READY `COUNT` goes from 63 down to 0. -/
def State.sentBlock (s : State) (p : Phy) (lane : Nat) : Nat :=
  let x := s.phy p
  let l := SMap.get {} x.lanes lane
  let n := s.phyLanes p
  let v := packNat [(0, 8, 0xE1), (8, 4, if x.cfg.txRev then n - 1 - lane else lane), (12, 3, phaseOfState x.st),
    (15, 1, if x.done then 1 else 0), (16, 8, l.coefReq), (24, 8, l.coefStat), (32, 2, x.cfg.offers), (34, 2, x.cfg.fec),
    (36, 1, if x.cfg.nrz then 1 else 0), (37, 2, widthCode n), (40, 8, if x.st = .ready then x.count - 1 else 0)]
  v + crc8 v 0 56 * 2 ^ 56

/-- Whether `TX_INV` inverts a lane's transmitter (Table BP-8). -/
def State.txInv (s : State) (p : Phy) (lane : Nat) : Bool :=
  match p with
  | .link n => bit (SMap.get 0 s.portPol (portOf n.val)) (s.physLane n.val lane)
  | .side _ => false

/-- What a lane's transmitter sends of it. -/
def State.laneBlock (s : State) (p : Phy) (lane : Nat) : BitVec 64 :=
  let b := BitVec.ofNat 64 (s.sentBlock p lane)
  if s.txInv p lane then invertBlock (s.phy p).cfg.nrz b else b

/-- Time-base cycles of a training frame of 16 blocks: 19.9 ns in PAM4 and 41.0 ns in NRZ. -/
def TrainCfg.frameTicks (c : TrainCfg) : Nat := if c.nrz then 10 else 5

/-- Whether a side sends training frames: within an attempt until the last READY frame (R222, R230). -/
def State.sendsFrames (s : State) (p : Phy) : Bool :=
  let x := s.phy p
  s.phyPowered p && x.training && !x.txIdle && !x.dataMode && (x.st != .ready || decide (0 < x.count))

/-- One time-base cycle of a side's training frames: at each frame's end every lane has sent its block, and READY counts. -/
def State.frameTick (s : State) (p : Phy) : State :=
  let x := s.phy p
  if !s.sendsFrames p then s
  else if x.frame + 1 < x.cfg.frameTicks then s.setPhy p { x with frame := x.frame + 1 }
  else
    let s := (List.range (s.phyLanes p)).foldl (fun s k => s.emit (.training p k (s.laneBlock p k))) s
    s.setPhy p { x with frame := 0, count := if x.st = .ready then x.count - 1 else x.count }

def allPhys : List Phy :=
  [.link 0, .link 1, .link 2, .link 3, .link 4, .link 5, .link 6, .link 7, .side .east, .side .west]

def State.frameTicks (s : State) : State := allPhys.foldl State.frameTick s

/-! ## Meanings -/

/-- Signal on every lane with `EN` 1: t0 of an attempt (R223). -/
def execTrainingStart (p : Phy) (s : State) : Host.Outcome State Fault Refusal :=
  .next (if s.phyPowered p && s.phyEn p && (s.phy p).st == .sigdet then s.beginAttempt p .lock else s)

def execTrainingBlock (p : Phy) (lane : Fin 16) (block : BitVec 64) (s : State) : Host.Outcome State Fault Refusal :=
  .next (s.trainBlock p lane.val block)

def execTrainingPhaseAdvance (p : Phy) (s : State) : Host.Outcome State Fault Refusal := .next (s.advance p)

def execLinkUp (p : Phy) (s : State) : Host.Outcome State Fault Refusal :=
  .next (if (s.phy p).st == .ready && (s.phy p).dataMode then s.phyUp p else s)

def execTrainingTimeout (p : Phy) (s : State) : Host.Outcome State Fault Refusal :=
  .next (if (s.phy p).training then s.failAttempt p 1 else s)

def execMarkerLockTimeout (p : Phy) (s : State) : Host.Outcome State Fault Refusal :=
  .next (if (s.phy p).st == .ready && (s.phy p).dataMode then s.failAttempt p 7 else s)

/-- 25 ms after a CFG failure the next attempt reads the configuration again (R213). -/
def execTrainingRetry (n : Fin 8) (s : State) : Host.Outcome State Fault Refusal :=
  .next (if (s.phy (.link n)).cfgWait && s.phyEn (.link n) then s.beginAttempt (.link n) .sigdet else s)

def execTrainingSignalLoss (p : Phy) (s : State) : Host.Outcome State Fault Refusal :=
  .next (if (s.phy p).training then s.beginAttempt p .sigdet else s)

/-- Whether a down condition applies to a side's mode (R227, R262). -/
def State.downApplies (s : State) (p : Phy) (cause : DownCause) : Bool :=
  let c := (s.phy p).cfg
  match cause with
  | .signal => true
  | .marker => true
  | .codewords => c.fec != 0
  | .syncHeaders => c.fec == 0
  | .trainingBlocks => c.fec == 0
  | .barwardUnit => match p with
    | .side _ => true
    | .link _ => false

/-- A down condition on an UP side; four uncorrectable codewords count, and a Barward unit sets `FAIL` = VERSION. -/
def State.downBy (s : State) (p : Phy) (cause : DownCause) : State :=
  if (s.phy p).st = .up && s.downApplies p cause then
    let s := match cause with
      | .codewords => s.updPhy p fun x => { x with fecu := satAdd 0xFFFFFFFF x.fecu 4 }
      | _ => s
    let s := s.phyDown p
    match cause with
    | .barwardUnit => s.updPhy p fun x => { x with fail := 5 }
    | _ => s
  else s

def execLinkDown (p : Phy) (cause : DownCause) (s : State) : Host.Outcome State Fault Refusal :=
  .next (s.downBy p cause)

/-- The frame with `COUNT` = 0 has been sent: data mode begins (R222). -/
def execDataModeStart (p : Phy) (s : State) : Host.Outcome State Fault Refusal :=
  .next (if (s.phy p).st == .ready then s.updPhy p fun x => { x with dataMode := true, count := 0 } else s)

/-- The coefficient request that a number chooses: hold, increment or decrement for each tap, and the preset (Table BP-5). -/
def coefRequest (v : Nat) : Nat := packNat [(0, 2, v % 3), (2, 2, v / 3 % 3), (4, 2, v / 9 % 3), (6, 1, v / 27 % 2)]

/-- A lane's receiver steers the partner's transmitter by a new request, where none is under way (R222, R223). The choice is the
receiver's own: a free value. -/
def State.steer (s : State) (p : Phy) (lane : Nat) : State :=
  let x := s.phy p
  let l := SMap.get {} x.lanes lane
  if l.coefReq = 0 && l.partnerStat = 0 then
    (s.setPhy p { x with lanes := SMap.set {} x.lanes lane { l with coefReq := coefRequest s.freeVal } }).drawn
  else s

/-- A 1 ms window of EQ: with FEC one window that meets the criterion ends EQ, without it four in a row (R223); after a window that
does not, the receivers steer the partner's transmitters. -/
def State.eqWindow (s : State) (p : Phy) (met : Bool) : State :=
  let x := s.phy p
  if x.st = .eq then
    let good := if met then min 4 (x.eqGood + 1) else 0
    let s := s.setPhy p { x with eqGood := good, done := x.done || decide ((if x.cfg.fec = 0 then 4 else 1) ≤ good) }
    if met then s else (List.range (s.phyLanes p)).foldl (fun s k => s.steer p k) s
  else s

def execEqWindowEnd (p : Phy) (met : Bool) (s : State) : Host.Outcome State Fault Refusal := .next (s.eqWindow p met)

def execBlockResetComplete (p : Phy) (s : State) : Host.Outcome State Fault Refusal := .next (s.phyResetDone p)

/-! ## Port and link configuration (R212, R229, R474) -/

/-- Queues that lose an end because a new split removes its link (R212). -/
def State.markRemoved (s : State) (port : Nat) : State :=
  (s.queues.filter fun e => e.2.st != .unbound &&
    (e.2.endLinks.any fun l => portOf l == port && !s.linkPresent l)).foldl
    (fun s e => s.updQ e.1 fun q => { q with removed := true }) s

/-- A write of `PORTx_CFG`. -/
def State.writePortCfg (s : State) (port : Nat) (v : Word32) : State :=
  let busy := (List.range 4).any fun k => (s.link (4 * port + k)).en
  if fld v 0 2 = 3 || busy then s.raise 0x201 none (4 * port) 1 v.toNat
  else ({ s with portCfg := SMap.set 0 s.portCfg port (v &&& 3#32) }).markRemoved port

/-- A write of `LINKn_CFG`: the RW fields, then `RST` (R474). -/
def State.writeLinkCfg (s : State) (n : Fin 8) (v : Word32) : State :=
  let s := (s.updLink n.val fun l => { l with cfg := v &&& 0xFF#32 }).phyWriteEn (.link n)
  if bit v 8 then s.phyReset (.link n) else s

def execLinkEnable (n : Fin 8) (v : Word32) (s : State) : Host.Outcome State Fault Refusal :=
  .next (s.coreWrite (0x1100 + 0x40 * n.val) v (s.writeLinkCfg n v))
def execLinkDisable (n : Fin 8) (v : Word32) (s : State) : Host.Outcome State Fault Refusal :=
  .next (s.coreWrite (0x1100 + 0x40 * n.val) v (s.writeLinkCfg n v))
def execLinkRst (n : Fin 8) (v : Word32) (s : State) : Host.Outcome State Fault Refusal :=
  .next (s.coreWrite (0x1100 + 0x40 * n.val) v (s.writeLinkCfg n v))

def execPortSplitWrite (p : Port) (v : Word32) (s : State) : Host.Outcome State Fault Refusal :=
  let port := match p with
    | .a => 0
    | .b => 1
  .next (s.coreWrite (0x1000 + 0x10 * port) v (s.writePortCfg port v))

end Sys2Proof.Machine
end

