-- ==== Sys2Proof/Machine/Registers.lean ====
section
/-!
DEFINITION. The control BAR (spec/19): every register of Tables RG-1 to RG-4 and the MSI-X table, who sees it, what a read
returns and what a write does; and the register commands that have rows of their own.
-/
namespace Sys2Proof.Machine

/-! ## Access (R299, R470, R471, R478, R441, Table SE-8) -/

/-- The function whose view an accessor has. -/
def viewOf : Accessor → Nat
  | .fn g => g.val
  | _ => 0

/-- Registers that a VF sees: its own host registers and those marked "Yes". -/
def vfSees (off : Nat) : Bool :=
  off == 0 || (decide (0x10 ≤ off) && decide (off < 0x20)) || (decide (0x100 ≤ off) && decide (off ≤ 0x130)) ||
    (decide (0x208 ≤ off) && decide (off ≤ 0x218)) || off == 0x2200 || off == 0x2204 || decide (0x8000 ≤ off)

/-- Registers of the AON block. -/
def aonReg (off : Nat) : Bool :=
  off == 0 || (decide (0x10 ≤ off) && decide (off < 0x20)) || (decide (0x2000 ≤ off) && decide (off < 0x2300)) ||
    (decide (0x2340 ≤ off) && decide (off < 0x2380)) || off == 0x2398

/-- Registers of the HOST block. -/
def hostReg (off : Nat) : Bool := (decide (0x100 ≤ off) && decide (off ≤ 0x130)) || decide (0x8000 ≤ off)

/-- Life-cycle states in which the Warden monitor reads registers and resets, and those in which it writes. -/
def lcReads (lc : Nat) : Bool := decide (lc < 4)
def lcWrites (lc : Nat) : Bool := lc == 0 || lc == 3

/-- Identity registers and `LCSTATE`, which stay readable in `SCRAPPED`. -/
def identityReg (off : Nat) : Bool := off == 0 || (decide (0x10 ≤ off) && decide (off < 0x20)) || off == 0x2200

/-- Registers that the service port reads in a life-cycle state. -/
def lcMayRead (lc off : Nat) : Bool := lcReads lc || identityReg off

/-- Registers that `REG_WRITE` reaches: `PWRCTL`, `RSTCTL`, `WSENSE_CFG` and `SVC_CFG`; in Recovery mode `RSTCTL` alone. -/
def svcMayWrite (recovery : Bool) (off : Nat) : Bool :=
  off == 0x210C || (!recovery && (off == 0x2000 || off == 0x2044 || off == 0x2218))

/-- Whether an accessor's write reaches a register at all. -/
def State.mayWrite (s : State) (acc : Accessor) (off : Nat) : Bool :=
  match acc with
  | .fn g => s.fnReached g.val && (g.val == 0 || vfSees off)
  | .svc => svcMayWrite s.rst.recovery off
  | .warden => lcWrites s.nv.lc

/-! ## Values -/

/-- Word `k` of a 64-bit register. -/
def word64 (v : Nat) (k : Nat) : Nat := v / 2 ^ (32 * k) % 2 ^ 32

/-- `IDENT`: part 0x8192, stepping B0. -/
def ident : Nat := 0x81920B00

/-- An Error FIFO entry (Table ER-2). -/
def ErrEntry.bits (e : ErrEntry) : Nat :=
  packNat [(0, 12, e.code), (12, 1, if e.fatal then 1 else 0), (13, 1, if e.ovf then 1 else 0), (32, 32, e.seq), (64, 64, e.time),
    (128, 32, e.a.toNat), (160, 32, e.b.toNat), (192, 32, e.c.toNat), (224, 32, e.lost)]

/-- `ERRLOG_HEAD` and the words of the oldest entry. -/
def Errors.head (e : Errors) : Nat :=
  packNat [(0, 7, e.fifo.length), (7, 1, if (e.fifo.getLast?.map (·.ovf)).getD false then 1 else 0)]
def Errors.oldest (e : Errors) : Nat := (e.fifo.head?.map ErrEntry.bits).getD 0

/-- `DUMP_STAT`. -/
def Errors.dumpStat (e : Errors) : Nat :=
  packNat [(0, 2, e.dumpDest), (2, 1, if e.dumpDone then 1 else 0), (3, 1, if e.dumpTimeout then 1 else 0), (8, 8, e.dumpLater),
    (16, 16, e.dumpSeq)]

/-- `FWSTAT` (Table FW-9). -/
def State.fwstat (s : State) : Nat :=
  let f := s.fw
  let b (x : Bool) : Nat := if x then 1 else 0
  packNat [(0, 1, b f.healthOk), (1, 1, b f.trial), (2, 1, f.slot), (3, 1, b f.fallback), (4, 1, b f.migrated),
    (5, 1, b f.cfgDefault), (8, 6, s.nv.svnFloor), (16, 16, f.cfgFmtApplied)]

/-- A function's HOST registers. -/
def State.hostRegValue (s : State) (g off : Nat) : Nat :=
  let f := s.func g
  if 0x8000 ≤ off then
    if off < 0x8400 then
      let i := (off - 0x8000) / 4
      if i % 4 = 3 then (if bit f.msixMask (i / 4) then 1 else 0) else (SMap.get 0 f.msix i).toNat
    else if off = 0x9000 then word64 f.msixPend.toNat 0
    else if off = 0x9004 then word64 f.msixPend.toNat 1
    else 0
  else if off = 0x100 ∨ off = 0x104 then word64 f.cmdBase ((off - 0x100) / 4)
  else if off = 0x108 ∨ off = 0x10C then word64 f.cplBase ((off - 0x108) / 4)
  else if off = 0x110 ∨ off = 0x114 then word64 f.evtBase ((off - 0x110) / 4)
  else if off = 0x118 then f.hcfg.toNat
  else if off = 0x11C then f.hctrl.toNat
  else if off = 0x120 then f.hstat
  else if off = 0x130 then f.vote
  else 0

/-- Time-base and flag-ball registers; the latched words are the accessor's. -/
def State.timeRegValue (s : State) (acc off : Nat) : Nat :=
  let l := SMap.get (0, 0) s.time.latches acc
  if off = 0x200 then s.time.ctrl.toNat
  else if off = 0x204 then s.time.comp.toNat
  else if off = 0x208 then s.time.stat
  else if off = 0x210 then s.tbNs % 2 ^ 32
  else if off = 0x214 then l.1
  else if off = 0x218 then l.2
  else if 0x300 ≤ off ∧ off < 0x320 then (SMap.get 0 s.flagmap ((off - 0x300) / 4)).toNat
  else 0

/-- Counters of a link and of a ring side, by place. -/
def Link.counters (l : Link) : List Nat :=
  [l.phy.fecc, l.phy.fecu, l.phy.bipe, l.hcse, l.rxrej, l.crce, l.seale, l.cwe, l.naks]
def RingSide.counters (x : RingSide) : List Nat :=
  [x.phy.fecc, x.phy.fecu, x.phy.bipe, x.resendCnt, x.rxrej, x.authe, x.epoche, x.tdrop]

/-- Whether a side's domain is off. -/
def State.domainOff (s : State) (d : Nat) : Bool := !bit s.power.domains d

/-- Registers of Table RG-2. -/
def State.linkRegValue (s : State) (off : Nat) : Nat :=
  if off < 0x1020 then
    let p := (off - 0x1000) / 0x10
    match off % 0x10 with
    | 0x0 => (SMap.get 0 s.portCfg p).toNat
    | 0x4 => (SMap.get 0 s.portPol p).toNat
    | 0x8 => (SMap.get 0 s.portPolstat p).toNat
    | _ => 0
  else if 0x1100 ≤ off ∧ off < 0x1300 then
    let n := (off - 0x1100) / 0x40
    let k := off % 0x40
    if k = 0 then (s.link n).cfg.toNat
    else if k = 4 then (s.link n).phy.stat (s.domainOff (linkDomain n))
    else (s.link n).counters.getD (k / 4 - 2) 0
  else if off = 0x1400 then s.ring.cfg.toNat
  else if off = 0x1404 then s.ringMapReg
  else if 0x1440 ≤ off ∧ off < 0x14C0 then
    let x := if off < 0x1480 then s.ring.east else s.ring.west
    let k := off % 0x40
    if k = 0 then ({ x.phy with ver := 0 } : PhyState).stat (s.domainOff Dom.ring) else x.counters.getD (k / 4 - 1) 0
  else 0

/-- Registers of Table RG-3. -/
def State.memRegValue (s : State) (off : Nat) : Nat :=
  if off = 0x1800 then s.plaza.ctrl.toNat
  else if off = 0x1804 then s.maintStat
  else if off = 0x1808 then s.maintRes
  else if 0x1810 ≤ off ∧ off < 0x1820 then (s.plaza.quarter ((off - 0x1810) / 4)).ce
  else if 0x1820 ≤ off ∧ off < 0x1830 then (s.plaza.quarter ((off - 0x1820) / 4)).ue
  else if off = 0x1830 then s.plaza.bankstat.toNat
  else if off = 0x1840 then s.kiosk.cfg.toNat
  else if off = 0x1844 then packNat [(0, 1, if s.kiosk.degr then 1 else 0), (16, 16, s.kiosk.ce)]
  else if off = 0x1848 then s.kiosk.busyc
  else if 0x1860 ≤ off ∧ off < 0x1880 then (SMap.get 0 s.kiosk.win ((off - 0x1860) / 4)).toNat
  else if off = 0x1880 then s.kiosk.winRing.toNat
  else if off = 0x2300 then s.errs.head
  else if 0x2320 ≤ off ∧ off < 0x2340 then word64 s.errs.oldest ((off - 0x2320) / 4)
  else if 0x2340 ≤ off ∧ off < 0x2380 then SMap.get 0 s.errs.counts ((off - 0x2340) / 4)
  else if off = 0x2380 then s.xwLoss
  else if off = 0x2390 ∨ off = 0x2394 then word64 s.errs.dumpBase ((off - 0x2390) / 4)
  else if off = 0x2398 then s.errs.dumpStat
  else 0

/-- Registers of Table RG-4. -/
def State.aonRegValue (s : State) (off : Nat) : Nat :=
  if off = 0x2004 then s.power.stateReg
  else if off = 0x2008 then s.pwrdom
  else if 0x2010 ≤ off ∧ off < 0x2028 then s.voteMap ((off - 0x2010) / 4)
  else if off = 0x2030 then s.power.retmask.toNat
  else if off = 0x2034 then s.power.tsense.toNat
  else if off = 0x2038 then s.power.wakesrc.toNat
  else if off = 0x2040 then s.power.pmbCfg.toNat
  else if off = 0x2044 then s.power.wsenseCfg.toNat
  else if off = 0x2100 then s.rst.cause.toNat
  else if off = 0x2104 then s.rststat
  else if off = 0x2108 then s.rst.bootcnt
  else if off = 0x2110 then s.iorel
  else if off = 0x2200 then s.lcstate
  else if off = 0x2204 then s.keystat
  else if off = 0x2210 then s.fwstat
  else if off = 0x2214 then s.fw.fwver
  else if off = 0x2218 then s.fw.svcCfg.toNat
  else 0

/-- The value at an offset of function `g`'s control BAR, for the accessor whose latch is `acc`; an offset that no table lists
reads 0, and so does a register that a VF does not see. -/
def State.regValue (s : State) (g acc off : Nat) : Nat :=
  if off % 4 ≠ 0 || (g != 0 && !vfSees off) then 0
  else if off = 0 then ident
  else if 0x10 ≤ off ∧ off < 0x20 then s.nv.devid.toNat / 2 ^ (32 * ((off - 0x10) / 4)) % 2 ^ 32
  else if hostReg off then s.hostRegValue g off
  else if off < 0x1000 then s.timeRegValue acc off
  else if off < 0x1800 then s.linkRegValue off
  else if off < 0x2000 ∨ (0x2300 ≤ off ∧ off < 0x8000) then s.memRegValue off
  else s.aonRegValue off

/-- A read by an accessor; one of `TB_NOW_LO` loads the accessor's latch (R476). -/
def State.readReg (s : State) (acc : Accessor) (off : Nat) : Nat × State :=
  (s.regValue (viewOf acc) (accessorNum acc) off, if off = 0x210 then s.latchTb acc else s)

/-! ## Writes -/

/-- A write of an MSI-X table word; an unmasked vector that is pending is sent (R301). -/
def State.writeMsix (s : State) (g i : Nat) (v : Word32) : State :=
  let f := s.func g
  let vec := i / 4
  if i % 4 = 3 then
    let m : BitVec 64 := BitVec.ofNat 64 (2 ^ vec)
    if bit v 0 then s.setFunc g { f with msixMask := f.msixMask ||| m }
    else
      if bit f.msixPend vec && f.cfg.msixEnable && !f.cfg.functionMask then
        (s.setFunc g { f with msixMask := f.msixMask &&& ~~~m, msixPend := f.msixPend &&& ~~~m }).emit (.msix g vec)
      else s.setFunc g { f with msixMask := f.msixMask &&& ~~~m }
  else s.setFunc g { f with msix := SMap.set 0 f.msix i v }

/-- HOST registers of a function. -/
def State.writeHostReg (s : State) (g off : Nat) (v : Word32) : State :=
  if 0x8000 ≤ off then (if off < 0x8400 then s.writeMsix g ((off - 0x8000) / 4) v else s)
  else match off with
    | 0x100 => s.writeBaseLow g .cmdq v
    | 0x104 => s.writeBaseHigh g .cmdq v
    | 0x108 => s.writeBaseLow g .cplq v
    | 0x10C => s.writeBaseHigh g .cplq v
    | 0x110 => s.writeBaseLow g .evtq v
    | 0x114 => s.writeBaseHigh g .evtq v
    | 0x118 => if (s.func g).en then s else s.updFunc g fun f => { f with hcfg := v &&& 0x001F1F1F#32 }
    | 0x11C => s.writeHringCtrl g v
    | 0x120 => if bit v 2 then s.updFunc g fun f => { f with dberr := false } else s
    | 0x130 => s.writePwrvote g v
    | _ => s

/-- A write of `LINKn_CFG` at its offset. -/
def State.writeLinkReg (s : State) (off : Nat) (v : Word32) : State :=
  let n := (off - 0x1100) / 0x40
  if h : n < 8 then (if off % 0x40 = 0 then s.writeLinkCfg ⟨n, h⟩ v else s) else s

/-- A write of a `FLAGMAPn`. -/
def State.writeFlagmap (s : State) (n : Nat) (v : Word32) : State :=
  { s with flagmap := SMap.set 0 s.flagmap n (v &&& 0x3FFFF#32) }

/-- A write of `ERRLOG_HEAD`: `POP` removes the oldest entry. -/
def State.writeErrlog (s : State) (v : Word32) : State :=
  if bit v 8 then { s with errs := { s.errs with fifo := s.errs.fifo.drop 1 } } else s

/-- The bits of a `KWIN` register. -/
def kwinMask : Word32 := 0x00FF7FFF

/-- Registers of CORE. -/
def State.writeCoreReg (s : State) (off : Nat) (v : Word32) : State :=
  if 0x1100 ≤ off ∧ off < 0x1300 then s.writeLinkReg off v
  else if 0x300 ≤ off ∧ off < 0x320 then s.writeFlagmap ((off - 0x300) / 4) v
  else if 0x1860 ≤ off ∧ off < 0x1880 then
    { s with kiosk := { s.kiosk with win := SMap.set 0 s.kiosk.win ((off - 0x1860) / 4) (v &&& kwinMask) } }
  else match off with
    | 0x200 => s.writeTbCtrl v
    | 0x204 => { s with time := { s.time with comp := v } }
    | 0x1000 => s.writePortCfg 0 v
    | 0x1004 => { s with portPol := SMap.set 0 s.portPol 0 v }
    | 0x1010 => s.writePortCfg 1 v
    | 0x1014 => { s with portPol := SMap.set 0 s.portPol 1 v }
    | 0x1400 => s.writeRingCfg v
    | 0x1800 => s.writeMaintCtrl v
    | 0x1840 => { s with kiosk := { s.kiosk with cfg := v &&& 0x1F#32 } }
    | 0x1880 => { s with kiosk := { s.kiosk with winRing := v &&& kwinMask } }
    | 0x2300 => s.writeErrlog v
    | 0x2390 => s.writeBaseLow 0 .dump v
    | 0x2394 => s.writeBaseHigh 0 .dump v
    | _ => s

/-- Registers of the AON block. -/
def State.writeAonReg (s : State) (off : Nat) (v : Word32) : State :=
  match off with
  | 0x2000 => s.writePwrctl v
  | 0x2030 => setPower s fun p => { p with retmask := v &&& 0xF#32 }
  | 0x2038 => setPower s fun p => { p with wakesrc := p.wakesrc &&& ~~~(v &&& 0x001F3FFF#32) }
  | 0x2040 => setPower s fun p => { p with pmbCfg := v &&& 0x7FF#32 }
  | 0x2044 => setPower s fun p => { p with wsenseCfg := v &&& 0x1FF#32 }
  | 0x2100 => { s with rst := { s.rst with cause := s.rst.cause &&& ~~~(v &&& 0x00070FFF#32) } }
  | 0x210C => s.writeRstctl v
  | 0x2218 => { s with fw := { s.fw with svcCfg := v &&& 0x7F#32 } }
  | _ => s

/-- A write that has reached its register, in function `g`'s view. -/
def State.writeReg (s : State) (g off : Nat) (v : Word32) : State :=
  if off % 4 ≠ 0 || (g != 0 && !vfSees off) then s
  else if hostReg off then s.writeHostReg g off v
  else if aonReg off then s.writeAonReg off v
  else s.writeCoreReg off v

/-- A write by an accessor: a host write to CORE in Sleep is held (R323). -/
def State.accessWrite (s : State) (acc : Accessor) (off : Nat) (v : Word32) : State :=
  if !s.mayWrite acc off then s
  else if hostReg off || aonReg off || s.coreRuns then s.writeReg (viewOf acc) off v
  else match acc with
    | .fn _ => s.coreWrite off v s
    | _ => s

/-! ## Once CORE runs again (R323) -/

/-- A read of `TB_NOW_LO`: a function's goes back over PCIe, and waits for CORE in Sleep. -/
def State.tbNowLo (s : State) (acc : Accessor) : State :=
  match acc with
  | .fn g =>
    if !s.fnReached g.val then s
    else if s.power.cur = .sleep then { s with host := { s.host with stalled := s.host.stalled ++ [.timeRead g] } }
    else if s.coreRuns then (s.latchTb acc).emit (.readData (s.tbNs % 2 ^ 32))
    else s
  | _ => if s.coreRuns then s.latchTb acc else s

/-- An access that waited in the host bridge is served. -/
def State.replay (s : State) : HeldAccess → State
  | .kiosk op bytes off v => s.kioskBar op bytes off v
  | .timeRead g => s.tbNowLo (.fn g)

/-- Held writes take effect in order, latched doorbells are applied, and the accesses that wait are served in order. -/
def State.settleHeld (s : State) : State :=
  if s.coreRuns && !s.rst.ctlReturn then
    let ws := (s.func 0).heldWrites
    let s := ws.foldl (fun s w => s.writeReg 0 w.1.toNat w.2) (s.updFunc 0 fun f => { f with heldWrites := [] })
    let s := s.applyLatched
    s.host.stalled.foldl State.replay { s with host := { s.host with stalled := [] } }
  else s

def execSleepExit (s : State) : Host.Outcome State Fault Refusal := .next s.exitSleep.settleHeld

/-! ## Commands -/

def execHringEnable (fn : Fin 16) (v : Word32) (s : State) : Host.Outcome State Fault Refusal :=
  .next (s.accessWrite (.fn fn) 0x11C v)
def execHringDisable (fn : Fin 16) (v : Word32) (s : State) : Host.Outcome State Fault Refusal :=
  .next (s.accessWrite (.fn fn) 0x11C v)

/-- The offset of a base register's low word. -/
def baseOff : BaseReg → Nat
  | .cmdq => 0x100
  | .cplq => 0x108
  | .evtq => 0x110
  | .dump => 0x2390

def execBaseLowWordWrite (fn : Fin 16) (reg : BaseReg) (v : Word32) (s : State) : Host.Outcome State Fault Refusal :=
  .next (s.accessWrite (.fn fn) (baseOff reg) v)
def execBaseHighWordWrite (fn : Fin 16) (reg : BaseReg) (v : Word32) (s : State) : Host.Outcome State Fault Refusal :=
  .next (s.accessWrite (.fn fn) (baseOff reg + 4) v)

def execTbNowLoRead (acc : Accessor) (s : State) : Host.Outcome State Fault Refusal := .next (s.tbNowLo acc)

def execPwrReqRun (acc : Accessor) (v : Word32) (s : State) : Host.Outcome State Fault Refusal :=
  .next (s.accessWrite acc 0x2000 v)
def execPwrReqIdle (acc : Accessor) (v : Word32) (s : State) : Host.Outcome State Fault Refusal :=
  .next (s.accessWrite acc 0x2000 v)
def execPwrReqSleep (acc : Accessor) (v : Word32) (s : State) : Host.Outcome State Fault Refusal :=
  .next (s.accessWrite acc 0x2000 v)
def execPwrReqDeepSleep (acc : Accessor) (w : DeepSleepWrite) (s : State) : Host.Outcome State Fault Refusal :=
  .next ((s.sampleTj w.tj).accessWrite acc 0x2000 w.v)
def execPwrReqOff (acc : Accessor) (v : Word32) (s : State) : Host.Outcome State Fault Refusal :=
  .next (s.accessWrite acc 0x2000 v)

def execPwrvoteWrite (fn : Fin 16) (v : Word32) (s : State) : Host.Outcome State Fault Refusal :=
  .next (s.accessWrite (.fn fn) 0x130 v)

def execRstctlSys (acc : Accessor) (v : Word32) (s : State) : Host.Outcome State Fault Refusal :=
  .next (s.accessWrite acc 0x210C v)
def execRstctlCore (acc : Accessor) (v : Word32) (s : State) : Host.Outcome State Fault Refusal :=
  .next (s.accessWrite acc 0x210C v)

def execFlagmapWrite (n : Fin 8) (v : Word32) (s : State) : Host.Outcome State Fault Refusal :=
  .next (s.coreWrite (0x300 + 4 * n.val) v (s.writeFlagmap n.val v))
def execErrlogPop (v : Word32) (s : State) : Host.Outcome State Fault Refusal :=
  .next (s.coreWrite 0x2300 v (s.writeErrlog v))

/-- A control-BAR write with its byte enables: one that does not cover the aligned word has no effect (R470). -/
def execRegisterWrite (acc : Accessor) (off : BitVec 16) (be : BitVec 4) (v : Word32) (s : State) :
    Host.Outcome State Fault Refusal :=
  .next (if be = 0xF#4 then s.accessWrite acc off.toNat v else s)

end Sys2Proof.Machine
end

