-- ==== Sys2Proof/Machine/Boot.lean ====
section
/-!
DEFINITION. Starts (spec/15 R394, R400, R402 to R404, spec/17 R433 to R435, R443 to R449): the ROM code and the boot-flash
directory, the config store and its start-up commands, `IOREL`, readiness, `HEALTH_OK`, and the return of the control plane.
-/
namespace Sys2Proof.Machine

/-! ## The boot-flash directory (R435) -/

namespace Dir
def set := 0x01
def arm := 0x02
def start := 0x03
def fail := 0x04
def health := 0x05
end Dir

/-- The newest valid record is the one with the greatest `SEQ`. -/
def newestRec : List DirRec → Option DirRec
  | [] => none
  | r :: rs =>
    match newestRec rs with
    | none => some r
    | some m => some (if m.seq < r.seq then r else m)

def otherSlot (slot : Nat) : Nat := 1 - slot

def Firmware.image (f : Firmware) (slot : Nat) : Image := if slot = 0 then f.slotA else f.slotB

def Firmware.setImage (f : Firmware) (slot : Nat) (x : Image) : Firmware :=
  if slot = 0 then { f with slotA := x } else { f with slotB := x }

/-- The slot that the newest record makes active: the one it names, or the other while a trial is due, runs or has failed. -/
def Firmware.activeSlot (f : Firmware) : Nat :=
  match newestRec f.dir with
  | none => f.slot
  | some r => if r.typ = Dir.set ∨ r.typ = Dir.health then r.slot else otherSlot r.slot

/-- Records that a directory sector of 32 KiB holds. -/
def dirSector : Nat := 512

/-- The record that follows the newest one; a `FAIL` counts a failed trial. -/
def Firmware.nextRec (f : Firmware) (typ slot : Nat) : DirRec :=
  let last := newestRec f.dir
  let tfails := (last.map (·.tfails)).getD 0
  { typ := typ, slot := slot, tfails := if typ = Dir.fail then inc8 tfails else tfails
    seq := (last.map (·.seq)).getD 0 + 1, version := (f.image slot).version }

/-- Whether a record finds erased space: in the sector, or in the other one, which is erased only while `HEALTH_OK` is 1. -/
def Firmware.dirRoom (f : Firmware) : Bool := decide (f.dir.length < dirSector) || f.healthOk

/-- Where the sector is full, the other one is erased and begun with a `SET` record that restates the current state. -/
def Firmware.turnSector (f : Firmware) : Firmware :=
  if f.dir.length < dirSector then f else { f with dir := [f.nextRec Dir.set f.activeSlot] }

/-- Appends a record for a slot, where it finds room. -/
def Firmware.append (f : Firmware) (typ slot : Nat) : Firmware :=
  if f.dirRoom then
    let f := f.turnSector
    { f with dir := f.dir ++ [f.nextRec typ slot] }
  else f

/-! ## The ROM code (R403, R404, R443) -/

/-- Recovery mode: only AON and CORE run (R404). -/
def State.enterRecovery (s : State) : State :=
  { s with
    rst := { s.rst with recovery := true }
    power := { s.power with domains := 1 }
    host := { s.host with inReset := true, training := false } }

/-- Control passes to an image. -/
def State.runImage (s : State) (slot : Nat) (trial : Bool) : State :=
  { s with
    rst := { s.rst with booted := true }
    fw := { s.fw with
      slot := slot, trial := trial, fwver := (s.fw.image slot).version, healthOk := false, confirmed := false
      cfgApplied := false, fatalSince := false } }

/-- A start that falls back (R445). -/
def State.fallBack (s : State) (failed : Nat) : State :=
  ({ s with fw := { s.fw with fallback := true } }).raise 0x902 none failed (s.fw.image failed).version 0

/-- Whether the image in a slot passes R433: an erased slot holds none. -/
def State.imageOk (s : State) (aOk bOk : Bool) (slot : Nat) : Bool :=
  (if slot = 0 then aOk else bOk) && !(s.fw.image slot).erased

/-- Boots a slot without a trial; the other one where its image fails (R443). -/
def State.bootPlain (s : State) (ok : Nat → Bool) (slot : Nat) : State :=
  if ok slot then s.runImage slot false
  else if ok (otherSlot slot) then (s.runImage (otherSlot slot) false).raise 0x901 none slot 0 0
  else s.enterRecovery

/-- After a failed trial of `slot`, the other one boots, and the start falls back. -/
def State.bootBack (s : State) (ok : Nat → Bool) (slot : Nat) : State :=
  let s := { s with fw := s.fw.append Dir.fail slot }
  if ok (otherSlot slot) then (s.runImage (otherSlot slot) false).fallBack slot
  else s.bootPlain ok (otherSlot slot)

/-- A directory write has failed: the active slot boots without a trial. -/
def State.bootUnwritten (s : State) (ok : Nat → Bool) (slot : Nat) : State :=
  (s.bootPlain ok (otherSlot slot)).raise 0x901 none slot 0 0

/-- The directory's newest record decides what boots; a write that fails or finds no erased space is a failed one. -/
def State.bootDirectory (s : State) (ok : Nat → Bool) (dir : FlashResult) : State :=
  let dir := if s.fw.dirRoom then dir else .fail
  match newestRec s.fw.dir with
  | none => s.bootPlain ok 0
  | some r =>
    if r.typ = Dir.arm then
      if dir = .fail then s.bootUnwritten ok r.slot
      else
        let s := { s with fw := s.fw.append Dir.start r.slot }
        if ok r.slot then s.runImage r.slot true else s.bootBack ok r.slot
    else if r.typ = Dir.start then
      if dir = .fail then s.bootUnwritten ok r.slot
      else ({ s with rst := { s.rst with bootcnt := s.rst.bootcnt - 1 } }).bootBack ok r.slot
    else if r.typ = Dir.fail then s.bootPlain ok (otherSlot r.slot)
    else s.bootPlain ok r.slot

/-- The ROM code may start: a reset has released CORE, and the wipes are complete (Table RS-5 step 4). -/
def State.romReady (s : State) : Bool :=
  s.coreRuns && s.rst.active.isNone && !s.rst.ctlReturn && !s.rst.booted && !s.rst.recovery &&
    s.plaza.quarters.toList.all fun x => x.act.isNone

/-- Step 4 of Table RS-5: `BOOTCNT` is judged (R403, R426), and the ROM code boots. -/
def State.bootStart (s : State) (aOk bOk : Bool) (dir : FlashResult) : State :=
  if !s.romReady then s
  else if 4 ≤ s.rst.bootcnt || s.nv.lc == Lc.scrapped then s.enterRecovery
  else
    let s := { s with rst := { s.rst with bootcnt := satAdd 15 s.rst.bootcnt 1 } }
    s.bootDirectory (s.imageOk aOk bOk) dir

/-- The linear format of `VOUT_MODE` (PRESUMED, from PMBus): mode bits [7:5] are 0. -/
def voutLinear (m : Byte) : Bool := m.toNat / 32 == 0

/-- `VOUT_MODE` is read once after each POR; a format that is not the linear one ends AVS (R377). -/
def State.readVoutMode (s : State) (m : Byte) : State :=
  if !s.romReady || s.power.voutRead then s
  else
    let s := (setPower s fun p => { p with voutRead := true }).emit (.pmbus 0x20 m.toNat)
    if voutLinear m then s
    else (setPower s fun p => { p with pmbCfg := p.pmbCfg &&& 0xFFFFFBFF#32 }).raise 0x801 none m.toNat 0 0

def execBootStart (aOk bOk : Bool) (x : BootInput) (s : State) : Host.Outcome State Fault Refusal :=
  .next ((s.readVoutMode x.voutMode).bootStart aOk bOk x.dir)

/-! ## The config store (R446 to R449) -/

/-- The registers that an entry may name (Table PW-10). -/
def depotReg (off : Nat) : Bool :=
  [0x200, 0x204, 0x1000, 0x1004, 0x1010, 0x1014, 0x1400, 0x1800, 0x1840, 0x1880, 0x2030, 0x2040, 0x2044].contains off ||
    (List.range 8).any fun n => off == 0x1100 + 0x40 * n || off == 0x300 + 4 * n || off == 0x1860 + 4 * n

def Firmware.copy (f : Firmware) (i : Nat) : CfgCopy := if i = 0 then f.copy0 else f.copy1
def Firmware.setCopy (f : Firmware) (i : Nat) (c : CfgCopy) : Firmware :=
  if i = 0 then { f with copy0 := c } else { f with copy1 := c }

/-- A copy is usable: its `TAG` is valid and the running image reads its format. -/
def Firmware.usable (f : Firmware) (i : Nat) : Bool :=
  let c := f.copy i
  c.valid && decide ((f.image f.slot).cfgMin ≤ c.fmt) && decide (c.fmt ≤ (f.image f.slot).cfgFmt)

/-- The usable copy with the greatest `SEQ`. -/
def Firmware.copyInUse (f : Firmware) : Option Nat :=
  match f.usable 0, f.usable 1 with
  | true, true => some (if f.copy0.seq < f.copy1.seq then 1 else 0)
  | true, false => some 0
  | false, true => some 1
  | false, false => none

/-- Applies a copy's entries in order. -/
def State.applyEntries (s : State) (i : Nat) : List (Word32 × Word32) → State
  | [] => s
  | (off, v) :: es =>
    (if depotReg off.toNat then s.writeReg 0 off.toNat v else s.raise 0x903 none off.toNat i 0).applyEntries (i + 1) es

/-- Migrates a copy of an older format into the other copy (R449): what its entries become is the firmware's; here they stay
as they are. -/
def Firmware.migrate (f : Firmware) (i : Nat) : Firmware × Nat :=
  let c := f.copy i
  let fmt := (f.image f.slot).cfgFmt
  if c.fmt < fmt then
    ({ f.setCopy (1 - i) { c with fmt := fmt, seq := c.seq + 1 } with migrated := true }, 1 - i)
  else (f, i)

/-- The config store is applied at a start. -/
def State.applyConfig (s : State) : State :=
  let s := { s with fw := { s.fw with cfgApplied := true } }
  match s.fw.copyInUse with
  | none => ({ s with fw := { s.fw with cfgDefault := true } }).raise 0x904 none 0 0 0
  | some i =>
    let (f, i) := s.fw.migrate i
    let s := { s with fw := { f with cfgFmtApplied := (f.copy i).fmt, startIdx := some i } }
    s.applyEntries 0 (s.fw.copy i).entries

/-- Firmware runs, and no core reset has interrupted it. -/
def State.fwRuns (s : State) : Bool :=
  s.coreRuns && s.rst.active.isNone && !s.rst.ctlReturn && s.rst.booted && !s.rst.recovery

def execConfigStoreApply (s : State) : Host.Outcome State Fault Refusal :=
  .next (if s.fwRuns && !s.fw.cfgApplied then s.applyConfig else s)

/-- The start-up commands of the copy in use run once `IOREL` is written (R448). -/
def State.runStartup (s : State) : State :=
  match s.fw.startIdx with
  | none => s
  | some i => ({ s with fw := { s.fw with startIdx := none } }).startupCommands 0 (s.fw.copy i).cmds

/-- The sequencer writes `IOREL`: firmware once the config store is applied, or the ROM code after a core reset, when the
pads had been released before it (R400). -/
def State.writeIorelSeq (s : State) (v : Word32) : State :=
  if (s.fwRuns && s.fw.cfgApplied) || (s.rst.ctlReturn && s.rst.ioLocked) then
    let s := s.writeIorel v
    if s.rst.ioHeld then s else s.runStartup
  else s

def execIorelWrite (v : Word32) (s : State) : Host.Outcome State Fault Refusal := .next (s.writeIorelSeq v)

/-! ## Readiness (R402 step 7, R444) -/

/-- The start-up sweep of the key slots begins. -/
def State.startSweep (s : State) : State :=
  if s.fw.sweepDone then s else { s with plaza := { s.plaza with ksweepRun := true } }

/-- Firmware accepts commands. -/
def State.becomeReady (s : State) : State :=
  (({ s with fw := { s.fw with ready := true }, rst := { s.rst with control := true } }).postAllLost.startSweep).settleHeld.releaseFences

def execFirmwareReady (s : State) : Host.Outcome State Fault Refusal :=
  .next (if s.fwRuns && s.fw.cfgApplied && s.rst.rstStateN && !s.fw.ready then s.becomeReady else s)

/-- The conditions of `HEALTH_OK`. -/
def State.healthy (s : State) : Bool :=
  s.fwRuns && s.fw.cfgApplied && s.rst.rstStateN && s.fw.sweepDone && !s.fw.fatalSince && !s.fw.healthOk &&
    ((s.fw.image s.fw.slot).flags % 2 == 0 || s.fw.confirmed)

/-- The SVN floor rises to the image's `SVN` with `SVN_COMMIT`, and never falls. -/
def State.commitSvn (s : State) : State :=
  let x := s.fw.image s.fw.slot
  if x.flags / 2 % 2 = 1 then { s with nv := { s.nv with svnFloor := max s.nv.svnFloor x.svn } } else s

/-- Firmware sets `HEALTH_OK` (R444), and erases the dump half that does not hold the newest dump (R463). -/
def State.setHealthOk (s : State) : State :=
  let f := { s.fw with healthOk := true }
  { s.commitSvn with
    fw := if s.fw.trial then f.append Dir.health s.fw.slot else f
    rst := { s.rst with bootcnt := 0 }
    errs := { s.errs with
      half0 := s.errs.half0 || s.errs.newestHalf != 2, half1 := s.errs.half1 || s.errs.newestHalf != 3 } }

def execHealthOk (s : State) : Host.Outcome State Fault Refusal := .next (if s.healthy then s.setHealthOk else s)

/-! ## The return of the control plane (R394, R395, R203) -/

/-- The measurement state of every KERBSIDE queue restarts, those with `ADAPT` = 1 frozen. -/
def State.refreezeKerb (s : State) : State :=
  (s.queues.filter fun e => e.2.b.kerb && e.2.st != .unbound).foldl
    (fun s e => s.updQ e.1 fun q => { q with kerb := q.kerb.restart s.mcount s.cyc }) s

/-- The commands that the core reset overtook complete `ABORTED`, in ring order. -/
def State.abortOvertaken (s : State) : State :=
  (List.range 16).foldl (fun s g =>
    let rs := (s.func g).aborted
    (s.updFunc g fun f => { f with aborted := [] }).completeAll rs St.aborted) s

/-- The control plane returns. -/
def State.ctlReturns (s : State) : State :=
  let up := s.fw.cfgApplied && s.rst.rstStateN
  let s := { s with
    rst := { s.rst with ctlReturn := false, control := up }, fw := { s.fw with ready := up } }
  let s := s.postAllLost.refreezeKerb.abortOvertaken
  let s := if fld s.rst.cause 24 5 = Cause.wdcore then s.raise 0x906 none s.rst.cause.toNat 0 0 else s
  (if up then s.startSweep else s).settleHeld

/-- It returns once the core reset is complete and the ROM code has written `IOREL` again (R400). In Recovery mode, or where
no image had been started yet, the ROM code comes back and nothing else. -/
def State.ctlMayReturn (s : State) : State :=
  if s.coreRuns && s.rst.active.isNone && s.rst.ctlReturn then
    if s.rst.recovery || !s.rst.booted then { s with rst := { s.rst with ctlReturn := false } }
    else if s.rst.ioHeld && s.rst.ioLocked then s
    else s.ctlReturns
  else s

/-- The Warden monitor, silent since the core reset began, prints its line (R450). -/
def State.monitorBack (s t : State) : State :=
  if s.rst.ctlReturn && !t.rst.ctlReturn && t.fw.baud.isSome then t.emit (.wardenLine "WARDEN" [ident]) else t

def execControlPlaneReturn (s : State) : Host.Outcome State Fault Refusal := .next (s.monitorBack s.ctlMayReturn)

end Sys2Proof.Machine
end

