-- ==== Sys2Proof/Machine/Dump.lean ====
section
/-!
DEFINITION. Fatal dumps (spec/18 R462 to R467): where a dump goes, what it holds as far as the spec gives a layout, its header,
`DUMP_STAT` and the system reset that follows.
-/
namespace Sys2Proof.Machine

/-! ## Destination (R463) -/

namespace Dest
def none := 0
def host := 1
def half0 := 2
def half1 := 3
end Dest

/-- Where a dump goes, coded as `DUMP_STAT.DEST`; 0 where neither half is erased. -/
def State.dumpDestination (s : State) (l1OrL0 busMaster : Bool) : Nat :=
  if s.errs.dumpBase % 2 = 1 && l1OrL0 && busMaster then Dest.host
  else if s.errs.half0 then Dest.half0
  else if s.errs.half1 then Dest.half1
  else Dest.none

/-- A dump in host memory or in a flash half is never larger (R464). -/
def dumpMax : Nat := 1572864

/-- Writes bytes of the image at an offset of it. -/
def State.dumpWrite (s : State) (off len data : Nat) : State :=
  if s.errs.dumpTo = Dest.host then s.emit (.hostWrite (s.errs.dumpBase / 4096 * 4096 + off) len data)
  else s.emit (.flashDump (s.errs.dumpTo - Dest.half0) off len data)

/-! ## Sections (R465, R466) -/

/-- A section: its head and its value of `len` bytes, padded to a multiple of 8. -/
def State.dumpSection (s : State) (typ len value : Nat) : State :=
  let total := 8 + roundUp 8 len
  let s := s.dumpWrite (128 + s.errs.dumpLen) total (packNat [(0, 16, typ), (32, 32, len), (64, 8 * len, value)])
  { s with errs := { s.errs with dumpLen := s.errs.dumpLen + total } }

/-- A list of equal words as one number. -/
def packWords (w : Nat) (vs : List Nat) : Nat := vs.foldr (fun v acc => v % 2 ^ w + 2 ^ w * acc) 0

/-- Section 1, the Error FIFO. -/
def State.dumpFifo (s : State) : State :=
  s.dumpSection 1 (32 * s.errs.fifo.length) (packWords 256 (s.errs.fifo.map ErrEntry.bits))

/-- Section 2, the class counters and `XW_LOSS`. -/
def State.dumpCounters (s : State) : State :=
  s.dumpSection 2 68 (packWords 32 (SMap.getList 0 s.errs.counts 0 16 ++ [s.xwLoss]))

/-- Section 3, function 0's control BAR. -/
def State.dumpBar (s : State) : State :=
  s.dumpSection 3 65536 (packWords 32 ((List.range 16384).map fun i => s.regValue 0 (accessorNum (.fn 0)) (4 * i)))

/-- A section whose length the spec bounds and whose layout it does not give: its length and its bytes are free. -/
def State.dumpOpen (s : State) (typ max : Nat) : State :=
  let len := s.freeVal % (max + 1)
  let s := s.drawn
  s.drawn.dumpSection typ len s.freeVal

/-- Sections 4 to 11, each at most as long as Table ER-6 says. -/
def State.dumpRest (s : State) : State :=
  [(4, 524288), (5, 131072), (6, 65536), (7, 131072), (8, 4096), (9, 10240), (10, 8192), (11, 1024)].foldl
    (fun s x => s.dumpOpen x.1 x.2) s

/-! ## Commands -/

/-- The fatal error's system reset. -/
def State.fatalReset (s : State) : State := s.startReset .system Cause.fatal

/-- The outcome that `DUMP_STAT` keeps. -/
def State.noteDump (s : State) (dest : Nat) (done timeout : Bool) : State :=
  { s with errs := { s.errs with dumpDest := dest, dumpDone := done, dumpTimeout := timeout } }

/-- Firmware begins the dump, or, where it has nowhere to go, makes none and lets the reset follow. -/
def State.dumpStart (s : State) (l1OrL0 busMaster : Bool) : State :=
  if s.errs.frozen && !s.errs.dumping && s.fwRuns then
    let dest := s.dumpDestination l1OrL0 busMaster
    if dest = Dest.none then (s.noteDump Dest.none false false).fatalReset
    else
      let s := { s with errs := { s.errs with
        dumping := true, dumpTo := dest, dumpLen := 0
        half0 := s.errs.half0 && dest != Dest.half0, half1 := s.errs.half1 && dest != Dest.half1 } }
      s.dumpFifo.dumpCounters.dumpBar.dumpRest
  else s

def execDumpStart (l1OrL0 busMaster : Bool) (s : State) : Host.Outcome State Fault Refusal :=
  .next (s.dumpStart l1OrL0 busMaster)

/-- The dump header (Table ER-5); its CRC runs over bytes that are free. -/
def State.dumpHeader (s : State) (crc : Nat) : Nat :=
  packNat [(0, 32, 0x5044514C), (32, 8, 1), (40, 8, if s.errs.dumpTo = Dest.host then 1 else 2), (48, 16, 11),
    (64, 32, 128 + s.errs.dumpLen), (96, 32, s.errs.dumpSeq), (128, 128, s.nv.devid.toNat), (256, 32, ident),
    (288, 32, s.fw.fwver), (320, 32, s.errs.causeRst), (352, 32, s.errs.dumpLater),
    (384, 256, (s.errs.cause.map ErrEntry.bits).getD 0), (992, 32, crc)]

/-- The header is written last, `DUMP_STAT` after it, and the reset follows. -/
def State.dumpComplete (s : State) : State :=
  if s.errs.frozen && s.errs.dumping then
    let s := { s with errs := { s.errs with dumpSeq := s.errs.dumpSeq + 1 } }
    let s := s.drawn.dumpWrite 0 128 (s.dumpHeader s.freeVal)
    let s := { s with errs := { s.errs with
      newestHalf := if s.errs.dumpTo = Dest.host then s.errs.newestHalf else s.errs.dumpTo } }
    (s.noteDump s.errs.dumpTo true false).fatalReset
  else s

def execDumpComplete (s : State) : Host.Outcome State Fault Refusal :=
  .next (if s.fwRuns then s.dumpComplete else s)

/-- The dump has not begun 150 ms after the error. -/
def execDumpStartTimeout (s : State) : Host.Outcome State Fault Refusal :=
  .next (if s.errs.frozen && !s.errs.dumping then (s.noteDump Dest.none false false).fatalReset else s)

/-- The dump is not complete 12 s after the error. -/
def execDumpOverrun (s : State) : Host.Outcome State Fault Refusal :=
  .next (if s.errs.frozen && s.errs.dumping then (s.noteDump s.errs.dumpTo false true).fatalReset else s)

end Sys2Proof.Machine
end

