-- ==== Sys2Proof/Machine/HostData.lean ====
section
/-!
DEFINITION. Host data rings (spec/12 R317 to R320): write-end descriptors, read-end buffers and the stream flush.
-/
namespace Sys2Proof.Machine

/-! ## Descriptors (Table HI-13) -/

namespace Desc
def addr (d : BitVec 256) : Nat := fld d 0 64
def len (d : BitVec 256) : Nat := fld d 64 16
def first (d : BitVec 256) : Bool := bit d 80
def last (d : BitVec 256) : Bool := bit d 81
def rtv (d : BitVec 256) : Bool := bit d 82
def rt (d : BitVec 256) : Nat := fld d 128 64
end Desc

/-- The host bridge's datapath word in bytes. DESIGN CHOICE: one stored word. -/
def bridgeWord : Nat := 64

/-- Bytes of a buffer cross the host bridge's Crosswalk towards the host, or from it (R19, R77). -/
def State.crossToHost (s : State) (bs : List Byte) : State :=
  { s with host := { s.host with
      toBridge := (s.host.toBridge.carry toBridgeWindows (bytesAsWords bridgeWord bs)).2 } }
def State.crossFromHost (s : State) (bs : List Byte) : State :=
  { s with host := { s.host with
      fromBridge := (s.host.fromBridge.carry fromBridgeWindows (bytesAsWords bridgeWord bs)).2 } }

/-- The queue whose write end a data ring is. -/
def State.ringWriter (s : State) (g r : Nat) : Option Nat :=
  ((s.groupQueues g).find? fun e => e.2.st != .unbound && e.2.b.wend.onRing e.2.b.wring r).map (·.1)

/-- The queues whose read end a data ring is, from a number on and then from the first. -/
def State.ringReaders (s : State) (g r start : Nat) : List Nat :=
  let qs := ((s.groupQueues g).filter fun e => e.2.st != .unbound && e.2.b.rend.onRing e.2.b.rring r).map (·.1)
  qs.filter (fun n => decide (start ≤ n)) ++ qs.filter fun n => decide (n < start)

/-- A descriptor of a ring can be served: the ring is enabled and holds one, and the datapath runs. -/
def State.ringServes (s : State) (g r : Nat) : Bool :=
  let d := s.dring g r
  s.fnReached g && s.coreRuns && !s.errs.frozen && d.en && decide (0 < ringDist d.pi d.ci)

/-! ## Write end (R318) -/

/-- Write-side bytes received of the open message. -/
def Queue.openBytes (q : Queue) : Option Nat := q.expected

/-- The `MSN` of the open message. -/
def Queue.openMsn (q : Queue) : BitVec 32 :=
  match q.skip, q.wmsg with
  | some (m, _), _ => m
  | none, some w => w.msn
  | none, none => 0

def maxMsgBytes : Nat := 16384

/-- A `MALFORMED` write descriptor. -/
def Queue.descBad (q : Queue) (d : BitVec 256) : Bool :=
  (Desc.rtv d && !Desc.first d) ||
    (q.b.msgMode &&
      ((Desc.len d == 0 && !(Desc.first d && Desc.last d)) || (!Desc.first d && q.openBytes.isNone) ||
        (!Desc.last d && decide (maxMsgBytes < (if Desc.first d then 0 else q.openBytes.getD 0) + Desc.len d))))

/-- The piece a descriptor carries. -/
def Queue.descPiece (q : Queue) (d : BitVec 256) (data : List Byte) : Piece :=
  if q.b.msgMode then
    { msn := if Desc.first d then q.hostMsn else q.openMsn, first := Desc.first d, last := Desc.last d, bytes := data
      rt := if Desc.rtv d && q.b.pin then some (Desc.rt d) else none }
  else { msn := 0, first := true, last := true, bytes := data }

/-- A write descriptor that is not malformed: committed, dropped, or left until room appears. -/
def State.takeDesc (s : State) (g r n : Nat) (d : BitVec 256) (data : List Byte) : State :=
  let mm := (s.q n).b.msgMode
  let s := if mm && Desc.first d then s.stopWrite n else s
  let p := (s.q n).descPiece d data
  let dropped := if mm && !p.first then (s.q n).hostDrop else !((s.evictRoom n [p]).admission n 0 p).2
  match (s.crossFromHost data).acceptPieces n (s.arrival n) [p] with
  | (true, t) =>
    let t := if mm && p.first then t.updQ n fun q => { q with hostMsn := q.hostMsn + 1, hostDrop := dropped } else t
    t.writeBack g r d p.msn.toNat data.length (if dropped then St.dropped else St.ok) 0
  | (false, t) => (t.evalFlags n).waitRoom n

/-- The device reads a write-end descriptor and its buffer. -/
def State.writeDesc (s : State) (g r : Nat) (d : BitVec 256) (data : List Byte) : State :=
  match s.ringWriter g r with
  | none => s
  | some n =>
    if !s.ringServes g r || (s.q n).st != .opened then s
    else if (s.q n).descBad d then
      (if (s.q n).b.msgMode then (s.stopWrite n).evalFlags n else s).writeBack g r d 0 0 St.malformed 0
    else s.takeDesc g r n d (data.take (Desc.len d))

def execHostWriteDescriptor (fn : Fin 16) (ring : Fin 512) (desc : BitVec 256) (data : List Byte) (s : State) :
    Host.Outcome State Fault Refusal := .next (s.writeDesc fn.val ring.val desc data)

/-! ## Read end (R319, R320, R330) -/

/-- Writes bytes of a buffer. -/
def State.putBuffer (s : State) (addr : Nat) (bs : List Byte) : State :=
  if bs.isEmpty then s else (s.crossToHost bs).emit (.hostWrite addr bs.length (ofBytes bs))

/-- `STATUS` and `DONE_LEN` of a buffer whose stored range holds words with uncorrectable errors. -/
def bufferStatus (bad : List Nat) : Nat := if bad.isEmpty then St.ok else St.dmaError

/-- A message-mode buffer is worth returning: the message ends in it, or it is full. -/
def State.bufferReady (s : State) (q : Queue) (len : Nat) : Bool :=
  match s.head q with
  | none => false
  | some h =>
    let k := s.takeCount q len
    (h.complete && decide ((q.rmsg.map (·.sent)).getD 0 + k = h.elems)) || decide (k = q.b.fitElems len)

/-- Whether the head message may begin now: pace and release time (R199, R200, R320). -/
def State.mayStart (s : State) (n : Nat) : Bool :=
  let q := s.q n
  q.rmsg.isSome || ((!q.b.kerb || q.kerb.mayBegin s.cyc) && (!q.b.pin || (match s.head q with
    | some h => s.pinDue n h
    | none => false)))

/-- The head message of a queue is judged, or dropped for its age, before its reader begins it (R178, R196). -/
def State.approach (s : State) (n : Nat) : State :=
  let s := s.judgeHead n
  if (s.q n).rmsg.isNone then
    let t := s.ageOut n ((s.unread (s.q n)).length + 1)
    if (t.q n).rptr = (s.q n).rptr then t else t.afterRead n
  else s

/-- A message-mode queue would begin or go on with a message into a buffer of `len` bytes. -/
def State.fillsNow (s : State) (n len : Nat) : Bool := s.mayStart n && s.bufferReady (s.q n) len

/-- What beginning a pinned message at a host read end counts: it is late after T + 1 µs. -/
def State.startPinned (s : State) (n : Nat) : State :=
  let q := s.q n
  if q.b.pin && q.rmsg.isNone then
    match s.head q with
    | some h => s.beginPinned n 10000 h
    | none => s
  else s

/-- Fills a buffer in message mode. -/
def State.readMessage (s : State) (g r n : Nat) (d : BitVec 256) : State :=
  let s := s.approach n
  let q := s.q n
  if !s.fillsNow n (Desc.len d) then s
  else match s.headBad q with
    | [] =>
      match ((s.startPinned n).beginKerb n).take n (Desc.len d) with
      | none => s
      | some (c, t) =>
        let bad := s.badWords q c.lo c.len
        let t := t.reportUe n bad (q.chainPos c.lo % 2 ^ 32)
        let t := t.putBuffer (Desc.addr d) c.payload
        let t := t.writeBack g r d c.msn.toNat c.payload.length (bufferStatus bad)
          (packNat [(0, 1, if c.first then 1 else 0), (1, 1, if c.last then 1 else 0), (2, 1, if c.trunc then 1 else 0)])
        (t.dropSentHead n).afterRead n
    | bad => s.headerUe n bad

/-- Goes on filling a buffer in stream mode, and returns it once it is full. -/
def State.readStream (s : State) (g r n : Nat) (d : BitVec 256) : State :=
  let (d, done) := ((s.dring g r).rbuf).getD (d, 0)
  let q := s.q n
  let room := Desc.len d / q.b.rbytes * q.b.rbytes
  match s.take n (room - done) with
  | none => s
  | some (c, t) =>
    let bad := s.badWords q c.lo c.len
    let t := (t.reportUe n bad (q.chainPos c.lo % 2 ^ 32)).putBuffer (Desc.addr d + done) c.payload
    let filled := done + c.payload.length
    let t := if !bad.isEmpty || filled = room then t.writeBack g r d 0 filled (bufferStatus bad) 0
      else t.setDring g r { t.dring g r with rbuf := some (d, filled) }
    t.afterRead n

/-- Deficit round robin over the KERBSIDE queues that share a host read end (R199): a queue whose turn comes (`fresh`) with a
message to begin gains its quantum, and begins while its deficit covers the message. -/
def State.ringDrr (s : State) (len : Nat) : Nat → Bool → List Nat → State × Option Nat
  | 0, _, _ => (s, none)
  | _, _, [] => (s, none)
  | fuel + 1, fresh, n :: rest =>
    if (s.head (s.q n)).isNone then
      (s.updQ n fun q => { q with kerb := { q.kerb with deficit := 0 } }).ringDrr len fuel true (rest ++ [n])
    else if !s.fillsNow n len then s.ringDrr len fuel true (rest ++ [n])
    else
      let gain := if fresh then (s.q n).kerb.policy.quantum else 0
      let deficit := (s.q n).kerb.deficit + gain
      let cost := s.headLen (s.q n)
      if cost ≤ deficit then
        (s.updQ n fun q => { q with kerb := { q.kerb with deficit := deficit - cost } }, some n)
      else (s.updQ n fun q => { q with kerb := { q.kerb with deficit := deficit } }).ringDrr len fuel true (rest ++ [n])

/-- The queue that a descriptor of a shared read end serves. One in the middle of a message, or of a stream buffer, goes on;
then come EXPRESS queues in turn, then the KERBSIDE ones. DESIGN CHOICE: the order of the two classes. -/
def State.chooseReader (s : State) (g r len : Nat) : State × Option Nat :=
  let last := (s.dring g r).turn
  let reading := (s.ringReaders g r last).filter fun n => (s.q n).reads
  match reading with
  | [] => (s, none)
  | [n] => (s, some n)
  | ns =>
    match ns.find? fun n => (s.q n).rmsg.isSome || (n == last && (s.dring g r).rbuf.isSome) with
    | some n => (s, some n)
    | none =>
      match ns.find? fun n => !(s.q n).b.kerb && n != last && (if (s.q n).b.msgMode then s.fillsNow n len else decide (0 < s.readable (s.q n))) with
      | some n => (s, some n)
      | none =>
        let ks := ns.filter fun n => (s.q n).b.kerb
        let s := ks.foldl State.approach s
        if ks.any fun n => s.fillsNow n len then s.ringDrr len (66 * (ks.length + 1)) (ks.head? != some last) ks
        else (s, if (s.q last).b.kerb then none else ns.find? (· == last))

/-- The device serves a read-end descriptor. -/
def State.readDesc (s : State) (g r : Nat) (d : BitVec 256) : State :=
  if !s.ringServes g r then s
  else match s.chooseReader g r (Desc.len d) with
    | (s, none) => s
    | (s, some n) =>
      let s := s.setDring g r { s.dring g r with turn := n }
      if Desc.len d < (s.q n).b.rbytes then s.writeBack g r d 0 0 St.malformed 0
      else if (s.q n).b.msgMode then s.readMessage g r n d
      else s.readStream g r n d

def execHostReadDescriptor (fn : Fin 16) (ring : Fin 512) (desc : BitVec 256) (s : State) :
    Host.Outcome State Fault Refusal := .next (s.readDesc fn.val ring.val desc)

/-- The `FLUSH` time passes with a buffer partly filled. -/
def State.flushRing (s : State) (g r : Nat) : State :=
  match (s.dring g r).rbuf with
  | some (d, done) => if s.ringServes g r && decide (0 < done) then s.writeBack g r d 0 done St.ok 0 else s
  | none => s

def execDringFlushTimeout (fn : Fin 16) (ring : Fin 512) (s : State) : Host.Outcome State Fault Refusal :=
  .next (s.flushRing fn.val ring.val)

end Sys2Proof.Machine
end

