-- ==== Sys2Proof/Machine/QueueEvents.lean ====
section
/-!
DEFINITION. What a queue does at its timers and visits: the flag sweep and event interval (spec/04), the adaptation loop
and its reports (spec/08), segment grants and retries (spec/02), and a waiting REWIND (spec/06).
-/
namespace Sys2Proof.Machine

/-! ## Flags (R96, R100, R101, R119) -/

/-- Whether a queue's predictor interval can be valid: it is OPEN or CLOSING (R101). -/
def Queue.counting (q : Queue) : Bool := q.st == .opened || q.st == .closing

/-- A sweep visit (R100): the rates move on a valid interval, and every flag is evaluated. The flag engine's clock is CORE's. -/
def State.sweepVisit (s : State) (n : Nat) : State :=
  let q := s.q n
  if q.st = .unbound || !s.coreRuns then s
  else
    let f := { q.fst with intervalValid := q.fst.intervalValid && q.counting }
    let f := f.sweep q.fcfg.alpha q.csfill (s.cefill q)
    (s.setQ n { q with fst := { f with intervalValid := q.counting } }).evalFlags n

/-- An uncorrectable error where the visit reads the context store (0) or the flag-state store (1): fatal error CTX_UE (R330). -/
def State.storeError (s : State) (n store granule : Nat) : State :=
  if s.coreRuns then s.raise 0x604 none (packNat [(0, 1, store), (5, 3, granule)]) n 0 else s

def execSweepVisit (x : SweepRead) (s : State) : Host.Outcome State Fault Refusal :=
  .next (match x.found with
    | .clean => s.sweepVisit x.q.val
    | .context granule => s.storeError x.q.val 0 granule.val
    | .flagState granule => s.storeError x.q.val 1 granule.val)

/-- The end of an event interval: one FLAG_CHANGE if a masked flag changed in it, and a new interval behind it (R119). -/
def State.flagIntervalEnd (s : State) (n : Nat) : State :=
  let q := s.q n
  match q.fst.window with
  | none => s
  | some w =>
    if w.changed = 0 then s.setQ n { q with fst := { q.fst with window := none } }
    else (s.setQ n { q with fst := { q.fst with window := some {} } }).postFlagChange n (w.returned != 0)

def execFlagEventIntervalEnd (q : Fin 8192) (s : State) : Host.Outcome State Fault Refusal :=
  .next (s.flagIntervalEnd q.val)

/-! ## Adaptation (R192, R201 to R204, R206) -/

/-- A rate in Mbit/s over a period of 16 ns ticks. -/
def rateOf (bytes ticks : Nat) : Nat := min 0xFFFFFFFF (bytes * 500 / ticks)

/-- The rates of the period since the previous visit (R192). -/
def Kerb.formRates (k : Kerb) (now : Nat) : Kerb :=
  let t := now - k.lastVisit
  { k with
    arrRate := rateOf k.arrBytes t, depRate := rateOf k.depBytes t, dropPer := min 0xFFFFFFFF k.drops
    arrBytes := 0, depBytes := 0, drops := 0, lastVisit := now, sampled := false }

/-- The step of R201: the new AF threshold and pace, the threshold clamped to its bounds (R202). -/
def adaptStep (p : Policy) (sojAvg af pace : Nat) : Nat × Nat :=
  let t := 1000 * p.target
  let clampAf (x : Nat) : Nat := max p.afMin (min p.afMax x)
  if t + t / 8 < sojAvg then
    (clampAf (max p.afMin (af - af / 8)),
      if p.paceMax = 0 then pace else min p.paceMax (pace + max 1 (pace / 8)))
  else if sojAvg < t - t / 4 then
    (clampAf (min p.afMax (af + max 1 (af / 32))),
      if p.paceMax = 0 then pace else max p.paceMin (pace - max 1 (pace / 32)))
  else (af, pace)

/-- A new pace; the bucket first fills to now at the old one. -/
def Kerb.setPace (k : Kerb) (pace cyc : Nat) : Kerb :=
  if pace = k.paceNow then k else { k with tokens := k.tokensNow cyc, tokensAt := cyc, paceNow := pace }

/-- A visit of the adaptation loop; none is made while a power state stops the sequencer (R206). -/
def State.adaptVisit (s : State) (n : Nat) : State :=
  let q := s.q n
  if q.st = .unbound || !q.b.kerb || !s.rst.control || !s.coreRuns || s.mcount ≤ q.kerb.lastVisit then s
  else
    let k := q.kerb.formRates s.mcount
    if q.kerb.policy.adapt && decide (32 ≤ q.kerb.nsoj) && q.kerb.sampled then
      let (af, pace) := adaptStep q.kerb.policy q.kerb.sojAvg q.fcfg.afSet q.kerb.paceNow
      let s := s.setQ n { q with kerb := k.setPace pace s.cyc, fcfg := { q.fcfg with afSet := af } }
      if af = q.fcfg.afSet then s else s.evalFlags n
    else s.setQ n { q with kerb := k }

def execAdaptationVisit (q : Fin 8192) (s : State) : Host.Outcome State Fault Refusal := .next (s.adaptVisit q.val)

/-- The end of a drop-reporting interval posts one KB_DROP (R198). -/
def execKbDropIntervalEnd (q : Fin 8192) (s : State) : Host.Outcome State Fault Refusal :=
  .next (match (s.q q.val).kerb.window with
    | none => s
    | some w =>
      (s.updQ q.val fun x => { x with kerb := { x.kerb with window := none } }).post (ownerOf q.val)
        { code := 0x005
          body := packNat [(0, 13, q.val), (32, 32, w.msn.toNat), (64, 16, min 0xFFFF w.tail), (80, 16, min 0xFFFF w.head),
            (96, 16, min 0xFFFF w.age)] })

/-! ## Segments (R39, R40) -/

/-- The result of an outstanding segment request. -/
def State.segmentResult (s : State) (n : Nat) : State :=
  let q := s.q n
  if q.segReq then
    let s := s.setQ n { q with segReq := false }
    let given := if 0 < s.grantable n then s.plaza.pickSeg q.b.affinity else none
    match given with
    | some seg => ((s.updQ n fun q => { q with segDenied := false }).takeSeg n seg).evalFlags n
    | none => (s.denySeg n).evalFlags n
  else s

def execSegmentGrant (q : Fin 8192) (s : State) : Host.Outcome State Fault Refusal := .next (s.segmentResult q.val)

/-- The queue engine asks again for the same segment while something waits for room, or once the write pointer has reached the
end of the last segment. -/
def execSegmentRequestRetry (q : Fin 8192) (s : State) : Host.Outcome State Fault Refusal :=
  .next (
    let x := s.q q.val
    if x.segDenied && (x.needRoom || decide (x.heldEnd ≤ x.wptr)) then s.setQ q.val { x with segReq := true } else s)

/-! ## A waiting REWIND (R149) -/

def State.rewindNow (s : State) (n : Nat) : State :=
  let q := s.q n
  match q.rewinds with
  | w :: rest => if q.atBoundary then (s.setQ n { q with rewinds := rest }).applyRewind n w else s
  | [] => s

def execRewindTakesEffect (q : Fin 8192) (s : State) : Host.Outcome State Fault Refusal := .next (s.rewindNow q.val)

end Sys2Proof.Machine
end

