-- ==== Sys2Proof/Machine/Service.lean ====
section
/-!
DEFINITION. The service port (spec/17 R436 to R442): request and response frames, the operations of Table FW-7, and package
uploads with the checks of Table FW-5.
-/
namespace Sys2Proof.Machine

/-! ## Frames (R440, Table FW-6) -/

/-- A byte string followed by its CRC-8. -/
def withCrc8 (bs : List Byte) : List Byte := bs ++ [BitVec.ofNat 8 (crc8 (ofBytes bs) 0 (8 * bs.length))]

/-- The response that a read collects. -/
def Firmware.response (f : Firmware) : List Byte :=
  withCrc8 (toBytes 1 f.svcState ++ toBytes 1 f.svcTag ++ toBytes 1 f.svcStatus ++ [0] ++ toBytes 2 f.svcData.length ++ f.svcData)

/-- A request is done. -/
def State.svcReply (s : State) (tag : Byte) (status : Nat) (data : List Byte) : State :=
  let s := { s with fw := { s.fw with svcState := 2, svcTag := tag.toNat, svcStatus := status, svcData := data } }
  s.emit (.svcResponse s.fw.response)

/-- A request that takes effect later reads back as pending. -/
def State.svcPending (s : State) (tag : Byte) : State :=
  { s with fw := { s.fw with svcState := 1, svcTag := tag.toNat, svcStatus := 0, svcData := [] } }

/-- The pending request is done. -/
def State.svcDone (s : State) (status : Nat) : State :=
  if s.fw.svcState = 1 then s.svcReply (BitVec.ofNat 8 s.fw.svcTag) status [] else s

/-- The port answers: no reset runs, and the sequencer does too, but for registers of the AON block, which answer without CORE
(R478). In Off the address byte is NACKed (R383). -/
def State.svcUp (s : State) (aon : Bool) : Bool :=
  s.rst.active.isNone && s.power.cur != .off && (aon || (s.coreRuns && !s.rst.ctlReturn))

/-- The `CRC` of a request, over all its bytes before. -/
def svcCrc (op : Nat) (tag : Byte) (payload : List Byte) : Byte :=
  let bs := toBytes 1 op ++ [tag] ++ toBytes 2 payload.length ++ payload
  BitVec.ofNat 8 (crc8 (ofBytes bs) 0 (8 * bs.length))

/-- A request whose `CRC` fails is discarded, and reads back with `STATE` 0. -/
def State.svcDiscard (s : State) (tag : Byte) : State :=
  { s with fw := { s.fw with svcState := 0, svcTag := tag.toNat, svcStatus := 0, svcData := [] } }

/-- Takes a request: none while an earlier one is pending, one whose `CRC` fails is discarded, a wrong `LEN` is refused, and an
operation marked "No" is refused in Recovery mode (R440, R441). -/
def State.svcRequest (s : State) (aon inRecovery : Bool) (op : Nat) (tag : Byte) (payload : List Byte) (crc : Byte)
    (lenOk : Bool) (act : State → State) : State :=
  if !s.svcUp aon || s.fw.svcState == 1 then s
  else if crc != svcCrc op tag payload then s.svcDiscard tag
  else if s.rst.recovery && !inRecovery then s.svcReply tag St.badOpcode []
  else if !lenOk then s.svcReply tag St.badField []
  else act s

/-! ## INFO, REG_READ, REG_WRITE, KEY_MSG -/

/-- The payload of `INFO`. -/
def State.infoBytes (s : State) : List Byte :=
  toBytes 4 ident ++ toBytes 16 s.nv.devid.toNat ++
    ([s.lcstate, s.keystat, s.fwstat, s.fw.fwver, s.rst.cause.toNat, s.rststat, s.rst.bootcnt, s.power.stateReg].flatMap
      (toBytes 4)) ++ toBytes 12 0

def execInfo (tag : Byte) (p : SvcPayload) (s : State) : Host.Outcome State Fault Refusal :=
  .next (s.svcRequest true true 0x01 tag p.bytes p.crc p.bytes.isEmpty fun s => s.svcReply tag St.ok s.infoBytes)

def State.svcRegRead (s : State) (tag : Byte) (off : Nat) : State :=
  if lcMayRead s.nv.lc off then
    let (v, s) := s.readReg .svc off
    s.svcReply tag St.ok (toBytes 4 v)
  else s.svcReply tag St.notPermitted []

def execRegRead (tag : Byte) (p : SvcPayload) (s : State) : Host.Outcome State Fault Refusal :=
  .next (s.svcRequest (aonReg (ofBytes p.bytes)) true 0x02 tag p.bytes p.crc (p.bytes.length == 4) fun s =>
    s.svcRegRead tag (ofBytes p.bytes))

/-- A write; the reply of one that resets the device is lost. -/
def State.svcRegWrite (s : State) (tag : Byte) (off : Nat) (v : Word32) : State :=
  if svcMayWrite s.rst.recovery off then
    let s := s.writeReg 0 off v
    if s.rst.active.isSome then s else s.svcReply tag St.ok []
  else s.svcReply tag St.notPermitted []

def execRegWrite (tag : Byte) (p : SvcPayload) (s : State) : Host.Outcome State Fault Refusal :=
  .next (s.svcRequest (aonReg (le p.bytes 0 4)) true 0x03 tag p.bytes p.crc (p.bytes.length == 8) fun s =>
    s.svcRegWrite tag (le p.bytes 0 4) (BitVec.ofNat 32 (le p.bytes 4 4)))

/-- An update message over the service port; the reply of an accepted `LC_SET` is lost in its reset (R425). -/
def State.svcKeyMsg (s : State) (tag : Byte) (m : List Byte) : State :=
  let (s, st) := s.keyMessage .service m
  if s.rst.active.isSome then s else s.svcReply tag st []

def execKeyMsg (tag : Byte) (p : SvcPayload) (s : State) : Host.Outcome State Fault Refusal :=
  .next (s.svcRequest false false 0x10 tag p.bytes p.crc (p.bytes.length == 144 || p.bytes.length == 308) fun s =>
    s.svcKeyMsg tag p.bytes)

/-! ## Packages (R436, R437) -/

namespace Pkg
def kind (h : List Byte) : Nat := le h 5 1
def flags (h : List Byte) : Nat := le h 6 1
def authSlot (h : List Byte) : Nat := le h 7 1
def version (h : List Byte) : Nat := le h 12 4
def svn (h : List Byte) : Nat := le h 16 1
def bodyLen (h : List Byte) : Nat := le h 40 4
def isImage (h : List Byte) : Bool := kind h == 1
end Pkg

/-- Check 1 of Table FW-5. -/
def pkgMalformed (h : List Byte) : Bool :=
  le h 0 4 != 0x4B50514C || le h 4 1 != 1 || !(Pkg.kind h == 1 || Pkg.kind h == 2) || decide (4 ≤ Pkg.flags h) ||
    (if Pkg.isImage h then decide (Pkg.bodyLen h < 1) || decide (1048064 < Pkg.bodyLen h)
      else decide (Pkg.bodyLen h < 16) || decide (261632 < Pkg.bodyLen h)) ||
    le h 17 1 != 0 || le h 22 2 != 0 || le h 189 3 != 0 || le h 288 224 != 0

/-- Check 4: a pinned queue is OPEN, a trial runs, or another upload is in progress. -/
def State.pkgBusy (s : State) (other : Bool) : Bool :=
  (s.queues.any fun e => e.2.st == .opened && e.2.b.pin) || (s.fw.trial && !s.fw.healthOk) || other

/-- The device's major stepping, `IDENT`[15:8]. -/
def majorStepping : Nat := ident / 256 % 256

/-- Check 5. -/
def State.pkgWrongDevice (s : State) (h : List Byte) : Bool :=
  le h 8 2 != 0x8192 || decide (majorStepping < le h 10 1) || decide (le h 11 1 < majorStepping) ||
    (le h 24 16 != 0 && le h 24 16 != s.nv.devid.toNat)

/-- The owner ADMIN_PUB slot that a package names. -/
def State.pkgSlot (s : State) (h : List Byte) : Option Slot :=
  let a := Pkg.authSlot h
  if a < 64 then
    let x := s.slot a
    if x.valid && x.typ == 2 && x.scope == ownerScope then some x else none
  else none

/-- The public key's hash is that in fuses, or begins with the slot's MATERIAL; a slot that check 7 refuses has none. -/
def State.pkgHashOk (s : State) (h : List Byte) : Bool :=
  let hash := Config.sha384 ((h.drop 92).take 97)
  if Pkg.authSlot h = 0xFF then hash == s.nv.woritHash
  else match s.pkgSlot h with
    | some x => BitVec.ofNat 256 hash.toNat == x.material
    | none => true

/-- Check 6, with the body where it is complete. -/
def State.pkgAuthentic (s : State) (h : List Byte) (body : Option (List Byte)) : Bool :=
  s.pkgHashOk h && Config.ecdsaVerify ((h.drop 92).take 97) (h.take 192) ((h.drop 192).take 96) &&
    (match body with
      | none => true
      | some b => (Config.sha384 b).toNat == le h 44 48)

/-- Check 7. -/
def State.pkgForbidden (s : State) (h : List Byte) : Bool :=
  decide (Pkg.svn h < s.nv.svnFloor) || (Pkg.authSlot h != 0xFF && (Pkg.isImage h || (s.pkgSlot h).isNone)) ||
    s.nv.lc == Lc.scrapped

/-- Checks 1 to 7, in order. The slot that a package names is read, and so its tag checked (R407). -/
def State.pkgCheck (s : State) (h : List Byte) (other : Bool) (body : Option (List Byte)) : State × Nat :=
  let st := firstFail [
    (pkgMalformed h, St.badMessage),
    (!s.power.pwrfailN, St.lowPower),
    (s.nv.ownerLock, St.ownerLocked),
    (s.pkgBusy other, St.badState),
    (s.pkgWrongDevice h, St.wrongDevice)]
  if st ≠ St.ok then (s, st)
  else
    let s := if Pkg.authSlot h < 64 then s.checkSlot (Pkg.authSlot h) else s
    (s, firstFail [
      (!s.pkgAuthentic h body, St.authFail),
      (s.pkgForbidden h, St.notPermitted)])

/-! ## Uploads (R438, R442) -/

/-- The slot that an image upload writes: the one that is not active. -/
def State.uploadSlot (s : State) : Nat := otherSlot s.fw.activeSlot

/-- `PKG_BEGIN`: an image's slot is erased before the request completes; a config store's upload begins at once. -/
def State.pkgBegin (s : State) (tag : Byte) (h : List Byte) : State :=
  if s.rst.recovery && Pkg.kind h == 2 then s.svcReply tag St.badOpcode []
  else
    let (s, st) := s.pkgCheck h s.fw.upload.isSome none
    if st ≠ St.ok then s.svcReply tag st []
    else if Pkg.isImage h then
      let f := s.fw.setImage s.uploadSlot { erased := true }
      ({ s with fw := { f with upload := some { header := h, erasing := true } } }).svcPending tag
    else ({ s with fw := { s.fw with upload := some { header := h } } }).svcReply tag St.ok []

def execPkgBegin (tag : Byte) (p : SvcPayload) (s : State) : Host.Outcome State Fault Refusal :=
  .next (s.svcRequest false true 0x20 tag p.bytes p.crc (p.bytes.length == 512) fun s => s.pkgBegin tag p.bytes)

/-- An upload ends without a commit. -/
def State.endUpload (s : State) : State := { s with fw := { s.fw with upload := none } }

/-- The slot erase ends, or has failed. -/
def State.eraseDone (s : State) (r : FlashResult) : State :=
  match s.fw.upload with
  | some u =>
    if u.erasing then
      match r with
      | .ok => ({ s with fw := { s.fw with upload := some { u with erasing := false } } }).svcDone St.ok
      | .fail => s.endUpload.svcDone St.nvFail
    else s
  | none => s

def execPkgEraseDone (r : FlashResult) (s : State) : Host.Outcome State Fault Refusal := .next (s.eraseDone r)

/-- `PKG_DATA`: the next body bytes. -/
def State.pkgData (s : State) (tag : Byte) (payload : List Byte) (r : FlashResult) : State :=
  match s.fw.upload with
  | none => s.svcReply tag St.badState []
  | some u =>
    let bs := payload.drop 4
    if le payload 0 4 ≠ u.body.length ∨ Pkg.bodyLen u.header < u.body.length + bs.length then s.svcReply tag St.badField []
    else match r with
      | .ok => ({ s with fw := { s.fw with upload := some { u with body := u.body ++ bs } } }).svcReply tag St.ok []
      | .fail => s.endUpload.svcReply tag St.nvFail []

def execPkgData (tag : Byte) (p : SvcPayload) (r : FlashResult) (s : State) : Host.Outcome State Fault Refusal :=
  .next (s.svcRequest false true 0x21 tag p.bytes p.crc (decide (5 ≤ p.bytes.length) && decide (p.bytes.length ≤ 516)) fun s =>
    s.pkgData tag p.bytes r)

/-- The head of a config-store package's body: the copy's without `TAG`. -/
def cfgHead : Nat := 48

/-- A body spells a config-store copy (R446). -/
def cfgBodyOk (b : List Byte) : Bool :=
  le b 0 4 == 0x5343514C && decide (le b 12 4 ≤ 32760) && b.length == cfgHead + 8 * le b 12 4 + 64 * le b 20 4

/-- The copy that a body spells. -/
def cfgOfBody (b : List Byte) (seq : Nat) : CfgCopy :=
  let count := le b 12 4
  { valid := true, fmt := le b 4 2, seq := seq, version := le b 16 4
    entries := (List.range count).map fun i =>
      (BitVec.ofNat 32 (le b (cfgHead + 8 * i) 4), BitVec.ofNat 32 (le b (cfgHead + 8 * i + 4) 4))
    cmds := (List.range (le b 20 4)).map fun i => BitVec.ofNat 512 (le b (cfgHead + 8 * count + 64 * i) 64) }

/-- The older of the two copies, an invalid one before a valid one; and the newer one's `SEQ`. -/
def Firmware.olderCopy (f : Firmware) : Nat :=
  if !f.copy0.valid then 0 else if !f.copy1.valid then 1 else if f.copy1.seq < f.copy0.seq then 1 else 0
def Firmware.newestSeq (f : Firmware) : Nat :=
  max (if f.copy0.valid then f.copy0.seq else 0) (if f.copy1.valid then f.copy1.seq else 0)

/-- A verified package is committed. -/
def State.pkgCommit (s : State) (u : Upload) : State :=
  let f := { s.fw with upload := none }
  if Pkg.isImage u.header then
    let h := u.header
    let slot := s.uploadSlot
    let x : Image := { version := Pkg.version h, svn := Pkg.svn h, flags := Pkg.flags h, cfgFmt := le h 18 2, cfgMin := le h 20 2 }
    { s with fw := (f.setImage slot x).append Dir.arm slot }
  else { s with fw := f.setCopy f.olderCopy (cfgOfBody u.body (f.newestSeq + 1)) }

/-- `PKG_END`: every check again, the commit, and the reset that `ACTIVATE` asks for. An `ARM` record without erased space is a program
that fails. -/
def State.pkgEnd (s : State) (tag : Byte) (activate : Bool) (r : FlashResult) : State :=
  match s.fw.upload with
  | none => s.svcReply tag St.badState []
  | some u =>
    if u.body.length ≠ Pkg.bodyLen u.header ∨ (!Pkg.isImage u.header && !cfgBodyOk u.body) then
      s.endUpload.svcReply tag St.badMessage []
    else
      let (s, st) := s.pkgCheck u.header false (some u.body)
      if st ≠ St.ok then s.endUpload.svcReply tag st []
      else match (if Pkg.isImage u.header && !s.fw.dirRoom then .fail else r) with
        | .fail => s.endUpload.svcReply tag St.nvFail []
        | .ok =>
          let s := s.pkgCommit u
          ({ s with fw := { s.fw with actReset := s.fw.actReset || activate } }).svcReply tag St.ok []

def execPkgEnd (tag : Byte) (p : SvcPayload) (r : FlashResult) (s : State) : Host.Outcome State Fault Refusal :=
  .next (s.svcRequest false true 0x22 tag p.bytes p.crc (p.bytes.length == 1) fun s => s.pkgEnd tag (ofBytes p.bytes == 1) r)

/-- 1 ms after the response to a `PKG_END` with `ACTIVATE`. -/
def execPkgActivateReset (s : State) : Host.Outcome State Fault Refusal :=
  .next (if s.fw.actReset then s.startReset .system Cause.swsys else s)

def execPkgAbort (tag : Byte) (p : SvcPayload) (s : State) : Host.Outcome State Fault Refusal :=
  .next (s.svcRequest false true 0x23 tag p.bytes p.crc p.bytes.isEmpty fun s => s.endUpload.svcReply tag St.ok [])

/-- No request for 10 s; one that is pending holds the upload. -/
def execPkgUploadTimeout (s : State) : Host.Outcome State Fault Refusal :=
  .next (if s.fw.svcState = 1 then s else s.endUpload)

/-- `PWRFAIL_N` falls: programming stops, the pending request completes `LOW_POWER`, and the upload ends. -/
def execPwrfailNFall (s : State) : Host.Outcome State Fault Refusal :=
  .next (let s := setPower s fun p => { p with pwrfailN := false }
    if s.fw.upload.isSome then s.endUpload.svcDone St.lowPower else s)

/-! ## BOOT_CLEAR and CONFIRM -/

def execBootClear (tag : Byte) (p : SvcPayload) (s : State) : Host.Outcome State Fault Refusal :=
  .next (s.svcRequest true true 0x30 tag p.bytes p.crc p.bytes.isEmpty fun s =>
    if s.nv.lc = Lc.scrapped then s.svcReply tag St.notPermitted []
    else ({ s with rst := { s.rst with bootcnt := 0 } }).svcReply tag St.ok [])

def execConfirm (tag : Byte) (p : SvcPayload) (s : State) : Host.Outcome State Fault Refusal :=
  .next (s.svcRequest false false 0x31 tag p.bytes p.crc p.bytes.isEmpty fun s =>
    ({ s with fw := { s.fw with confirmed := true } }).svcReply tag St.ok [])

end Sys2Proof.Machine
end

