-- ==== Sys2Proof/Machine/Warden.lean ====
section
/-!
DEFINITION. The Warden monitor (spec/17 R450, R451, Table FW-8, spec/16 R428): its commands, who may use them, and the line it
prints after a reset. A reply is modelled as its lines: words, and the numbers that follow in hexadecimal.
-/
namespace Sys2Proof.Machine

/-! ## Replies (R451) -/

def State.wprint (s : State) (text : String) (values : List Nat) : State := s.emit (.wardenLine text values)

def State.wprompt (s : State) : State := s.wprint "W>" []
def State.wok (s : State) : State := (s.wprint "OK" []).wprompt
def State.werr (s : State) (reason : String) : State := (s.wprint ("ERR " ++ reason) []).wprompt

/-- The monitor answers: the rate has been measured and no reset runs. -/
def State.wardenUp (s : State) : Bool := s.fw.baud.isSome && s.rst.active.isNone && !s.rst.ctlReturn

/-- Takes a command: refused outside the life cycle's powers, for numbers out of range, and while CORE sleeps under what it
reaches. -/
def State.warden (s : State) (allowed inRange awake : Bool) (act : State → State) : State :=
  if !s.wardenUp then s
  else if !allowed then s.werr "DENIED"
  else if !inRange then s.werr "RANGE"
  else if !awake then s.werr "BUSY"
  else act s

/-- A count argument: 1 where it is left out. -/
def count (n : Option Nat) : Nat := n.getD 1
def countOk (n : Option Nat) : Bool := decide (1 ≤ count n) && decide (count n ≤ 64)

/-! ## Rate and reset line (R450) -/

def execWardenAutobaud (baud : Nat) (s : State) : Host.Outcome State Fault Refusal :=
  .next { s with fw := { s.fw with baud := if 115200 ≤ baud ∧ baud ≤ 3000000 then some baud else none } }

/-- After a reset the monitor prints its line. -/
def State.wardenAfter (s t : State) : State :=
  if s.rst.active.isSome && t.wardenUp then t.wprint "WARDEN" [ident] else t

def execResetComplete (s : State) : Host.Outcome State Fault Refusal :=
  .next (s.wardenAfter s.completeReset)

/-! ## Status -/

def execId (s : State) : Host.Outcome State Fault Refusal :=
  .next (s.warden true true true fun s => (s.wprint "" [ident, s.nv.devid.toNat, s.lcstate, s.fw.fwver]).wok)

def execStat (s : State) : Host.Outcome State Fault Refusal :=
  .next (s.warden (lcReads s.nv.lc) true true fun s =>
    (s.wprint "" [s.keystat, s.rst.cause.toNat, s.rststat, s.rst.bootcnt, s.fwstat, s.power.stateReg]).wok)

/-- The newest entries of the Error FIFO, which keep their places (R457). -/
def execErr (n : Option Nat) (s : State) : Host.Outcome State Fault Refusal :=
  .next (s.warden (lcReads s.nv.lc) (countOk n) s.coreRuns fun s =>
    ((s.errs.fifo.reverse.take (count n)).foldl (fun s e => s.wprint "" [e.bits]) s).wok)

def execCnt (s : State) : Host.Outcome State Fault Refusal :=
  .next (s.warden (lcReads s.nv.lc) true true fun s => (s.wprint "" (SMap.getList 0 s.errs.counts 0 16)).wok)

/-! ## Registers -/

/-- Prints control-BAR words from an offset on. -/
def State.wardenRead (s : State) (off : Nat) : Nat → State
  | 0 => s
  | k + 1 =>
    let (v, s) := s.readReg .warden off
    (s.wprint "" [v]).wardenRead (off + 4) k

def execRd (off : Nat) (n : Option Nat) (s : State) : Host.Outcome State Fault Refusal :=
  .next (s.warden (lcReads s.nv.lc) (countOk n && off % 4 == 0 && decide (off + 4 * count n ≤ 65536))
    (s.coreRuns || (List.range (count n)).all fun i => aonReg (off + 4 * i)) fun s => (s.wardenRead off (count n)).wok)

def execWr (off : Nat) (v : Nat) (s : State) : Host.Outcome State Fault Refusal :=
  .next (s.warden (lcWrites s.nv.lc) (off % 4 == 0 && decide (off < 65536) && decide (v < 2 ^ 32)) (s.coreRuns || aonReg off)
    fun s =>
      let s := s.accessWrite .warden off (BitVec.ofNat 32 v)
      if s.rst.active.isSome then s else s.wok)

/-! ## Memories -/

/-- 64-bit words of a memory: the Plaza's 128 MiB, the Kiosk's 256 KiB, the Depot's 8 KiB. -/
def wardenWords : WardenMem → Nat
  | .plaza => 16777216
  | .kiosk => 32768
  | .depot => 1024

/-- A Plaza word of 64 bits: one granule of a stored word. -/
def State.plazaWord (s : State) (a : Nat) : Nat := ofBytes (SMap.getList 0 s.plaza.mem (8 * a) 8)

/-- Writes a Plaza word; a whole granule written anew has no error left. -/
def State.setPlazaWord (s : State) (a v : Nat) : State :=
  { s with plaza := { s.plaza with
      mem := SMap.setList 0 s.plaza.mem (8 * a) (toBytes 8 v)
      bad := if SMap.get 0 s.plaza.bad (a / 8) = a % 8 + 1 then SMap.erase s.plaza.bad (a / 8) else s.plaza.bad } }

/-- Reads one word: none where the port answers BUSY or not at all. What the Depot's words hold is not stated, but for those
that the monitor has written. -/
def State.wardenWord (s : State) (m : WardenMem) (a : Nat) : Option Nat × State :=
  match m with
  | .plaza => (some (s.plazaWord a), s.ungate)
  | .kiosk =>
    match s.kioskAccess .sequencer .read a 0 with
    | (.value v, s) => (some v.toNat, s)
    | (_, s) => (none, s)
  | .depot =>
    match s.power.depot.words.find? fun e => e.1 == a with
    | some e => (some e.2.toNat, s)
    | none => (some (s.freeVal % 2 ^ 64), s.drawn)

/-- Prints words of a memory from an address on. -/
def State.wardenMem (s : State) (m : WardenMem) (a : Nat) : Nat → State
  | 0 => s.wok
  | k + 1 =>
    match s.wardenWord m a with
    | (some v, s) => (s.wprint "" [v]).wardenMem m (a + 1) k
    | (none, s) => s.werr "BUSY"

def execMem (m : WardenMem) (addr : Nat) (n : Option Nat) (s : State) : Host.Outcome State Fault Refusal :=
  .next (s.warden (lcWrites s.nv.lc) (decide (1 ≤ count n) && decide (addr + count n ≤ wardenWords m))
    (s.coreRuns || m == .depot) fun s => s.wardenMem m addr (count n))

/-- Writes one word of a memory. -/
def State.wardenPut (s : State) (m : WardenMem) (a : Nat) (v : Nat) : State :=
  match m with
  | .plaza => s.ungate.setPlazaWord a v
  | .kiosk => (s.kioskAccess .sequencer .write a (BitVec.ofNat 64 v)).2
  | .depot => setPower s fun p => { p with depot := { p.depot with
      words := SMap.insert p.depot.words a (BitVec.ofNat 64 v) } }

def execMemw (m : WardenMem) (addr : Nat) (v : Nat) (s : State) : Host.Outcome State Fault Refusal :=
  .next (s.warden (lcWrites s.nv.lc) (decide (addr < wardenWords m) && decide (v < 2 ^ 64)) (s.coreRuns || m == .depot)
    fun s => (s.wardenPut m addr v).wok)

/-! ## Reset -/

def execReset (s : State) : Host.Outcome State Fault Refusal :=
  .next (s.warden (lcReads s.nv.lc) true true fun s => s.wok.startReset .system Cause.warden)

def execBootclr (s : State) : Host.Outcome State Fault Refusal :=
  .next (s.warden (lcReads s.nv.lc) true true fun s => ({ s with rst := { s.rst with bootcnt := 0 } }).wok)

end Sys2Proof.Machine
end

