-- ==== Sys2Proof/Machine/Dispatch.lean ====
section
/-!
DEFINITION. The dispatcher: one arm per command of the table, each a direct call of that command's own meaning.
-/
namespace Sys2Proof.Machine

def exec (i : Instr) (s : State) : Host.Outcome State Fault Refusal :=
  match i with
  | .hello fn d => Sys2Proof.Machine.execHello fn d s
  | .dringSet fn d => Sys2Proof.Machine.execDringSet fn d s
  | .queueBind fn d => Sys2Proof.Machine.execQueueBind fn d s
  | .queueOpen fn d => Sys2Proof.Machine.execQueueOpen fn d s
  | .queueClose fn d => Sys2Proof.Machine.execQueueClose fn d s
  | .queueDiscard fn d => Sys2Proof.Machine.execQueueDiscard fn d s
  | .queueReset fn d => Sys2Proof.Machine.execQueueReset fn d s
  | .queueRelease fn d => Sys2Proof.Machine.execQueueRelease fn d s
  | .queryQueue fn d => Sys2Proof.Machine.execQueryQueue fn d s
  | .groupSet fn d => Sys2Proof.Machine.execGroupSet fn d s
  | .flagSet fn d => Sys2Proof.Machine.execFlagSet fn d s
  | .mark fn d => Sys2Proof.Machine.execMark fn d s
  | .rewind fn d => Sys2Proof.Machine.execRewind fn d s
  | .releaseMark fn d => Sys2Proof.Machine.execReleaseMark fn d s
  | .timeSet fn d => Sys2Proof.Machine.execTimeSet fn d s
  | .pinSet fn d => Sys2Proof.Machine.execPinSet fn d s
  | .policySet fn d => Sys2Proof.Machine.execPolicySet fn d s
  | .chainSetup fn d => Sys2Proof.Machine.execChainSetup fn d s
  | .pairSetup fn d => Sys2Proof.Machine.execPairSetup fn d s
  | .failover fn d => Sys2Proof.Machine.execFailover fn d s
  | .rekey fn d => Sys2Proof.Machine.execRekey fn d s
  | .keyUpdate fn d msg => Sys2Proof.Machine.execKeyUpdate fn d msg s
  | .lcSubmit fn d msg => Sys2Proof.Machine.execLcSubmit fn d msg s
  | .keyQuery fn d => Sys2Proof.Machine.execKeyQuery fn d s
  | .tenantRelease fn d => Sys2Proof.Machine.execTenantRelease fn d s
  | .rewindTakesEffect q => Sys2Proof.Machine.execRewindTakesEffect q s
  | .cmdPi fn v => Sys2Proof.Machine.execCmdPi fn v s
  | .cplCi fn v => Sys2Proof.Machine.execCplCi fn v s
  | .evtCi fn v => Sys2Proof.Machine.execEvtCi fn v s
  | .dringPi fn ring v => Sys2Proof.Machine.execDringPi fn ring v s
  | .hringEnable fn v => Sys2Proof.Machine.execHringEnable fn v s
  | .hringDisable fn v => Sys2Proof.Machine.execHringDisable fn v s
  | .baseLowWordWrite fn reg v => Sys2Proof.Machine.execBaseLowWordWrite fn reg v s
  | .baseHighWordWrite fn reg v => Sys2Proof.Machine.execBaseHighWordWrite fn reg v s
  | .tbNowLoRead acc => Sys2Proof.Machine.execTbNowLoRead acc s
  | .pwrReqRun acc v => Sys2Proof.Machine.execPwrReqRun acc v s
  | .pwrReqIdle acc v => Sys2Proof.Machine.execPwrReqIdle acc v s
  | .pwrReqSleep acc v => Sys2Proof.Machine.execPwrReqSleep acc v s
  | .pwrReqDeepSleep acc v => Sys2Proof.Machine.execPwrReqDeepSleep acc v s
  | .pwrReqOff acc v => Sys2Proof.Machine.execPwrReqOff acc v s
  | .pwrvoteWrite fn v => Sys2Proof.Machine.execPwrvoteWrite fn v s
  | .rstctlSys acc v => Sys2Proof.Machine.execRstctlSys acc v s
  | .rstctlCore acc v => Sys2Proof.Machine.execRstctlCore acc v s
  | .iorelWrite v => Sys2Proof.Machine.execIorelWrite v s
  | .maintWipe v => Sys2Proof.Machine.execMaintWipe v s
  | .maintBist v => Sys2Proof.Machine.execMaintBist v s
  | .maintKsweep v => Sys2Proof.Machine.execMaintKsweep v s
  | .linkEnable n v => Sys2Proof.Machine.execLinkEnable n v s
  | .linkDisable n v => Sys2Proof.Machine.execLinkDisable n v s
  | .linkRst n v => Sys2Proof.Machine.execLinkRst n v s
  | .portSplitWrite p v => Sys2Proof.Machine.execPortSplitWrite p v s
  | .ringSideEnable v => Sys2Proof.Machine.execRingSideEnable v s
  | .ringSideDisable v => Sys2Proof.Machine.execRingSideDisable v s
  | .ringInsert v => Sys2Proof.Machine.execRingInsert v s
  | .ringSideRst v => Sys2Proof.Machine.execRingSideRst v s
  | .flagmapWrite n v => Sys2Proof.Machine.execFlagmapWrite n v s
  | .errlogPop v => Sys2Proof.Machine.execErrlogPop v s
  | .ppsEnWrite v => Sys2Proof.Machine.execPpsEnWrite v s
  | .registerWrite acc off be v => Sys2Proof.Machine.execRegisterWrite acc off be v s
  | .kioskBarRead off wide => Sys2Proof.Machine.execKioskBarRead off wide s
  | .kioskBarWrite off wide v => Sys2Proof.Machine.execKioskBarWrite off wide v s
  | .kioskFetchadd off v => Sys2Proof.Machine.execKioskFetchadd off v s
  | .kioskSwap off v => Sys2Proof.Machine.execKioskSwap off v s
  | .hostBlockReset cause => Sys2Proof.Machine.execHostBlockReset cause s
  | .perstNRise => Sys2Proof.Machine.execPerstNRise s
  | .pcieConfigReady => Sys2Proof.Machine.execPcieConfigReady s
  | .flr fn => Sys2Proof.Machine.execFlr fn s
  | .vfEnableChange enable numVfs => Sys2Proof.Machine.execVfEnableChange enable numVfs s
  | .hostDmaFailure fn kind ring addr => Sys2Proof.Machine.execHostDmaFailure fn kind ring addr s
  | .hostWriteDescriptor fn ring desc data => Sys2Proof.Machine.execHostWriteDescriptor fn ring desc data s
  | .hostReadDescriptor fn ring desc => Sys2Proof.Machine.execHostReadDescriptor fn ring desc s
  | .dringFlushTimeout fn ring => Sys2Proof.Machine.execDringFlushTimeout fn ring s
  | .msixHoldoffEnd fn event => Sys2Proof.Machine.execMsixHoldoffEnd fn event s
  | .burstReceive n b => Sys2Proof.Machine.execBurstReceive n b s
  | .stagedBurstCommit n => Sys2Proof.Machine.execStagedBurstCommit n s
  | .burstTransmit n => Sys2Proof.Machine.execBurstTransmit n s
  | .credit n group kerb limit => Sys2Proof.Machine.execCredit n group kerb limit s
  | .creditGrant n => Sys2Proof.Machine.execCreditGrant n s
  | .creditRefresh n => Sys2Proof.Machine.execCreditRefresh n s
  | .statusRefresh n => Sys2Proof.Machine.execStatusRefresh n s
  | .timeWordTimer => Sys2Proof.Machine.execTimeWordTimer s
  | .inbandMark n q m => Sys2Proof.Machine.execInbandMark n q m s
  | .inbandRewind n q m => Sys2Proof.Machine.execInbandRewind n q m s
  | .inbandReleaseMark n q m => Sys2Proof.Machine.execInbandReleaseMark n q m s
  | .kioskReq n op tag addr data => Sys2Proof.Machine.execKioskReq n op tag addr data s
  | .powerVote n vote => Sys2Proof.Machine.execPowerVote n vote s
  | .sleepReq n vote => Sys2Proof.Machine.execSleepReq n vote s
  | .idleNoticeLeadEnd p => Sys2Proof.Machine.execIdleNoticeLeadEnd p s
  | .controlWordDiscard n bytes => Sys2Proof.Machine.execControlWordDiscard n bytes s
  | .trainingStart p => Sys2Proof.Machine.execTrainingStart p s
  | .trainingBlock p lane block => Sys2Proof.Machine.execTrainingBlock p lane block s
  | .trainingPhaseAdvance p => Sys2Proof.Machine.execTrainingPhaseAdvance p s
  | .linkUp p => Sys2Proof.Machine.execLinkUp p s
  | .trainingTimeout p => Sys2Proof.Machine.execTrainingTimeout p s
  | .markerLockTimeout p => Sys2Proof.Machine.execMarkerLockTimeout p s
  | .trainingRetry n => Sys2Proof.Machine.execTrainingRetry n s
  | .trainingSignalLoss p => Sys2Proof.Machine.execTrainingSignalLoss p s
  | .linkDown p cause => Sys2Proof.Machine.execLinkDown p cause s
  | .ringDataFrame side f => Sys2Proof.Machine.execRingDataFrame side f s
  | .syncFrame side f => Sys2Proof.Machine.execSyncFrame side f s
  | .ringHello side f => Sys2Proof.Machine.execRingHello side f s
  | .ack side f => Sys2Proof.Machine.execAck side f s
  | .resend side f => Sys2Proof.Machine.execResend side f s
  | .chainJoin side f => Sys2Proof.Machine.execChainJoin side f s
  | .chainCmd side f => Sys2Proof.Machine.execChainCmd side f s
  | .chainCmdApply q => Sys2Proof.Machine.execChainCmdApply q s
  | .ffMark side f => Sys2Proof.Machine.execFfMark side f s
  | .ffMarkApply q => Sys2Proof.Machine.execFfMarkApply q s
  | .ffRewind side f => Sys2Proof.Machine.execFfRewind side f s
  | .pairJoin side f => Sys2Proof.Machine.execPairJoin side f s
  | .revoke side f => Sys2Proof.Machine.execRevoke side f s
  | .gone side f => Sys2Proof.Machine.execGone side f s
  | .kioskFrame side f => Sys2Proof.Machine.execKioskFrame side f s
  | .ringFrameTransit side f => Sys2Proof.Machine.execRingFrameTransit side f s
  | .fallForwardSend q => Sys2Proof.Machine.execFallForwardSend q s
  | .helloTimer => Sys2Proof.Machine.execHelloTimer s
  | .ringMapExpiry station => Sys2Proof.Machine.execRingMapExpiry station s
  | .ringHelloMissing side => Sys2Proof.Machine.execRingHelloMissing side s
  | .ringAckTimer side => Sys2Proof.Machine.execRingAckTimer side s
  | .ringResendTimeout side => Sys2Proof.Machine.execRingResendTimeout side s
  | .syncTimer peer => Sys2Proof.Machine.execSyncTimer peer s
  | .sideDownTimeout side => Sys2Proof.Machine.execSideDownTimeout side s
  | .hopPauseTimeout side => Sys2Proof.Machine.execHopPauseTimeout side s
  | .syncTimeout q => Sys2Proof.Machine.execSyncTimeout q s
  | .pairFailNLow => Sys2Proof.Machine.execPairFailNLow s
  | .pairFailSyncTimeout q => Sys2Proof.Machine.execPairFailSyncTimeout q s
  | .chainSetupTimeout q => Sys2Proof.Machine.execChainSetupTimeout q s
  | .pairSetupTimeout q => Sys2Proof.Machine.execPairSetupTimeout q s
  | .ppsEdge => Sys2Proof.Machine.execPpsEdge s
  | .ppsLossTimeout => Sys2Proof.Machine.execPpsLossTimeout s
  | .phaseTermEnd => Sys2Proof.Machine.execPhaseTermEnd s
  | .ppsOutRise => Sys2Proof.Machine.execPpsOutRise s
  | .ppsOutFall => Sys2Proof.Machine.execPpsOutFall s
  | .timeSetEdgeTimeout => Sys2Proof.Machine.execTimeSetEdgeTimeout s
  | .pinReserve n => Sys2Proof.Machine.execPinReserve n s
  | .pinRelease q => Sys2Proof.Machine.execPinRelease q s
  | .pinLateIntervalEnd q => Sys2Proof.Machine.execPinLateIntervalEnd q s
  | .epochGraceEnd scope target => Sys2Proof.Machine.execEpochGraceEnd scope target s
  | .sweepVisit q => Sys2Proof.Machine.execSweepVisit q s
  | .flagEventIntervalEnd q => Sys2Proof.Machine.execFlagEventIntervalEnd q s
  | .adaptationVisit q => Sys2Proof.Machine.execAdaptationVisit q s
  | .kbDropIntervalEnd q => Sys2Proof.Machine.execKbDropIntervalEnd q s
  | .segmentGrant q => Sys2Proof.Machine.execSegmentGrant q s
  | .segmentRequestRetry q => Sys2Proof.Machine.execSegmentRequestRetry q s
  | .segmentZeroed seg => Sys2Proof.Machine.execSegmentZeroed seg s
  | .scrubRead quarter found => Sys2Proof.Machine.execScrubRead quarter found s
  | .maintActivityEnd quarter failing => Sys2Proof.Machine.execMaintActivityEnd quarter failing s
  | .quarterRest quarter => Sys2Proof.Machine.execQuarterRest quarter s
  | .quarterWake quarter => Sys2Proof.Machine.execQuarterWake quarter s
  | .busyNRelease => Sys2Proof.Machine.execBusyNRelease s
  | .crosswalkEvent cell => Sys2Proof.Machine.execCrosswalkEvent cell s
  | .pwrPendingStart => Sys2Proof.Machine.execPwrPendingStart s
  | .sleepEntry => Sys2Proof.Machine.execSleepEntry s
  | .deepSleepEntry nonce => Sys2Proof.Machine.execDeepSleepEntry nonce s
  | .offEntry => Sys2Proof.Machine.execOffEntry s
  | .sleepExit => Sys2Proof.Machine.execSleepExit s
  | .deepSleepExit depotOk droop rows ecc ctxDroop => Sys2Proof.Machine.execDeepSleepExit depotOk droop rows ecc ctxDroop s
  | .offExit => Sys2Proof.Machine.execOffExit s
  | .wakeN => Sys2Proof.Machine.execWakeN s
  | .svcAddressMatch => Sys2Proof.Machine.execSvcAddressMatch s
  | .laneSignalDetect n => Sys2Proof.Machine.execLaneSignalDetect n s
  | .pcieWake => Sys2Proof.Machine.execPcieWake s
  | .wakeSense mv => Sys2Proof.Machine.execWakeSense mv s
  | .domainPowerUp d => Sys2Proof.Machine.execDomainPowerUp d s
  | .wakeVoteRelease n => Sys2Proof.Machine.execWakeVoteRelease n s
  | .idleClockGate => Sys2Proof.Machine.execIdleClockGate s
  | .playoutUngate => Sys2Proof.Machine.execPlayoutUngate s
  | .vrPgTimeout => Sys2Proof.Machine.execVrPgTimeout s
  | .vrRetry => Sys2Proof.Machine.execVrRetry s
  | .avsStep mv raiseNeeded => Sys2Proof.Machine.execAvsStep mv raiseNeeded s
  | .avsAck => Sys2Proof.Machine.execAvsAck s
  | .avsAckTimeout => Sys2Proof.Machine.execAvsAckTimeout s
  | .pmbusStretchTimeout => Sys2Proof.Machine.execPmbusStretchTimeout s
  | .pmbAlertN statusWord => Sys2Proof.Machine.execPmbAlertN statusWord s
  | .brownOut => Sys2Proof.Machine.execBrownOut s
  | .pwrfailNFall => Sys2Proof.Machine.execPwrfailNFall s
  | .por refclk => Sys2Proof.Machine.execPor refclk s
  | .rstNAssert ns => Sys2Proof.Machine.execRstNAssert ns s
  | .rstNRelease => Sys2Proof.Machine.execRstNRelease s
  | .refclkLoss => Sys2Proof.Machine.execRefclkLoss s
  | .resetComplete => Sys2Proof.Machine.execResetComplete s
  | .supplyMonitorTrip r => Sys2Proof.Machine.execSupplyMonitorTrip r s
  | .watchdogExpiry => Sys2Proof.Machine.execWatchdogExpiry s
  | .fwcoreRequest => Sys2Proof.Machine.execFwcoreRequest s
  | .trialTimeout => Sys2Proof.Machine.execTrialTimeout s
  | .trimLoadDone crcOk degraded kioskDegraded => Sys2Proof.Machine.execTrimLoadDone crcOk degraded kioskDegraded s
  | .trimRetry => Sys2Proof.Machine.execTrimRetry s
  | .bootStart aOk bOk dir => Sys2Proof.Machine.execBootStart aOk bOk dir s
  | .configStoreApply => Sys2Proof.Machine.execConfigStoreApply s
  | .firmwareReady => Sys2Proof.Machine.execFirmwareReady s
  | .healthOk => Sys2Proof.Machine.execHealthOk s
  | .controlPlaneReturn => Sys2Proof.Machine.execControlPlaneReturn s
  | .dumpStart l1OrL0 busMaster => Sys2Proof.Machine.execDumpStart l1OrL0 busMaster s
  | .dumpComplete => Sys2Proof.Machine.execDumpComplete s
  | .dumpStartTimeout => Sys2Proof.Machine.execDumpStartTimeout s
  | .dumpOverrun => Sys2Proof.Machine.execDumpOverrun s
  | .info tag payload => Sys2Proof.Machine.execInfo tag payload s
  | .regRead tag payload => Sys2Proof.Machine.execRegRead tag payload s
  | .regWrite tag payload => Sys2Proof.Machine.execRegWrite tag payload s
  | .keyMsg tag payload => Sys2Proof.Machine.execKeyMsg tag payload s
  | .pkgBegin tag payload => Sys2Proof.Machine.execPkgBegin tag payload s
  | .pkgEraseDone r => Sys2Proof.Machine.execPkgEraseDone r s
  | .pkgData tag payload r => Sys2Proof.Machine.execPkgData tag payload r s
  | .pkgEnd tag payload r => Sys2Proof.Machine.execPkgEnd tag payload r s
  | .pkgActivateReset => Sys2Proof.Machine.execPkgActivateReset s
  | .pkgAbort tag payload => Sys2Proof.Machine.execPkgAbort tag payload s
  | .pkgUploadTimeout => Sys2Proof.Machine.execPkgUploadTimeout s
  | .bootClear tag payload => Sys2Proof.Machine.execBootClear tag payload s
  | .confirm tag payload => Sys2Proof.Machine.execConfirm tag payload s
  | .wardenAutobaud baud => Sys2Proof.Machine.execWardenAutobaud baud s
  | .id => Sys2Proof.Machine.execId s
  | .stat => Sys2Proof.Machine.execStat s
  | .err n => Sys2Proof.Machine.execErr n s
  | .cnt => Sys2Proof.Machine.execCnt s
  | .rd off n => Sys2Proof.Machine.execRd off n s
  | .wr off v => Sys2Proof.Machine.execWr off v s
  | .mem m addr n => Sys2Proof.Machine.execMem m addr n s
  | .memw m addr v => Sys2Proof.Machine.execMemw m addr v s
  | .reset => Sys2Proof.Machine.execReset s
  | .bootclr => Sys2Proof.Machine.execBootclr s
  | .dataModeStart p => Sys2Proof.Machine.execDataModeStart p s
  | .eqWindowEnd p met => Sys2Proof.Machine.execEqWindowEnd p met s
  | .blockResetComplete p => Sys2Proof.Machine.execBlockResetComplete p s
  | .flrComplete fn => Sys2Proof.Machine.execFlrComplete fn s
  | .vrPgRise => Sys2Proof.Machine.execVrPgRise s
  | .pcieL0Reached => Sys2Proof.Machine.execPcieL0Reached s
  | .vrAlertHoldoffEnd alertLow statusWord => Sys2Proof.Machine.execVrAlertHoldoffEnd alertLow statusWord s

end Sys2Proof.Machine
end

