-- ==== Sys2Proof/Machine/Idle.lean ====
section
/-!
DEFINITION. What one cycle of the time base does on its own, with no command waiting: the time base counts, the Kiosk's
port advances, training frames go on, cells settle and deliver, commands behind a fence take effect, and domains follow their
votes (spec/03, spec/07, spec/09, spec/12, spec/13, spec/14).
-/
namespace Sys2Proof.Machine

/-- Core cycles in one cycle of the time base. -/
def coresPerTick : Nat := 5

/-- Counting, in the AON block and the time base; the Kiosk's port counts with its clock. -/
def State.tick (s : State) : State :=
  { s with
    time := s.time.tick, cyc := s.cyc + coresPerTick
    kiosk := if s.coreRuns then s.kiosk.advance coresPerTick else s.kiosk }

/-- What goes on in the core and behind it while its clock runs: training frames and the pointers of the data Crosswalks. -/
def State.clocked (s : State) : State := if s.coreRuns then s.frameTicks.settleCells else s

def State.idle (s : State) : State := s.tick.clocked.deliverCells.releaseFences.settleVotes.settleHeld

end Sys2Proof.Machine
end

