-- ==== Sys2Proof/Safety.lean ====
section
/-!
DEFINITION. What claims about runs are stated in: the invariant that every step keeps, what no step ever takes back, and
the parts of the state, by which frames say what a command leaves alone.
-/
namespace Sys2Proof.Machine

/-! ## The invariant -/

/-- The memories list each byte or word once, in rising order, and no entry that reads as an unlisted one does (R326, R341). -/
def State.memWf (s : State) : Bool := SMap.wf 0 s.plaza.mem && SMap.wf 0 s.kiosk.words

/-- The Error FIFO holds at most 64 entries (R455), `SEQ` counts modulo 2^32 (Table ER-2), `LATER` saturates at 255
(Table ER-7), and the class counters at 0xFFFF_FFFF (R460). -/
structure Errors.Ok (e : Errors) : Prop where
  fifo : e.fifo.length ≤ 64
  seq : e.seq < 2 ^ 32
  later : e.dumpLater ≤ 255
  counts : ∀ c, SMap.get 0 e.counts c ≤ 0xFFFFFFFF

/-- `BOOTCNT` saturates at 15 (R403), and `TRIM_RETRY` at 255 (Table RS-6). -/
structure Reset.Ok (r : Reset) : Prop where
  bootcnt : r.bootcnt ≤ 15
  trimRetry : r.trimRetry ≤ 255

/-- The update counter has the values 0 to 4,095 (R408), and the life cycle the five states of Table SE-11. -/
structure Nv.Ok (n : Nv) : Prop where
  ctr : n.ctr < 4096
  lc : n.lc ≤ 4

/-- What every step keeps. -/
structure State.Inv (s : State) : Prop where
  mem : s.memWf = true
  errs : s.errs.Ok
  rst : s.rst.Ok
  nv : s.nv.Ok

/-! ## What is never taken back -/

/-- The fused identity and keys stay (R480, R424, R409), the update counter never decreases (R411), and the SVN floor never
falls (R444). -/
structure State.Onward (s t : State) : Prop where
  devid : t.nv.devid = s.nv.devid
  deviceKey : t.nv.deviceKey = s.nv.deviceKey
  woritHash : t.nv.woritHash = s.nv.woritHash
  svcAddr : t.nv.svcAddr = s.nv.svcAddr
  ctr : s.nv.ctr ≤ t.nv.ctr
  svnFloor : s.nv.svnFloor ≤ t.nv.svnFloor

/-! ## Parts of the state -/

/-- The parts of the state by which frames are stated. `mem` and `words` are the stored bytes of the Plaza and the words of the
Kiosk, which `plaza` and `kiosk` include. -/
inductive Part where
  | queues | groups | links | portCfg | portPol | portPolstat | ring | funcs | host | cmdSerial | plaza | mem | kiosk | words
  | time | flagmap | cells | power | rst | nv | fw | errs | cyc | free | out
deriving DecidableEq, Repr

/-- A part is the same in two states. -/
def State.same (s t : State) : Part → Prop
  | .queues => t.queues = s.queues
  | .groups => t.groups = s.groups
  | .links => t.links = s.links
  | .portCfg => t.portCfg = s.portCfg
  | .portPol => t.portPol = s.portPol
  | .portPolstat => t.portPolstat = s.portPolstat
  | .ring => t.ring = s.ring
  | .funcs => t.funcs = s.funcs
  | .host => t.host = s.host
  | .cmdSerial => t.cmdSerial = s.cmdSerial
  | .plaza => t.plaza = s.plaza
  | .mem => t.plaza.mem = s.plaza.mem
  | .kiosk => t.kiosk = s.kiosk
  | .words => t.kiosk.words = s.kiosk.words
  | .time => t.time = s.time
  | .flagmap => t.flagmap = s.flagmap
  | .cells => t.cells = s.cells
  | .power => t.power = s.power
  | .rst => t.rst = s.rst
  | .nv => t.nv = s.nv
  | .fw => t.fw = s.fw
  | .errs => t.errs = s.errs
  | .cyc => t.cyc = s.cyc
  | .free => t.free = s.free
  | .out => t.out = s.out

/-- Every part but the listed ones is the same in two states. -/
def State.keeps (s t : State) (changed : List Part) : Prop := ∀ p, p ∉ changed → s.same t p

/-- No queue of a function has a host end. -/
def State.noHostEnd (s : State) (g : Nat) : Prop := ∀ e ∈ s.groupQueues g, e.2.hostEnd = false

/-! ## Host commands -/

/-- The function, the opcode of the row and the descriptor of a host command (Table HI-8). -/
def hostOf : Instr → Option (Fin 16 × Nat × Block512)
  | .hello g d => some (g, 0x01, d)
  | .dringSet g d => some (g, 0x02, d)
  | .queueBind g d => some (g, 0x10, d)
  | .queueOpen g d => some (g, 0x11, d)
  | .queueClose g d => some (g, 0x12, d)
  | .queueDiscard g d => some (g, 0x13, d)
  | .queueReset g d => some (g, 0x14, d)
  | .queueRelease g d => some (g, 0x15, d)
  | .queryQueue g d => some (g, 0x16, d)
  | .groupSet g d => some (g, 0x17, d)
  | .flagSet g d => some (g, 0x20, d)
  | .mark g d => some (g, 0x28, d)
  | .rewind g d => some (g, 0x29, d)
  | .releaseMark g d => some (g, 0x2A, d)
  | .timeSet g d => some (g, 0x30, d)
  | .pinSet g d => some (g, 0x31, d)
  | .policySet g d => some (g, 0x38, d)
  | .chainSetup g d => some (g, 0x40, d)
  | .pairSetup g d => some (g, 0x41, d)
  | .failover g d => some (g, 0x42, d)
  | .rekey g d => some (g, 0x50, d)
  | .keyUpdate g d _ => some (g, 0x51, d)
  | .lcSubmit g d _ => some (g, 0x52, d)
  | .keyQuery g d => some (g, 0x53, d)
  | .tenantRelease g d => some (g, 0x54, d)
  | _ => none

/-- What the next command fetched from a function's ring is known by. -/
def State.nextRef (s : State) (g : Nat) (d : Block512) : CmdRef :=
  { fn := g, id := s.cmdSerial, opcode := Hdr.opcode d, tag := Hdr.tag d }

/-- The state once that command is fetched, before it takes effect (R304, R309). -/
def State.fetched (s : State) (g : Nat) (d : Block512) : State :=
  ({ s with cmdSerial := s.cmdSerial + 1, host := { s.host with fetchTurn := (g + 1) % 16 } }).updFunc g fun f =>
    { f with cmdCi := next32 f.cmdCi, inflight := f.inflight ++ [s.nextRef g d] }

/-- The sequencer fetches a command of an opcode, and nothing makes it wait. -/
structure State.Takes (s : State) (g op : Nat) (d : Block512) : Prop where
  opcode : Hdr.opcode d = op
  fetches : s.fetches g d = true
  first : (s.func g).fenced = []
  unfenced : Hdr.fence d = false
  running : s.rst.control = true
  alone : op = 0x01 → (s.func g).inflight = []

/-- It is also one that the agreed version admits, under that version (R310). -/
structure State.Accepts (s : State) (g op : Nat) (d : Block512) : Prop extends s.Takes g op d where
  agreed : (s.func g).verSet = true
  version : Hdr.ver d = (s.func g).ver
  admitted : ∃ v, opcodeFrom op = some v ∧ 0x10 + v ≤ (s.func g).ver

/-- The command ends with a status: `u` is the state before its completion is posted. -/
def State.endsWith (s : State) (g : Nat) (d : Block512) (u : State) (status : Nat) : State :=
  u.complete (s.nextRef g d) status

end Sys2Proof.Machine
end

