-- ==== Sys2Proof/Certificates/Slice0/Obligations.lean ====
section
/-!
DEFINITION. The statements for the provers, one for each entry of OBLIGATIONS.json: the machine as a whole, then family by
family what each command does where it completes, with what it leaves alone.
-/
open Sys2Proof Sys2Proof.Machine

/-! ## The machine as a whole -/

/-- The command at the front of the queue is the one a step runs, with the queue's rest. Log entry 4 names the model's choices
in it. -/
def Obligations.StepRunsTheFrontCommand : Prop :=
  ∀ (c : Instr) (rest : List Instr) (s : State),
    step { s with pending := c :: rest } = exec c { s with pending := rest }

/-- With no command waiting, a step lets one time-base cycle of five core cycles pass. The time base adds INC (R163); this is
so while a core reset is under way too (R165), when nothing else can write it. Log entry 1 names the model's choices in it. -/
def Obligations.EmptyQueueCountsTime : Prop :=
  ∀ s : State, s.pending = [] →
    ∃ t, step s = .next t ∧ t.pending = [] ∧ t.cyc = s.cyc + 5 ∧
      (s.rst.ctlReturn = true → t.time = s.time.tick ∧
        (s.time.running = true → t.time.tb = unsigned 96 (s.time.tb + s.time.inc)))

/-- Every command answers a next state, and leaves the queue of waiting commands as it is. Log entry 4 names the model's
choices in it. -/
def Obligations.EveryCommandAnswersAndKeepsTheQueue : Prop :=
  ∀ (c : Instr) (s : State), ∃ t, exec c s = .next t ∧ t.pending = s.pending

/-- The state after reset meets the invariant. Log entries 5, 6 and 7 name the model's choices in it. -/
def Obligations.ResetMeetsTheInvariant : Prop := State.reset.Inv

/-- Every step keeps the invariant: memories in canonical form, the Error FIFO and counters within their bounds, the boot
counter, the update counter and the life cycle within theirs. -/
def Obligations.EveryStepKeepsTheInvariant : Prop :=
  ∀ s t : State, s.Inv → step s = .next t → t.Inv

/-- No step takes back the update counter or the SVN floor, or changes the fused identity and keys. -/
def Obligations.NoStepTakesBackProvisioning : Prop :=
  ∀ s t : State, step s = .next t → s.Onward t

/-! ## The host block -/

/-- `HRING_CTRL` (Table HI-5): setting EN starts the command and completion rings at index 0, an `HRING_CFG` outside 6 to 16
makes it fail with DBERR, and clearing EN ends RUN, FAULT and VER_SET and keeps the other ring registers, while the
commands already fetched keep the version they take effect under. Log entry 48 names the model's choices in it. -/
def Obligations.HringCtrlStartsAndStopsTheRings : Prop :=
  ∀ (g : Fin 16) (v : Word32) (s : State), s.fnReached g.val = true →
    (bit v 0 = true → (s.func g.val).en = false → hringCfgOk (s.func g.val).hcfg = true →
      ∃ t, exec (.hringEnable g v) s = .next t ∧ (t.func g.val).running = true ∧ (t.func g.val).hctrl = v &&& hctrlMask g.val ∧
        (t.func g.val).cmdPi = 0 ∧ (t.func g.val).cmdCi = 0 ∧ (t.func g.val).cplPi = 0 ∧ (t.func g.val).cplCi = 0 ∧
        (t.func g.val).evtCi = 0 ∧ (t.func g.val).verSet = false ∧ (t.func g.val).cmdBase = (s.func g.val).cmdBase ∧
        (∀ h, h ≠ g.val → t.func h = s.func h) ∧ s.keeps t [.funcs, .out]) ∧
    (bit v 0 = true → (s.func g.val).en = false → hringCfgOk (s.func g.val).hcfg = false →
      exec (.hringEnable g v) s = .next (s.setFunc g.val { s.func g.val with
        hctrl := v &&& hctrlMask g.val &&& 0xFFFFFFFE#32, dberr := true })) ∧
    (bit v 0 = false → (s.func g.val).en = true →
      ∃ t, exec (.hringDisable g v) s = .next t ∧ (t.func g.val).running = false ∧ (t.func g.val).fault = false ∧
        (t.func g.val).verSet = false ∧ (t.func g.val).hctrl = v &&& hctrlMask g.val ∧
        (t.func g.val).hcfg = (s.func g.val).hcfg ∧ (t.func g.val).cmdBase = (s.func g.val).cmdBase ∧
        (t.func g.val).evtLost = (s.func g.val).evtLost ∧ (t.func g.val).drings = (s.func g.val).drings ∧
        (t.func g.val).cmdPi = 0 ∧ (t.func g.val).cplPi = 0 ∧ (t.func g.val).evtPi = 0 ∧
        (t.func g.val).fenced = (s.func g.val).fenced ∧ (t.func g.val).orphanVer = (s.func g.val).versionKept ∧
        (∀ h, h ≠ g.val → t.func h = s.func h) ∧ s.keeps t [.funcs])

/-- R472: a low word is held and does not change the register; the high word puts both into effect, the register's reserved
bits 0; a second low word replaces the first. While EN is 1 a low word has no effect and a high word discards the held one
(R303); `DUMP_BASE` of function 0 is written in the same two steps, and keeps VALID. Log entry 48 names the model's choices
in it. -/
def Obligations.BaseRegistersTakeEffectWithTheirHighWord : Prop :=
  (∀ (g : Fin 16) (r : BaseReg) (low high : Word32) (s : State), s.fnReached g.val = true → r ≠ .dump →
    (s.func g.val).en = false →
    (∃ t, exec (.baseLowWordWrite g r low) s = .next t ∧ (t.func g.val).base r = (s.func g.val).base r ∧
      (t.func g.val).low r = some low ∧ (∀ h, h ≠ g.val → t.func h = s.func h) ∧ s.keeps t [.funcs]) ∧
    ((s.func g.val).low r = some low →
      ∃ t, exec (.baseHighWordWrite g r high) s = .next t ∧
        (t.func g.val).base r = high.toNat * 2 ^ 32 + low.toNat / 4096 * 4096 ∧ (t.func g.val).low r = none ∧
        (∀ h, h ≠ g.val → t.func h = s.func h) ∧ s.keeps t [.funcs])) ∧
  (∀ (g : Fin 16) (r : BaseReg) (v : Word32) (s : State), s.fnReached g.val = true → r ≠ .dump → (s.func g.val).en = true →
    exec (.baseLowWordWrite g r v) s = .next s ∧
    ∃ t, exec (.baseHighWordWrite g r v) s = .next t ∧ (t.func g.val).base r = (s.func g.val).base r ∧
      (t.func g.val).low r = none) ∧
  (∀ (low high : Word32) (s : State), s.fnReached 0 = true → s.coreRuns = true →
    (∃ t, exec (.baseLowWordWrite 0 .dump low) s = .next t ∧ t.errs.dumpBase = s.errs.dumpBase ∧
      t.errs.dumpLow = some low ∧ s.keeps t [.errs]) ∧
    (s.errs.dumpLow = some low →
      ∃ t, exec (.baseHighWordWrite 0 .dump high) s = .next t ∧ t.errs.dumpLow = none ∧
        t.errs.dumpBase = high.toNat * 2 ^ 32 + low.toNat / 4096 * 4096 + low.toNat % 2 ∧ s.keeps t [.errs]))

/-- A doorbell that neither moves back nor passes its limit sets its index, and nothing else where no event was lost (R306,
R307). One that arrives while CORE does not run or a core reset is under way waits, and replaces an earlier value of the
same doorbell (R323). Log entry 49 names the model's choices in it. -/
def Obligations.DoorbellsSetTheirIndexOrWait : Prop :=
  (∀ (g : Fin 16) (v : Word32) (s : State), s.fnReached g.val = true → s.coreRuns = true → s.rst.ctlReturn = false →
    let f := s.func g.val
    (f.en = true → ringDist v.toNat f.cmdCi ≤ f.cmdSize → ringDist f.cmdPi f.cmdCi ≤ ringDist v.toNat f.cmdCi →
      exec (.cmdPi g v) s = .next (s.setFunc g.val { f with cmdPi := v.toNat })) ∧
    (f.en = true → ringDist v.toNat f.cplCi ≤ ringDist f.cplPi f.cplCi →
      exec (.cplCi g v) s = .next (s.setFunc g.val { f with cplCi := v.toNat })) ∧
    (f.en = true → f.lostSince = 0 → ringDist v.toNat f.evtCi ≤ ringDist f.evtPi f.evtCi →
      exec (.evtCi g v) s = .next (s.setFunc g.val { f with evtCi := v.toNat })) ∧
    (∀ r : Fin 512, let d := s.dring g.val r.val
      d.en = true → ringDist v.toNat d.ci ≤ 2 ^ d.log2 → ringDist d.pi d.ci ≤ ringDist v.toNat d.ci →
      exec (.dringPi g r v) s = .next (s.setFunc g.val { f with drings := SMap.set {} f.drings r.val { d with pi := v.toNat } }))) ∧
  (∀ (g : Fin 16) (v : Word32) (s : State), s.fnReached g.val = true → (s.coreRuns = false ∨ s.rst.ctlReturn = true) →
    ∃ t, exec (.cmdPi g v) s = .next t ∧ SMap.get 0 (t.func g.val).latched 0 = v.toNat + 1 ∧
      (t.func g.val).cmdPi = (s.func g.val).cmdPi ∧ (∀ h, h ≠ g.val → t.func h = s.func h) ∧ s.keeps t [.funcs])

/-- A doorbell that moves back, passes its limit or names a ring that is not enabled sets DBERR, raises `DOORBELL_BAD` with the
function, the offset and the value, and leaves every index as it was (R307). -/
def Obligations.BadDoorbellIsRejected : Prop :=
  ∀ (g : Fin 16) (v : Word32) (s : State), s.fnReached g.val = true → s.coreRuns = true → s.rst.ctlReturn = false →
    let f := s.func g.val
    let bad (off : Nat) : State := (s.setFunc g.val { f with dberr := true }).raise 0x501 none g.val off v.toNat
    (f.en = false ∨ f.cmdSize < ringDist v.toNat f.cmdCi ∨ ringDist v.toNat f.cmdCi < ringDist f.cmdPi f.cmdCi →
      exec (.cmdPi g v) s = .next (bad 0) ∧ ((bad 0).func g.val).cmdPi = f.cmdPi ∧ ((bad 0).func g.val).dberr = true) ∧
    (f.en = false ∨ ringDist f.cplPi f.cplCi < ringDist v.toNat f.cplCi →
      exec (.cplCi g v) s = .next (bad 4) ∧ ((bad 4).func g.val).cplCi = f.cplCi ∧ ((bad 4).func g.val).dberr = true) ∧
    (f.en = false ∨ ringDist f.evtPi f.evtCi < ringDist v.toNat f.evtCi →
      exec (.evtCi g v) s = .next (bad 8) ∧ ((bad 8).func g.val).evtCi = f.evtCi ∧ ((bad 8).func g.val).dberr = true) ∧
    (∀ r : Fin 512, let d := s.dring g.val r.val
      d.en = false ∨ 2 ^ d.log2 < ringDist v.toNat d.ci ∨ ringDist v.toNat d.ci < ringDist d.pi d.ci →
      exec (.dringPi g r v) s = .next (bad (0x800 + 4 * r.val)) ∧ ((bad (0x800 + 4 * r.val)).func g.val).drings = f.drings)

/-- What the end of a HOLDOFF interval, `PERST_N` rising, the configuration space becoming ready and the link reaching L0 do
(R301, R324, R367). -/
def Obligations.HostBlockEvents : Prop :=
  (∀ (g : Fin 16) (s : State), (s.func g.val).cplHoldoff = true → (s.func g.val).cplHeld = true →
    exec (.msixHoldoffEnd g false) s =
      .next ((s.setFunc g.val { s.func g.val with cplHeld := false }).signal g.val (s.func g.val).cplVec)) ∧
  (∀ (g : Fin 16) (s : State), (s.func g.val).evtHeld = false →
    exec (.msixHoldoffEnd g true) s = .next (s.setFunc g.val { s.func g.val with evtHoldoff := false })) ∧
  (∀ s : State, bit s.power.domains Dom.host = true →
    exec .perstNRise s =
      .next { s with host := { s.host with perstN := true, inReset := false, training := true } }) ∧
  (∀ s : State, s.host.training = true →
    exec .pcieConfigReady s = .next { s with host := { s.host with cfgReady := true } } ∧
    exec .pcieL0Reached s = .next { s with host := { s.host with l0 := true, pcieWakeN := true } })

/-- An FLR of function g returns its ring registers, doorbells, MSI-X table and data rings to reset while its latched events
and the commands it fetched stay, its accesses that wait in the host bridge go, and no other function, queue or register
changes where no queue of the function has a host end (R325); until the FLR completes, the function is not reached. Log
entry 79 names the model's choices in it. -/
def Obligations.FlrResetsOneFunction : Prop :=
  ∀ (g : Fin 16) (s : State), s.host.inReset = false → s.fnExists g.val = true → g ≠ 0 →
    (∃ t, exec (.flr g) s = .next t ∧ t.fnReached g.val = false ∧ t.links = s.links ∧ t.kiosk = s.kiosk ∧ t.time = s.time ∧
      t.power = s.power ∧ t.rst = s.rst ∧ t.nv = s.nv) ∧
    (s.noHostEnd g.val →
      ∃ t, exec (.flr g) s = .next t ∧ s.keeps t [.funcs, .host] ∧ (∀ h, h ≠ g.val → t.func h = s.func h) ∧
        t.host = { s.host with stalled := s.host.stalled.filter fun a => a.fn != g.val } ∧
        t.func g.val = { heldEvents := (s.func g.val).heldEvents, heldOver := (s.func g.val).heldOver
                         fenced := (s.func g.val).fenced, orphanVer := (s.func g.val).versionKept, flrBusy := true }) ∧
    (∃ t, exec (.flrComplete g) s = .next t ∧ t.func g.val = { s.func g.val with flrBusy := false } ∧
      (∀ h, h ≠ g.val → t.func h = s.func h) ∧ s.keeps t [.funcs])

/-- A block reset of the host block clears VF Enable, resets the registers of all 16 functions, discards a held low word of
`DUMP_BASE`, and keeps links, Kiosk, time base and key store; after a hot reset the link trains again, while `PERST_N`
keeps the block in reset (R324, R472). Log entry 79 names the model's choices in it. -/
def Obligations.HostBlockResetResetsEveryFunction : Prop :=
  ∀ (c : HostResetCause) (s : State), (∀ g, s.noHostEnd g) →
    ∃ t, exec (.hostBlockReset c) s = .next t ∧ t.host.vfEnable = false ∧ t.host.inReset = (c == .perst) ∧
      t.errs.dumpLow = none ∧ t.queues = s.queues ∧ t.links = s.links ∧ t.kiosk = s.kiosk ∧ t.time = s.time ∧ t.nv = s.nv ∧
      ∀ g, g < 16 → t.func g = (s.func g).afterReset g

/-- A change of VF Enable takes effect in `SR-IOV` and undergoes an FLR in no function where it removes none (R298). Log entry
77 names the model's choices in it. -/
def Obligations.VfEnableAddsFunctions : Prop :=
  ∀ (s : State) (n : Fin 16), s.fnConfigured 0 = true → (s.host.vfEnable = true → s.host.numVfs ≤ n.val) →
    ∃ t, exec (.vfEnableChange true n) s = .next t ∧ t.host.vfEnable = true ∧ t.host.numVfs = n.val ∧ s.keeps t [.host] ∧
      ∀ g, g < 16 → (t.fnExists g = true ↔ g ≤ n.val)

/-- A failed access of a command, completion or event ring raises `HOST_DMA_ERR` and sets FAULT; a failed write of a result
block marks the function's next one; a failed access of a data ring with nothing outstanding stops it, and its queues,
where none uses it, are left alone (R321). Log entry 11 names the model's choices in it. -/
def Obligations.FailedDmaAccess : Prop :=
  ∀ (g : Fin 16) (k : DmaKind) (r : Fin 512) (a : Word64) (s : State), s.fnReached g.val = true →
    (k = .command ∨ k = .completion ∨ k = .event → (s.func g.val).en = true →
      ∃ t, exec (.hostDmaFailure g k r a) s = .next t ∧ (t.func g.val).fault = true ∧ (t.func g.val).running = false ∧
        t.errs.seq = (s.errs.seq + 1) % 2 ^ 32 ∧ s.keeps t [.funcs, .errs, .fw, .ring, .out]) ∧
    (exec (.hostDmaFailure g .result r a) s = .next (s.setFunc g.val { s.func g.val with resFail := true })) ∧
    ((s.dring g.val r.val).en = true → ringDist (s.dring g.val r.val).pi (s.dring g.val r.val).ci = 0 →
      (∀ e ∈ s.groupQueues g.val, e.2.usesRing r.val = false) →
      ∃ t, exec (.hostDmaFailure g .data r a) s = .next t ∧ t.dring g.val r.val = {} ∧
        t.errs.seq = (s.errs.seq + 1) % 2 ^ 32 ∧ s.keeps t [.funcs, .errs, .fw, .ring, .out])

/-! ## Host commands -/

/-- R310: a command that the sequencer takes is refused by its header alone: BAD_OPCODE for an opcode that the table lacks,
BAD_VERSION where no version is agreed or VER differs from it, BAD_OPCODE where the agreed version lacks the opcode. HELLO
is accepted under any VER, and every other command of the agreed version under that version alone. -/
def Obligations.HeaderChecksComeFirst : Prop :=
  ∀ (c : Instr) (g : Fin 16) (op : Nat) (d : Block512) (s : State), hostOf c = some (g, op, d) →
    (opcodeFrom (Hdr.opcode d) = none → s.Takes g.val (Hdr.opcode d) d →
      exec c s = .next (s.endsWith g.val d (s.fetched g.val d) St.badOpcode)) ∧
    (s.Takes g.val op d → op = 0x01 → exec c s = .next ((s.fetched g.val d).doHello (s.nextRef g.val d) d)) ∧
    (s.Takes g.val op d → op ≠ 0x01 →
      ((s.func g.val).verSet = false →
        exec c s = .next (s.endsWith g.val d (s.fetched g.val d) St.badVersion)) ∧
      ((s.func g.val).verSet = true → Hdr.ver d ≠ (s.func g.val).ver →
        exec c s = .next (s.endsWith g.val d (s.fetched g.val d) St.badVersion)) ∧
      ((s.func g.val).verSet = true → Hdr.ver d = (s.func g.val).ver →
        (∀ v, opcodeFrom op = some v → (s.func g.val).ver < 0x10 + v) →
        exec c s = .next (s.endsWith g.val d (s.fetched g.val d) St.badOpcode)) ∧
      ((s.func g.val).verSet = true → Hdr.ver d = (s.func g.val).ver →
        (∀ v, opcodeFrom op = some v → 0x10 + v ≤ (s.func g.val).ver) →
        ∃ m, exec c s = .next ((s.fetched g.val d).hostEffect (s.nextRef g.val d) d m)))

/-- A command is not fetched while its ring is stopped or empty, 256 commands are in flight, the completion ring has no free
slot, the datapath is frozen or CORE sleeps, nor while the round robin's turn is another ring's (R309, R312); nothing
changes. A fetched command gives the turn to the next ring. A fetched command with FENCE waits while an earlier one of its
ring is in flight (R308). Log entries 50 and 101 name the model's choices in it. -/
def Obligations.CommandsWaitToBeFetchedAndBehindAFence : Prop :=
  ∀ (c : Instr) (g : Fin 16) (op : Nat) (d : Block512) (s : State), hostOf c = some (g, op, d) → Hdr.opcode d = op →
    (((s.func g.val).running = false ∨ (s.func g.val).cmdPi = (s.func g.val).cmdCi ∨ 256 ≤ (s.func g.val).inflight.length ∨
      (s.func g.val).cplSize ≤ ringDist (s.func g.val).cplPi (s.func g.val).cplCi + (s.func g.val).inflight.length ∨
      s.errs.frozen = true ∨ s.coreRuns = false ∨ s.fnReached g.val = false ∨
      (s.rst.control = true ∧ s.nextRing ≠ some g.val)) → exec c s = .next s) ∧
    (s.fetches g.val d = true → Hdr.fence d = true → (∃ e rest, (s.func g.val).inflight = e :: rest ∧ e.id < s.cmdSerial) →
      ∃ t, exec c s = .next t ∧ (∃ m, (t.func g.val).fenced = (s.func g.val).fenced ++ [(s.nextRef g.val d, d, m)]) ∧
        (t.func g.val).cmdCi = next32 (s.func g.val).cmdCi ∧ (∀ h, h ≠ g.val → t.func h = s.func h) ∧
        t.host = { s.host with fetchTurn := (g.val + 1) % 16 } ∧ s.keeps t [.funcs, .cmdSerial, .host])

/-- R29: a VF's command that names a queue outside its own group completes NOT_OWNER and changes nothing. -/
def Obligations.VfMayNotCommandAnotherGroupsQueue : Prop :=
  ∀ (c : Instr) (g : Fin 16) (op : Nat) (d : Block512) (s : State), hostOf c = some (g, op, d) → s.Accepts g.val op d →
    op ∈ [0x10, 0x11, 0x12, 0x13, 0x14, 0x15, 0x16, 0x20, 0x28, 0x29, 0x2A, 0x31, 0x38, 0x40, 0x41, 0x42] →
    g ≠ 0 → qidOf d / 512 ≠ g.val →
    exec c s = .next (s.endsWith g.val d (s.fetched g.val d) St.notOwner)

/-- `HELLO` agrees the highest version offered and completes OK with it and the supported versions in INFO; one that offers
none leaves the agreement as it is (R311). `DRING_SET` enables a ring with the fields of its body (Table HI-12). `TIME_SET`
now sets the time base, its frequency term, or only reads it (R173, R174). Log entries 53, 74 and 81 name the model's
choices in it. -/
def Obligations.HelloDringSetAndTimeSet : Prop :=
  (∀ (g : Fin 16) (d : Block512) (s : State), s.Takes g.val 0x01 d →
    (∀ v, bestVersion (fld d 128 3) = some v →
      exec (.hello g d) s = .next (((s.fetched g.val d).updFunc g.val fun f => { f with verSet := true, ver := v }).completeInfo
        (s.nextRef g.val d) St.ok (v + 256 * 7 + 65536 * g.val))) ∧
    (fld d 128 3 = 0 → exec (.hello g d) s = .next ((s.fetched g.val d).completeInfo (s.nextRef g.val d) St.badVersion
      ((s.func g.val).ver % 256 + 256 * 7 + 65536 * g.val)))) ∧
  (∀ (g : Fin 16) (d : Block512) (s : State), s.Accepts g.val 0x02 d → bit d 144 = true → 6 ≤ fld d 145 5 →
    fld d 145 5 ≤ 16 → fld d 192 64 % 4096 = 0 → (s.dring g.val (fld d 128 9)).en = false → s.noHostEnd g.val →
    ∃ u, exec (.dringSet g d) s = .next (s.endsWith g.val d u St.ok) ∧
      u.dring g.val (fld d 128 9) = { en := true, log2 := fld d 145 5, vecEn := bit d 150, vec := fld d 152 6
                                      flush := fld d 160 16, base := fld d 192 64 } ∧
      (∀ h, h ≠ g.val → u.func h = s.func h) ∧ s.keeps u [.funcs, .cmdSerial, .host]) ∧
  (∀ (d : Block512) (s : State), s.Accepts 0 0x30 d → fld d 256 64 = 0 →
    (fld d 128 4 = 1 →
      ∃ u, exec (.timeSet 0 d) s = .next (s.endsWith 0 d u St.ok) ∧ u.tbNs = fld d 192 64 ∧ u.tbFrac = 0 ∧
        u.time.todDone = true ∧ u.time.f = s.time.f ∧ u.time.lock = s.time.lockAfterNow) ∧
    (fld d 128 4 = 2 → -200000 ≤ signed 32 (fld d 160 32) → signed 32 (fld d 160 32) ≤ 200000 →
      ∃ u, exec (.timeSet 0 d) s = .next (s.endsWith 0 d u St.ok) ∧ u.time = { s.time with f := signed 32 (fld d 160 32) } ∧
        s.keeps u [.funcs, .cmdSerial, .host, .time]) ∧
    (fld d 128 4 = 3 → exec (.timeSet 0 d) s = .next (s.endsWith 0 d (s.fetched 0 d) St.ok)))

/-- The life of a queue under its commands (R50, Tables QU-3, QU-5): `QUEUE_BIND` makes an UNBOUND queue READY with the body's
binding, `QUEUE_OPEN` opens one whose ends are up, `QUEUE_CLOSE` of an OPEN one drains it, `QUEUE_DISCARD` and
`QUEUE_RESET` drop its data (a READY or CLOSED queue has none, and only its predictor and measurement start anew), and
`QUEUE_RELEASE` returns it to UNBOUND. The queue is in no chain, and no other queue is touched by any but `QUEUE_DISCARD`
and `QUEUE_RESET`, which complete what waits on it. Log entries 60 and 85 name the model's choices in it. -/
def Obligations.QueueCommandsMoveTheState : Prop :=
  ∀ (g : Fin 16) (d : Block512) (s : State),
    let n := qidOf d
    (s.Accepts g.val 0x10 d → s.bindStatus g.val d = St.ok →
      ∃ u, exec (.queueBind g d) s = .next (s.endsWith g.val d u St.ok) ∧ (u.q n).st = .ready ∧ (u.q n).b = bindingOf s d ∧
        (u.q n).wptr = 0 ∧ (u.q n).rptr = 0 ∧ (u.q n).fcfg = {} ∧ (∀ m, m ≠ n → u.q m = s.q m) ∧ u.links = s.links) ∧
    (s.Accepts g.val 0x11 d → owns g.val n = true → ((s.q n).st = .ready ∨ (s.q n).st = .closed) → (s.q n).hasRingEnd = false →
      (s.q n).chained = false → s.keysBound n = true → (∀ l ∈ (s.q n).endLinks, (s.link l).phy.st = .up) →
      ∃ u, exec (.queueOpen g d) s = .next (s.endsWith g.val d u St.ok) ∧ (u.q n).st = .opened ∧ (u.q n).b = (s.q n).b ∧
        (u.q n).wptr = (s.q n).wptr ∧ (u.q n).rptr = (s.q n).rptr ∧ (∀ m, m ≠ n → u.q m = s.q m) ∧ u.plaza = s.plaza) ∧
    (s.Accepts g.val 0x12 d → owns g.val n = true → (s.q n).chained = false → (s.q n).st = .opened →
      ∃ t, exec (.queueClose g d) s = .next t ∧ ((t.q n).st = .closing ∨ (t.q n).st = .closed)) ∧
    (s.Accepts g.val 0x12 d → owns g.val n = true → (s.q n).chained = false → ((s.q n).st = .ready ∨ (s.q n).st = .closed) →
      exec (.queueClose g d) s = .next (s.endsWith g.val d (s.fetched g.val d) St.ok)) ∧
    (s.Accepts g.val 0x13 d → owns g.val n = true → (s.q n).chained = false →
      ((s.q n).st = .opened ∨ (s.q n).st = .closing ∨ (s.q n).st = .held) →
      ∃ u, exec (.queueDiscard g d) s = .next (s.endsWith g.val d u St.ok) ∧ (u.q n).st = .closed ∧
        (u.q n).rptr = (u.q n).wptr ∧ (u.q n).wmsg = none ∧ (u.q n).rmsg = none ∧ u.links = s.links ∧ u.kiosk = s.kiosk) ∧
    (s.Accepts g.val 0x13 d → owns g.val n = true → (s.q n).chained = false → (s.q n).hostEnd = false →
      ((s.q n).st = .ready ∨ (s.q n).st = .closed) →
      ∃ u, exec (.queueDiscard g d) s = .next (s.endsWith g.val d u St.ok) ∧ (u.q n).st = (s.q n).st ∧
        (u.q n).rptr = (s.q n).rptr ∧ (u.q n).wptr = (s.q n).wptr ∧ (u.q n).kerb.policy = (s.q n).kerb.policy ∧
        (u.q n).kerb.nsoj = 0 ∧ (∀ m, m ≠ n → u.q m = s.q m)) ∧
    (s.Accepts g.val 0x14 d → owns g.val n = true → (s.q n).chained = false → (s.q n).st ≠ .unbound →
      ∃ u, exec (.queueReset g d) s = .next (s.endsWith g.val d u St.ok) ∧ (u.q n).st = .ready ∧ (u.q n).rptr = (u.q n).wptr ∧
        (u.q n).truncCnt = 0 ∧ (u.q n).refusedCnt = 0 ∧ (u.q n).msnW = 0 ∧ (u.q n).msnR = 0) ∧
    (s.Accepts g.val 0x15 d → owns g.val n = true → (s.q n).chained = false → ((s.q n).st = .ready ∨ (s.q n).st = .closed) →
      ∃ u, exec (.queueRelease g d) s = .next (s.endsWith g.val d u St.ok) ∧ u.q n = {} ∧ (∀ m, m ≠ n → u.q m = s.q m) ∧
        u.links = s.links)

/-- The settings commands (R57, R58, R110, R185, R208): `QUERY_QUEUE` reports and changes nothing, `GROUP_SET` sets the quotas
of a group, `FLAG_SET` the flag settings of a bound queue, `PIN_SET` those of a pinned queue, and `POLICY_SET` with `OP` =
0 the policy of a KERBSIDE queue, whose pacing rate and measurement start from it. Log entry 80 names the model's choices
in it. -/
def Obligations.SettingsCommandsStoreTheirBody : Prop :=
  ∀ (g : Fin 16) (d : Block512) (s : State),
    let n := qidOf d
    (s.Accepts g.val 0x16 d → owns g.val n = true → fld d 192 64 ≠ 0 → fld d 192 64 % 64 = 0 →
      exec (.queryQueue g d) s = .next ((s.fetched g.val d).writeResult (s.nextRef g.val d) (fld d 192 64)
        ((s.fetched g.val d).queryBlock n) St.ok)) ∧
    (s.Accepts g.val 0x17 d → g = 0 → fld d 160 16 ≤ 32768 → fld d 176 16 ≤ 32768 → s.groupRsv (fld d 128 4) ≤ fld d 160 16 →
      exec (.groupSet g d) s = .next (s.endsWith g.val d ((s.fetched g.val d).setGroup (fld d 128 4)
        { s.group (fld d 128 4) with gqRsv := fld d 160 16, gqMax := fld d 176 16 }) St.ok)) ∧
    (s.Accepts g.val 0x20 d → owns g.val n = true → (s.q n).st ≠ .unbound → fld d 448 64 = 0 →
      let c := flagCfgOf d
      (c.enable / 4 % 2 = 1 → 100 ≤ c.fafLead ∧ c.fafLead ≤ 1000000) →
      (c.enable / 8 % 2 = 1 → 100 ≤ c.faeLead ∧ c.faeLead ≤ 1000000) →
      (c.enable % 2 = 1 → c.afHys ≤ c.afSet) → (c.enable / 4 % 2 = 1 → c.fafHys ≤ c.fafSet) →
      (c.afUnit = true → (s.q n).hasRingEnd = true) →
      ∃ u, exec (.flagSet g d) s = .next (s.endsWith g.val d u St.ok) ∧ (u.q n).fcfg = c ∧ (u.q n).st = (s.q n).st ∧
        (u.q n).wptr = (s.q n).wptr ∧ (u.q n).rptr = (s.q n).rptr ∧ (∀ m, m ≠ n → u.q m = s.q m) ∧
        s.keeps u [.queues, .funcs, .cmdSerial, .host, .out]) ∧
    (s.Accepts g.val 0x31 d → owns g.val n = true → (s.q n).st ≠ .unbound → (s.q n).b.pin = true → fld d 160 32 ≤ 1000000000 →
      fld d 192 32 = 0 → (s.q n).pin.horizon = 1000000000 → fld d 256 64 = 0 →
      exec (.pinSet g d) s = .next (s.endsWith g.val d ((s.fetched g.val d).setQ n { s.q n with
        pin := { (s.q n).pin with stamped := bit d 144, release := bit d 145, offset := fld d 160 32 } }) St.ok)) ∧
    (s.Accepts g.val 0x38 d → owns g.val n = true → (s.q n).st ≠ .unbound → (s.q n).b.kerb = true → fld d 144 2 = 0 →
      bit d 146 = false → fld d 448 64 = 0 → policyBad (s.q n) (policyOf d) = false →
      ∃ u, exec (.policySet g d) s = .next (s.endsWith g.val d u St.ok) ∧ (u.q n).kerb.policy = policyOf d ∧
        (u.q n).kerb.paceNow = (policyOf d).paceMax ∧ (u.q n).kerb.nsoj = 0 ∧ (u.q n).kerb.stamps = [] ∧
        (u.q n).kerb.dropTail = (s.q n).kerb.dropTail ∧ (∀ m, m ≠ n → u.q m = s.q m))

/-- Retransmit marks (R144, R148, R149, R152): `MARK` at the read pointer sets the mark to the read point with the body's
settings; `REWIND` to a set mark behind the read pointer returns the read pointer to it at once where no message is being
read, and otherwise waits, to take effect at the end of the message; `RELEASE_MARK` unsets the mark. Log entry 62 names the
model's choices in it. -/
def Obligations.MarksRewindAndRelease : Prop :=
  ∀ (g : Fin 16) (d : Block512) (s : State),
    let n := qidOf d
    let m := fld d 144 2
    (s.Accepts g.val 0x28 d → owns g.val n = true → (s.q n).st ≠ .unbound → (s.q n).chained = false → fld d 192 64 = 0 →
      bit d 146 = false → bit d 147 = false → bit d 148 = false →
      ∃ u, exec (.mark g d) s = .next (s.endsWith g.val d u St.ok) ∧ ((u.q n).markAt m).isSet = true ∧
        ((u.q n).markAt m).pos = (if (s.q n).b.msgMode then (s.q n).msgPos else (s.q n).rptr) ∧
        ((u.q n).markAt m).auto = false ∧ (∀ k, k ≠ m → (u.q n).markAt k = (s.q n).markAt k) ∧ (∀ k, k ≠ n → u.q k = s.q k)) ∧
    (s.Accepts g.val 0x29 d → owns g.val n = true → (s.q n).st ≠ .unbound → (s.q n).chained = false → fld d 192 64 = 0 →
      ((s.q n).markAt m).isSet = false →
      exec (.rewind g d) s = .next (s.endsWith g.val d (s.fetched g.val d) St.markUnset)) ∧
    (s.Accepts g.val 0x29 d → owns g.val n = true → (s.q n).st ≠ .unbound → (s.q n).chained = false → fld d 192 64 = 0 →
      ((s.q n).markAt m).isSet = true → ((s.q n).markAt m).behind (s.q n).rptr = true →
      ((s.q n).rmsg = none → (s.q n).st ≠ .closing →
        ∃ u, exec (.rewind g d) s = .next (s.endsWith g.val d u St.ok) ∧ (u.q n).rptr = ((s.q n).markAt m).pos ∧
          (u.q n).rsub = 0 ∧ (u.q n).wptr = (s.q n).wptr) ∧
      ((s.q n).rmsg ≠ none →
        exec (.rewind g d) s = .next ((s.fetched g.val d).setQ n { s.q n with
          rewinds := (s.q n).rewinds ++ [{ mark := Fin.ofNat 4 m, target := ((s.q n).markAt m).pos
                                           ref := some (s.nextRef g.val d), result := 0 }] }))) ∧
    (s.Accepts g.val 0x2A d → owns g.val n = true → (s.q n).st ≠ .unbound → (s.q n).chained = false → fld d 192 64 = 0 →
      ((s.q n).markAt m).isSet = false →
      exec (.releaseMark g d) s = .next (s.endsWith g.val d (s.fetched g.val d) St.ok)) ∧
    (s.Accepts g.val 0x2A d → owns g.val n = true → (s.q n).st ≠ .unbound → (s.q n).chained = false → fld d 192 64 = 0 →
      ((s.q n).markAt m).isSet = true → (s.q n).st ≠ .closing →
      ∃ u, exec (.releaseMark g d) s = .next (s.endsWith g.val d u St.ok) ∧ ((u.q n).markAt m).isSet = false ∧
        (u.q n).rptr = (s.q n).rptr ∧ (∀ k, k ≠ m → (u.q n).markAt k = (s.q n).markAt k)) ∧
    (∀ q : Fin 8192, ∀ w rest, (s.q q.val).rewinds = w :: rest → (s.q q.val).rmsg = none → (s.q q.val).st ≠ .closing →
      w.ref = none →
      ∃ t, exec (.rewindTakesEffect q) s = .next t ∧ (t.q q.val).rptr = w.target ∧ (t.q q.val).rewinds = rest)

/-! ## Queue timers -/

/-- A sweep visit of a bound queue (R100): with a valid interval the rates move toward the change of the fills by the shift
`ALPHA` + 1, and the sample count rises to 16; the fills become the previous ones, and a new interval begins. Nothing
happens without CORE's clock, or for an unbound queue. Where the visit finds an uncorrectable error in one of the two
stores that it reads, it reports CTX_UE instead (R330). Log entry 111 names the model's choices in it. -/
def Obligations.SweepVisitMovesTheRates : Prop :=
  ∀ (q : Fin 8192) (s : State),
    (s.coreRuns = true → ∀ g : Fin 8,
      exec (.sweepVisit ⟨q, .context g⟩) s = .next (s.raise 0x604 none (32 * g.val) q.val 0) ∧
      exec (.sweepVisit ⟨q, .flagState g⟩) s = .next (s.raise 0x604 none (1 + 32 * g.val) q.val 0)) ∧
    (s.coreRuns = false → ∀ found, exec (.sweepVisit ⟨q, found⟩) s = .next s) ∧
    ((s.q q.val).st = .unbound → exec (.sweepVisit ⟨q, .clean⟩) s = .next s) ∧
    ((s.q q.val).st ≠ .unbound → s.coreRuns = true →
    let old := (s.q q.val).fst
    let valid := old.intervalValid && ((s.q q.val).st == .opened || (s.q q.val).st == .closing)
    ∃ t, exec (.sweepVisit ⟨q, .clean⟩) s = .next t ∧
      (t.q q.val).fst.sfillPrev = (s.q q.val).csfill ∧ (t.q q.val).fst.efillPrev = s.cefill (s.q q.val) ∧
      (valid = true →
        (t.q q.val).fst.rs = old.rs + ((((s.q q.val).csfill : Int) - old.sfillPrev) * 65536 - old.rs) >>> ((s.q q.val).fcfg.alpha + 1) ∧
        (t.q q.val).fst.re = old.re + (((s.cefill (s.q q.val) : Int) - old.efillPrev) * 65536 - old.re) >>> ((s.q q.val).fcfg.alpha + 1) ∧
        (t.q q.val).fst.nsamp = if old.nsamp < 16 then old.nsamp + 1 else old.nsamp) ∧
      (valid = false → (t.q q.val).fst.rs = old.rs ∧ (t.q q.val).fst.re = old.re ∧ (t.q q.val).fst.nsamp = old.nsamp) ∧
      (t.q q.val).fst.cold = decide ((t.q q.val).fst.nsamp < 16) ∧
      (t.q q.val).wptr = (s.q q.val).wptr ∧ (t.q q.val).rptr = (s.q q.val).rptr ∧ (t.q q.val).st = (s.q q.val).st ∧
      (∀ m, m ≠ q.val → t.q m = s.q m) ∧ s.keeps t [.queues, .funcs, .out])

/-- The interval timers of a queue: an event interval in which no masked flag changed just ends, and one with changes posts
FLAG_CHANGE and opens a new interval (R119); the drop interval posts KB_DROP with its counts (R198), the late interval
PIN_LATE (R182); without an interval nothing happens. A grace period ends the old key epoch of its queue, group or ring
(R257). -/
def Obligations.IntervalTimersReport : Prop :=
  ∀ (q : Fin 8192) (s : State),
    let n := q.val
    ((s.q n).fst.window = none → exec (.flagEventIntervalEnd q) s = .next s) ∧
    (∀ w, (s.q n).fst.window = some w → w.changed = 0 →
      exec (.flagEventIntervalEnd q) s = .next (s.setQ n { s.q n with fst := { (s.q n).fst with window := none } })) ∧
    (∀ w, (s.q n).fst.window = some w → w.changed ≠ 0 →
      exec (.flagEventIntervalEnd q) s = .next ((s.setQ n { s.q n with fst := { (s.q n).fst with window := some {} } }).post (n / 512)
        { code := 0x001
          body := n + 2 ^ 13 * ((s.q n).fst.levels % 64) + (if (s.q n).fst.cold then 2 ^ 19 else 0) +
            (if w.returned ≠ 0 then 2 ^ 20 else 0) + 2 ^ 32 * ((s.q n).csfill % 2 ^ 24) +
            2 ^ 64 * (s.cefill (s.q n) % 2 ^ 32) })) ∧
    ((s.q n).kerb.window = none → exec (.kbDropIntervalEnd q) s = .next s) ∧
    (∀ w, (s.q n).kerb.window = some w →
      exec (.kbDropIntervalEnd q) s =
        .next ((s.setQ n { s.q n with kerb := { (s.q n).kerb with window := none } }).post (n / 512)
          { code := 0x005
            body := n + 2 ^ 32 * w.msn.toNat + 2 ^ 64 * min 0xFFFF w.tail + 2 ^ 80 * min 0xFFFF w.head +
              2 ^ 96 * min 0xFFFF w.age })) ∧
    ((s.q n).pin.window = none → exec (.pinLateIntervalEnd q) s = .next s) ∧
    (∀ w, (s.q n).pin.window = some w →
      exec (.pinLateIntervalEnd q) s =
        .next ((s.setQ n { s.q n with pin := { (s.q n).pin with window := none } }).post (n / 512)
          { code := 0x006, body := n + 2 ^ 32 * w.msn.toNat + 2 ^ 64 * min 0xFFFF w.count + 2 ^ 96 * (w.worst % 2 ^ 32) })) ∧
    exec (.epochGraceEnd 0 q) s = .next (s.setQ n { s.q n with keys := { (s.q n).keys with prev := none } }) ∧
    (n < 16 → exec (.epochGraceEnd 1 q) s = .next (s.setGroup n { s.group n with rsPrev := none })) ∧
    exec (.epochGraceEnd 2 q) s = .next { s with ring := { s.ring with rcPrev := none } }

/-- A visit of the adaptation loop (R192, R201, R202): the period's rates are formed, and with ADAPT, 32 samples and one of
them new, a sojourn above 9/8 of the target lowers the almost-full threshold by an eighth and raises the pace by an eighth,
one below 3/4 raises the threshold by a thirty-second and lowers the pace by as much, each within its bounds. Log entry 56
names the model's choices in it. -/
def Obligations.AdaptationFollowsTheSojournTime : Prop :=
  ∀ (q : Fin 8192) (s : State), (s.q q.val).st ≠ .unbound → (s.q q.val).b.kerb = true → s.rst.control = true →
    s.coreRuns = true → (s.q q.val).kerb.lastVisit < s.mcount →
    let k := (s.q q.val).kerb
    let p := k.policy
    let af := (s.q q.val).fcfg.afSet
    ∃ t, exec (.adaptationVisit q) s = .next t ∧
      (t.q q.val).kerb.arrRate = min 0xFFFFFFFF (k.arrBytes * 500 / (s.mcount - k.lastVisit)) ∧
      (t.q q.val).kerb.depRate = min 0xFFFFFFFF (k.depBytes * 500 / (s.mcount - k.lastVisit)) ∧
      (t.q q.val).kerb.dropPer = min 0xFFFFFFFF k.drops ∧ (t.q q.val).kerb.lastVisit = s.mcount ∧
      (t.q q.val).kerb.arrBytes = 0 ∧ (t.q q.val).kerb.depBytes = 0 ∧ (t.q q.val).kerb.drops = 0 ∧
      (p.adapt = true → 32 ≤ k.nsoj → k.sampled = true → p.afMin ≤ p.afMax →
        (1000 * p.target + 1000 * p.target / 8 < k.sojAvg →
          (t.q q.val).fcfg.afSet = min p.afMax (max p.afMin (af - af / 8)) ∧
          (p.paceMax ≠ 0 → (t.q q.val).kerb.paceNow = min p.paceMax (k.paceNow + max 1 (k.paceNow / 8)))) ∧
        (k.sojAvg < 1000 * p.target - 1000 * p.target / 4 →
          (t.q q.val).fcfg.afSet = max p.afMin (min p.afMax (af + max 1 (af / 32))) ∧
          (p.paceMax ≠ 0 → (t.q q.val).kerb.paceNow = max p.paceMin (k.paceNow - max 1 (k.paceNow / 32)))) ∧
        (1000 * p.target - 1000 * p.target / 4 ≤ k.sojAvg → k.sojAvg ≤ 1000 * p.target + 1000 * p.target / 8 →
          (t.q q.val).fcfg.afSet = af ∧ (t.q q.val).kerb.paceNow = k.paceNow)) ∧
      (p.adapt = false ∨ k.nsoj < 32 ∨ k.sampled = false →
        (t.q q.val).fcfg.afSet = af ∧ (t.q q.val).kerb.paceNow = k.paceNow) ∧
      (∀ m, m ≠ q.val → t.q m = s.q m) ∧ s.keeps t [.queues, .funcs, .out]

/-- The result of a segment request (R39, R40): a free affine segment within the limits joins the queue and belongs to it, and
otherwise SEG_DENY counts once per segment denied; nothing happens without an outstanding request, and a retry makes a new
one where a write waits for room or the write pointer stands at the last segment's end. Log entry 60 names the model's
choices in it. -/
def Obligations.SegmentsAreGrantedOrDenied : Prop :=
  ∀ (q : Fin 8192) (s : State),
    let n := q.val
    ((s.q n).segReq = true → 0 < (s.setQ n { s.q n with segReq := false }).grantable n → ∀ seg, s.plaza.pickSeg (s.q n).b.affinity = some seg →
      ∃ t, exec (.segmentGrant q) s = .next t ∧ (t.q n).segs = (s.q n).segs ++ [seg] ∧ (t.q n).segReq = false ∧
        (t.q n).segDenied = false ∧ SMap.get 0 t.plaza.owner seg = n + 1 ∧
        (∀ k, k ≠ seg → SMap.get 0 t.plaza.owner k = SMap.get 0 s.plaza.owner k) ∧ t.plaza.mem = s.plaza.mem ∧
        (t.q n).wptr = (s.q n).wptr ∧ (t.q n).rptr = (s.q n).rptr ∧ (∀ m, m ≠ n → t.q m = s.q m)) ∧
    ((s.q n).segReq = true → (s.setQ n { s.q n with segReq := false }).grantable n = 0 →
      ∃ t, exec (.segmentGrant q) s = .next t ∧ (t.q n).segs = (s.q n).segs ∧ (t.q n).segReq = false ∧
        (t.q n).segDenied = true ∧ (t.q n).segDeny = (if (s.q n).segDenied then (s.q n).segDeny else inc32 (s.q n).segDeny) ∧
        t.plaza = s.plaza ∧ (∀ m, m ≠ n → t.q m = s.q m)) ∧
    ((s.q n).segReq = false → exec (.segmentGrant q) s = .next s) ∧
    ((s.q n).segDenied = true → ((s.q n).needRoom = true ∨ (s.q n).heldEnd ≤ (s.q n).wptr) →
      exec (.segmentRequestRetry q) s = .next (s.setQ n { s.q n with segReq := true })) ∧
    ((s.q n).segDenied = false ∨ ((s.q n).needRoom = false ∧ (s.q n).wptr < (s.q n).heldEnd) → exec (.segmentRequestRetry q) s = .next s)

/-! ## Register commands -/

/-- Writes of CORE's registers while CORE runs: FLAGMAPn, POP of the error log, TB_CTRL with the lock it starts or ends (R167),
TB_COMP, KIOSK_CFG and KWINn store their fields; a write to a register of CORE in Sleep waits (R323). Log entry 47 names
the model's choices in it. -/
def Obligations.CoreRegisterWrites : Prop :=
  ∀ s : State, s.coreRuns = true →
    (∀ (n : Fin 8) v, exec (.flagmapWrite n v) s =
      .next { s with flagmap := SMap.set 0 s.flagmap n.val (v &&& 0x3FFFF#32) }) ∧
    (∀ v, bit v 8 = true → exec (.errlogPop v) s = .next { s with errs := { s.errs with fifo := s.errs.fifo.drop 1 } }) ∧
    (∀ v, bit v 8 = false → exec (.errlogPop v) s = .next s) ∧
    (∀ v, ∃ t, exec (.ppsEnWrite v) s = .next t ∧ t.time.ctrl = v &&& 0x1FFF#32 ∧ t.time.tb = s.time.tb ∧
      t.time.f = s.time.f ∧ s.keeps t [.time, .funcs, .out] ∧
      t.time.lock = if bit v 0 then (if s.time.lock = .freerun then .unlocked else s.time.lock)
        else if s.time.lock = .locked ∨ s.time.lock = .holdover then .freerun else s.time.lock) ∧
    (∀ acc v, s.mayWrite acc 0x204 = true →
      exec (.registerWrite acc 0x204 0xF v) s = .next { s with time := { s.time with comp := v } }) ∧
    (∀ acc v, s.mayWrite acc 0x1840 = true →
      exec (.registerWrite acc 0x1840 0xF v) s = .next { s with kiosk := { s.kiosk with cfg := v &&& 0x1F#32 } }) ∧
    (∀ acc v, s.mayWrite acc 0x1864 = true →
      exec (.registerWrite acc 0x1864 0xF v) s =
        .next { s with kiosk := { s.kiosk with win := SMap.set 0 s.kiosk.win 1 (v &&& 0x00FF7FFF#32) } })

/-- A register write whose byte enables do not cover the word has no effect (R470), nor has one that its accessor may not make
or one to an offset that no table lists (R471, R478); `RSTCAUSE` and `WAKESRC` clear by ones written; a CORE register
written from the host in Sleep is held in arrival order (R323). Log entries 47 and 78 name the model's choices in it. -/
def Obligations.RegisterWritesWithoutEffect : Prop :=
  ∀ (acc : Accessor) (off : BitVec 16) (be : BitVec 4) (v : Word32) (s : State),
    (be ≠ 0xF#4 → exec (.registerWrite acc off be v) s = .next s) ∧
    (s.mayWrite acc off.toNat = false → exec (.registerWrite acc off be v) s = .next s) ∧
    (off.toNat % 4 ≠ 0 → s.coreRuns = true → exec (.registerWrite acc off be v) s = .next s) ∧
    (s.coreRuns = true → off ∈ [0x0#16, 0x10, 0x208, 0x1008, 0x1404, 0x1804, 0x1808, 0x2004, 0x2108, 0x2200, 0x2210, 0x3000] →
      exec (.registerWrite acc off be v) s = .next s) ∧
    (s.mayWrite acc 0x2100 = true → exec (.registerWrite acc 0x2100 0xF v) s =
      .next { s with rst := { s.rst with cause := s.rst.cause &&& ~~~(v &&& 0x00070FFF#32) } }) ∧
    (s.mayWrite acc 0x2038 = true → exec (.registerWrite acc 0x2038 0xF v) s =
      .next { s with power := { s.power with wakesrc := s.power.wakesrc &&& ~~~(v &&& 0x001F3FFF#32) } }) ∧
    (s.power.cur = .sleep → s.fnReached 0 = true → exec (.registerWrite (.fn 0) 0x204 0xF v) s =
      .next (s.setFunc 0 { s.func 0 with heldWrites := (s.func 0).heldWrites ++ [(0x204#16, v)] }))

/-- A read of `TB_NOW_LO` returns the low word of the nanoseconds and latches the high word and the fraction, which the same
accessor then reads at `TB_NOW_HI` and `TB_NOW_FRAC`; other accessors' latches stay, and a latch that has not been loaded
since the time base was reset reads 0 (R476); a 64-bit read is these two reads with nothing between them. `IDENT` reads
0x8192_0B00 for every accessor (R2). -/
def Obligations.ReadingTheTimeLatchesIt : Prop :=
  (∀ (acc : Accessor) (s : State), s.coreRuns = true → (∀ g, acc = .fn g → s.fnReached g.val = true) →
    ∃ t, exec (.tbNowLoRead acc) s = .next t ∧
      t.timeRegValue (accessorNum acc) 0x214 = s.tbNs / 2 ^ 32 ∧ t.timeRegValue (accessorNum acc) 0x218 = s.tbFrac ∧
      (∀ g, acc = .fn g → t.out = .readData (s.tbNs % 2 ^ 32) :: s.out) ∧
      (∀ k, k ≠ accessorNum acc → ∀ off, t.timeRegValue k off = s.timeRegValue k off) ∧
      t.time.tb = s.time.tb ∧ s.keeps t [.time, .out]) ∧
  (∀ (g k : Nat) (s : State), s.regValue g k 0 = 0x81920B00 ∧
    ({ s with time := s.time.cleared }).timeRegValue k 0x214 = 0 ∧ ({ s with time := s.time.cleared }).timeRegValue k 0x218 = 0)

/-- `MAINT_CTRL` (R335, R336, R339): a wipe starts in every named quarter that is idle and in which no bound queue holds a
segment, a BIST where no queue is live, the key-slot sweep by its bit; a start that is not allowed, or more than one kind
of start, leaves the quarters alone and sets its status in `MAINT_RES`. Log entry 65 names the model's choices in it. -/
def Obligations.MaintenanceStarts : Prop :=
  ∀ (v : Word32) (s : State), s.coreRuns = true →
    (fld v 8 4 ≠ 0 → fld v 12 4 = 0 → bit v 16 = false →
      (∀ i, i < 4 → bit v (8 + i) = true → s.quarterHeld i = false ∧ (s.plaza.quarter i).act = none) →
      ∃ t, exec (.maintWipe v) s = .next t ∧ t.plaza.resStatus = St.ok ∧ t.plaza.ctrl = v &&& 0xF#32 ∧
        (∀ i, i < 4 → (t.plaza.quarter i).act = if bit v (8 + i) then some .wipe else (s.plaza.quarter i).act) ∧
        t.plaza.mem = s.plaza.mem ∧ s.keeps t [.plaza, .power]) ∧
    (fld v 8 4 ≠ 0 → fld v 12 4 = 0 → bit v 16 = false → (∃ i, i < 4 ∧ bit v (8 + i) = true ∧ s.quarterHeld i = true) →
      exec (.maintWipe v) s =
        .next { s with plaza := { s.plaza with ctrl := v &&& 0xF#32, resStatus := St.badState } }) ∧
    (fld v 8 4 = 0 → fld v 12 4 ≠ 0 → bit v 16 = false → s.anyLive = false →
      (∀ i, i < 4 → bit v (12 + i) = true → (s.plaza.quarter i).act = none) →
      ∃ t, exec (.maintBist v) s = .next t ∧ t.plaza.resStatus = St.ok ∧ t.plaza.ctrl = v &&& 0xF#32 ∧
        (∀ i, i < 4 → (t.plaza.quarter i).act = if bit v (12 + i) then some .bist else (s.plaza.quarter i).act) ∧
        t.plaza.mem = s.plaza.mem ∧ s.keeps t [.plaza, .power]) ∧
    (fld v 8 4 = 0 → fld v 12 4 ≠ 0 → bit v 16 = false → s.anyLive = true →
      exec (.maintBist v) s =
        .next { s with plaza := { s.plaza with ctrl := v &&& 0xF#32, resStatus := St.badState } }) ∧
    (fld v 8 4 = 0 → fld v 12 4 = 0 → bit v 16 = true →
      exec (.maintKsweep v) s = .next { s with plaza := { s.plaza with
        ctrl := v &&& 0xF#32, ksweepRun := true, ksweepHost := true, resStatus := St.ok } }) ∧
    (fld v 8 4 ≠ 0 → fld v 12 4 ≠ 0 →
      exec (.maintWipe v) s = .next { s with plaza := { s.plaza with ctrl := v &&& 0xF#32, resStatus := St.badField } })

/-- The end of maintenance work: a wipe that ends leaves its quarter idle and every byte of it zero, and no other quarter's
bytes change (R335); a zeroed segment reads zero and leaves its zeroing list (R332); a quarter that may rest rests, and
wakes; a scrub read that finds nothing changes nothing, and an uncorrectable one marks its word and counts (R330, R337);
one that meets an error of the Kiosk counts a corrected one in `KIOSK_CE`, and reports an uncorrectable one (R346). Log
entry 55 names the model's choices in it. -/
def Obligations.MaintenanceEnds : Prop :=
  (∀ (i : Fin 4) (s : State), (s.plaza.quarter i.val).act = some .wipe → (s.plaza.quarter i.val).pend = [] → s.plaza.releases = [] →
    s.plaza.jobs = [] →
    ∃ t, exec (.maintActivityEnd (some i) 0) s = .next t ∧ (t.plaza.quarter i.val).act = none ∧
      (∀ a, quarterOf (a / 4096) = i.val → SMap.get 0 t.plaza.mem a = 0) ∧
      (∀ a, quarterOf (a / 4096) ≠ i.val → SMap.get 0 t.plaza.mem a = SMap.get 0 s.plaza.mem a) ∧
      (t.plaza.quarter i.val).zeroing = [] ∧ t.queues = s.queues) ∧
  (∀ (s : State), s.plaza.ksweepRun = true → s.plaza.ksweepHost = true →
    ∃ t, exec (.maintActivityEnd none 0) s = .next t ∧ t.plaza.ksweepRun = false ∧ t.fw.sweepDone = true) ∧
  (∀ (g : Fin 32768) (s : State), s.plaza.dirty g.val = true → s.plaza.releases = [] →
    ∃ t, exec (.segmentZeroed g) s = .next t ∧ t.plaza.dirty g.val = false ∧
      (∀ a, a / 4096 = g.val → SMap.get 0 t.plaza.mem a = 0) ∧
      (∀ a, a / 4096 ≠ g.val → SMap.get 0 t.plaza.mem a = SMap.get 0 s.plaza.mem a) ∧ t.queues = s.queues) ∧
  (∀ (i : Fin 4) (s : State), s.mayRest i.val = true →
    ∃ t, exec (.quarterRest i) s = .next t ∧ (t.plaza.quarter i.val).rest = true ∧ t.plaza.mem = s.plaza.mem ∧
      s.keeps t [.plaza]) ∧
  (∀ (i : Fin 4) (s : State),
    ∃ t, exec (.quarterWake i) s = .next t ∧ (t.plaza.quarter i.val).rest = false ∧ t.plaza.mem = s.plaza.mem ∧
      s.keeps t [.plaza]) ∧
  (∀ (i : Fin 4) (s : State), exec (.scrubRead i .clean) s = .next s) ∧
  (∀ (i : Fin 4) bank granule row w (s : State), s.scrubVisits i.val bank.val row.val = some w →
    ∃ t, exec (.scrubRead i (.uncorrectable bank granule row)) s = .next t ∧ SMap.get 0 t.plaza.bad w = granule.val + 1 ∧
      t.errs.seq = (s.errs.seq + 1) % 2 ^ 32 ∧ t.plaza.mem = s.plaza.mem ∧ t.queues = s.queues) ∧
  (∀ (i : Fin 4) (a : Fin 32768) (marked : Bool) (s : State),
    (s.quarterAct i.val ≠ 4 → exec (.scrubRead i (.kioskCorrected a marked)) s = .next s ∧
      exec (.scrubRead i (.kioskUncorrectable a)) s = .next s) ∧
    (s.quarterAct i.val = 4 →
      (∃ t, exec (.scrubRead i (.kioskCorrected a marked)) s = .next t ∧
        t.kiosk = { s.kiosk with ce := if s.kiosk.ce < 65535 then s.kiosk.ce + 1 else 65535 } ∧
        (marked = true → s.keeps t [.kiosk, .free])) ∧
      (∃ t, exec (.scrubRead i (.kioskUncorrectable a)) s = .next t ∧ SMap.get false t.kiosk.bad a.val = true ∧
        t.kiosk.words = s.kiosk.words ∧ t.errs.seq = (s.errs.seq + 1) % 2 ^ 32 ∧ t.queues = s.queues)))

/-! ## Links, ring sides and training -/

/-- `LINKn_CFG` and `PORTx_CFG` (R212, R226, R474): setting EN of a disabled link that its port's split provides and whose port
is powered starts an attempt at SIGDET; clearing it disables the link; RST puts it into RESET and clears its error
counters; a split that is reserved, or comes while a link of the port is enabled, is refused, and another one takes effect.
Log entry 58 names the model's choices in it. -/
def Obligations.LinkSettings : Prop :=
  ∀ (n : Fin 8) (v : Word32) (s : State), s.coreRuns = true →
    (bit v 0 = true → bit v 8 = false → s.linkPresent n.val = true → (s.link n.val).phy.st = .disabled →
      s.phyPowered (.link n) = true → fld v 2 2 ≠ 3 → (fld v 2 2 = 0 → bit v 1 = true) →
      ∃ t, exec (.linkEnable n v) s = .next t ∧ (t.link n.val).phy.st = .sigdet ∧ (t.link n.val).cfg = v &&& 0xFF#32 ∧
        (t.link n.val).phy.cfg = { nrz := bit v 1, fec := fld v 2 2, txRev := bit v 4, autoPol := bit v 5, verMax := bit v 6 } ∧
        (∀ m, m ≠ n.val → t.link m = s.link m) ∧ s.keeps t [.links]) ∧
    (bit v 0 = false → bit v 8 = false → (s.link n.val).phy.st ≠ .up → (s.link n.val).phy.st ≠ .reset →
      ∃ t, exec (.linkDisable n v) s = .next t ∧ (t.link n.val).phy.st = .disabled ∧ (t.link n.val).cfg = v &&& 0xFF#32 ∧
        (∀ m, m ≠ n.val → t.link m = s.link m) ∧ s.keeps t [.links]) ∧
    (bit v 8 = true → bit v 0 = (s.link n.val).en → (s.link n.val).phy.st ≠ .up → (s.link n.val).phy.st ≠ .disabled →
      ∃ t, exec (.linkRst n v) s = .next t ∧ (t.link n.val).phy.st = .reset ∧ (t.link n.val).cfg = v &&& 0xFF#32 ∧
        (t.link n.val).rxrej = 0 ∧ (t.link n.val).crce = 0 ∧ (t.link n.val).naks = 0 ∧ (t.link n.val).phy.downCnt = 0 ∧
        (∀ m, m ≠ n.val → t.link m = s.link m) ∧ s.keeps t [.links, .cells]) ∧
    (∀ p : Port, let k := (match p with | .a => 0 | .b => 1)
      fld v 0 2 ≠ 3 → (∀ j, j < 4 → (s.link (4 * k + j)).en = false) → (∀ e ∈ s.queues, e.2.endLinks = []) →
      exec (.portSplitWrite p v) s = .next { s with portCfg := SMap.set 0 s.portCfg k (v &&& 3#32) }) ∧
    (∀ p : Port, let k := (match p with | .a => 0 | .b => 1)
      fld v 0 2 = 3 ∨ (∃ j, j < 4 ∧ (s.link (4 * k + j)).en = true) →
      ∃ t, exec (.portSplitWrite p v) s = .next t ∧ t.portCfg = s.portCfg ∧ t.errs.seq = (s.errs.seq + 1) % 2 ^ 32)

/-- `RING_CFG` (R262, R474): with the I/O lock the station number stays and the other fields are written; a side enabled while
disabled and powered starts an attempt, one disabled while not up is disabled, and a reset puts it into RESET. -/
def Obligations.RingSettings : Prop :=
  ∀ (v : Word32) (s : State), s.coreRuns = true → s.ring.east.phy.st ≠ .up → s.ring.west.phy.st ≠ .up →
    let cfg := if s.rst.ioLocked then (s.ring.cfg &&& 7#32) ||| (v &&& 0x70#32) else v &&& 0x77#32
    (bit v 7 = false → bit v 8 = false → bit v 4 = true → bit v 5 = false → s.ring.east.phy.st = .disabled →
      s.phyPowered (.side .east) = true →
      ∃ t, exec (.ringSideEnable v) s = .next t ∧ t.ring.cfg = cfg ∧ t.ring.east.phy.st = .sigdet ∧
        t.ring.west.phy.st = (if s.ring.west.phy.st = .reset then .reset else .disabled) ∧ s.keeps t [.ring]) ∧
    (bit v 7 = false → bit v 8 = false → bit v 4 = false → bit v 5 = false →
      ∃ t, exec (.ringSideDisable v) s = .next t ∧ t.ring.cfg = cfg ∧
        t.ring.east.phy.st = (if s.ring.east.phy.st = .reset then .reset else .disabled) ∧
        t.ring.west.phy.st = (if s.ring.west.phy.st = .reset then .reset else .disabled) ∧ s.keeps t [.ring]) ∧
    (bit v 7 = false → bit v 8 = false → bit v 4 = bit s.ring.cfg 4 → bit v 5 = bit s.ring.cfg 5 →
      s.ring.east.phy.st ≠ .disabled → s.ring.west.phy.st ≠ .disabled → bit v 4 = true → bit v 5 = true →
      ∃ t, exec (.ringInsert v) s = .next t ∧ t.ring.cfg = cfg ∧ t.ring.east.phy.st = s.ring.east.phy.st ∧
        t.ring.west.phy.st = s.ring.west.phy.st ∧ s.keeps t [.ring]) ∧
    (bit v 7 = true → bit v 8 = true → bit v 4 = false → bit v 5 = false →
      ∃ t, exec (.ringSideRst v) s = .next t ∧ t.ring.cfg = cfg ∧ t.ring.east.phy.st = .reset ∧ t.ring.west.phy.st = .reset ∧
        t.ring.east.rxrej = 0 ∧ t.ring.west.rxrej = 0 ∧ s.keeps t [.ring, .cells])

/-- Training passes its phases (Table BP-6): signal on every lane starts LOCK; in EQ the error criterion ends the phase, four
windows in a row without FEC; when both ends are done LOCK leads to EQ, EQ to CAPS and CAPS to READY; the last READY frame
starts data mode, and marker lock in it brings the link or side UP, with FAIL 0. Log entry 57 names the model's choices in
it. -/
def Obligations.TrainingPassesItsPhases : Prop :=
  ∀ (p : Phy) (s : State),
    (s.phyPowered p = true → s.phyEn p = true → (s.phy p).st = .sigdet → (s.readTrainCfg p).illegal = false →
      ∃ t, exec (.trainingStart p) s = .next t ∧ (t.phy p).st = .lock ∧ (t.phy p).cfg = s.readTrainCfg p ∧
        (t.phy p).lanes = [] ∧ (t.phy p).done = false ∧ (t.phy p).downCnt = (s.phy p).downCnt ∧ s.keeps t [.links, .ring]) ∧
    (∀ met, (s.phy p).st = .eq →
      ∃ t, exec (.eqWindowEnd p met) s = .next t ∧ (t.phy p).st = .eq ∧
        ((t.phy p).done = ((s.phy p).done || (met && ((s.phy p).cfg.fec != 0 || decide (3 ≤ (s.phy p).eqGood))))) ∧
        (met = false → (t.phy p).eqGood = 0) ∧ (met = true → s.keeps t [.links, .ring]) ∧
        s.keeps t [.links, .ring, .free]) ∧
    (s.mayAdvance p = true → (s.phy p).cfgWait = false →
      (s.phy p).st = .lock ∨ (s.phy p).st = .eq ∨ (s.phy p).st = .caps →
      ∃ t, exec (.trainingPhaseAdvance p) s = .next t ∧ (t.phy p).done = false ∧ (t.phy p).lanes = (s.phy p).lanes ∧
        (t.phy p).st = (match (s.phy p).st with | .lock => .eq | .eq => .caps | _ => .ready) ∧ s.keeps t [.links, .ring]) ∧
    ((s.phy p).st = .ready →
      ∃ t, exec (.dataModeStart p) s = .next t ∧ (t.phy p).dataMode = true ∧ (t.phy p).st = .ready ∧ s.keeps t [.links, .ring]) ∧
    ((s.phy p).st = .ready → (s.phy p).dataMode = true →
      ∃ t, exec (.linkUp p) s = .next t ∧ (t.phy p).st = .up ∧ (t.phy p).fail = 0 ∧ (t.phy p).ver = (s.phy p).ver ∧
        t.plaza.mem = s.plaza.mem ∧ t.time = s.time ∧ t.power = s.power) ∧
    ((s.phy p).st = .reset →
      ∃ t, exec (.blockResetComplete p) s = .next t ∧
        ((s.phyEn p = false ∨ s.phyPowered p = false) → (t.phy p).st = .disabled) ∧
        (s.phyEn p = true → s.phyPowered p = true → (s.readTrainCfg p).illegal = false → (t.phy p).st = .sigdet))

/-- A received training block (R221, R222): a block that a receiver ignores ends the lane's run of valid blocks and nothing
else; a valid one in EQ records the partner's fields, extends the run and applies its coefficient requests. -/
def Obligations.TrainingBlocksAreTaken : Prop :=
  ∀ (p : Phy) (lane : Fin 16) (b : BitVec 64) (s : State), (s.phy p).training = true → (s.phy p).dataMode = false →
    lane.val < s.phyLanes p →
    (s.polarised p lane.val b = none →
      ∃ t, exec (.trainingBlock p lane b) s = .next t ∧ (t.phy p).st = (s.phy p).st ∧
        SMap.get {} (t.phy p).lanes lane.val = { SMap.get {} (s.phy p).lanes lane.val with good := 0 } ∧
        (∀ k, k ≠ lane.val → SMap.get {} (t.phy p).lanes k = SMap.get {} (s.phy p).lanes k) ∧ s.keeps t [.links, .ring]) ∧
    (∀ c inv, s.polarised p lane.val b = some (c, inv) → (s.phy p).st = .eq → Tb.phase c ≠ 0 →
      ∃ t, exec (.trainingBlock p lane b) s = .next t ∧ (t.phy p).st = .eq ∧
        SMap.get {} (t.phy p).lanes lane.val = (SMap.get {} (s.phy p).lanes lane.val).take c ∧
        (∀ k, k ≠ lane.val → SMap.get {} (t.phy p).lanes k = SMap.get {} (s.phy p).lanes k) ∧
        s.keeps t [.links, .ring, .portPolstat]) ∧
    (∀ c inv, s.polarised p lane.val b = some (c, inv) → (s.phy p).st = .eq → Tb.phase c = 0 →
      (s.readTrainCfg p).illegal = false →
      ∃ t, exec (.trainingBlock p lane b) s = .next t ∧ (t.phy p).st = .lock)

/-- Failures and losses of training (R223, R224, R227): a time-out or a missing marker lock counts a failed attempt with its
cause and starts again from LOCK; signal loss before UP returns to SIGDET, as does the retry after an illegal
configuration; a condition that takes an UP link or side down counts it and starts LOCK. Log entry 57 names the model's
choices in it. -/
def Obligations.TrainingFailuresStartAgain : Prop :=
  ∀ (p : Phy) (s : State), (s.readTrainCfg p).illegal = false →
    ((s.phy p).training = true →
      ∃ t, exec (.trainingTimeout p) s = .next t ∧ (t.phy p).st = .lock ∧ (t.phy p).fail = 1 ∧
        (t.phy p).trainFail = inc8 (s.phy p).trainFail ∧ t.queues = s.queues) ∧
    ((s.phy p).st = .ready → (s.phy p).dataMode = true →
      ∃ t, exec (.markerLockTimeout p) s = .next t ∧ (t.phy p).st = .lock ∧ (t.phy p).fail = 7 ∧
        (t.phy p).trainFail = inc8 (s.phy p).trainFail ∧ t.queues = s.queues) ∧
    ((s.phy p).training = true →
      ∃ t, exec (.trainingSignalLoss p) s = .next t ∧ (t.phy p).st = .sigdet ∧ (t.phy p).fail = (s.phy p).fail ∧
        s.keeps t [.links, .ring]) ∧
    (∀ n, p = .link n → (s.phy p).cfgWait = true → s.phyEn p = true →
      ∃ t, exec (.trainingRetry n) s = .next t ∧ (t.phy p).st = .sigdet ∧ (t.phy p).cfgWait = false ∧ s.keeps t [.links]) ∧
    ((s.phy p).st = .up →
      ∃ t, exec (.linkDown p .signal) s = .next t ∧ (t.phy p).st = .lock ∧ (t.phy p).downCnt = inc8 (s.phy p).downCnt ∧
        t.kiosk = s.kiosk ∧ t.time = s.time)

/-! ## Time base, event cells and Kiosk -/

/-- An edge of `PPS_IN` delivered to a running time base with `PPS_EN` = 1 (R168, R170): with the stamp 10 ns and `PPSI_COMP`
before the time base and the phase error e, its distance from the nearest whole second: a waiting time of day is set at it;
in UNLOCKED a large error steps and a small one steers, two in a row with the time of day set locking; in LOCKED or
HOLDOVER an error within 1,000 ns disciplines frequency and phase, and the fourth larger one in a row unlocks with
`PPS_UNLOCK`. Log entries 56 and 81 name the model's choices in it. -/
def Obligations.TimeBaseFollowsThePulse : Prop :=
  ∀ (e : Int) (s : State), s.time.ppsArm = false → s.time.running = true → bit s.time.ctrl 0 = true →
    -500000000 < e → e ≤ 500000000 → (s.tbNs - 10 - signed 16 (fld s.time.comp 0 16) - e) % 1000000000 = 0 →
    let x := s.time
    (∀ w, x.tod = some w → w.ref = none →
      ∃ t, exec .ppsEdge s = .next t ∧ t.time.tb = unsigned 96 ((w.value + 10 + signed 16 (fld x.comp 0 16)) * 2 ^ 32) ∧
        t.time.todDone = true ∧ t.time.stepped = true ∧ t.time.good = 0 ∧ t.time.tod = none ∧ t.time.lock = .unlocked ∧
        t.time.e = e) ∧
    (x.tod = none → x.lock = .unlocked → 50 < e.natAbs →
      ∃ t, exec .ppsEdge s = .next t ∧ t.time.tb = unsigned 96 (x.tb - e * 2 ^ 32) ∧ t.time.stepped = true ∧ t.time.good = 0 ∧
        t.time.f = (if x.stepped then clampI (x.f + e) (-200000) 200000 else x.f) ∧ t.time.p = x.p ∧
        t.time.lock = .unlocked ∧ t.time.e = e) ∧
    (x.tod = none → x.lock = .unlocked → e.natAbs ≤ 50 →
      ∃ t, exec .ppsEdge s = .next t ∧ t.time.tb = x.tb ∧ t.time.stepped = false ∧ t.time.good = x.good + 1 ∧ t.time.p = e ∧
        t.time.f = (if x.stepped then clampI (x.f + e) (-200000) 200000 else x.f) ∧
        t.time.lock = (if 1 ≤ x.good ∧ x.todDone = true then .locked else .unlocked)) ∧
    (x.tod = none → x.lock = .locked ∨ x.lock = .holdover → e.natAbs ≤ 1000 →
      ∃ t, exec .ppsEdge s = .next t ∧ t.time.tb = x.tb ∧ t.time.rej = 0 ∧ t.time.p = e ∧
        t.time.f = clampI (x.f + e / 4) (-200000) 200000 ∧ t.time.good = (if e.natAbs ≤ 50 then x.good + 1 else 0) ∧
        t.time.lock = (if x.lock = .holdover ∧ e.natAbs ≤ 50 ∧ 1 ≤ x.good then .locked else x.lock)) ∧
    (x.tod = none → x.lock = .locked ∨ x.lock = .holdover → 1000 < e.natAbs →
      ∃ t, exec .ppsEdge s = .next t ∧ t.time.ppsRej = inc8 x.ppsRej ∧ t.time.f = x.f ∧
        (x.rej ≠ 3 → t.time.rej = x.rej + 1 ∧ t.time.lock = x.lock ∧ t.time.tb = x.tb) ∧
        (x.rej = 3 → t.time.rej = 0 ∧ t.time.lock = .unlocked ∧ t.time.stepped = true ∧ t.time.good = 0 ∧
          t.time.tb = unsigned 96 (x.tb - e * 2 ^ 32)))

/-- The other events of the time base: an edge the cell consumes (R86), one that a stopped time base does not get, 1,100 ms
without an edge (R171), the end of the phase term's second (R164), both edges of `PPS_OUT` (R172), the time-out of a
waiting TIME_SET (R174); and an event at a cell (R82, R83) whose source half takes it: a request, then a pending count to
255, then a loss raised once. Log entry 2 names the model's choices in it. -/
def Obligations.TimeBaseAndCellEvents : Prop :=
  ∀ s : State,
    (s.time.ppsArm = true → exec .ppsEdge s = .next { s with time := { s.time with ppsArm := false } }) ∧
    (s.time.lock = .locked →
      ∃ t, exec .ppsLossTimeout s = .next t ∧ t.time = { s.time with lock := .holdover, p := 0, ppsOut := s.time.ppsOut && s.time.ppsoEnabled } ∧
        t.errs.seq = (s.errs.seq + 1) % 2 ^ 32 ∧ s.keeps t [.funcs, .time, .errs, .out]) ∧
    (s.time.lock ≠ .locked → exec .ppsLossTimeout s = .next s) ∧
    exec .phaseTermEnd s = .next { s with time := { s.time with p := 0 } } ∧
    (s.time.running = true → s.time.ppsoEnabled = true → s.time.atSecond = true →
      exec .ppsOutRise s = .next { s with time := { s.time with ppsOut := true } }) ∧
    exec .ppsOutFall s = .next { s with time := { s.time with ppsOut := false } } ∧
    (s.time.tod = none → exec .timeSetEdgeTimeout s = .next s) ∧
    (∀ w r, s.time.tod = some w → w.ref = some r →
      exec .timeSetEdgeTimeout s = .next (({ s with time := { s.time with tod := none } }).complete r St.noPps)) ∧
    (s.time.ppsArm = true → exec (.crosswalkEvent 24) s = .next { s with time := { s.time with ppsArm := false } }) ∧
    (s.time.ppsArm = false → s.time.running = false → exec .ppsEdge s = .next s) ∧
    (∀ c : Fin 25, s.cellTakes c.val = true →
      let x := SMap.get {} s.cells c.val
      (x.outstanding = false → exec (.crosswalkEvent c) s =
        .next { s with cells := (SMap.set {} s.cells c.val { x with toggle := !x.toggle, outstanding := true, count := 1 }) }) ∧
      (x.outstanding = true → x.pending < 255 →
        exec (.crosswalkEvent c) s = .next { s with cells := (SMap.set {} s.cells c.val { x with pending := x.pending + 1 }) }) ∧
      (x.outstanding = true → 255 ≤ x.pending → x.loss = true → exec (.crosswalkEvent c) s = .next s) ∧
      (x.outstanding = true → 255 ≤ x.pending → x.loss = false →
        ∃ t, exec (.crosswalkEvent c) s = .next t ∧ SMap.get {} t.cells c.val = { x with loss := true } ∧
          (∀ k, k ≠ c.val → SMap.get {} t.cells k = SMap.get {} s.cells k) ∧ t.errs.seq = (s.errs.seq + 1) % 2 ^ 32 ∧
          s.keeps t [.cells, .funcs, .errs, .out]))

/-- Accesses of the host's Kiosk BAR (R300, R342, R343): with no access in the pipeline a read returns the word, a 64-bit write
commits two cycles later, a 32-bit write changes its half alone, FetchAdd and Swap return the old word and store the new
one; a misaligned access is unsupported, as any form but those is. No other word changes. In Sleep an access waits in the
host bridge (R323). Log entries 47 and 64 name the model's choices in it. -/
def Obligations.KioskBarAccesses : Prop :=
  ∀ (off : BitVec 18) (v : Word64) (s : State), s.barReached = true →
    let a := off.toNat / 8
    let w := s.kiosk.word a
    let waits (x : HeldAccess) : State := { s with host := { s.host with stalled := s.host.stalled ++ [x] } }
    (s.power.cur = .sleep → ∀ wide : Bool,
      let bytes := if wide then 8 else 4
      exec (.kioskBarRead off wide) s = .next (waits (.kiosk .read bytes off.toNat 0)) ∧
      exec (.kioskBarWrite off wide v) s = .next (waits (.kiosk .write bytes off.toNat v)) ∧
      exec (.kioskFetchadd off v) s = .next (waits (.kiosk .fetchAdd 8 off.toNat v)) ∧
      exec (.kioskSwap off v) s = .next (waits (.kiosk .swap 8 off.toNat v))) ∧
    (∀ (op : BarOp) (bytes off : Nat), op.supported bytes off = false → s.kioskServe op bytes off v = s.emit .unsupported) ∧
    (s.coreRuns = true → s.kiosk.writes = [] → SMap.get false s.kiosk.bad a = false → off.toNat % 8 = 0 →
      (∃ t, exec (.kioskBarRead off true) s = .next t ∧ t.out = .readData w.toNat :: s.out ∧ t.kiosk = s.kiosk ∧
        s.keeps t [.kiosk, .power, .out]) ∧
      (∃ t, exec (.kioskBarRead off false) s = .next t ∧ t.out = .readData (w.toNat % 2 ^ 32) :: s.out ∧ t.kiosk = s.kiosk) ∧
      (∃ t, exec (.kioskBarWrite off true v) s = .next t ∧ t.kiosk.words = s.kiosk.words ∧
        t.kiosk.writes = [{ addr := a, data := v, left := 2, lock := false }] ∧ (t.kiosk.advance 2).word a = v ∧
        (∀ b, b ≠ a → (t.kiosk.advance 2).word b = s.kiosk.word b) ∧ s.keeps t [.kiosk, .power]) ∧
      (∃ t, exec (.kioskBarWrite off false v) s = .next t ∧
        t.kiosk.word a = BitVec.ofNat 64 (w.toNat / 2 ^ 32 * 2 ^ 32 + v.toNat % 2 ^ 32) ∧
        (∀ b, b ≠ a → t.kiosk.word b = s.kiosk.word b)) ∧
      (∃ t, exec (.kioskFetchadd off v) s = .next t ∧ t.out = .readData w.toNat :: s.out ∧ t.kiosk.word a = w + v ∧
        (∀ b, b ≠ a → t.kiosk.word b = s.kiosk.word b) ∧ s.keeps t [.kiosk, .words, .power, .out]) ∧
      (∃ t, exec (.kioskSwap off v) s = .next t ∧ t.out = .readData w.toNat :: s.out ∧ t.kiosk.word a = v ∧
        (∀ b, b ≠ a → t.kiosk.word b = s.kiosk.word b) ∧ s.keeps t [.kiosk, .words, .power, .out])) ∧
    (s.coreRuns = true → off.toNat % 8 ≠ 0 → exec (.kioskFetchadd off v) s = .next (s.emit .unsupported) ∧
      exec (.kioskSwap off v) s = .next (s.emit .unsupported) ∧ exec (.kioskBarRead off true) s = .next (s.emit .unsupported) ∧
      exec (.kioskBarWrite off true v) s = .next (s.emit .unsupported))

/-- A Kiosk request of a link partner (R253, R345, R346): a window that covers the word and allows the operation answers with
the word as it was and performs it; one that does not answers status 2, and FetchAdd or Swap on a link of version 1.0
status 3, with no effect on the words; the release of `BUSY_N` raises the ball. Log entry 64 names the model's choices in
it. -/
def Obligations.KioskRequestsOfLinks : Prop :=
  ∀ (n : Fin 8) (op : Fin 4) (tag : Byte) (addr : Fin 32768) (data : Word64) (s : State), s.linkLive n.val = true →
    let win := SMap.get 0 s.kiosk.win n.val
    let rsp (st : Nat) (v : Word64) : Out := .word n (cword 5 2
      [(16, 2, op.val), (18, 3, st), (24, 8, tag.toNat), (32, 15, addr.val), (64, 64, v.toNat)])
    ((s.link n.val).phy.ver = 0 → 2 ≤ op.val →
      exec (.kioskReq n op tag addr data) s = .next (s.emit (rsp 3 0))) ∧
    ((s.link n.val).phy.ver ≠ 0 ∨ op.val < 2 →
      (bit win 23 = false ∨ Kwin.covers win addr.val = false ∨ Kwin.allows win (kopOf op.val) = false) →
      exec (.kioskReq n op tag addr data) s = .next (s.emit (rsp 2 0))) ∧
    ((s.link n.val).phy.ver ≠ 0 ∨ op.val < 2 → bit win 23 = true → Kwin.covers win addr.val = true →
      Kwin.allows win (kopOf op.val) = true → s.kiosk.writes = [] → SMap.get false s.kiosk.bad addr.val = false →
      ∃ t, exec (.kioskReq n op tag addr data) s = .next t ∧
        t.out = rsp 0 (if op.val = 1 then 0 else s.kiosk.word addr.val) :: s.out ∧
        (t.kiosk.advance 2).word addr.val = (match op.val with
          | 0 => s.kiosk.word addr.val
          | 1 => data
          | 2 => s.kiosk.word addr.val + data
          | _ => data) ∧
        (∀ b, b ≠ addr.val → (t.kiosk.advance 2).word b = s.kiosk.word b) ∧ s.keeps t [.kiosk, .words, .power, .out]) ∧
    exec .busyNRelease s = .next { s with kiosk := { s.kiosk with busyN := true } }

/-! ## Power -/

/-- A request for a power state by `PWRCTL` (R360, R361, Table PW-7): Run and Idle take effect at once; an entry that no check
refuses starts and is shown as running; a refused one ends with its status; while a transition runs, a request becomes the
pending one; an undefined target is BAD_FIELD. The pending target is acted on once nothing runs. Log entries 41 and 106
name the model's choices in it. -/
def Obligations.PowerRequests : Prop :=
  ∀ (acc : Accessor) (v : Word32) (s : State), s.mayWrite acc 0x2000 = true →
    (s.power.running = none →
      (s.power.cur = .run → fld v 0 3 = 1 →
        ∃ t, exec (.pwrReqIdle acc v) s = .next t ∧ t.power.cur = .idle ∧ t.power.gated = false ∧ t.power.lastId = fld v 8 8 ∧
          t.power.lastStatus = St.ok ∧ t.power.running = none ∧ s.keeps t [.power, .funcs, .out]) ∧
      (s.power.cur = .idle → fld v 0 3 = 0 →
        ∃ t, exec (.pwrReqRun acc v) s = .next t ∧ t.power.cur = .run ∧ t.power.lastId = fld v 8 8 ∧
          t.power.lastStatus = St.ok ∧ t.power.running = none ∧ s.keeps t [.power, .funcs, .out]) ∧
      (∀ tj c p u, (c, p, u) ∈ [(Instr.pwrReqSleep acc v, PState.sleep, s), (.pwrReqDeepSleep acc ⟨v, tj⟩, .deepSleep, s.sampleTj tj),
          (.pwrReqOff acc v, .off, s)] →
        pstateOf (fld v 0 3) = some p → s.power.cur = .run ∨ s.power.cur = .idle →
        (u.refusal { target := p, force := bit v 3, id := some (fld v 8 8) } = none →
          ∃ t, exec c s = .next t ∧ t.power.cur = s.power.cur ∧ t.power.exiting = false ∧ t.power.domains = s.power.domains ∧
            t.power.running = some { target := p, force := bit v 3, id := some (fld v 8 8) } ∧ t.power.pend = s.power.pend ∧
            s.keeps t [.power, .links, .out]) ∧
        (∀ st slot, u.refusal { target := p, force := bit v 3, id := some (fld v 8 8) } = some (st, slot) →
          ∃ t, exec c s = .next t ∧ t.power.cur = s.power.cur ∧ t.power.running = none ∧ t.power.lastId = fld v 8 8 ∧
            t.power.lastStatus = st ∧ s.keeps t [.power, .funcs, .out])) ∧
      (s.power.cur = .sleep → fld v 0 3 = 0 →
        exec (.pwrReqRun acc v) s = .next { s with power := { s.power with
          running := some { target := .run, force := bit v 3, id := some (fld v 8 8) }, exiting := true, vrTries := 0 } })) ∧
    (∀ r, s.power.running = some r → s.power.pend = none →
      ∀ tj c p u, (c, p, u) ∈ [(Instr.pwrReqRun acc v, PState.run, s), (.pwrReqIdle acc v, .idle, s), (.pwrReqSleep acc v, .sleep, s),
        (.pwrReqDeepSleep acc ⟨v, tj⟩, .deepSleep, s.sampleTj tj), (.pwrReqOff acc v, .off, s)] → pstateOf (fld v 0 3) = some p →
      exec c s = .next { u with power := { u.power with
        pend := some { target := p, force := bit v 3, id := some (fld v 8 8) } } }) ∧
    (5 ≤ fld v 0 3 → ∃ t, exec (.pwrReqOff acc v) s = .next t ∧ t.power.lastStatus = St.badField ∧ t.power.lastId = fld v 8 8 ∧
      t.power.cur = s.power.cur ∧ t.power.running = s.power.running ∧ s.keeps t [.power, .funcs, .out]) ∧
    (∀ tj, s.sampleTj tj = { s with power := { s.power with tsense := BitVec.ofNat 32 tj.toNat } }) ∧
    (∀ r, s.power.running = none → s.power.pend = some r → r.target = .idle → s.power.cur = .run →
      ∃ t, exec .pwrPendingStart s = .next t ∧ t.power.cur = .idle ∧ t.power.pend = none ∧ s.keeps t [.power, .funcs, .out])

/-- Entries and exits (R364 to R367, R369, R384): an entry that waits for nothing more reaches Sleep with the ports and the
ring off, Deep Sleep with the Depot written, VDD off and the host's rings at reset, and Off with nothing of CORE kept but
what the wake logic knows of the links; Sleep and Deep Sleep lose no stored byte. The exit from Sleep ends in Run; that
from Deep Sleep restores the Depot's registers where its check holds and resets the system where it fails; that from Off
starts as after a POR. Log entries 14, 45 and 105 name the model's choices in it. -/
def Obligations.PowerEntriesAndExits : Prop :=
  ∀ s : State,
    (s.entryReady .sleep = true →
      ∃ t, exec .sleepEntry s = .next t ∧ t.power.cur = .sleep ∧ t.power.domains = s.power.domains &&& 0x23#6 ∧
        t.kiosk = s.kiosk ∧ t.time = s.time ∧ t.rst = s.rst ∧
        (s.power.pend = none → t.power.running = none)) ∧
    (∀ nonce, s.entryReady .deepSleep = true →
      ∃ t, exec (.deepSleepEntry nonce) s = .next t ∧ t.power.cur = .deepSleep ∧ t.power.nonce = nonce ∧ t.power.domains = 0 ∧
        t.power.vrOn = false ∧ t.power.vrPg = false ∧ t.power.lastStatus = St.ok ∧ t.errs.fifo = [] ∧ t.time.running = false ∧
        t.power.depot.tbCtrl = s.time.ctrl ∧ t.power.depot.tbComp = s.time.comp ∧ t.power.depot.portCfg = s.portCfg ∧
        t.power.depot.flagmap = s.flagmap ∧ t.power.depot.kwin = s.kiosk.win ∧ t.power.depot.retmask = s.power.retmask ∧
        t.power.depot.wsenseCfg = s.power.wsenseCfg ∧ (∀ g, g < 16 → (t.func g).en = false) ∧
        (s.power.pend = none → t.power.running = none)) ∧
    (s.entryReady .off = true →
      ∃ t, exec .offEntry s = .next t ∧ t.power.cur = .off ∧ t.power.domains = 0 ∧ t.queues = [] ∧
        (∀ n, n < 8 → t.link n = { cfg := (s.link n).cfg, wakeVote := (s.link n).wakeVote }) ∧ t.portCfg = s.portCfg ∧
        t.plaza = {} ∧ t.kiosk = {} ∧ t.nv = s.nv ∧ t.errs.fifo = [] ∧ t.power.lastStatus = St.ok ∧ t.rst.ioLocked = false) ∧
    (s.power.exiting = true → s.power.cur = .sleep → s.power.pend = none → (s.func 0).heldWrites = [] → s.host.stalled = [] →
      bit s.power.domains 0 = true →
      ∃ t, exec .sleepExit s = .next t ∧ t.power.cur = .run ∧ t.power.running = none ∧ t.power.exiting = false ∧
        fld t.power.wakesrc 21 3 = 2 ∧ t.queues = s.queues ∧ t.plaza = s.plaza ∧ t.links = s.links) ∧
    (∀ droop rows ecc ctx, s.power.exiting = true → s.power.cur = .deepSleep → s.power.vrPg = true → s.rst.trimValid = true →
      (∃ t, exec (.deepSleepExit false droop rows ecc ctx) s = .next t ∧ t.power.cur = .run ∧
        (s.rst.active = none → t.rst.active = some (.system, Cause.depot) ∧ bit t.rst.cause Cause.depot = true)) ∧
      (s.power.pend = none →
        ∃ t, exec (.deepSleepExit true droop rows ecc ctx) s = .next t ∧ t.power.cur = .run ∧ t.power.running = none ∧
          t.flagmap = s.power.depot.flagmap ∧ t.portCfg = s.power.depot.portCfg ∧ t.time.ctrl = s.power.depot.tbCtrl ∧
          t.time.comp = s.power.depot.tbComp ∧ t.time.running = true ∧ t.kiosk.win = s.power.depot.kwin)) ∧
    (s.power.exiting = true → s.power.cur = .off → s.power.vrPg = true →
      ∃ t, exec .offExit s = .next t ∧ t.rst.active = some (.por, fld s.rst.cause 24 5) ∧ t.rst.cause = s.rst.cause ∧
        t.rst.bootcnt = s.rst.bootcnt ∧ t.rst.trimRun = s.rst.rstN ∧ t.nv = s.nv ∧ t.queues = [] ∧
        (∀ n, n < 8 → t.link n = { wakeVote := (s.link n).wakeVote }) ∧
        fld t.power.wakesrc 21 3 = 4 ∧ t.power.cur = .run)

/-- Wake sources (R355, R362, R381, R382): in Sleep, Deep Sleep or Off with nothing running, `WAKE_N`, a service-port address
match, a lane signal of a link with `WAKE_EN` and, in Sleep, PCIe start the exit to Run and set their bit of `WAKESRC`;
`WAKE_SENSE` above its threshold does where it is powered. During an entry the target Run becomes pending instead. Log
entries 40 and 44 name the model's choices in it. -/
def Obligations.WakeSourcesStartTheExit : Prop :=
  ∀ s : State,
    let woken (s : State) (i : Nat) : State := setPower s fun p => { p with
      wakesrc := p.wakesrc ||| BitVec.ofNat 32 (2 ^ i), running := some { target := .run }, exiting := true, vrTries := 0 }
    (s.power.cur = .sleep → s.power.running = none → s.rst.recovery = false →
      exec .wakeN s = .next (woken s 1) ∧ exec .svcAddressMatch s = .next (woken s 0) ∧ exec .pcieWake s = .next (woken s 10) ∧
      ∀ n : Fin 8, s.linkPresent n.val = true → bit (s.link n.val).cfg 7 = true → ∃ t, exec (.laneSignalDetect n) s = .next t ∧
        t.power = (woken s (2 + n.val)).power ∧ (t.link n.val).wakeVote = true ∧ s.keeps t [.links, .power]) ∧
    (s.power.cur = .deepSleep ∨ s.power.cur = .off → s.power.running = none → s.rst.recovery = false →
      ∃ t, exec .wakeN s = .next t ∧ t.power = { (woken s 1).power with vrOn := true } ∧ s.keeps t [.power, .out]) ∧
    (∀ mv : BitVec 12, s.power.cur = .sleep → s.power.running = none → s.senseActs = true →
      (s.power.senseMv < mv.toNat → exec (.wakeSense mv) s = .next (woken s 11)) ∧
      (mv.toNat ≤ s.power.senseMv → exec (.wakeSense mv) s = .next s)) ∧
    (∀ r, s.power.running = some r → s.power.exiting = false → s.power.pend = none → s.rst.recovery = false →
      ∃ t, exec .wakeN s = .next t ∧ t.power.pend = some { target := .run } ∧ t.power.running = some r ∧
        bit t.power.wakesrc 1 = true ∧ bit t.power.wakesrc 12 = true ∧ s.keeps t [.power]) ∧
    (s.power.cur = .run → s.power.running = none → exec .wakeN s = .next s ∧ exec .svcAddressMatch s = .next s)

/-- Votes and domains (R351 to R358): a write of `PWRVOTE` and a partner's POWER word replace the client's vote and the domains
settle; a port or ring domain that no vote and no lead holds any more drops, its links and sides idle, where every other
stays as it is. SLEEP_REQ is denied while the port has a vote; where it has none, IDLE_NOTICE goes to the port's links and
their leads run. At the end of the lead the links idle, and the port turns off, or its links train again where it has a
vote again. A domain with a new vote powers up; the wake logic's vote ends once its link has been UP; the clock gates in
Idle and a playout ends the gating. Log entry 42 names the model's choices in it. -/
def Obligations.VotesPowerDomains : Prop :=
  ∀ s : State,
    let partner (n : Fin 8) (v : BitVec 6) : State := s.updLink n.val fun x => { x with votes := v.toNat }
    let noticed (n : Fin 8) (v : BitVec 6) (asked : Bool) : State :=
      ((noticedBy n.val asked).foldl State.idleNotice (partner n v)).updLink n.val fun x => { x with idleLead := true }
    let ended (d : Nat) : State := (s.leads d).foldl State.endLead s
    (∀ u : State, u.settleVotes = ((u.settleDomain 2).settleDomain 3).settleDomain 4) ∧
    (∀ (u : State) (d : Nat),
      (u.votesAct = true ∧ bit u.power.domains d = true ∧ u.voted d = false ∧ u.leadRuns d = false →
        u.settleDomain d = u.dropDomain d) ∧
      (¬(u.votesAct = true ∧ bit u.power.domains d = true ∧ u.voted d = false ∧ u.leadRuns d = false) → u.settleDomain d = u)) ∧
    (∀ (u : State) (d : Fin 6),
      bit (u.dropDomain d.val).power.domains d.val = false ∧
      (∀ e, e ≠ d.val → bit (u.dropDomain d.val).power.domains e = bit u.power.domains e) ∧
      ∀ p ∈ domPhys d.val, ((u.dropDomain d.val).phy p).st = .disabled ∧ ((u.dropDomain d.val).phy p).txIdle = true) ∧
    (∀ (g : Fin 16) (v : Word32), s.fnReached g.val = true →
      exec (.pwrvoteWrite g v) s = .next (s.updFunc g.val fun f => { f with vote := fld v 0 6 }).settleVotes) ∧
    (∀ (n : Fin 8) (v : BitVec 6),
      (s.linkLive n.val = false → exec (.powerVote n v) s = .next s ∧ exec (.sleepReq n v) s = .next s) ∧
      (s.linkLive n.val = true → (partner n v).voted (linkDomain n.val) = true →
        exec (.powerVote n v) s = .next (partner n v).settleVotes ∧
        exec (.sleepReq n v) s = .next ((partner n v).emit (.word n (cword 6 0 [(24, 4, 3)]))).settleVotes) ∧
      (s.linkLive n.val = true → (partner n v).voted (linkDomain n.val) = false →
        exec (.powerVote n v) s = .next (noticed n v false).settleVotes ∧
        exec (.sleepReq n v) s = .next (noticed n v true).settleVotes)) ∧
    (∀ (n : Fin 8) (m : Nat) (asked : Bool), m ∈ noticedBy n.val asked ↔
      m < 8 ∧ linkDomain m = linkDomain n.val ∧ (m ≠ n.val ∨ asked = true)) ∧
    (∀ (u : State) (m : Fin 8),
      (u.linkLive m.val = false → u.idleNotice m.val = u) ∧
      (u.linkLive m.val = true → u.idleNotice m.val =
        (u.emit (.word m (cword 6 0 [(24, 4, 2)]))).updLink m.val fun x => { x with idleLead := true })) ∧
    (∀ p : Port, s.leads (portDomain p) = [] → exec (.idleNoticeLeadEnd p) s = .next s) ∧
    (∀ (d : Nat) (n : Fin 8), .link n ∈ s.leads d →
      ((ended d).link n.val).idleLead = false ∧ ((ended d).link n.val).phy.st = .disabled ∧
      ((ended d).link n.val).phy.txIdle = true) ∧
    (∀ p : Port, s.leads (portDomain p) ≠ [] →
      (s.power.entering = true → exec (.idleNoticeLeadEnd p) s = .next (ended (portDomain p))) ∧
      (s.power.entering = false → (ended (portDomain p)).voted (portDomain p) = false →
        exec (.idleNoticeLeadEnd p) s = .next ((ended (portDomain p)).dropDomain (portDomain p))) ∧
      (s.power.entering = false → (ended (portDomain p)).voted (portDomain p) = true →
        exec (.idleNoticeLeadEnd p) s = .next ((s.leads (portDomain p)).foldl State.phyEnable (ended (portDomain p))))) ∧
    (∀ d : Fin 6, s.votesAct = true → s.rst.recovery = false → s.coreRuns = true → bit s.power.domains d.val = false →
      s.voted d.val = true →
      exec (.domainPowerUp d) s = .next (s.raiseDomain d.val) ∧
      (s.raiseDomain d.val).power = { s.power with domains := s.power.domains ||| BitVec.ofNat 6 (2 ^ d.val) } ∧
      s.keeps (s.raiseDomain d.val) [.links, .ring, .power, .cells, .funcs, .fw, .errs, .out]) ∧
    (∀ d : Fin 6, bit s.power.domains d.val = true ∨ s.voted d.val = false → exec (.domainPowerUp d) s = .next s) ∧
    (∀ n : Fin 8,
      ((s.link n.val).phy.st = .up →
        exec (.wakeVoteRelease n) s = .next (s.setLink n.val { s.link n.val with wakeVote := false }).settleVotes) ∧
      ((s.link n.val).phy.st ≠ .up → exec (.wakeVoteRelease n) s = .next s)) ∧
    (s.power.cur = .idle → s.datapathQuiet = true →
      exec .idleClockGate s = .next { s with power := { s.power with gated := true } }) ∧
    (s.power.cur ≠ .idle ∨ s.datapathQuiet = false → exec .idleClockGate s = .next s) ∧
    exec .playoutUngate s = .next { s with power := { s.power with gated := false } }

/-- The VDD regulator (R377 to R380, R495): `VR_PG` rising lets the exit go on with the trim load; its time-out switches VDD
off again and, the second time, waits for the next wake event, while the first is retried; an AVS step within bounds
commands the new point, is acknowledged or, without acknowledgement, taken back with `PMBUS_TIMEOUT`; a stretched transfer
is retried; an alert is read, reported and cleared outside its hold-off. Log entry 43 names the model's choices in it. -/
def Obligations.RegulatorCommands : Prop :=
  ∀ s : State,
    (s.power.exiting = true → s.power.vrOn = true → s.power.vrPg = false →
      exec .vrPgRise s = .next { s with
        power := { s.power with vrPg := true }, rst := { s.rst with trimValid := false, trimRun := s.rst.rstN } }) ∧
    (s.power.exiting = true → s.power.cur = .deepSleep → s.power.vrOn = true → s.power.vrPg = false →
      ∃ t, exec .vrPgTimeout s = .next t ∧ t.power.vrOn = false ∧ bit t.power.wakesrc 13 = true ∧ t.power.vrFailed = true ∧
        t.power.vrTries = s.power.vrTries + 1 ∧ (s.power.vrTries = 0 → t.power.exiting = true) ∧
        (1 ≤ s.power.vrTries → t.power.exiting = false ∧ t.power.running = none) ∧
        t.out = .pmbus 1 0 :: s.out ∧ s.keeps t [.power, .out]) ∧
    (s.power.exiting = true → s.power.cur = .deepSleep → s.power.vrOn = false → s.power.vrTries = 1 →
      ∃ t, exec .vrRetry s = .next t ∧ t.power.vrOn = true ∧ t.out = .pmbus 1 0x80 :: s.out ∧ s.keeps t [.power, .out]) ∧
    (∀ (mv : Fin 1024) up, s.avsMay mv.val = true →
      ∃ t, exec (.avsStep mv up) s = .next t ∧ t.power.vddMv = mv.val ∧
        t.power.avsPrev = some (s.power.vddMv, up && decide (s.power.vddMv < mv.val)) ∧
        t.out = .pmbus 0x21 mv.val :: s.out ∧ s.keeps t [.power, .out]) ∧
    exec .avsAck s = .next { s with power := { s.power with avsPrev := none } } ∧
    (∀ old, s.power.avsPrev = some (old, false) →
      ∃ t, exec .avsAckTimeout s = .next t ∧ t.power.vddMv = old ∧ t.power.avsPrev = none ∧
        t.errs.seq = (s.errs.seq + 1) % 2 ^ 32 ∧ s.keeps t [.power, .funcs, .errs, .out]) ∧
    (s.power.avsPrev = none → exec .avsAckTimeout s = .next s) ∧
    (s.power.avsPrev.isSome = true → s.power.pmbRetry < 3 →
      exec .pmbusStretchTimeout s = .next ({ s with power := { s.power with pmbRetry := s.power.pmbRetry + 1 } }.emit
        (.pmbus 0x21 s.power.vddMv))) ∧
    (∀ w : BitVec 16, s.coreRuns = true → s.power.alertHoldoff = false →
      ∃ t, exec (.pmbAlertN w) s = .next t ∧ t.power.alertHoldoff = true ∧ t.errs.seq = (s.errs.seq + 1) % 2 ^ 32 ∧
        s.keeps t [.power, .funcs, .errs, .out]) ∧
    (∀ w : BitVec 16, s.power.alertHoldoff = true → exec (.pmbAlertN w) s = .next s) ∧
    (∀ w : BitVec 16, exec (.vrAlertHoldoffEnd false w) s = .next { s with power := { s.power with alertHoldoff := false } }) ∧
    (∀ w : BitVec 16, s.coreRuns = true →
      ∃ t, exec (.vrAlertHoldoffEnd true w) s = .next t ∧ t.power.alertHoldoff = true ∧
        t.errs.seq = (s.errs.seq + 1) % 2 ^ 32 ∧ s.keeps t [.power, .funcs, .errs, .out])

/-! ## Resets, starts and dumps -/

/-- Reset sources (R387 to R390, R394, R395, R405): with no reset running, `RSTCTL.SYS`, `RST_N` low for at least 1 µs, loss of
REFCLK, a supply monitor, the trial timer and a second watchdog expiry within 1 s start a system reset, which empties
queues, links, Plaza, Kiosk and Error FIFO and keeps `BOOTCNT`, the non-volatile contents and the directory; `RSTCTL.CORE`,
firmware and the watchdog start a core reset, which takes the control plane away and leaves stored data, links, ring and
time base alone. A POR also clears the cause; a brown-out sets `BOR`. A running system reset absorbs another; a pulse under
250 ns is none. Log entries 17, 20, 107 and 109 name the model's choices in it. -/
def Obligations.ResetSourcesAndWhatTheyLeave : Prop :=
  ∀ s : State,
    let system (c : Instr) (src : Nat) : Prop := ∃ t, exec c s = .next t ∧ t.rst.active = some (.system, src) ∧
      bit t.rst.cause src = true ∧ t.rst.ioHeld = true ∧ t.rst.ioLocked = false ∧ t.rst.bootcnt = s.rst.bootcnt ∧ t.queues = [] ∧
      t.links = [] ∧ t.plaza.mem = [] ∧ t.kiosk = {} ∧ t.time = {} ∧ t.errs.fifo = [] ∧ t.errs.counts = [] ∧ t.nv = s.nv ∧
      t.fw.dir = s.fw.dir ∧ t.funcs = [(0, { vote := 0x3F })] ∧ t.power.domains = 0
    let core (c : Instr) (src : Nat) : Prop := ∃ t, exec c s = .next t ∧ t.rst.active = some (.core, src) ∧
      bit t.rst.cause src = true ∧ t.rst.ioHeld = true ∧ t.rst.ctlReturn = true ∧ t.rst.control = false ∧ t.fw.ready = false ∧
      t.rst.bootcnt = s.rst.bootcnt ∧ s.keeps t [.queues, .funcs, .kiosk, .power, .rst, .fw, .out]
    (s.rst.active = none →
      (∀ acc v, fld v 8 8 = 0x5A → s.mayWrite acc 0x210C = true →
        (bit v 0 = true → system (.rstctlSys acc v) Cause.swsys) ∧
        (bit v 0 = false → bit v 1 = true → core (.rstctlCore acc v) Cause.swcore)) ∧
      (∀ ns, 1000 ≤ ns → system (.rstNAssert ns) Cause.pin) ∧
      system .refclkLoss Cause.clkloss ∧
      (∀ r, s.railOn r = true → system (.supplyMonitorTrip r) Cause.supply) ∧
      (s.fw.trial = true → s.fw.healthOk = false → system .trialTimeout Cause.trial) ∧
      (s.rst.control = true → core .fwcoreRequest Cause.fwcore) ∧
      (s.coreRuns = true → s.rst.recovery = false →
        (s.rst.wdogAt = none → core .watchdogExpiry Cause.wdcore) ∧
        (∀ t, s.rst.wdogAt = some t → s.cyc ≤ t + cyclesPerSecond → system .watchdogExpiry Cause.wdog) ∧
        (∀ t, s.rst.wdogAt = some t → t + cyclesPerSecond < s.cyc → core .watchdogExpiry Cause.wdcore))) ∧
    (∀ rc lost, ∃ t, exec (.por ⟨rc, lost⟩) s = .next t ∧ t.rst.active = some (.por, Cause.por) ∧ t.rst.refclk = rc ∧
      t.rst.cause = (if lost then 1#32 else (s.rst.cause &&& 2#32) ||| 1#32) ∧
      t.rst.bootcnt = (if lost then 0 else s.rst.bootcnt) ∧ t.rst.ioHeld = true ∧ t.rst.released = false ∧
      t.queues = [] ∧ t.plaza = {} ∧ t.power = {} ∧ t.errs.fifo = [] ∧ t.nv = s.nv ∧ t.fw.dir = s.fw.dir) ∧
    (∃ t, exec .brownOut s = .next t ∧ t.rst.active = some (.por, Cause.bor) ∧ bit t.rst.cause Cause.bor = true ∧
      t.rst.bootcnt = s.rst.bootcnt ∧ t.queues = [] ∧ t.plaza = {} ∧ t.nv = s.nv) ∧
    (∀ src ns, s.rst.active = some (.system, src) → 1000 ≤ ns →
      ∃ t, exec (.rstNAssert ns) s = .next t ∧ t.rst.active = some (.system, src) ∧ bit t.rst.cause Cause.pin = true ∧
        t.rst.rstN = false ∧ s.keeps t [.rst]) ∧
    (∀ ns, ns < 250 → exec (.rstNAssert ns) s = .next s)

/-- Trim load and the end of a reset (R389, R392, R393, R399): a trim load that passes sets `TRIM_VALID` and the banks it finds
degraded, one that fails counts and is tried again; `RST_N` rising begins it unless it has passed. A POR or system reset
completes once trim has passed and `RST_N` is high: CORE, PLAZA and HOST are powered, every quarter begins its wipe and the
time base counts; a core reset completes at once. `LAST` names the source. Log entry 21 names the model's choices in it. -/
def Obligations.TrimLoadAndTheEndOfResets : Prop :=
  ∀ s : State,
    (s.rst.trimRun = true → ∀ banks kd,
      exec (.trimLoadDone true banks kd) s = .next { s with
        rst := { s.rst with trimRun := false, trimValid := true }, plaza := { s.plaza with bankstat := banks }
        kiosk := { s.kiosk with degr := kd } } ∧
      exec (.trimLoadDone false banks kd) s = .next { s with
        rst := { s.rst with trimRun := false, trimValid := false, trimRetry := inc8 s.rst.trimRetry } }) ∧
    (s.rst.active.isSome = true → s.rst.rstN = true → s.rst.trimValid = false →
      exec .trimRetry s = .next { s with rst := { s.rst with trimRun := true } }) ∧
    (s.rst.rstN = false →
      exec .rstNRelease s = .next { s with rst := { s.rst with rstN := true, trimRun := !s.rst.trimValid } }) ∧
    (∀ lvl src, s.rst.active = some (lvl, src) → lvl ≠ .core → src < 32 →
      (s.rst.rstN = true → s.rst.trimValid = true →
        ∃ t, exec .resetComplete s = .next t ∧ t.rst.active = none ∧ fld t.rst.cause 24 5 = src ∧ t.rst.refclk = true ∧
          t.power.domains = 0x23#6 ∧ (∀ i, i < 4 → (t.plaza.quarter i).act = some .wipe) ∧ t.time.running = true ∧
          t.host.inReset = !s.host.perstN ∧ t.host.training = s.host.perstN ∧
          s.keeps t [.rst, .power, .plaza, .time, .host, .out]) ∧
      (s.rst.trimValid = false → exec .resetComplete s = .next s)) ∧
    (∀ src, s.rst.active = some (.core, src) → src < 32 →
      ∃ t, exec .resetComplete s = .next t ∧ t.rst.active = none ∧ fld t.rst.cause 24 5 = src ∧ s.keeps t [.rst, .out])

/-- Starts (R400, R402, R403, R443 to R449): the ROM code counts `BOOTCNT`, boots slot 0 without a record, the recorded slot by
a SET record, and the armed one as a trial, and enters Recovery at the fifth start or without an image; the config store in
use is applied, or its defaults with a report; `IOREL` releases the pads; firmware becomes ready; `HEALTH_OK` clears
`BOOTCNT`, records a trial's success and raises the SVN floor; and after a core reset the control plane returns. Log
entries 22, 23, 24, 25, 28, 29, 43, 108 and 112 name the model's choices in it. -/
def Obligations.StartsBootAnImageAndReleaseThePads : Prop :=
  ∀ s : State,
    let waitsForNothing : Prop := s.host.stalled = [] ∧
      ∀ g, (s.func g).fenced = [] ∧ (s.func g).latched = [] ∧ (s.func g).heldWrites = [] ∧ (s.func g).aborted = []
    (∀ s0 m, s0.readVoutMode m = s → ∀ a b d, s.romReady = true → s.nv.lc ≠ Lc.scrapped →
      (s.rst.bootcnt < 4 →
        (newestRec s.fw.dir = none → s.imageOk a b 0 = true →
          ∃ t, exec (.bootStart a b ⟨d, m⟩) s0 = .next t ∧ t.rst.booted = true ∧ t.rst.bootcnt = s.rst.bootcnt + 1 ∧ t.fw.slot = 0 ∧
            t.fw.trial = false ∧ t.fw.fwver = s.fw.slotA.version ∧ s.keeps t [.rst, .fw]) ∧
        (∀ r, newestRec s.fw.dir = some r → r.typ = Dir.set → s.imageOk a b r.slot = true →
          ∃ t, exec (.bootStart a b ⟨d, m⟩) s0 = .next t ∧ t.rst.booted = true ∧ t.rst.bootcnt = s.rst.bootcnt + 1 ∧ t.fw.slot = r.slot ∧
            t.fw.trial = false ∧ t.fw.dir = s.fw.dir ∧ s.keeps t [.rst, .fw]) ∧
        (∀ r, newestRec s.fw.dir = some r → r.typ = Dir.arm → d ≠ .fail → s.fw.dir.length < 512 → s.imageOk a b r.slot = true →
          ∃ t, exec (.bootStart a b ⟨d, m⟩) s0 = .next t ∧ t.rst.booted = true ∧ t.fw.slot = r.slot ∧ t.fw.trial = true ∧
            (∃ x, t.fw.dir = s.fw.dir ++ [x] ∧ x.typ = Dir.start ∧ x.slot = r.slot ∧ x.seq = r.seq + 1 ∧ x.tfails = r.tfails) ∧
            s.keeps t [.rst, .fw]) ∧
        (newestRec s.fw.dir = none → s.imageOk a b 0 = false → s.imageOk a b 1 = false →
          ∃ t, exec (.bootStart a b ⟨d, m⟩) s0 = .next t ∧ t.rst.recovery = true ∧ t.power.domains = 1#6 ∧ t.host.inReset = true ∧
            t.rst.booted = s.rst.booted)) ∧
      (4 ≤ s.rst.bootcnt →
        ∃ t, exec (.bootStart a b ⟨d, m⟩) s0 = .next t ∧ t.rst.recovery = true ∧ t.power.domains = 1#6 ∧ t.host.inReset = true ∧
          t.rst.bootcnt = s.rst.bootcnt ∧ s.keeps t [.rst, .power, .host])) ∧
    (s.fwRuns = true → s.fw.cfgApplied = false →
      (s.fw.copyInUse = none → ∃ t, exec .configStoreApply s = .next t ∧ t.errs.seq = (s.errs.seq + 1) % 2 ^ 32 ∧
        s.keeps t [.funcs, .fw, .errs, .out]) ∧
      (∀ i, s.fw.copyInUse = some i → (s.fw.image s.fw.slot).cfgFmt ≤ (s.fw.copy i).fmt →
        ∃ u, exec .configStoreApply s = .next (u.applyEntries 0 (s.fw.copy i).entries) ∧ u.fw.cfgApplied = true ∧
          u.fw.startIdx = some i ∧ u.fw.cfgFmtApplied = (s.fw.copy i).fmt ∧ s.keeps u [.fw])) ∧
    (∀ v : Word32, bit v 0 = true → s.fwRuns = true → s.fw.cfgApplied = true → s.fw.startIdx = none →
      exec (.iorelWrite v) s = .next { s with
        rst := { s.rst with ioHeld := false, ioLocked := true, rstStateN := true, released := true } }) ∧
    (s.fwRuns = true → s.fw.cfgApplied = true → s.rst.rstStateN = true → s.fw.ready = false → waitsForNothing →
      ∃ t, exec .firmwareReady s = .next t ∧ t.fw.ready = true ∧ t.rst.control = true ∧
        (s.fw.sweepDone = false → t.plaza.ksweepRun = true) ∧ s.keeps t [.rst, .fw, .plaza, .funcs, .out] ∧
        t.plaza.mem = s.plaza.mem) ∧
    (s.healthy = true →
      ∃ t, exec .healthOk s = .next t ∧ t.fw.healthOk = true ∧ t.rst.bootcnt = 0 ∧ s.nv.svnFloor ≤ t.nv.svnFloor ∧
        ((s.fw.image s.fw.slot).flags / 2 % 2 = 1 → (s.fw.image s.fw.slot).svn ≤ t.nv.svnFloor) ∧
        (s.fw.trial = true → ∃ kept x, t.fw.dir = kept ++ [x] ∧ x.typ = Dir.health ∧ x.slot = s.fw.slot ∧
          (s.fw.dir.length < 512 → kept = s.fw.dir) ∧ (512 ≤ s.fw.dir.length → ∃ y, kept = [y] ∧ y.typ = Dir.set)) ∧
        (s.fw.trial = false → t.fw.dir = s.fw.dir) ∧ s.keeps t [.rst, .nv, .fw, .errs]) ∧
    (s.coreRuns = true → s.rst.active = none → s.rst.ctlReturn = true → s.rst.recovery = false → s.rst.booted = true →
      s.rst.ioHeld = false → s.fw.cfgApplied = true → s.rst.rstStateN = true → fld s.rst.cause 24 5 ≠ Cause.wdcore → waitsForNothing →
      ∃ t, exec .controlPlaneReturn s = .next t ∧ t.rst.ctlReturn = false ∧ t.rst.control = true ∧ t.fw.ready = true ∧
        s.keeps t [.queues, .funcs, .plaza, .rst, .fw, .out] ∧ t.plaza.mem = s.plaza.mem ∧
        (s.fw.baud.isSome = true → ∃ o, t.out = .wardenLine "WARDEN" [ident] :: o)) ∧
    (∀ m : Byte, s.romReady = true → s.power.voutRead = false → s.readVoutMode m =
      let u := ({ s with power := { s.power with voutRead := true } }).emit (.pmbus 0x20 m.toNat)
      if m.toNat < 32 then u
      else ({ u with power := { u.power with pmbCfg := u.power.pmbCfg &&& 0xFFFFFBFF#32 } }).raise 0x801 none m.toNat 0 0) ∧
    (∀ m : Byte, s.romReady = false ∨ s.power.voutRead = true → s.readVoutMode m = s)

/-- Fatal dumps (R462 to R467): a dump goes to host memory where `DUMP_BASE` enables it, PCIe is in L0 or L1 and bus mastering
is on, else to an erased half; completion writes the header and `DONE`; a dump that has nowhere to go, does not start in
time or overruns leaves `DUMP_STAT` without `DONE`; each but the start ends in the system reset with `FATAL`. Log entry 30
names the model's choices in it. -/
def Obligations.FatalDumpsEndInTheReset : Prop :=
  ∀ s : State, s.errs.frozen = true → s.rst.active = none →
    let resets (c : Instr) (dest : Nat) (done timeout : Bool) : Prop := ∃ t, exec c s = .next t ∧
      t.rst.active = some (.system, Cause.fatal) ∧ bit t.rst.cause Cause.fatal = true ∧ t.errs.dumpDest = dest ∧
      t.errs.dumpDone = done ∧ t.errs.dumpTimeout = timeout ∧ t.errs.frozen = false ∧ t.errs.fifo = [] ∧ t.queues = [] ∧
      t.nv = s.nv ∧ t.rst.bootcnt = s.rst.bootcnt
    (∀ l1 bm, s.errs.dumping = false → s.fwRuns = true →
      (s.errs.dumpBase % 2 = 1 → l1 = true → bm = true →
        ∃ t, exec (.dumpStart l1 bm) s = .next t ∧ t.errs.dumping = true ∧ t.errs.dumpTo = Dest.host ∧ t.errs.fifo = s.errs.fifo ∧
          t.errs.half0 = s.errs.half0 ∧ t.errs.half1 = s.errs.half1 ∧ t.queues = s.queues ∧ t.rst = s.rst) ∧
      (s.errs.dumpBase % 2 = 0 ∨ l1 = false ∨ bm = false →
        (s.errs.half0 = true → ∃ t, exec (.dumpStart l1 bm) s = .next t ∧ t.errs.dumping = true ∧ t.errs.dumpTo = Dest.half0 ∧
          t.errs.half0 = false ∧ t.queues = s.queues ∧ t.rst = s.rst) ∧
        (s.errs.half0 = false → s.errs.half1 = true → ∃ t, exec (.dumpStart l1 bm) s = .next t ∧ t.errs.dumping = true ∧
          t.errs.dumpTo = Dest.half1 ∧ t.errs.half1 = false ∧ t.queues = s.queues ∧ t.rst = s.rst) ∧
        (s.errs.half0 = false → s.errs.half1 = false → resets (.dumpStart l1 bm) Dest.none false false))) ∧
    (s.errs.dumping = true → s.fwRuns = true → resets .dumpComplete s.errs.dumpTo true false) ∧
    (s.errs.dumping = true → resets .dumpOverrun s.errs.dumpTo false true) ∧
    (s.errs.dumping = false → resets .dumpStartTimeout Dest.none false false)

/-! ## Service port and Warden monitor -/

/-- Service requests (R425, R440, R441, Table FW-7): while the port answers and no request is pending, `INFO`, `REG_READ`,
`REG_WRITE`, `KEY_MSG`, `BOOT_CLEAR` and `CONFIRM` are done with `OK`, their data and their effect; an operation that
Recovery mode lacks is BAD_OPCODE, a wrong `LEN` BAD_FIELD, a register outside the port's list NOT_PERMITTED. A reply keeps
everything but the port and what goes out. A request whose `CRC` fails is discarded and reads back with `STATE` 0 and its
tag. Log entries 32 and 33 name the model's choices in it. -/
def Obligations.ServiceRequestsAnswer : Prop :=
  ∀ (s : State) (tag : Byte), s.fw.svcState ≠ 1 →
    (∀ st d, (s.svcReply tag st d).fw.svcState = 2 ∧ (s.svcReply tag st d).fw.svcTag = tag.toNat ∧
      (s.svcReply tag st d).fw.svcStatus = st ∧ (s.svcReply tag st d).fw.svcData = d ∧
      (s.svcReply tag st d).out = .svcResponse (s.svcReply tag st d).fw.response :: s.out ∧
      s.keeps (s.svcReply tag st d) [.fw, .out]) ∧
    (∀ (p : List Byte) (crc : Byte) (r : FlashResult) c aon op,
      (c, aon, op) ∈ [(Instr.info tag ⟨p, crc⟩, true, 0x01), (.regRead tag ⟨p, crc⟩, aonReg (ofBytes p), 0x02),
        (.regWrite tag ⟨p, crc⟩, aonReg (le p 0 4), 0x03), (.keyMsg tag ⟨p, crc⟩, false, 0x10), (.pkgBegin tag ⟨p, crc⟩, false, 0x20),
        (.pkgData tag ⟨p, crc⟩ r, false, 0x21), (.pkgEnd tag ⟨p, crc⟩ r, false, 0x22), (.pkgAbort tag ⟨p, crc⟩, false, 0x23),
        (.bootClear tag ⟨p, crc⟩, true, 0x30), (.confirm tag ⟨p, crc⟩, false, 0x31)] →
      s.svcUp aon = true → crc ≠ svcCrc op tag p →
      exec c s = .next (s.svcDiscard tag) ∧ (s.svcDiscard tag).fw.svcState = 0 ∧ (s.svcDiscard tag).fw.svcTag = tag.toNat ∧
        (s.svcDiscard tag).fw.svcData = [] ∧ s.keeps (s.svcDiscard tag) [.fw]) ∧
    (s.svcUp true = true →
      exec (.info tag ⟨[], svcCrc 0x01 tag []⟩) s = .next (s.svcReply tag St.ok s.infoBytes) ∧ s.infoBytes.length = 64 ∧
      le s.infoBytes 0 4 = 0x81920B00 ∧
      (s.nv.lc ≠ Lc.scrapped →
        exec (.bootClear tag ⟨[], svcCrc 0x30 tag []⟩) s = .next (({ s with rst := { s.rst with bootcnt := 0 } }).svcReply tag St.ok [])) ∧
      (∀ b p, exec (.info tag ⟨b :: p, svcCrc 0x01 tag (b :: p)⟩) s = .next (s.svcReply tag St.badField []))) ∧
    (∀ a : Fin 65536, s.svcUp (aonReg a.val) = true →
      let p := toBytes 4 a.val
      (lcMayRead s.nv.lc a.val = true →
        exec (.regRead tag ⟨p, svcCrc 0x02 tag p⟩) s =
          .next ((s.readReg .svc a.val).2.svcReply tag St.ok (toBytes 4 (s.readReg .svc a.val).1))) ∧
      (∀ v : Word32, svcMayWrite s.rst.recovery a.val = false →
        exec (.regWrite tag ⟨p ++ toBytes 4 v.toNat, svcCrc 0x03 tag (p ++ toBytes 4 v.toNat)⟩) s = .next (s.svcReply tag St.notPermitted []))) ∧
    (s.svcUp true = true → s.rst.active = none → s.rst.recovery = false → ∀ v : Word32,
      let p (a : Nat) := toBytes 4 a ++ toBytes 4 v.toNat
      exec (.regWrite tag ⟨p 0x2218, svcCrc 0x03 tag (p 0x2218)⟩) s =
        .next (({ s with fw := { s.fw with svcCfg := v &&& 0x7F#32 } }).svcReply tag St.ok []) ∧
      exec (.regWrite tag ⟨p 0x2044, svcCrc 0x03 tag (p 0x2044)⟩) s =
        .next (({ s with power := { s.power with wsenseCfg := v &&& 0x1FF#32 } }).svcReply tag St.ok [])) ∧
    (s.svcUp false = true → s.rst.recovery = false →
      exec (.confirm tag ⟨[], svcCrc 0x31 tag []⟩) s = .next (({ s with fw := { s.fw with confirmed := true } }).svcReply tag St.ok []) ∧
      (∀ m : List Byte, m.length = 144 ∨ m.length = 308 → (s.keyMessage .service m).1.rst.active = none →
        exec (.keyMsg tag ⟨m, svcCrc 0x10 tag m⟩) s = .next ((s.keyMessage .service m).1.svcReply tag (s.keyMessage .service m).2 []))) ∧
    (s.svcUp false = true → s.rst.recovery = true →
      exec (.confirm tag ⟨[], svcCrc 0x31 tag []⟩) s = .next (s.svcReply tag St.badOpcode []) ∧
      (∀ m, exec (.keyMsg tag ⟨m, svcCrc 0x10 tag m⟩) s = .next (s.svcReply tag St.badOpcode [])))

/-- Package uploads (R436 to R438, R442, Table FW-5): `PKG_BEGIN` of an image that passes the checks erases the slot that is
not active and stays pending until the erase ends; that of a config store is done at once; `PKG_DATA` appends at the offset
reached; `PKG_END` checks again and commits the image with an ARM record, for which a full sector is turned (R435), or the
copy; `ACTIVATE` resets; an abort, the time-out and `PWRFAIL_N` end the upload. Log entries 27, 34 and 108 name the model's
choices in it. -/
def Obligations.PackagesAreUploadedAndCommitted : Prop :=
  ∀ (s : State) (tag : Byte),
    (s.svcUp false = true → s.fw.svcState ≠ 1 →
      (∀ (h : List Byte) u, h.length = 512 → s.pkgCheck h s.fw.upload.isSome none = (u, St.ok) →
        (le h 5 1 = 1 → ∃ t, exec (.pkgBegin tag ⟨h, svcCrc 0x20 tag h⟩) s = .next t ∧
          t.fw.upload = some { header := h, erasing := true } ∧
          (t.fw.image u.uploadSlot).erased = true ∧ t.fw.image (otherSlot u.uploadSlot) = u.fw.image (otherSlot u.uploadSlot) ∧
          t.fw.svcState = 1 ∧ t.fw.svcTag = tag.toNat ∧ u.keeps t [.fw]) ∧
        (le h 5 1 = 2 → s.rst.recovery = false →
          exec (.pkgBegin tag ⟨h, svcCrc 0x20 tag h⟩) s =
            .next (({ u with fw := { u.fw with upload := some { header := h } } }).svcReply tag St.ok []))) ∧
      (∀ (x : Upload) (off : List Byte) (bs : List Byte), s.fw.upload = some x → off.length = 4 → ofBytes off = x.body.length →
        1 ≤ bs.length → bs.length ≤ 512 → x.body.length + bs.length ≤ le x.header 40 4 →
        let p := off ++ bs
        exec (.pkgData tag ⟨p, svcCrc 0x21 tag p⟩ .ok) s =
          .next (({ s with fw := { s.fw with upload := some { x with body := x.body ++ bs } } }).svcReply tag St.ok []) ∧
        exec (.pkgData tag ⟨p, svcCrc 0x21 tag p⟩ .fail) s = .next (s.endUpload.svcReply tag St.nvFail [])) ∧
      (∀ (x : Upload) (b : Byte) u, s.fw.upload = some x → x.body.length = le x.header 40 4 →
        s.pkgCheck x.header false (some x.body) = (u, St.ok) →
        (le x.header 5 1 = 1 →
          ((u.fw.dir.length < 512 ∨ u.fw.healthOk = true) →
            ∃ t, exec (.pkgEnd tag ⟨[b], svcCrc 0x22 tag [b]⟩ .ok) s = .next t ∧ t.fw.upload = none ∧ t.fw.svcStatus = St.ok ∧
            t.fw.image u.uploadSlot = { version := le x.header 12 4, svn := le x.header 16 1, flags := le x.header 6 1
                                        cfgFmt := le x.header 18 2, cfgMin := le x.header 20 2 } ∧
            (∃ kept r, t.fw.dir = kept ++ [r] ∧ r.typ = Dir.arm ∧ r.slot = u.uploadSlot ∧
              (u.fw.dir.length < 512 → kept = u.fw.dir) ∧ (512 ≤ u.fw.dir.length → ∃ y, kept = [y] ∧ y.typ = Dir.set)) ∧
            t.fw.actReset = (u.fw.actReset || b == 1) ∧ u.keeps t [.fw, .out]) ∧
          (512 ≤ u.fw.dir.length → u.fw.healthOk = false →
            exec (.pkgEnd tag ⟨[b], svcCrc 0x22 tag [b]⟩ .ok) s = .next (u.endUpload.svcReply tag St.nvFail [])) ∧
          exec (.pkgEnd tag ⟨[b], svcCrc 0x22 tag [b]⟩ .fail) s = .next (u.endUpload.svcReply tag St.nvFail [])) ∧
        (le x.header 5 1 = 2 → cfgBodyOk x.body = true →
          ∃ t, exec (.pkgEnd tag ⟨[b], svcCrc 0x22 tag [b]⟩ .ok) s = .next t ∧ t.fw.upload = none ∧ t.fw.svcStatus = St.ok ∧
            (t.fw.copy u.fw.olderCopy).valid = true ∧ (t.fw.copy u.fw.olderCopy).seq = u.fw.newestSeq + 1 ∧
            t.fw.dir = u.fw.dir ∧ u.keeps t [.fw, .out])) ∧
      exec (.pkgAbort tag ⟨[], svcCrc 0x23 tag []⟩) s = .next (s.endUpload.svcReply tag St.ok [])) ∧
    (∀ x, s.fw.upload = some x → x.erasing = true → s.fw.svcState = 1 →
      exec (.pkgEraseDone .ok) s =
        .next (({ s with fw := { s.fw with upload := some { x with erasing := false } } }).svcReply (BitVec.ofNat 8 s.fw.svcTag) St.ok []) ∧
      exec (.pkgEraseDone .fail) s = .next (s.endUpload.svcReply (BitVec.ofNat 8 s.fw.svcTag) St.nvFail []) ∧
      ∃ t, exec .pwrfailNFall s = .next t ∧ t.power.pwrfailN = false ∧ t.fw.upload = none ∧ t.fw.svcState = 2 ∧
        t.fw.svcStatus = St.lowPower ∧ s.keeps t [.power, .fw, .out]) ∧
    (s.fw.svcState ≠ 1 → exec .pkgUploadTimeout s = .next s.endUpload) ∧
    (s.fw.actReset = true → s.rst.active = none → ∃ t, exec .pkgActivateReset s = .next t ∧
      t.rst.active = some (.system, Cause.swsys) ∧ t.fw.dir = s.fw.dir ∧ t.nv = s.nv)

/-- The Warden monitor (R428, R450, R451, Table FW-8): at a measured rate between 115,200 and 3,000,000 baud and with no reset
running, each command of the life cycle's powers prints its values and `OK`; a register or memory word is read or written
in place; `RESET` resets the system and `BOOTCLR` clears `BOOTCNT`; a command outside those powers prints `ERR DENIED`,
numbers out of range `ERR RANGE`. Log entry 38 names the model's choices in it. -/
def Obligations.WardenCommandsAnswer : Prop :=
  ∀ s : State,
    let line (u : State) (t : String) (vs : List Nat) : State := u.emit (.wardenLine t vs)
    let ok (u : State) : State := line (line u "OK" []) "W>" []
    let err (t : String) : State := line (line s t []) "W>" []
    (∀ b, exec (.wardenAutobaud b) s = .next { s with
      fw := { s.fw with baud := if 115200 ≤ b ∧ b ≤ 3000000 then some b else none } }) ∧
    (s.fw.baud.isSome = true → s.rst.active = none → s.rst.ctlReturn = false →
      exec .id s = .next (ok (line s "" [0x81920B00, s.nv.devid.toNat, s.lcstate, s.fw.fwver])) ∧
      (s.nv.lc < 4 →
        exec .stat s = .next (ok (line s "" [s.keystat, s.rst.cause.toNat, s.rststat, s.rst.bootcnt, s.fwstat, s.power.stateReg])) ∧
        exec .cnt s = .next (ok (line s "" (SMap.getList 0 s.errs.counts 0 16))) ∧
        (s.coreRuns = true → ∀ n : Option Nat, (∀ k, n = some k → 1 ≤ k ∧ k ≤ 64) →
          ∃ t, exec (.err n) s = .next t ∧ s.keeps t [.out] ∧
            t.out = .wardenLine "W>" [] :: .wardenLine "OK" [] ::
              (((s.errs.fifo.reverse.take (n.getD 1)).map fun e => Out.wardenLine "" [e.bits]).reverse ++ s.out)) ∧
        (∀ off n, off % 4 = 0 → (∀ k, n = some k → 1 ≤ k ∧ k ≤ 64) → off + 4 * n.getD 1 ≤ 65536 → s.coreRuns = true →
          exec (.rd off n) s = .next (ok (s.wardenRead off (n.getD 1))) ∧
          (n = none → exec (.rd off n) s = .next (ok (line (s.readReg .warden off).2 "" [(s.readReg .warden off).1])))) ∧
        (∃ t, exec .reset s = .next t ∧ t.rst.active = some (.system, Cause.warden) ∧ bit t.rst.cause Cause.warden = true ∧
          t.queues = [] ∧ t.nv = s.nv ∧ t.rst.bootcnt = s.rst.bootcnt) ∧
        exec .bootclr s = .next (ok { s with rst := { s.rst with bootcnt := 0 } })) ∧
      (4 ≤ s.nv.lc → exec .stat s = .next (err "ERR DENIED") ∧ exec .reset s = .next (err "ERR DENIED") ∧
        exec .bootclr s = .next (err "ERR DENIED")) ∧
      (s.nv.lc = 0 ∨ s.nv.lc = 3 →
        (∀ off v, off % 4 = 0 → off < 65536 → v < 2 ^ 32 → s.coreRuns = true →
          (s.accessWrite .warden off (BitVec.ofNat 32 v)).rst.active = none →
          exec (.wr off v) s = .next (ok (s.accessWrite .warden off (BitVec.ofNat 32 v)))) ∧
        (∀ off v, ¬ (off % 4 = 0 ∧ off < 65536 ∧ v < 2 ^ 32) → exec (.wr off v) s = .next (err "ERR RANGE")) ∧
        (s.coreRuns = true → ∀ a v, a < 16777216 → v < 2 ^ 64 →
          exec (.mem .plaza a none) s = .next (ok (line s.ungate "" [ofBytes (SMap.getList 0 s.plaza.mem (8 * a) 8)])) ∧
          ∃ t, exec (.memw .plaza a v) s = .next t ∧ t.plaza.mem = SMap.setList 0 s.plaza.mem (8 * a) (toBytes 8 v) ∧
            s.keeps t [.plaza, .mem, .power, .out]) ∧
        (s.coreRuns = true → ∀ a v, a < 32768 → v < 2 ^ 64 →
          (∀ x u, s.kioskAccess .sequencer .read a 0 = (.value x, u) → exec (.mem .kiosk a none) s = .next (ok (line u "" [x.toNat]))) ∧
          exec (.memw .kiosk a v) s = .next (ok (s.kioskAccess .sequencer .write a (BitVec.ofNat 64 v)).2)) ∧
        (s.coreRuns = true → ∀ m a n, 1 ≤ n → a + n ≤ wardenWords m → exec (.mem m a (some n)) s = .next (s.wardenMem m a n)) ∧
        (∀ a v, a < 1024 → v < 2 ^ 64 →
          ∃ t, exec (.memw .depot a v) s = .next t ∧ s.keeps t [.power, .out] ∧
            (∃ u, exec (.mem .depot a none) t = .next u ∧
              u.out = .wardenLine "W>" [] :: .wardenLine "OK" [] :: .wardenLine "" [v] :: t.out))) ∧
      (s.nv.lc ≠ 0 → s.nv.lc ≠ 3 → (∀ off v, exec (.wr off v) s = .next (err "ERR DENIED")) ∧
        ∀ m a v, exec (.mem m a none) s = .next (err "ERR DENIED") ∧ exec (.memw m a v) s = .next (err "ERR DENIED")))

/-! ## Host data rings -/

/-- Data rings (R317 to R320): an OPEN stream queue with room takes a write descriptor's data: its write pointer passes the
stored form, the bytes go where its segments lie and no other stored byte changes, and the descriptor comes back OK;
without room it waits; a malformed one comes back MALFORMED. A read descriptor takes what the read side has: in message
mode a buffer's run of the head message, in stream mode whole elements, returned once the buffer is full; the `FLUSH` time
returns a partly filled one. A ring with one reading queue serves it. Writing back writes the descriptor's last 8 bytes and
moves the ring's index on. Log entries 54 and 100 name the model's choices in it. -/
def Obligations.HostDataDescriptorsMoveData : Prop :=
  ∀ (s : State) (g : Fin 16) (r : Fin 512) (d : BitVec 256), s.ringServes g.val r.val = true →
    (∀ (u : State) msn len st fl, ((u.writeBack g.val r.val d msn len st fl).dring g.val r.val).ci = next32 (u.dring g.val r.val).ci ∧
      ((u.writeBack g.val r.val d msn len st fl).dring g.val r.val).rbuf = none ∧
      Out.hostWrite ((u.dring g.val r.val).base + 32 * ((u.dring g.val r.val).ci % 2 ^ (u.dring g.val r.val).log2) + 24) 8
        (packNat [(0, 32, msn), (32, 16, len), (48, 8, st), (56, 3, fl), (63, 1, 1)]) ∈ (u.writeBack g.val r.val d msn len st fl).out ∧
      u.keeps (u.writeBack g.val r.val d msn len st fl) [.funcs, .out]) ∧
    (∀ n data, s.ringWriter g.val r.val = some n → (s.q n).st = .opened → (s.q n).b.msgMode = false →
      (s.q n).b.kerb = false → (s.q n).wmsg = none → (s.q n).descBad d = false →
      let p := (s.q n).plan true (data.take (Desc.len d))
      (p.needEnd ≤ (s.q n).heldEnd →
        (∀ i j, i < j → j < p.bytes.length → (s.q n).addr ((s.q n).wptr + i) ≠ (s.q n).addr ((s.q n).wptr + j)) →
        ∃ u, exec (.hostWriteDescriptor g r d data) s =
            .next (u.writeBack g.val r.val d 0 (data.take (Desc.len d)).length St.ok 0) ∧
          ((s.q n).pair.shadow = false → (u.q n).wptr = (s.q n).wptr + p.bytes.length ∧ (u.q n).rptr = (s.q n).rptr ∧
          (∀ i a, (hi : i < p.bytes.length) → (s.q n).addr ((s.q n).wptr + i) = some a → SMap.get 0 u.plaza.mem a = p.bytes[i]) ∧
          (∀ a, (∀ i, i < p.bytes.length → (s.q n).addr ((s.q n).wptr + i) ≠ some a) → SMap.get 0 u.plaza.mem a = SMap.get 0 s.plaza.mem a) ∧
          (∀ k, k ≠ n → u.q k = s.q k) ∧ s.keeps u [.queues, .plaza, .mem, .funcs, .host, .power, .out])) ∧
      ((s.q n).heldEnd < p.needEnd → (s.q n).b.maxSeg ≤ (s.q n).segs.length →
        ∃ u, exec (.hostWriteDescriptor g r d data) s = .next u ∧ (u.q n).wptr = (s.q n).wptr ∧ (u.q n).needRoom = true ∧
          (u.q n).segDeny = (if (s.q n).segDenied then (s.q n).segDeny else inc32 (s.q n).segDeny) ∧ u.plaza.mem = s.plaza.mem ∧
          s.keeps u [.queues, .funcs, .host, .out])) ∧
    (∀ n data, s.ringWriter g.val r.val = some n → (s.q n).st = .opened → (s.q n).b.msgMode = false → (s.q n).descBad d = true →
      exec (.hostWriteDescriptor g r d data) s = .next (s.writeBack g.val r.val d 0 0 St.malformed 0)) ∧
    (∀ n, ((s.ringReaders g.val r.val (s.dring g.val r.val).turn).filter fun m => (s.q m).reads) = [n] →
      s.chooseReader g.val r.val (Desc.len d) = (s, some n)) ∧
    (∀ w, s.chooseReader g.val r.val (Desc.len d) = (w, none) → exec (.hostReadDescriptor g r d) s = .next w) ∧
    (∀ w n, s.chooseReader g.val r.val (Desc.len d) = (w, some n) →
      let v := w.setDring g.val r.val { w.dring g.val r.val with turn := n }
      (Desc.len d < (v.q n).b.rbytes →
        exec (.hostReadDescriptor g r d) s = .next (v.writeBack g.val r.val d 0 0 St.malformed 0)) ∧
      (∀ c u, (v.q n).b.rbytes ≤ Desc.len d → (v.q n).b.msgMode = false → (w.dring g.val r.val).rbuf = none →
        v.take n (Desc.len d / (v.q n).b.rbytes * (v.q n).b.rbytes) = some (c, u) →
        v.badWords (v.q n) c.lo c.len = [] →
        (c.payload.length = Desc.len d / (v.q n).b.rbytes * (v.q n).b.rbytes →
          exec (.hostReadDescriptor g r d) s =
            .next (((u.putBuffer (Desc.addr d) c.payload).writeBack g.val r.val d 0 c.payload.length St.ok 0).afterRead n)) ∧
        (c.payload.length < Desc.len d / (v.q n).b.rbytes * (v.q n).b.rbytes →
          ∃ x, exec (.hostReadDescriptor g r d) s = .next (x.afterRead n) ∧
            (x.dring g.val r.val).rbuf = some (d, c.payload.length) ∧ (x.dring g.val r.val).ci = (u.dring g.val r.val).ci ∧
            u.keeps x [.funcs, .host, .out])) ∧
      (∀ c u, (v.q n).b.rbytes ≤ Desc.len d → (v.q n).b.msgMode = true →
        let a := v.approach n
        a.fillsNow n (Desc.len d) = true → a.headBad (a.q n) = [] →
        ((a.startPinned n).beginKerb n).take n (Desc.len d) = some (c, u) → a.badWords (a.q n) c.lo c.len = [] →
        exec (.hostReadDescriptor g r d) s =
          .next ((((u.putBuffer (Desc.addr d) c.payload).writeBack g.val r.val d c.msn.toNat c.payload.length St.ok
            (packNat [(0, 1, if c.first then 1 else 0), (1, 1, if c.last then 1 else 0), (2, 1, if c.trunc then 1 else 0)])).dropSentHead
            n).afterRead n))) ∧
    (∀ x done, (s.dring g.val r.val).rbuf = some (x, done) → 0 < done →
      exec (.dringFlushTimeout g r) s = .next (s.writeBack g.val r.val x 0 done St.ok 0))

/-! ## Barward bursts and control words -/

/-- Table BL-4 (R237 to R247): a burst on an UP link passes the checks in order. A bad header check counts and takes the link
down; a malformed or foreign burst, and one beyond its credit, counts in RXREJ; a bad CRC-32 or seal returns its credit;
none of these stores a byte. A plain Express stream burst that passes and finds room is stored where the queue's segments
lie, moves the write pointer and returns its credit; a queue that refuses data counts it; one without room leaves it in
staging, from where it is stored once there is room, with the in-band marks that came behind it. What the receiver counted
before the burst reaches `FECC`, `FECU` and `BIPE` (R220, Table BP-11). Log entries 14, 55, 59 and 92 name the model's
choices in it. -/
def Obligations.BurstsAreCheckedAndStored : Prop :=
  ∀ (s : State) (n : Fin 8) (b : Burst), s.linkLive n.val = true →
    let h := b.hdr
    let qid := Bh.qid h
    let k := s.pairOf qid
    let cost := creditCost (Bh.len h) (Bh.sealBit h)
    let q := s.q qid
    let at_ := s.arrival qid
    let stores (t u : State) (bs : List Byte) (last : Bool) : Prop :=
      let p := (t.q qid).plan last bs
      (u.q qid).wptr = (t.q qid).wptr + p.bytes.length ∧ (u.q qid).rptr = (t.q qid).rptr ∧
      (∀ i a, (hi : i < p.bytes.length) → (t.q qid).addr ((t.q qid).wptr + i) = some a → SMap.get 0 u.plaza.mem a = p.bytes[i]) ∧
      (∀ a, (∀ i, i < p.bytes.length → (t.q qid).addr ((t.q qid).wptr + i) ≠ some a) → SMap.get 0 u.plaza.mem a = SMap.get 0 t.plaza.mem a) ∧
      (∀ m, m ≠ qid → u.q m = t.q m)
    let fits (t : State) (bs : List Byte) (last : Bool) : Prop :=
      let p := (t.q qid).plan last bs
      p.needEnd ≤ (t.q qid).heldEnd ∧
        ∀ i j, i < j → j < p.bytes.length → (t.q qid).addr ((t.q qid).wptr + i) ≠ (t.q qid).addr ((t.q qid).wptr + j)
    (∀ s0 lanes, s0.linkLive n.val = true → s0.countLanes (.link n) lanes = s →
    (let x := (s0.link n.val).phy
     (s.link n.val).phy = { x with
       fecc := if x.cfg.fec = 0 then x.fecc else satAdd 0xFFFFFFFF x.fecc lanes.corrected
       fecu := if x.cfg.fec = 0 then x.fecu else satAdd 0xFFFFFFFF x.fecu lanes.failed
       bipe := satAdd 0xFFFFFFFF x.bipe lanes.bip } ∧ s0.keeps s [.links]) ∧
    (b.hdrErr = true ∨ hcsOk h = false →
      exec (.burstReceive n ⟨b, lanes⟩) s0 =
        .next (((s.crossRx n.val (burstUnit b)).updLink n.val fun l => { l with hcse := inc32 l.hcse }).phyDown (.link n))) ∧
    (b.hdrErr = false → hcsOk h = true →
      (s.headerBad n.val h = true ∨ q.st = .unbound ∨ q.b.wend.isLink n.val = false →
        ∃ t, exec (.burstReceive n ⟨b, lanes⟩) s0 = .next t ∧ (t.link n.val).rxrej = inc32 (s.link n.val).rxrej ∧ t.plaza.mem = s.plaza.mem ∧
          (t.q qid).wptr = q.wptr ∧ s.keeps t [.queues, .links, .funcs, .rst, .errs, .fw, .out]) ∧
      (s.headerBad n.val h = false → recordsBad b = false → q.st ≠ .unbound → q.b.wend.isLink n.val = true →
        (Credit.covers ((s.link n.val).credit k).limit ((s.link n.val).credit k).rxUsed cost = false →
          ∃ t, exec (.burstReceive n ⟨b, lanes⟩) s0 = .next t ∧ (t.link n.val).rxrej = inc32 (s.link n.val).rxrej ∧
            (t.link n.val).credit k = (s.link n.val).credit k ∧ t.queues = s.queues ∧ t.plaza = s.plaza) ∧
        (Credit.covers ((s.link n.val).credit k).limit ((s.link n.val).credit k).rxUsed cost = true → q.nak = none → q.b.kerb = false →
          let charged : Credit := { (s.link n.val).credit k with
            rxUsed := ((s.link n.val).credit k).rxUsed + BitVec.ofNat 24 cost
            outstanding := ((s.link n.val).credit k).outstanding - cost }
          (b.payErr = true ∨ b.payload.length ≠ Bh.len h ∨ burstCrc h b.payload b.tag ≠ b.crc →
            ∃ t, exec (.burstReceive n ⟨b, lanes⟩) s0 = .next t ∧ (t.link n.val).crce = inc32 (s.link n.val).crce ∧
              (t.link n.val).credit k = charged ∧ t.plaza = s.plaza ∧ (t.q qid).wptr = q.wptr) ∧
          (b.payErr = false → b.payload.length = Bh.len h → burstCrc h b.payload b.tag = b.crc →
            (s.openBurst b = none →
              ∃ t, exec (.burstReceive n ⟨b, lanes⟩) s0 = .next t ∧ (t.link n.val).seale = inc32 (s.link n.val).seale ∧
                (t.link n.val).credit k = charged ∧ t.plaza = s.plaza ∧ (t.q qid).wptr = q.wptr) ∧
            (q.b.sealedQ = false → Bh.sealBit h = false → Bh.kind h = 0 → Bh.first h = true → q.b.msgMode = false →
              ((s.link n.val).staged.any fun y => Bh.qid y.hdr == qid) = false →
              (q.refuses = true → ∃ t, exec (.burstReceive n ⟨b, lanes⟩) s0 = .next t ∧ (t.q qid).refusedCnt = inc32 q.refusedCnt ∧
                (t.link n.val).credit k = charged ∧ t.plaza = s.plaza ∧ (t.q qid).wptr = q.wptr) ∧
              (q.refuses = false → q.wmsg = none → fits s b.payload (Bh.last h) →
                ∃ t, exec (.burstReceive n ⟨b, lanes⟩) s0 = .next t ∧ (t.link n.val).credit k = charged ∧
                  (q.pair.shadow = false → stores s t b.payload (Bh.last h) ∧
                    s.keeps t [.queues, .links, .plaza, .mem, .funcs, .power, .out])) ∧
              (q.refuses = false → q.wmsg = none → q.heldEnd < (q.plan (Bh.last h) b.payload).needEnd → q.b.maxSeg ≤ q.segs.length →
                ∃ t, exec (.burstReceive n ⟨b, lanes⟩) s0 = .next t ∧ (t.q qid).needRoom = true ∧ (t.q qid).wptr = q.wptr ∧
                  ((t.link n.val).credit k).outstanding = ((s.link n.val).credit k).outstanding ∧
                  (t.link n.val).staged = (s.link n.val).staged ++
                    [{ hdr := h, payload := b.payload, cost := cost, stamp := at_.stamp, stamped := at_.stamped, offset := at_.offset }] ∧
                  t.plaza = s.plaza))))))) ∧
    (∀ x : Staged, s.errs.frozen = false → x.hdr = h → (s.link n.val).staged = [x] → Bh.kind h = 0 → Bh.first h = true → q.b.msgMode = false →
      q.b.kerb = false → q.refuses = false → q.wmsg = none → fits s x.payload (Bh.last h) →
      ∃ t, exec (.stagedBurstCommit n) s = .next (x.marks.foldl (fun s m => s.writeMark qid m) t) ∧
        (q.pair.shadow = false → stores s t x.payload (Bh.last h)) ∧ (t.link n.val).staged = [] ∧
        ((t.link n.val).credit k).outstanding = ((s.link n.val).credit k).outstanding - x.cost)

/-- Egress and control words (R145, R146, R180, R181, R243 to R250, R255): the burst that the choice of R248 gives is sent and
spends its credit, and nothing is sent where none is ready; CREDIT words raise what may be sent, and grants and refreshes
tell the partner's; STATUS and TIME words go out; in-band marks are placed at the end their link is, released, and rewound
to, behind the bursts of its queue in staging, and refused elsewhere; a word that fails its checks is counted; the pinned
message that is due first reserves its link, and one that is due is sent with its counts. Where nothing is left to send,
stale Kerbside messages still drop. Log entries 56, 62, 63 and 92 name the model's choices in it. -/
def Obligations.BurstsAreSentAndWordsAct : Prop :=
  ∀ (s : State) (n : Fin 8),
    (s.linkLive n.val = true →
      (s.choose n.val = none →
        ((s.pinnedRunning n.val).isSome = true ∨ (s.pickClass n.val true).isSome = true → exec (.burstTransmit n) s = .next s) ∧
        (s.pinnedRunning n.val = none → s.pickClass n.val true = none → exec (.burstTransmit n) s = .next (s.ageLink n.val))) ∧
      (∀ c, s.choose n.val = some c → c.before.headBad (c.before.q c.n) = [] →
        let v := ((c.after.spend n.val c.n c.ob.cost).crossTx n.val (burstUnit c.ob.burst)).emit (.burst n c.ob.burst)
        ((v.q c.n).b.sealedQ = false ∨ Bh.first c.ob.burst.hdr = false →
          exec (.burstTransmit n) s = .next ((v.dropSentHead c.n).afterRead c.n)) ∧
        ((v.q c.n).b.sealedQ = true → Bh.first c.ob.burst.hdr = true → (v.q c.n).keys.outCnt + 1 ≠ 2 ^ 31 →
          (v.q c.n).keys.outCnt + 1 ≠ 2 ^ 32 → exec (.burstTransmit n) s = .next (((v.updQ c.n fun q =>
            { q with keys := { q.keys with outCnt := q.keys.outCnt + 1 } }).dropSentHead c.n).afterRead c.n))) ∧
      (∀ (g : Fin 16) kerb limit, ∃ t, exec (.credit n g kerb limit) s = .next t ∧
        ((t.link n.val).credit (pairKey g.val kerb)).txLimit = limit ∧ s.keeps t [.links]) ∧
      (∀ k, (((List.range 32).map fun i => ((s.link n.val).rrGrant + i) % 32).find? fun k =>
          s.eligible n.val k && decide (0 < s.grantRoom n.val k)) = some k →
        ∃ t, exec (.creditGrant n) s = .next t ∧
          ((t.link n.val).credit k).limit = ((s.link n.val).credit k).limit + BitVec.ofNat 24 (s.grantRoom n.val k) ∧
          ((t.link n.val).credit k).outstanding = ((s.link n.val).credit k).outstanding + s.grantRoom n.val k ∧
          (t.link n.val).rrGrant = (k + 1) % 32 ∧ t.out = .word n (creditWord k ((t.link n.val).credit k).limit) :: s.out ∧
          s.keeps t [.links, .out]) ∧
      (∀ m ms, s.statusTurn n.val (s.link n.val).rrStatus = m :: ms →
        ∃ t, exec (.statusRefresh n) s = .next t ∧ t.out = .word n (statusWord ((m :: ms).map fun i => s.statusEntry i)) :: s.out ∧
          s.keeps t [.links, .out]) ∧
      (∃ t, exec (.creditRefresh n) s = .next t ∧ s.keeps t [.out] ∧
        ∀ e ∈ (s.link n.val).credits, e.2.limit ≠ 0 → Out.word n (creditWord e.1 e.2.limit) ∈ t.out) ∧
      (∃ t, exec .timeWordTimer s = .next t ∧ s.keeps t [.out] ∧ Out.word n s.timeWord ∈ t.out) ∧
      (∀ (q : Fin 8192) (m : Fin 4), (s.q q.val).st ≠ .unbound →
        ((s.q q.val).b.rend.isLink n.val = true →
          exec (.inbandMark n q m) s = .next (s.placeMark q.val m.val false) ∧
          (((s.q q.val).markAt m.val).isSet = true → exec (.inbandReleaseMark n q m) s = .next (s.releaseMark q.val m.val)) ∧
          ((s.q q.val).rewindStatus m.val = St.ok →
            exec (.inbandRewind n q m) s = .next (s.startRewind q.val { mark := m, target := ((s.q q.val).markAt m.val).pos }))) ∧
        ((s.q q.val).b.rend.isLink n.val = false → (s.q q.val).b.wend.isLink n.val = true → (s.q q.val).st ≠ .closing →
          ((s.q q.val).markAt m.val).auto = false →
          ((∀ x ∈ (s.link n.val).staged, Bh.qid x.hdr ≠ q.val) →
            exec (.inbandMark n q m) s = .next (s.writeMark q.val m.val) ∧
            ((s.q q.val).chained = false → s.writeMark q.val m.val = s.placeMark q.val m.val true)) ∧
          (∀ pre x post, (s.link n.val).staged = pre ++ x :: post → Bh.qid x.hdr = q.val → (∀ y ∈ post, Bh.qid y.hdr ≠ q.val) →
            exec (.inbandMark n q m) s = .next (s.updLink n.val fun l =>
              { l with staged := pre ++ { x with marks := x.marks ++ [m.val] } :: post })))) ∧
      (∀ (q : Fin 8192) (m : Fin 4),
        ((s.q q.val).st = .unbound ∨ ((s.q q.val).b.rend.isLink n.val = false ∧ (s.q q.val).b.wend.isLink n.val = false) →
          ∀ c, c ∈ [Instr.inbandMark n q m, .inbandRewind n q m, .inbandReleaseMark n q m] →
            ∃ t, exec c s = .next t ∧ (t.q q.val).inbandRej = inc32 (s.q q.val).inbandRej ∧
              t.errs.seq = (s.errs.seq + 1) % 2 ^ 32 ∧ s.keeps t [.queues, .funcs, .errs, .out])) ∧
      (∀ bs, wordBad bs = true → ∃ t, exec (.controlWordDiscard n bs) s = .next t ∧ (t.link n.val).cwe = inc32 (s.link n.val).cwe ∧
        s.keeps t [.links]) ∧
      (∀ q t, (q, t) ∈ s.pinsDue n.val ↔ s.time.lock.releases = true ∧ ∃ x h, (q, x) ∈ s.queues ∧ x.b.pin = true ∧
        x.b.rend.isLink n.val = true ∧ x.reads = true ∧ x.rmsg = none ∧ s.head x = some h ∧ s.rtAt x h.pos = t ∧ t ≤ s.tbNs + 400) ∧
      (∀ pre q t post, s.pinsDue n.val = pre ++ (q, t) :: post → (∀ e ∈ pre, t < e.2) → (∀ e ∈ post, t ≤ e.2) →
        exec (.pinReserve n) s = .next (s.updLink n.val fun l => { l with reserved := some q })) ∧
      (s.pinsDue n.val = [] → exec (.pinReserve n) s = .next s)) ∧
    (∀ (q : Fin 8192) h b t b' t', (s.q q.val).b.pin = true → (s.q q.val).b.rend = .link n → (s.q q.val).reads = true → (s.q q.val).rmsg = none →
      s.judgeHead q.val = s → s.head (s.q q.val) = some h → s.linkLive n.val = true → s.pinDue q.val h = true →
      s.pinBlocked n.val q.val (s.rtAt (s.q q.val) h.pos) = false → s.ready n.val q.val = some (b, t) →
      (s.beginPinned q.val 64 h).ready n.val q.val = some (b', t') →
      exec (.pinRelease q) s = .next (((s.beginPinned q.val 64 h).updLink n.val fun x => { x with reserved := none }).sendBurst n q.val
        b' (t'.updLink n.val fun x => { x with reserved := none })))

/-! ## Ring Road -/

/-- R267, R269, R270, R272: a frame on a live side that fails its checks, or comes ahead of the expected `SEQ`, counts in RXREJ
and opens a gap, whose RESEND goes out at most once per 1 µs; one behind it counts and is acknowledged; a transit frame
without room counts in TDROP. The expected frame is accepted: its ACK frees what it covers, the expected `SEQ` moves on,
and it is used here, or leaves by the other side, with the resend buffer keeping it; a broadcast does both, until it has
come back to its sender or crossed seven hops; a frame that has come back to its sender ends; a tag that fails is counted
and reported (R268). Log entries 67, 68 and 92 name the model's choices in it. -/
def Obligations.RingFramesAreTakenInOrder : Prop :=
  ∀ (c : Instr) (d : Side) (f : Frame) (s s0 : State),
    (∃ lanes, c = Instr.ringDataFrame d ⟨f, lanes⟩ ∧ s0.sideLive d = true ∧ s0.countLanes (.side d) lanes = s) ∨
    s0 = s ∧ c ∈ [Instr.syncFrame d f, .ringHello d f, .ack d f, .resend d f, .chainJoin d f, .chainCmd d f, .ffMark d f,
      .ffRewind d f, .pairJoin d f, .revoke d f, .gone d f, .kioskFrame d f, .ringFrameTransit d f] → s.sideLive d = true →
    let x := s.side d
    let o := otherSide d
    let a := s.crossIn d f
    let good := frameGood f && frameLegal f.hdr
    let ahead := (BitVec.ofNat 16 (Fr.seq f.hdr) - x.rxSeq).toNat
    let full := s.passes f.hdr && !s.transitRoom o f
    (good = false ∨ (ahead ≠ 0 ∧ ahead < 2 ^ 15) →
      (∃ t, exec c s0 = .next t ∧ (t.side d).rxrej = inc32 x.rxrej ∧ (t.side d).rxSeq = x.rxSeq ∧ (t.side d).gap = true ∧
        s.keeps t [.ring, .out]) ∧
      (x.lastResend ≠ 0 → s.cyc < x.lastResend - 1 + 1250 →
        exec c s0 = .next (a.updSide d fun x => { x with rxrej := inc32 x.rxrej, gap := true }))) ∧
    (good = true → 2 ^ 15 ≤ ahead →
      exec c s0 = .next (a.updSide d fun x => { x with rxrej := inc32 x.rxrej, owesAck := true })) ∧
    (good = true → ahead = 0 → full = true →
      ∃ t, exec c s0 = .next t ∧ (t.side d).tdrop = inc32 x.tdrop ∧ (t.side d).rxSeq = x.rxSeq ∧ (t.side d).gap = true ∧ s.keeps t [.ring, .out]) ∧
    (good = true → ahead = 0 → full = false → x.ctrlq = [] → x.transit = [] →
      (∀ e ∈ s.queues, ∀ w, e.2.chain.wait = some w → w.leave = false) →
      let u := a.updSide d fun x =>
        { x.ackTo (BitVec.ofNat 16 (Fr.ack f.hdr)) with rxSeq := x.rxSeq + 1, gap := false, owesAck := true }
      (s.passes f.hdr = false → exec c s0 = .next ((u.forwardCast d f).consume d f) ∧
        (Fr.bcast f.hdr = false ∨ Fr.src f.hdr = s.station ∨ 7 ≤ (s.hops d (Fr.src f.hdr)).getD 0 → u.forwardCast d f = u) ∧
        (Fr.bcast f.hdr = true → Fr.src f.hdr ≠ s.station → (s.hops d (Fr.src f.hdr)).getD 0 < 7 → (∀ bs, s.openFrame f ≠ .plain bs) →
          u.forwardCast d f = u.pushFrame o f none) ∧
        (Fr.kind f.hdr ≠ 0 → s.openFrame f = .badTag → ∃ t, exec c s0 = .next t ∧ (t.side d).authe = inc32 x.authe ∧
          t.errs.seq = (s.errs.seq + 1) % 2 ^ 32 ∧ s.keeps t [.ring, .errs, .funcs, .out])) ∧
      (s.passes f.hdr = true → Fr.src f.hdr = s.station → exec c s0 = .next (u.endRepeats d)) ∧
      (s.passes f.hdr = true → Fr.src f.hdr ≠ s.station → s.sideLive o = true → (s.side o).ctrlq = [] → (s.side o).transit = [] →
        (s.side o).room f = true → (s.side o).sinceOwn < 3 → ∃ t, exec c s0 = .next t ∧
          t.out = .frame o (stampFrame f (s.side o).txSeq (s.side o).rxSeq) :: s.out ∧ (t.side o).txSeq = (s.side o).txSeq + 1 ∧
          (t.side o).resend = (s.side o).resend ++
            [{ seq := (s.side o).txSeq, frame := stampFrame f (s.side o).txSeq (s.side o).rxSeq, ctrl := none }] ∧
          s.keeps t [.ring, .out]))

/-- What the expected frame does at the station it is for, once opened. DATA is committed at the position it names, and only
there (R277, R278). SYNC entries renew what a member knows of the others (R282). HELLO makes a station and its hops known,
and shows a closed ring or a duplicate number (R264); ACK only acknowledges and RESEND sends the rest again (R270);
CHAIN_JOIN and PAIR_JOIN are kept until they are matched (R275, R285); chain commands and marks wait for their position
(R276, R279); FF_REWIND moves the sender back; a REVOKE revokes the group's ring session of its epoch (R294); GONE reports
the station lost (R284); an operation that is a repeat of one applied has no effect (R271); a REVOKE that goes on leaves by
the other side first, or is kept for it (R271, R272); a Kiosk request is answered to its sender (R345). Log entries 55, 67,
69, 70, 71 and 72 name the model's choices in it. -/
def Obligations.RingFramesActByTheirKind : Prop :=
  ∀ (d : Side) (f : Frame) (bs : List Byte) (s : State), s.sideLive d = true → frameGood f = true → frameLegal f.hdr = true →
    BitVec.ofNat 16 (Fr.seq f.hdr) = (s.side d).rxSeq → s.passes f.hdr = false → (s.side d).ctrlq = [] → (s.side d).transit = [] →
    (∀ e ∈ s.queues, ∀ w, e.2.chain.wait = some w → w.leave = false) → s.openFrame f = .plain bs →
    let goesOn := Fr.bcast f.hdr && Fr.src f.hdr != s.station && decide ((s.hops d (Fr.src f.hdr)).getD 0 < 7)
    let src := Fr.src f.hdr
    let got (x : RingSide) : RingSide := { x.ackTo (BitVec.ofNat 16 (Fr.ack f.hdr)) with rxSeq := x.rxSeq + 1, gap := false, owesAck := true }
    let a := s.crossIn d f
    let u := a.updSide d fun x => { got x with repeats := [] }
    let v := a.updSide d fun x => { got x with repeats := [], applied := x.applied ++ [(src, bs)] }
    let m := Fr.qid f.hdr
    let n := le bs 2 2 % 2 ^ 13
    let q := s.q n
    let op := le bs 0 1
    let at_ (from_ : Nat) : Nat := (le bs 8 5 + 2 ^ 40 - from_ % 2 ^ 40) % 2 ^ 40
    let pos := if at_ q.committed < 2 ^ 39 then q.committed + at_ q.committed else q.committed
    (goesOn = true → Fr.kind f.hdr = 2 → op = 9 → (src, bs) ∉ (s.side d).repeats →
      let base := a.updSide d got
      let on := if s.sideLive (otherSide d) = true then base.pushFrame (otherSide d) f (some (0, bs))
        else base.updSide (otherSide d) fun x => { x with again := x.again ++ [(0, bs)] }
      exec (.revoke d f) s = .next ((on.updSide d fun x => { x with repeats := [], applied := x.applied ++ [(src, bs)] }).revokeGroup
        (le bs 1 1 % 16) (le bs 2 1))) ∧
    (goesOn = false ∨ (Fr.kind f.hdr = 2 ∧ op = 1) →
    (Fr.kind f.hdr = 0 → ∀ s0 lanes, s0.sideLive d = true → s0.countLanes (.side d) lanes = s →
      (let x := (s0.side d).phy
       (s.side d).phy = { x with
         fecc := if x.cfg.fec = 0 then x.fecc else satAdd 0xFFFFFFFF x.fecc lanes.corrected
         fecu := if x.cfg.fec = 0 then x.fecu else satAdd 0xFFFFFFFF x.fecu lanes.failed
         bipe := satAdd 0xFFFFFFFF x.bipe lanes.bip } ∧ s0.keeps s [.ring]) ∧
      ((s.q m).chain.joined = false → exec (.ringDataFrame d ⟨f, lanes⟩) s0 = .next (u.sendGone m src)) ∧
      ((s.q m).chain.joined = true → Fr.pos f.hdr ≠ (s.q m).committed % 2 ^ 40 →
        exec (.ringDataFrame d ⟨f, lanes⟩) s0 = .next (if (s.q m).chain.gapSent then u else
          (u.updQ m fun q => { q with chain := { q.chain with gapSent := true } }).sendCtrl src 7
            [(2, 2, m), (8, 5, (s.q m).committed % 2 ^ 40)])) ∧
      ((s.q m).chain.joined = true → Fr.pos f.hdr = (s.q m).committed % 2 ^ 40 → (s.q m).st = .opened → (s.q m).b.kerb = false →
        (s.q m).b.msgMode = false → (s.q m).pair.paired = false → (s.q m).wptr + bs.length ≤ (s.q m).heldEnd →
        (∀ i j, i < j → j < bs.length → (s.q m).addr ((s.q m).wptr + i) ≠ (s.q m).addr ((s.q m).wptr + j)) →
        ∃ t, exec (.ringDataFrame d ⟨f, lanes⟩) s0 = .next t ∧ (t.q m).wptr = (s.q m).wptr + bs.length ∧ (t.q m).rptr = (s.q m).rptr ∧
          (t.q m).chain.taken = (s.q m).chain.taken + ceilDiv bs.length 256 ∧ (t.q m).chain.gapSent = false ∧
          (∀ i a, (hi : i < bs.length) → (s.q m).addr ((s.q m).wptr + i) = some a → SMap.get 0 t.plaza.mem a = bs[i]) ∧
          (∀ a, (∀ i, i < bs.length → (s.q m).addr ((s.q m).wptr + i) ≠ some a) → SMap.get 0 t.plaza.mem a = SMap.get 0 s.plaza.mem a) ∧
          (∀ k, k ≠ m → t.q k = s.q k) ∧ s.keeps t [.queues, .plaza, .mem, .funcs, .ring, .out])) ∧
    (Fr.kind f.hdr = 1 → bs.length = 64 →
      let w := le bs 0 64
      let k := w % 2 ^ 13
      let c := (s.q k).chain
      (w / 2 ^ 13 % 2 = 0 → exec (.syncFrame d f) s = .next (u.hearPeer src)) ∧
      (w / 2 ^ 13 % 2 = 1 → c.joined = true → src ∈ c.lost → (s.q k).pair.paired = false →
        exec (.syncFrame d f) s = .next (u.hearPeer src)) ∧
      (w / 2 ^ 13 % 2 = 1 → c.joined = true → src ∈ c.stations → src ∉ c.lost → (s.q k).pair.paired = false → (s.q k).st = .opened → c.headWait = [] →
        (s.q k).pair.failWatch = false → ∃ t, exec (.syncFrame d f) s = .next t ∧
          (t.q k).chain.sync = (c.sync.filter fun z => z.station != src) ++ [syncOf src w] ∧
          ((s.q k).member .east = some src → (t.q k).chain.ffLimit = (syncOf src w).fflimit) ∧
          ((s.q k).member .east ≠ some src → (t.q k).chain.ffLimit = c.ffLimit ∧ (t.q k).rptr = (s.q k).rptr))) ∧
    (Fr.kind f.hdr = 2 →
      (op = 1 →
        let b := le bs 1 1 % 8
        let dev : BitVec 64 := BitVec.ofNat 64 (le bs 8 8)
        (b ≠ s.station → (s.side d).facing = none ∨ le bs 2 1 ≠ 0 → ∃ t, exec (.ringHello d f) s = .next t ∧
          t.hops d b = some (le bs 2 1) ∧ SMap.get 0 t.ring.devids b = dev ∧ (t.side d).helloSeen = true ∧
          (le bs 2 1 = 0 → (t.side d).facing = some (b, dev)) ∧ s.keeps t [.ring, .funcs, .out]) ∧
        (b = s.station → dev.toNat = s.nv.devid.toNat % 2 ^ 64 → ∃ t, exec (.ringHello d f) s = .next t ∧
          (match d with
            | .east => t.ring.closedE
            | .west => t.ring.closedW) = true ∧ t.ring.dup = s.ring.dup ∧ s.keeps t [.ring]) ∧
        (b = s.station → dev.toNat ≠ s.nv.devid.toNat % 2 ^ 64 → ∃ t, exec (.ringHello d f) s = .next t ∧
          t.ring.dup = true ∧ t.errs.seq = (s.errs.seq + 1) % 2 ^ 32 ∧ s.keeps t [.ring, .errs, .funcs, .out])) ∧
      (op = 2 → exec (.ack d f) s = .next u) ∧
      (op = 3 → ∃ t, exec (.resend d f) s = .next t ∧
        let left := ((s.side d).ackTo (BitVec.ofNat 16 (Fr.ack f.hdr))).ackTo (BitVec.ofNat 16 (le bs 2 2))
        (t.side d).resend = left.resend ∧
        (∀ e ∈ left.resend, Out.frame d (stampFrame e.frame e.seq ((s.side d).rxSeq + 1)) ∈ t.out) ∧ s.keeps t [.ring, .out]) ∧
      (∀ c, (op, c) ∈ [(4, Instr.chainJoin d f), (5, .chainCmd d f), (6, .ffMark d f), (8, .pairJoin d f), (9, .revoke d f)] →
        (src, bs) ∈ (s.side d).repeats →
        exec c s = .next (a.updSide d fun x => { got x with repeats := x.repeats.erase (src, bs) })) ∧
      ((src, bs) ∉ (s.side d).repeats →
        (op = 4 → q.chain.wait = none → exec (.chainJoin d f) s = .next (v.keepJoin src bs)) ∧
        (op = 4 → ∀ w, q.chain.wait = some w → w.east = true → w.west = false → q.member .east = some src → s.ring.joins = [] →
          (q.chainMatches n (q.chain.pos + 1) bs = true → ∃ t, exec (.chainJoin d f) s = .next (t.complete w.ref St.ok) ∧
            (t.q n).chain = { q.chain with
              joined := true, wait := none, stations := s.chainStations q.chain.pos q.chain.nsta } ∧ t.ring.joins = [] ∧
            s.keeps t [.queues, .ring, .funcs, .out]) ∧
          (q.chainMatches n (q.chain.pos + 1) bs = false → ∃ t, exec (.chainJoin d f) s = .next t ∧ (t.q n).chain = {} ∧
            s.keeps t [.queues, .ring, .funcs, .fw, .errs, .out])) ∧
        (op = 5 → q.chain.joined = true → exec (.chainCmd d f) s = .next (v.updQ n fun q =>
          { q with chain := { q.chain with cmds := q.chain.cmds ++ [{ code := le bs 4 1, pos := pos }] } })) ∧
        (op = 5 → q.chain.joined = false → exec (.chainCmd d f) s = .next (v.sendGone n src)) ∧
        (op = 6 → q.chain.joined = true → exec (.ffMark d f) s = .next (v.updQ n fun q =>
          { q with chain := { q.chain with marks := (q.chain.marks.filter fun c => c.code != le bs 4 1 % 4) ++
            [{ code := le bs 4 1 % 4, pos := pos }] } })) ∧
        (op = 6 → q.chain.joined = false → exec (.ffMark d f) s = .next (v.sendGone n src)) ∧
        (op = 8 → q.pair.wait = none → exec (.pairJoin d f) s = .next (v.keepJoin src bs)) ∧
        (op = 8 → ∀ r, q.pair.wait = some r → q.pair.peer = src → s.ring.joins = [] → q.pair.shadow = false →
          (q.pairMatches n 0 bs = true → ∃ t, exec (.pairJoin d f) s = .next (t.complete r St.ok) ∧
            (t.q n).pair = { q.pair with paired := true, wait := none, peerActive := false } ∧ s.keeps t [.queues, .ring, .out]) ∧
          (q.pairMatches n 0 bs = false → ∃ t, exec (.pairJoin d f) s = .next (t.complete r St.chainMismatch) ∧ (t.q n).pair = {} ∧
            s.keeps t [.queues, .ring])) ∧
        (op = 9 → exec (.revoke d f) s = .next (v.revokeGroup (le bs 1 1 % 16) (le bs 2 1)))) ∧
      (∀ (w : State) (g e : Nat), ((w.revokeGroup g e).group g).rsRevoked =
          ((w.group g).rsRevoked || ((w.group g).rsBound && (w.group g).rsEpoch.toNat % 256 == e)) ∧
        e ∈ ((w.revokeGroup g e).group g).rsGone ∧ (∀ x ∈ (w.group g).rsGone, x ∈ ((w.revokeGroup g e).group g).rsGone) ∧
        (∀ h, h ≠ g → (w.revokeGroup g e).group h = w.group h)) ∧
      (op = 7 → q.chain.joined = true → exec (.ffRewind d f) s = .next (u.updQ n fun q =>
        if q.chain.downCommit + at_ q.chain.downCommit ≤ q.chain.sendPos then
          { q with chain := q.chain.resume (q.chain.downCommit + at_ q.chain.downCommit) }
        else q)) ∧
      (op = 7 → q.chain.joined = false → exec (.ffRewind d f) s = .next (u.sendGone n src)) ∧
      (op = 10 → q.chained = true → src ∈ q.chain.stations →
        exec (.gone d f) s = .next ((u.loseMember n src).reportLost src) ∧
        (src ≠ s.station → q.pair.paired = false →
          ((u.loseMember n src).q n).chain.void = true ∧ ((u.loseMember n src).q n).chain.lost = q.chain.lost ++ [src] ∧
          (q.chain.stations.head? = some src → ((u.loseMember n src).q n).st = q.st))) ∧
      (op = 10 → q.chained = false ∨ src ∉ q.chain.stations → exec (.gone d f) s = .next u)) ∧
    (Fr.kind f.hdr = 3 →
      let w := ofBytes bs
      let fl (lo k : Nat) : Nat := w / 2 ^ lo % 2 ^ k
      let answer (st : Nat) (x : Word64) : List Byte := cword 5 2 (kioskFields (fl 16 2) st (fl 24 8) (fl 32 15) x)
      (fl 8 4 ≠ 4 → exec (.kioskFrame d f) s = .next u) ∧
      (fl 8 4 = 4 → Kwin.permits s.kiosk.winRing (kopOf (fl 16 2)) (fl 32 15) = false →
        ∀ fr t, u.controlFrame 3 src false (answer 2 0) = some (fr, t) → exec (.kioskFrame d f) s = .next (t.routeFrame fr)) ∧
      (fl 8 4 = 4 → Kwin.permits s.kiosk.winRing (kopOf (fl 16 2)) (fl 32 15) = true →
        ∀ x r fr t, u.kioskAccess .ring (kopOf (fl 16 2)) (fl 32 15) (BitVec.ofNat 64 (fl 64 64)) = (.value x, r) →
          r.controlFrame 3 src false (answer 0 x) = some (fr, t) → exec (.kioskFrame d f) s = .next (t.routeFrame fr))))

/-- Timers of the ring (R262, R264, R270, R283, R284): HELLO goes out of each live side; a station not heard for 300 µs leaves
the map; a side without HELLO goes down with FAIL = 5; an ACK goes out where one is owed; unacknowledged frames go again in
order; an entry of each shared queue goes to its peer; members beyond a side that stays down are lost. A member applies a
chain command that is due and passes it downstream (R276), a TEARDOWN being its own end or a member's loss, places, passes
on or rejects a mark (R146, R279), and falls forward in its turn (R277, R281). A shadow takes over when its active tail is
silent, unless its own copy is HELD (R288), and an active tail behind a paused hop abdicates; a setup that is not answered
ends CHAIN_TIMEOUT (Table RR-6, Table RR-9). Log entries 62, 70, 71, 72 and 102 name the model's choices in it. -/
def Obligations.RingTimersAndMembersAct : Prop :=
  ∀ (s : State),
    (∀ (d : Side) f u, s.controlFrame 2 0 true (ctrlPayload 1 [(1, 1, s.station), (2, 1, 0), (8, 8, s.nv.devid.toNat % 2 ^ 64)]) = some (f, u) →
      s.sideLive d = true → (s.side d).ctrlq = [] → (s.side d).transit = [] → (s.side d).room f = true →
      ∃ t, exec .helloTimer s = .next t ∧ Out.frame d (stampFrame f (s.side d).txSeq (s.side d).rxSeq) ∈ t.out ∧ s.keeps t [.ring, .out]) ∧
    (∀ k : Fin 8,
      (k.val = s.station →
        let r := s.ring
        let oldest (t : Nat) : Bool := (!r.closedE || t ≤ r.closedEAt) && (!r.closedW || t ≤ r.closedWAt) && (!r.dup || t ≤ r.dupAt)
        let lives (t : Nat) : Bool := !(decide (t ≤ s.cyc) && oldest t) && decide (s.cyc < t + 375000)
        exec (.ringMapExpiry k) s = .next { s with ring := { r with
          closedE := r.closedE && lives r.closedEAt, closedW := r.closedW && lives r.closedWAt, dup := r.dup && lives r.dupAt } }) ∧
      (k.val ≠ s.station → exec (.ringMapExpiry k) s = .next { s with ring := { s.ring with
        hopsE := SMap.erase s.ring.hopsE k.val, hopsW := SMap.erase s.ring.hopsW k.val } })) ∧
    (∀ d : Side,
      ((s.side d).phy.st = .up → (s.side d).helloSeen = false → ∃ t, exec (.ringHelloMissing d) s = .next t ∧ (t.side d).phy.fail = 5 ∧
        (t.side d).phy.st = .lock ∧ (t.side d).phy.downCnt = inc8 (s.side d).phy.downCnt ∧ (t.side d).resend = [] ∧
        s.keeps t [.ring, .funcs, .out]) ∧
      ((s.side d).phy.st ≠ .up ∨ (s.side d).helloSeen = true → exec (.ringHelloMissing d) s = .next s) ∧
      ((s.side d).owesAck = false → exec (.ringAckTimer d) s = .next s) ∧
      ((s.side d).owesAck = true → s.sideLive d = true → (s.side d).ctrlq = [] → (s.side d).transit = [] →
        ∀ f u, s.controlFrame 2 (s.hopStation d) false (ctrlPayload 2 []) = some (f, u) → (s.side d).room f = true →
        ∃ t, exec (.ringAckTimer d) s = .next t ∧ t.out = .frame d (stampFrame f (s.side d).txSeq (s.side d).rxSeq) :: s.out ∧
          (t.side d).owesAck = false ∧ s.keeps t [.ring, .out]) ∧
      (s.sideLive d = true → ∃ t, exec (.ringResendTimeout d) s = .next t ∧ (t.side d).resend = (s.side d).resend ∧
        t.out = ((s.side d).resend.map fun e => Out.frame d (stampFrame e.frame e.seq (s.side d).rxSeq)).reverse ++ s.out ∧
        s.keeps t [.ring, .out]) ∧
      (s.sideUpNow d = true → exec (.sideDownTimeout d) s = .next s ∧ exec (.hopPauseTimeout d) s = .next s) ∧
      (∀ n t, s.sideUpNow d = false → s.hopQueues d = [(n, t)] → (s.q n).pair.paired = false → (s.q n).chained = true →
        t ∈ (s.q n).chain.stations → t ≠ s.station →
        exec (.sideDownTimeout d) s = .next ((s.loseMember n t).reportLost t) ∧
        ((s.loseMember n t).q n).chain.void = true ∧ ((s.loseMember n t).q n).chain.lost = (s.q n).chain.lost ++ [t] ∧
        ((s.q n).chain.stations.head? = some t → ((s.loseMember n t).q n).st = (s.q n).st)) ∧
      (∀ n t, s.sideUpNow d = false → s.hopQueues d = [(n, t)] → (s.q n).pair.paired = true → (s.q n).pair.shadow = false →
        (s.q n).pair.out = false → ∃ u, exec (.hopPauseTimeout d) s = .next u ∧ (u.q n).pair = { (s.q n).pair with out := true })) ∧
    (∀ p : Fin 8, (s.sharedWith p.val = [] → exec (.syncTimer p) s = .next s) ∧
      (∀ n d f u, s.sharedWith p.val = [n] → (s.q n).pair.paired = false → s.route p.val = some d → s.sideLive d = true → (s.side d).ctrlq = [] →
        (s.side d).transit = [] → (s.grantUp n).controlFrame 1 p.val false (toBytes 64 ((s.grantUp n).syncEntry n)) = some (f, u) →
        (s.side d).room f = true → ∃ t, exec (.syncTimer p) s = .next t ∧
          t.out = .frame d (stampFrame f (s.side d).txSeq (s.side d).rxSeq) :: s.out ∧ s.keeps t [.ring, .queues, .out])) ∧
    exec .pairFailNLow s = .next ((s.queues.filter fun e => e.2.pair.paired && e.2.pair.shadow).foldl
      (fun s e => s.updQ e.1 fun q => { q with pair := { q.pair with failWatch := true } }) s) ∧
    (∀ n : Fin 8192, let q := s.q n.val
      let c := q.chain
      let p := q.pair
      (c.cmds = [] ∨ (∃ k rest, c.cmds = k :: rest ∧ k.code < 2 ∧ q.committed < k.pos) → exec (.chainCmdApply n) s = .next s) ∧
      (∀ k rest, c.cmds = k :: rest → q.reached k = true →
        let w := s.updQ n.val fun q => { q with chain := { q.chain with cmds := rest } }
        let told (u : State) : State := if q.st = .held ∧ (u.q n.val).st ≠ .held then u.syncNow n.val else u.grantUp n.val
        (k.code < 4 → exec (.chainCmdApply n) s = .next (told ((w.memberCmd n.val k).sendChainCmd n.val k.code k.pos))) ∧
        (4 ≤ k.code → q.chained = false → exec (.chainCmdApply n) s = .next (told w)) ∧
        (4 ≤ k.code → q.chained = true → q.st = .ready ∨ q.st = .closed → exec (.chainCmdApply n) s =
          .next (told (w.updQ n.val fun q => { q with chain := { q.chain with void := true } }))) ∧
        (4 ≤ k.code → q.chained = true → q.st ≠ .ready → q.st ≠ .closed →
          ∀ t, (c.stations.filter fun t => t != s.station && !s.heard t).getLast? = some t →
          exec (.chainCmdApply n) s = .next (told ((w.loseMember n.val t).reportLost t)))) ∧
      (c.marks = [] ∨ q.role = some .head ∨ (∃ k rest, c.marks = k :: rest ∧ q.committed < k.pos) → exec (.ffMarkApply n) s = .next s) ∧
      (∀ k rest, c.marks = k :: rest → q.role ≠ some .head → k.pos ≤ q.committed →
        let w := s.updQ n.val fun q => { q with chain := { q.chain with marks := rest } }
        let p := q.storedPos k.pos
        (∀ t, q.member .east = some t → exec (.ffMarkApply n) s =
          .next (w.sendCtrl t 6 [(2, 2, n.val), (4, 1, k.code), (8, 5, k.pos % 2 ^ 40)])) ∧
        (q.member .east = none → k.code < 4 → (q.markAt k.code).auto = true ∨ q.st = .closing → ∃ t, exec (.ffMarkApply n) s = .next t ∧
          t.q n.val = { w.q n.val with inbandRej := inc32 q.inbandRej } ∧ t.errs.seq = (s.errs.seq + 1) % 2 ^ 32 ∧
          s.keeps t [.queues, .errs, .funcs, .out]) ∧
        (q.member .east = none → k.code < 4 → (q.markAt k.code).auto = false → q.st ≠ .closing → ∃ t, exec (.ffMarkApply n) s = .next t ∧
          (t.q n.val).chain.marks = rest ∧ ((t.q n.val).markAt k.code).isSet = true ∧
          (q.b.msgMode = true → (∃ x, q.wmsg = some x ∧ x.start < p) →
            ((t.q n.val).markAt k.code).pos = p ∧ ((t.q n.val).markAt k.code).next = true) ∧
          (q.b.msgMode = false ∨ (∀ x, q.wmsg = some x → p ≤ x.start) →
            ((t.q n.val).markAt k.code).pos = w.ffBoundary (w.q n.val) p ∧ ((t.q n.val).markAt k.code).next = false) ∧
          (∀ i, i ≠ k.code → (t.q n.val).markAt i = q.markAt i))) ∧
      (s.dataTurn ≠ some n.val ∨ s.ownTurn (s.dataOut n.val) = false → exec (.fallForwardSend n) s = .next s) ∧
      (s.dataTurn = some n.val → s.ownTurn (s.dataOut n.val) = true → (s.side .east).transit = [] →
        s.badWords q (q.storedPos c.sendPos) q.ffLen = [] → ∃ t, exec (.fallForwardSend n) s = .next t ∧
        t.out = .frame .east (stampFrame (s.dataOut n.val) (s.side .east).txSeq (s.side .east).rxSeq) :: s.out ∧
        (t.q n.val).chain = { c with sendPos := c.sendPos + q.ffLen, ffUsed := (c.ffUsed + ceilDiv q.ffLen 256) % 2 ^ 24
                                     sent := c.sent ++ [(c.sendPos, c.ffUsed)] } ∧
        (t.q n.val).rptr = q.rptr ∧ (t.group (n.val / 512)).rsNonce = (s.group (n.val / 512)).rsNonce + 1 ∧
        (t.side .east).sinceOwn = 0 ∧ s.keeps t [.queues, .groups, .ring, .out]) ∧
      (p.paired = false ∨ p.shadow = false → exec (.syncTimeout n) s = .next s ∧ exec (.pairFailSyncTimeout n) s = .next s) ∧
      (p.failWatch = false → exec (.pairFailSyncTimeout n) s = .next s) ∧
      (∀ k, k = Instr.syncTimeout n ∨ (k = .pairFailSyncTimeout n ∧ p.failWatch = true) → p.paired = true → p.shadow = true →
        (q.st = .held → exec k s = .next (s.post 0 (failoverEvent n.val p.gen true false false))) ∧
        (q.st ≠ .held → p.failoverWait = [] → ∃ t, exec k s = .next t ∧ (t.q n.val).pair = { p with
          shadow := false, out := false, stopping := false, gen := (p.gen + 1) % 128, peerActive := false, failWatch := false } ∧
          (t.q n.val).rptr = q.rptr ∧ s.keeps t [.queues, .ring, .funcs, .out])) ∧
      (c.wait = none → exec (.chainSetupTimeout n) s = .next s) ∧
      (∀ w, c.wait = some w → (w.leave = true → exec (.chainSetupTimeout n) s = .next s) ∧
        (w.leave = false → exec (.chainSetupTimeout n) s =
          .next ((s.updQ n.val fun q => { q with chain := {} }).complete w.ref St.chainTimeout))) ∧
      (p.wait = none → exec (.pairSetupTimeout n) s = .next s) ∧
      (∀ r, p.wait = some r → exec (.pairSetupTimeout n) s =
        .next ((s.updQ n.val fun q => { q with pair := {} }).complete r St.chainTimeout)))

/-! ## Chains, pairs and keys -/

/-- Tables RR-6 and RR-9, R275, R285, R292: `CHAIN_SETUP` sets a member up and waits for its neighbours' joins, completes once
they agree, and leaves a chain; `PAIR_SETUP` sets a tail up and waits for the other tail, completes once they agree, and
ends a pair; `FAILOVER` makes a shadow take over, the active tail abdicate or finish its message first. Each fails with the
first status of its table that applies, and then changes nothing. Log entries 70 and 73 name the model's choices in it. -/
def Obligations.ChainPairAndFailoverCommands : Prop :=
  ∀ (g : Fin 16) (d : Block512) (s : State),
    let f := s.fetched g.val d
    let n := qidOf d
    let q := s.q n
    let r := s.nextRef g.val d
    (s.Accepts g.val 0x40 d →
      let pos := fld d 146 2
      let nsta := fld d 148 3
      let c : Chain := { pos := pos, nsta := nsta, stations := s.chainStations pos nsta, base := q.wptr
                         wait := some { ref := r, east := decide (pos + 1 < nsta), west := decide (0 < pos) } }
      (f.chainStatus g.val d ≠ St.ok →
        exec (.chainSetup g d) s = .next (s.endsWith g.val d f (f.chainStatus g.val d))) ∧
      (f.chainStatus g.val d = St.ok → fld d 144 2 = 0 → s.ring.joins = [] → ∃ t, exec (.chainSetup g d) s = .next t ∧
        (t.q n).chain = c ∧ (∀ m, m ≠ n → t.q m = s.q m) ∧ s.keeps t [.queues, .ring, .funcs, .cmdSerial, .host, .out]) ∧
      (∀ p o, f.chainStatus g.val d = St.ok → fld d 144 2 = 0 → pos = 0 → (s.chainStations pos nsta)[1]? = some o →
        s.ring.joins = [{ op := 4, station := o, payload := p }] → joinQid p = n →
        (({ q with chain := c } : Queue).chainMatches n 1 p = true → ∃ u, exec (.chainSetup g d) s = .next (s.endsWith g.val d u St.ok) ∧
          (u.q n).chain = { c with joined := true, wait := none }) ∧
        (({ q with chain := c } : Queue).chainMatches n 1 p = false → ∃ t, exec (.chainSetup g d) s = .next t ∧ (t.q n).chain = {})) ∧
      (f.chainStatus g.val d = St.ok → fld d 144 2 ≠ 0 → ∃ t, exec (.chainSetup g d) s = .next t ∧ (t.q n).chain.joined = false ∧
        (t.q n).chain.stations = [] ∧ (t.q n).st = q.st)) ∧
    (s.Accepts g.val 0x41 d →
      let p : Pair := { shadow := fld d 146 1 == 1, peer := fld d 148 3, tmo := if fld d 152 8 = 0 then 50 else fld d 152 8, wait := some r }
      (f.pairStatus g.val d ≠ St.ok → exec (.pairSetup g d) s = .next (s.endsWith g.val d f (f.pairStatus g.val d))) ∧
      (f.pairStatus g.val d = St.ok → fld d 144 2 = 0 → s.ring.joins = [] → ∃ t, exec (.pairSetup g d) s = .next t ∧
        (t.q n).pair = p ∧ (∀ m, m ≠ n → t.q m = s.q m) ∧ s.keeps t [.queues, .ring, .funcs, .cmdSerial, .host, .out]) ∧
      (∀ b, f.pairStatus g.val d = St.ok → fld d 144 2 = 0 → fld d 146 1 = 0 → joinQid b = n →
        s.ring.joins = [{ op := 8, station := fld d 148 3, payload := b }] → ({ q with pair := p } : Queue).pairMatches n 0 b = true →
        ∃ u, exec (.pairSetup g d) s = .next (s.endsWith g.val d u St.ok) ∧ (u.q n).pair = { p with paired := true, wait := none }) ∧
      (f.pairStatus g.val d = St.ok → fld d 144 2 ≠ 0 → q.pair.failoverWait = [] → ∃ u, exec (.pairSetup g d) s = .next (s.endsWith g.val d u St.ok) ∧
        (u.q n).pair = {} ∧ (u.q n).st = q.st ∧ s.keeps u [.queues, .funcs, .cmdSerial, .host])) ∧
    (s.Accepts g.val 0x42 d →
      let p := q.pair
      let waiting : Pair := { p with failoverWait := p.failoverWait ++ [r] }
      (f.failoverStatus g.val d ≠ St.ok → exec (.failover g d) s = .next (s.endsWith g.val d f (f.failoverStatus g.val d))) ∧
      (f.failoverStatus g.val d = St.ok → p.paired = true → p.shadow = true → bit d 144 = false →
        exec (.failover g d) s = .next (f.updQ n fun q => { q with pair := waiting })) ∧
      (f.failoverStatus g.val d = St.ok → p.paired = true → p.shadow = true → bit d 144 = true → q.st ≠ .held → p.failoverWait = [] →
        ∃ u, exec (.failover g d) s = .next (s.endsWith g.val d u St.ok) ∧ (u.q n).pair = { p with
          shadow := false, out := false, stopping := false, gen := (p.gen + 1) % 128, peerActive := false, failWatch := false }) ∧
      (f.failoverStatus g.val d = St.ok → p.paired = true → p.shadow = false → bit d 144 = true → p.out = false → ∃ t,
        exec (.failover g d) s = .next t ∧ (t.q n).pair = { waiting with out := true } ∧ s.keeps t [.queues, .ring, .funcs, .cmdSerial, .host, .out]) ∧
      (f.failoverStatus g.val d = St.ok → p.paired = true → p.shadow = false → bit d 144 = false → ∃ t,
        exec (.failover g d) s = .next t ∧ (t.q n).pair = { waiting with stopping := true } ∧ (t.q n).rptr = q.rptr ∧
          s.keeps t [.queues, .ring, .funcs, .cmdSerial, .host, .out]))

/-- Tables SE-3 and SE-4, R411 to R429: `REKEY` derives the children of a queue, of a group's ring session or of ring control
from the parent of the scope, and keeps the previous epoch; a key that comes back goes on from the count it had reached
(R268); it completes KEY_MISSING without a parent and KEY_CACHE_FULL where the cache lacks room. `KEY_QUERY` writes its
block. `TENANT_RELEASE` gives up a group's keys and quotas. An update message is refused by the first check that fails, and
nothing changes; one that passes advances the counter, and installs or erases its slot, moves the life cycle (with a system
reset), or sets the owner's lock. Log entries 35, 36, 37, 82 and 103 name the model's choices in it. -/
def Obligations.KeyCommandsAndUpdateMessages : Prop :=
  (∀ (g : Fin 16) (d : Block512) (s : State),
    let f := s.fetched g.val d
    let n := qidOf d
    let scope := fld d 144 2
    let h := if scope = 0 then n / 512 else fld d 148 4
    let epoch : BitVec 16 := BitVec.ofNat 16 (fld d 160 16)
    (s.Accepts g.val 0x50 d →
      (f.rekeyStatus g.val d ≠ St.ok → exec (.rekey g d) s = .next (s.endsWith g.val d f (f.rekeyStatus g.val d))) ∧
      (f.rekeyStatus g.val d = St.ok → s.parentSlot (if scope = 2 then 0x10 else h) = none →
        exec (.rekey g d) s = .next (s.endsWith g.val d f St.keyMissing)) ∧
      (∀ i, f.rekeyStatus g.val d = St.ok → s.parentSlot (if scope = 2 then 0x10 else h) = some i → s.tagOk i = true →
        let k := (s.slot i).material
        let spentRs := keepCount (s.group h).rsSpent (s.group h).rsEpoch (s.group h).rsParent (s.group h).rsNonce
        let spentRc := keepCount s.ring.rcSpent s.ring.rcEpoch s.ring.rcParent s.ring.rcNonce
        (256 < (f.bindKeys scope n h epoch k).cacheUsed → exec (.rekey g d) s = .next (s.endsWith g.val d f St.keyCacheFull)) ∧
        ((f.bindKeys scope n h epoch k).cacheUsed ≤ 256 →
          (scope = 0 → (s.q n).st ≠ .held → exec (.rekey g d) s = .next (s.endsWith g.val d
            (f.updQ n fun q => { q with keys := { bound := true, epoch := epoch, parent := k
                                                  prev := if q.keys.bound && !q.keys.revoked then some (q.keys.epoch, q.keys.parent) else none } })
            St.ok)) ∧
          (scope = 1 → (∀ e ∈ s.groupQueues h, e.2.hasRingEnd = false) → exec (.rekey g d) s = .next (s.endsWith g.val d
            (f.setGroup h { s.group h with
              rsBound := true, rsEpoch := epoch, rsParent := k, rsRevoked := false
              rsNonce := countOf spentRs epoch k, rsSpent := spentRs, rsGone := (s.group h).rsGone.filter (· != epoch.toNat % 256)
              rsPrev := if (s.group h).rsBound && !(s.group h).rsRevoked then some ((s.group h).rsEpoch, (s.group h).rsParent) else none })
            St.ok)) ∧
          (scope = 2 → exec (.rekey g d) s = .next (s.endsWith g.val d
            { f with ring := { s.ring with
              nokey := false, rcEpoch := epoch, rcParent := k, rcNonce := countOf spentRc epoch k, rcSpent := spentRc
              rcPrev := if s.ring.nokey then none else some (s.ring.rcEpoch, s.ring.rcParent) } }
            St.ok))))) ∧
    (s.Accepts g.val 0x53 d → (s.func g.val).resFail = false →
      (fld d 128 64 % 64 = 0 → exec (.keyQuery g d) s = .next (s.endsWith g.val d (f.emit (.hostWrite (fld d 128 64) 64 s.keyBlock)) St.ok)) ∧
      (fld d 128 64 % 64 ≠ 0 → exec (.keyQuery g d) s = .next (s.endsWith g.val d f St.badField))) ∧
    (s.Accepts g.val 0x54 d → g = 0 → fld d 132 380 = 0 → s.groupQueues (fld d 128 4) = [] → s.plaza.releases = [] →
      exec (.tenantRelease g d) s = .next (s.endsWith g.val d (f.setGroup (fld d 128 4)
        { s.group (fld d 128 4) with gqRsv := 2048, gqMax := 32768, rsBound := false, rsPrev := none }) St.ok))) ∧
  (∀ (l : List (BitVec 16 × BitVec 256 × Nat)) (e e' : BitVec 16) (k k' : BitVec 256) (c : Nat), 0 < c →
    countOf (keepCount l e k c) e k = c ∧
    ((e', k') ≠ (e, k) → countOf (keepCount l e k c) e' k' = countOf l e' k')) ∧
  (∀ (g : Fin 16) (d : Block512) (s : State) (c : Option (List Byte) → Instr) (path : MsgPath),
    (c = .keyUpdate g d ∧ path = .keyUpdate g.val ∧ s.Accepts g.val 0x51 d) ∨ (c = .lcSubmit g d ∧ path = .lcSubmit g.val ∧ s.Accepts g.val 0x52 d) →
    let f := s.fetched g.val d
    exec (c none) s = .next (s.endsWith g.val d f St.dmaError) ∧
    ∀ m : List Byte,
      let early := firstFail [
        (msgMalformed m, St.badMessage),
        (!path.allows m, St.notPermitted),
        (!s.power.pwrfailN, St.lowPower),
        (le m 8 16 != s.nv.devid.toNat, St.wrongDevice)]
      (early ≠ St.ok → exec (c (some m)) s = .next (s.endsWith g.val d f early)) ∧
      (early = St.ok → (∀ i, (s.slot i).bad = true ∨ s.tagOk i = true) →
        (s.authority m = none → exec (c (some m)) s = .next (s.endsWith g.val d f St.slotBad)) ∧
        (∀ a, s.authority m = some a →
          let late := firstFail [
            (!s.authentic m a, St.authFail),
            (s.nv.ctr == 4095, St.ctrExhausted),
            (decide (Msg.ctr m ≤ s.nv.ctr) || decide (s.nv.ctr + 16 < Msg.ctr m), St.ctrStale),
            (!s.permitted m a, St.notPermitted)]
          (late ≠ St.ok → exec (c (some m)) s = .next (s.endsWith g.val d f late)) ∧
          (late = St.ok → Config.nvFails s.free = true → (Msg.op m = Msg.opInstall → s.unwrap m ≠ none) →
            ∃ u, exec (c (some m)) s = .next (s.endsWith g.val d u St.nvFail) ∧ u.nv = { s.nv with ctr := Msg.ctr m } ∧
              s.keeps u [.nv, .funcs, .cmdSerial, .host, .free]) ∧
          (late = St.ok → Config.nvFails s.free = false →
            (Msg.op m = Msg.opInstall → s.unwrap m = none → exec (c (some m)) s = .next (s.endsWith g.val d f St.authFail)) ∧
            (∀ k, Msg.op m = Msg.opInstall → s.unwrap m = some k → (s.slot (Msg.slot m)).typ ≠ 1 → ∃ u,
              exec (c (some m)) s = .next (s.endsWith g.val d u St.ok) ∧ u.nv.ctr = Msg.ctr m ∧
              (u.slot (Msg.slot m)).material = k ∧ (u.slot (Msg.slot m)).typ = Msg.typ m ∧ (u.slot (Msg.slot m)).scope = Msg.scope m ∧
              (u.slot (Msg.slot m)).bad = false ∧ (∀ i, i ≠ Msg.slot m → u.slot i = s.slot i) ∧
              s.keeps u [.nv, .funcs, .cmdSerial, .host, .free, .out]) ∧
            (Msg.op m = Msg.opErase → (s.slot (Msg.slot m)).typ ≠ 1 → ∃ u, exec (c (some m)) s = .next (s.endsWith g.val d u St.ok) ∧
              u.nv.ctr = Msg.ctr m ∧ u.slot (Msg.slot m) = {} ∧ (∀ i, i ≠ Msg.slot m → u.slot i = s.slot i) ∧
              s.keeps u [.nv, .funcs, .cmdSerial, .host, .free, .out]) ∧
            (Msg.op m = Msg.opLcSet → Msg.arg m ≤ 2 → ∃ t, exec (c (some m)) s = .next t ∧
              t.nv = { s.nv with ctr := Msg.ctr m, lc := Msg.arg m, ownerLock := false }) ∧
            (Msg.op m = Msg.opLcSet → Msg.arg m = 3 ∨ Msg.arg m = 4 → ∃ t, exec (c (some m)) s = .next t ∧
              t.nv = { s.nv with ctr := Msg.ctr m, lc := Msg.arg m, ownerLock := false, slots := [] }) ∧
            (Msg.op m = Msg.opOwnerLock → exec (c (some m)) s = .next (s.endsWith g.val d
              { f with nv := { s.nv with ctr := Msg.ctr m, ownerLock := Msg.arg m == 1 }, free := s.free + 1 } St.ok))))))
end

