-- ==== Sys2Proof/Laws/SMap.lean ====
section
/-!
SUPPORT. Sparse maps: what a read gives after a write, and that every write keeps the canonical form.
-/
namespace Sys2Proof.Machine

variable {α : Type} [DecidableEq α]


omit [DecidableEq α] in
@[simp] theorem SMap.get_nil (d : α) (n : Nat) : SMap.get d [] n = d := rfl

omit [DecidableEq α] in
@[simp] theorem SMap.get_insert_same (d : α) (m : SMap α) (n : Nat) (x : α) : SMap.get d (SMap.insert m n x) n = x := by
  induction m with
  | nil => simp [SMap.insert, SMap.get]
  | cons e m ih =>
    obtain ⟨k, v⟩ := e
    simp only [SMap.insert]
    split
    · simp [SMap.get]
    · split
      · simp [SMap.get]
      · rename_i h; simp [SMap.get, h, ih]

omit [DecidableEq α] in
theorem SMap.get_insert_other (d : α) (m : SMap α) {n k : Nat} (x : α) (h : n ≠ k) :
    SMap.get d (SMap.insert m n x) k = SMap.get d m k := by
  induction m with
  | nil => simp [SMap.insert, SMap.get, h]
  | cons e m ih =>
    obtain ⟨j, v⟩ := e
    simp only [SMap.insert]
    split
    · simp [SMap.get, h]
    · split
      · rename_i hj; subst hj; simp [SMap.get, h]
      · simp [SMap.get, ih]

omit [DecidableEq α] in
@[simp] theorem SMap.get_erase_same (d : α) (m : SMap α) (n : Nat) : SMap.get d (SMap.erase m n) n = d := by
  induction m with
  | nil => rfl
  | cons e m ih =>
    obtain ⟨k, v⟩ := e
    simp only [SMap.erase]
    split
    · exact ih
    · rename_i h; simp [SMap.get, h, ih]

omit [DecidableEq α] in
theorem SMap.get_erase_other (d : α) (m : SMap α) {n k : Nat} (h : n ≠ k) :
    SMap.get d (SMap.erase m n) k = SMap.get d m k := by
  induction m with
  | nil => rfl
  | cons e m ih =>
    obtain ⟨j, v⟩ := e
    simp only [SMap.erase]
    split
    · rename_i hj; subst hj; simp [SMap.get, h, ih]
    · simp [SMap.get, ih]

@[simp] theorem SMap.get_set_same (d : α) (m : SMap α) (n : Nat) (x : α) : SMap.get d (SMap.set d m n x) n = x := by
  unfold SMap.set
  split
  · rename_i h; simp [h]
  · simp

theorem SMap.get_set_other (d : α) (m : SMap α) {n k : Nat} (x : α) (h : n ≠ k) :
    SMap.get d (SMap.set d m n x) k = SMap.get d m k := by
  unfold SMap.set
  split
  · exact SMap.get_erase_other d m h
  · exact SMap.get_insert_other d m x h

/-- A value written reads back, and every other key reads as before. -/
theorem SMap.get_set (d : α) (m : SMap α) (n k : Nat) (x : α) :
    SMap.get d (SMap.set d m n x) k = if n = k then x else SMap.get d m k := by
  split
  · rename_i h; subst h; simp
  · rename_i h; exact SMap.get_set_other d m x h

/-- A run of values written reads back; keys outside the run read as before. -/
theorem SMap.get_setList (d : α) (xs : List α) (m : SMap α) (n k : Nat) :
    SMap.get d (SMap.setList d m n xs) k = if h : n ≤ k ∧ k - n < xs.length then xs[k - n]'h.2 else SMap.get d m k := by
  induction xs generalizing m n with
  | nil => simp [SMap.setList]
  | cons x xs ih =>
    rw [SMap.setList, ih, SMap.get_set]
    rcases Nat.lt_trichotomy k n with h | h | h
    · rw [dif_neg (by omega), dif_neg (by omega), if_neg (by omega)]
    · subst h; rw [dif_neg (by omega), dif_pos (by simp), if_pos rfl]; simp
    · by_cases hk : k - n < xs.length + 1
      · rw [dif_pos (by omega), dif_pos (by simp; omega)]
        have : k - n = (k - (n + 1)) + 1 := by omega
        simp [this]
      · rw [dif_neg (by omega), dif_neg (by simp; omega), if_neg (by omega)]

/-! ## The canonical form -/

theorem SMap.wfFrom_mono {d : α} {m : SMap α} {lo lo' : Nat} (h : SMap.wfFrom d lo m = true) (hl : lo' ≤ lo) :
    SMap.wfFrom d lo' m = true := by
  cases m with
  | nil => rfl
  | cons e m =>
    obtain ⟨k, v⟩ := e
    simp only [SMap.wfFrom, Bool.and_eq_true, decide_eq_true_eq] at h ⊢
    exact ⟨⟨by omega, h.1.2⟩, h.2⟩

theorem SMap.wfFrom_erase {d : α} {m : SMap α} {lo : Nat} (n : Nat) (h : SMap.wfFrom d lo m = true) :
    SMap.wfFrom d lo (SMap.erase m n) = true := by
  induction m generalizing lo with
  | nil => rfl
  | cons e m ih =>
    obtain ⟨k, v⟩ := e
    simp only [SMap.wfFrom, Bool.and_eq_true, decide_eq_true_eq] at h
    simp only [SMap.erase]
    split
    · exact SMap.wfFrom_mono (ih h.2) (by omega)
    · simp only [SMap.wfFrom, Bool.and_eq_true, decide_eq_true_eq]
      exact ⟨h.1, ih h.2⟩

theorem SMap.wfFrom_insert {d : α} {m : SMap α} {lo n : Nat} {x : α} (h : SMap.wfFrom d lo m = true) (hn : lo ≤ n)
    (hx : x ≠ d) : SMap.wfFrom d lo (SMap.insert m n x) = true := by
  induction m generalizing lo with
  | nil => simp [SMap.insert, SMap.wfFrom, hn, hx]
  | cons e m ih =>
    obtain ⟨k, v⟩ := e
    simp only [SMap.wfFrom, Bool.and_eq_true, decide_eq_true_eq] at h
    simp only [SMap.insert]
    split
    · rename_i hk
      simp only [SMap.wfFrom, Bool.and_eq_true, decide_eq_true_eq]
      exact ⟨⟨hn, hx⟩, ⟨by omega, h.1.2⟩, h.2⟩
    · split
      · rename_i hk; subst hk
        simp only [SMap.wfFrom, Bool.and_eq_true, decide_eq_true_eq]
        exact ⟨⟨hn, hx⟩, h.2⟩
      · simp only [SMap.wfFrom, Bool.and_eq_true, decide_eq_true_eq]
        exact ⟨h.1, ih h.2 (by omega)⟩

/-- Every write keeps the canonical form. -/
theorem SMap.wf_set {d : α} {m : SMap α} (n : Nat) (x : α) (h : SMap.wf d m = true) : SMap.wf d (SMap.set d m n x) = true := by
  unfold SMap.set
  split
  · exact SMap.wfFrom_erase n h
  · rename_i hx; exact SMap.wfFrom_insert h (Nat.zero_le _) hx

theorem SMap.wf_erase {d : α} {m : SMap α} (n : Nat) (h : SMap.wf d m = true) : SMap.wf d (SMap.erase m n) = true :=
  SMap.wfFrom_erase n h

theorem SMap.wf_setList {d : α} (xs : List α) {m : SMap α} (n : Nat) (h : SMap.wf d m = true) :
    SMap.wf d (SMap.setList d m n xs) = true := by
  induction xs generalizing m n with
  | nil => exact h
  | cons x xs ih => exact ih (n + 1) (SMap.wf_set n x h)

theorem SMap.wfFrom_filter {d : α} {m : SMap α} {lo : Nat} (p : Nat × α → Bool) (h : SMap.wfFrom d lo m = true) :
    SMap.wfFrom d lo (m.filter p) = true := by
  induction m generalizing lo with
  | nil => rfl
  | cons e m ih =>
    obtain ⟨k, v⟩ := e
    simp only [SMap.wfFrom, Bool.and_eq_true, decide_eq_true_eq] at h
    simp only [List.filter]
    split
    · simp only [SMap.wfFrom, Bool.and_eq_true, decide_eq_true_eq]
      exact ⟨h.1, ih h.2⟩
    · exact SMap.wfFrom_mono (ih h.2) (by omega)

theorem SMap.wf_filter {d : α} {m : SMap α} (p : Nat × α → Bool) (h : SMap.wf d m = true) : SMap.wf d (m.filter p) = true :=
  SMap.wfFrom_filter p h

/-- Equal reads make equal maps: the canonical form has one list for each map. -/
theorem SMap.get_below {d : α} {m : SMap α} {lo n : Nat} (h : SMap.wfFrom d lo m = true) (hn : n < lo) : SMap.get d m n = d := by
  induction m generalizing lo with
  | nil => rfl
  | cons e m ih =>
    obtain ⟨k, v⟩ := e
    simp only [SMap.wfFrom, Bool.and_eq_true, decide_eq_true_eq] at h
    rw [SMap.get, if_neg (by omega)]
    exact ih h.2 (by omega)

theorem SMap.ext_from {d : α} {m m' : SMap α} {lo : Nat} (h : SMap.wfFrom d lo m = true) (h' : SMap.wfFrom d lo m' = true)
    (e : ∀ n, SMap.get d m n = SMap.get d m' n) : m = m' := by
  induction m generalizing lo m' with
  | nil =>
    cases m' with
    | nil => rfl
    | cons x m' =>
      obtain ⟨k, v⟩ := x
      simp only [SMap.wfFrom, Bool.and_eq_true, decide_eq_true_eq] at h'
      have := e k
      simp [SMap.get] at this
      exact absurd this.symm h'.1.2
  | cons x m ih =>
    obtain ⟨k, v⟩ := x
    simp only [SMap.wfFrom, Bool.and_eq_true, decide_eq_true_eq] at h
    cases m' with
    | nil =>
      have := e k
      simp [SMap.get] at this
      exact absurd this h.1.2
    | cons x' m' =>
      obtain ⟨k', v'⟩ := x'
      simp only [SMap.wfFrom, Bool.and_eq_true, decide_eq_true_eq] at h'
      rcases Nat.lt_trichotomy k k' with hk | hk | hk
      · have := e k
        rw [SMap.get, if_pos rfl, SMap.get, if_neg (by omega), SMap.get_below h'.2 (by omega)] at this
        exact absurd this h.1.2
      · subst hk
        have hv := e k
        simp [SMap.get] at hv
        subst hv
        congr 1
        refine ih h.2 h'.2 fun n => ?_
        by_cases hn : k = n
        · subst hn; rw [SMap.get_below h.2 (by omega), SMap.get_below h'.2 (by omega)]
        · have := e n
          simpa [SMap.get, hn] using this
      · have := e k'
        rw [SMap.get, if_neg (by omega), SMap.get_below h.2 (by omega), SMap.get, if_pos rfl] at this
        exact absurd this.symm h'.1.2

theorem SMap.ext {d : α} {m m' : SMap α} (h : SMap.wf d m = true) (h' : SMap.wf d m' = true)
    (e : ∀ n, SMap.get d m n = SMap.get d m' n) : m = m' := SMap.ext_from h h' e

end Sys2Proof.Machine
end

