-- ==== Sys2Proof/Laws/Within.lean ====
section
/-!
SUPPORT. How far one state lies from another: `Within W s t` says that `t` differs from `s` at most in the parts that the mask
`W` names, keeps the queue of commands and the invariant, and takes nothing back. One lemma for each way an operation is built.
-/
namespace Sys2Proof.Machine

/-- The bit of a part in a mask. -/
def Part.idx : Part → Nat
  | .queues => 0 | .groups => 1 | .links => 2 | .portCfg => 3 | .portPol => 4 | .portPolstat => 5 | .ring => 6 | .funcs => 7
  | .host => 8 | .cmdSerial => 9 | .plaza => 10 | .mem => 11 | .kiosk => 12 | .words => 13 | .time => 14 | .flagmap => 15
  | .cells => 16 | .power => 17 | .rst => 18 | .nv => 19 | .fw => 20 | .errs => 21 | .cyc => 22 | .free => 23 | .out => 24

structure Within (W : Nat) (s t : State) : Prop where
  pending : t.pending = s.pending
  onward : s.Onward t
  inv : s.Inv → t.Inv
  same : ∀ p : Part, W.testBit p.idx = false → s.same t p

theorem State.Onward.refl (s : State) : s.Onward s := ⟨rfl, rfl, rfl, rfl, Nat.le_refl _, Nat.le_refl _⟩

theorem State.Onward.trans {s t u : State} (h : s.Onward t) (k : t.Onward u) : s.Onward u :=
  ⟨k.devid.trans h.devid, k.deviceKey.trans h.deviceKey, k.woritHash.trans h.woritHash, k.svcAddr.trans h.svcAddr,
    Nat.le_trans h.ctr k.ctr, Nat.le_trans h.svnFloor k.svnFloor⟩

theorem State.same_refl (s : State) (p : Part) : s.same s p := by cases p <;> rfl

theorem State.same_trans {s t u : State} {p : Part} (h : s.same t p) (k : t.same u p) : s.same u p := by
  cases p <;> simp only [State.same] at h k ⊢ <;> exact k.trans h

theorem Within.refl (W : Nat) (s : State) : Within W s s :=
  ⟨rfl, State.Onward.refl s, id, fun p _ => s.same_refl p⟩

theorem mask_below {M W : Nat} (h : M ||| W = W) {i : Nat} (hw : W.testBit i = false) : M.testBit i = false := by
  rw [← h, Nat.testBit_or, Bool.or_eq_false_iff] at hw
  exact hw.1

/-- What an operation does after others have been done. -/
theorem Within.step {W M : Nat} {s t u : State} (h : Within W s t) (k : Within M t u) (hm : M ||| W = W) : Within W s u :=
  ⟨k.pending.trans h.pending, h.onward.trans k.onward, fun i => k.inv (h.inv i),
    fun p hp => State.same_trans (h.same p hp) (k.same p (mask_below hm hp))⟩

theorem Within.mono {W M : Nat} {s t : State} (k : Within M s t) (hm : M ||| W = W) : Within W s t :=
  (Within.refl W s).step k hm

theorem Within.ite {W : Nat} {s t u : State} {c : Prop} [Decidable c] (h : Within W s t) (k : Within W s u) :
    Within W s (if c then t else u) := by split <;> assumption

theorem Within.foldl {α : Type} {W : Nat} {s t : State} {f : State → α → State} (hf : ∀ t a, Within W t (f t a))
    (l : List α) (h : Within W s t) : Within W s (l.foldl f t) := by
  induction l generalizing t with
  | nil => exact h
  | cons a l ih => exact ih (h.step (hf t a) (Nat.or_self W))

/-! ## Changes of one part -/

/-- A change of the key store keeps what `Nv.Ok` and `State.Onward` say. -/
structure Nv.Step (n m : Nv) : Prop where
  devid : m.devid = n.devid
  deviceKey : m.deviceKey = n.deviceKey
  woritHash : m.woritHash = n.woritHash
  svcAddr : m.svcAddr = n.svcAddr
  ctr : n.ctr ≤ m.ctr
  svnFloor : n.svnFloor ≤ m.svnFloor
  ok : n.Ok → m.Ok

theorem Nv.Step.refl (n : Nv) : n.Step n := ⟨rfl, rfl, rfl, rfl, Nat.le_refl _, Nat.le_refl _, id⟩

/-- A state built on another, part by part. -/
theorem Within.build {W : Nat} {s b : State} (h : Within W s b) {qs gs ls pc pp ps rg fs ho cs pz ki ti fm ce po rs nv fw er cy
    fr ou} (h0 : qs = b.queues ∨ W.testBit 0 = true) (h1 : gs = b.groups ∨ W.testBit 1 = true)
    (h2 : ls = b.links ∨ W.testBit 2 = true) (h3 : pc = b.portCfg ∨ W.testBit 3 = true)
    (h4 : pp = b.portPol ∨ W.testBit 4 = true) (h5 : ps = b.portPolstat ∨ W.testBit 5 = true)
    (h6 : rg = b.ring ∨ W.testBit 6 = true) (h7 : fs = b.funcs ∨ W.testBit 7 = true)
    (h8 : ho = b.host ∨ W.testBit 8 = true) (h9 : cs = b.cmdSerial ∨ W.testBit 9 = true)
    (h10 : pz = b.plaza ∨ W.testBit 10 = true)
    (h11 : pz.mem = b.plaza.mem ∨ (W.testBit 11 = true ∧ (SMap.wf 0 b.plaza.mem = true → SMap.wf 0 pz.mem = true)))
    (h12 : ki = b.kiosk ∨ W.testBit 12 = true)
    (h13 : ki.words = b.kiosk.words ∨ (W.testBit 13 = true ∧ (SMap.wf 0 b.kiosk.words = true → SMap.wf 0 ki.words = true)))
    (h14 : ti = b.time ∨ W.testBit 14 = true) (h15 : fm = b.flagmap ∨ W.testBit 15 = true)
    (h16 : ce = b.cells ∨ W.testBit 16 = true) (h17 : po = b.power ∨ W.testBit 17 = true)
    (h18 : rs = b.rst ∨ (W.testBit 18 = true ∧ (b.rst.Ok → rs.Ok)))
    (h19 : nv = b.nv ∨ (W.testBit 19 = true ∧ b.nv.Step nv)) (h20 : fw = b.fw ∨ W.testBit 20 = true)
    (h21 : er = b.errs ∨ (W.testBit 21 = true ∧ (b.errs.Ok → er.Ok))) (h22 : cy = b.cyc ∨ W.testBit 22 = true)
    (h23 : fr = b.free ∨ W.testBit 23 = true) (h24 : ou = b.out ∨ W.testBit 24 = true) :
    Within W s ⟨b.pending, qs, gs, ls, pc, pp, ps, rg, fs, ho, cs, pz, ki, ti, fm, ce, po, rs, nv, fw, er, cy, fr, ou⟩ := by
  have hn : b.nv.Step nv := by
    rcases h19 with rfl | h19
    · exact Nv.Step.refl _
    · exact h19.2
  refine ⟨h.pending, h.onward.trans ⟨hn.devid, hn.deviceKey, hn.woritHash, hn.svcAddr, hn.ctr, hn.svnFloor⟩,
    fun i => ?_, fun p hp => ?_⟩
  · have ib := h.inv i
    have hm := ib.mem
    simp only [State.memWf, Bool.and_eq_true] at hm
    refine ⟨?_, ?_, ?_, hn.ok ib.nv⟩
    · simp only [State.memWf, Bool.and_eq_true]
      constructor
      · rcases h11 with h11 | h11
        · rw [h11]; exact hm.1
        · exact h11.2 hm.1
      · rcases h13 with h13 | h13
        · rw [h13]; exact hm.2
        · exact h13.2 hm.2
    · rcases h21 with h21 | h21
      · rw [h21]; exact ib.errs
      · exact h21.2 ib.errs
    · rcases h18 with h18 | h18
      · rw [h18]; exact ib.rst
      · exact h18.2 ib.rst
  · refine State.same_trans (h.same p hp) ?_
    cases p <;> simp only [Part.idx] at hp <;> simp only [State.same] <;> simp_all

end Sys2Proof.Machine
end

