-- ==== Sys2Proof/Laws/Ops.lean ====
section
/-!
SUPPORT. What the operations of Machine/Ops.lean may change (Laws/Within.lean says how a mask names the parts).
-/
namespace Sys2Proof.Machine

theorem State.setQ_within {W : Nat} {s0 s : State} (n : Nat) (x : Queue) (hW : Within W s0 s)
    (hM : 1 ||| W = W) : Within W s0 (s.setQ n x) := by
  refine hW.step ?_ hM; clear hW hM; unfold State.setQ
  repeat' first
    | with_reducible apply Within.refl | (conv => arg 3; arg 24; skip); with_reducible apply Within.build
    | with_reducible exact Or.inl rfl | exact Or.inr (by decide)

theorem State.updQ_within {W : Nat} {s0 s : State} (n : Nat) (f : Queue → Queue) (hW : Within W s0 s)
    (hM : 1 ||| W = W) : Within W s0 (s.updQ n f) := by
  refine hW.step ?_ hM; clear hW hM; unfold State.updQ
  repeat' first
    | with_reducible apply Within.refl | with_reducible apply State.setQ_within | decide

theorem State.setGroup_within {W : Nat} {s0 s : State} (g : Nat) (x : Group) (hW : Within W s0 s)
    (hM : 2 ||| W = W) : Within W s0 (s.setGroup g x) := by
  refine hW.step ?_ hM; clear hW hM; unfold State.setGroup
  repeat' first
    | with_reducible apply Within.refl | (conv => arg 3; arg 24; skip); with_reducible apply Within.build
    | with_reducible exact Or.inl rfl | exact Or.inr (by decide)

theorem State.setLink_within {W : Nat} {s0 s : State} (n : Nat) (x : Link) (hW : Within W s0 s)
    (hM : 4 ||| W = W) : Within W s0 (s.setLink n x) := by
  refine hW.step ?_ hM; clear hW hM; unfold State.setLink
  repeat' first
    | with_reducible apply Within.refl | (conv => arg 3; arg 24; skip); with_reducible apply Within.build
    | with_reducible exact Or.inl rfl | exact Or.inr (by decide)

theorem State.updLink_within {W : Nat} {s0 s : State} (n : Nat) (f : Link → Link) (hW : Within W s0 s)
    (hM : 4 ||| W = W) : Within W s0 (s.updLink n f) := by
  refine hW.step ?_ hM; clear hW hM; unfold State.updLink
  repeat' first
    | with_reducible apply Within.refl | with_reducible apply State.setLink_within | decide

theorem State.setFunc_within {W : Nat} {s0 s : State} (g : Nat) (x : Func) (hW : Within W s0 s)
    (hM : 128 ||| W = W) : Within W s0 (s.setFunc g x) := by
  refine hW.step ?_ hM; clear hW hM; unfold State.setFunc
  repeat' first
    | with_reducible apply Within.refl | (conv => arg 3; arg 24; skip); with_reducible apply Within.build
    | with_reducible exact Or.inl rfl | exact Or.inr (by decide)

theorem State.updFunc_within {W : Nat} {s0 s : State} (g : Nat) (f : Func → Func) (hW : Within W s0 s)
    (hM : 128 ||| W = W) : Within W s0 (s.updFunc g f) := by
  refine hW.step ?_ hM; clear hW hM; unfold State.updFunc
  repeat' first
    | with_reducible apply Within.refl | with_reducible apply State.setFunc_within | decide

theorem State.setSide_within {W : Nat} {s0 s : State} (d : Side) (x : RingSide) (hW : Within W s0 s)
    (hM : 64 ||| W = W) : Within W s0 (s.setSide d x) := by
  refine hW.step ?_ hM; clear hW hM; unfold State.setSide
  dsimp only
  repeat' first
    | with_reducible apply Within.refl | (conv => arg 3; arg 24; skip); with_reducible apply Within.build
    | with_reducible exact Or.inl rfl | exact Or.inr (by decide) | split

theorem State.updSide_within {W : Nat} {s0 s : State} (d : Side) (f : RingSide → RingSide) (hW : Within W s0 s)
    (hM : 64 ||| W = W) : Within W s0 (s.updSide d f) := by
  refine hW.step ?_ hM; clear hW hM; unfold State.updSide
  repeat' first
    | with_reducible apply Within.refl | with_reducible apply State.setSide_within | decide

theorem State.setDring_within {W : Nat} {s0 s : State} (g : Nat) (r : Nat) (x : DRing) (hW : Within W s0 s)
    (hM : 128 ||| W = W) : Within W s0 (s.setDring g r x) := by
  refine hW.step ?_ hM; clear hW hM; unfold State.setDring
  repeat' first
    | with_reducible apply Within.refl | with_reducible apply State.updFunc_within | decide

theorem State.emit_within {W : Nat} {s0 s : State} (o : Out) (hW : Within W s0 s)
    (hM : 16777216 ||| W = W) : Within W s0 (s.emit o) := by
  refine hW.step ?_ hM; clear hW hM; unfold State.emit
  repeat' first
    | with_reducible apply Within.refl | (conv => arg 3; arg 24; skip); with_reducible apply Within.build
    | with_reducible exact Or.inl rfl | exact Or.inr (by decide)

theorem State.drawn_within {W : Nat} {s0 s : State}  (hW : Within W s0 s)
    (hM : 8388608 ||| W = W) : Within W s0 s.drawn := by
  refine hW.step ?_ hM; clear hW hM; unfold State.drawn
  repeat' first
    | with_reducible apply Within.refl | (conv => arg 3; arg 24; skip); with_reducible apply Within.build
    | with_reducible exact Or.inl rfl | exact Or.inr (by decide)

theorem State.ungate_within {W : Nat} {s0 s : State}  (hW : Within W s0 s)
    (hM : 131072 ||| W = W) : Within W s0 s.ungate := by
  refine hW.step ?_ hM; clear hW hM; unfold State.ungate
  dsimp only
  repeat' first
    | with_reducible apply Within.refl | (conv => arg 3; arg 24; skip); with_reducible apply Within.build
    | with_reducible exact Or.inl rfl | exact Or.inr (by decide)

theorem State.coreWrite_within {W : Nat} {s0 s : State} (off : Nat) (v : Word32) {e : State} (h : Within W s0 s)
    (he : Within W s0 e) (hm : 128 ||| W = W) : Within W s0 (s.coreWrite off v e) := by
  unfold State.coreWrite
  exact Within.ite (State.updFunc_within _ _ h hm) (Within.ite he h)

theorem State.signal_within {W : Nat} {s0 s : State} (g : Nat) (vec : Nat) (hW : Within W s0 s)
    (hM : 16777344 ||| W = W) : Within W s0 (s.signal g vec) := by
  refine hW.step ?_ hM; clear hW hM; unfold State.signal
  repeat' first
    | with_reducible apply Within.refl | with_reducible apply State.emit_within | with_reducible apply State.updFunc_within
    | with_reducible apply Within.ite | decide

theorem State.signalVec_within {W : Nat} {s0 s : State} (g : Nat) (vec : Nat) (hW : Within W s0 s)
    (hM : 16777344 ||| W = W) : Within W s0 (s.signalVec g vec) := by
  refine hW.step ?_ hM; clear hW hM; unfold State.signalVec
  dsimp only
  repeat' first
    | with_reducible apply Within.refl | with_reducible apply State.setFunc_within | with_reducible apply State.signal_within
    | with_reducible apply Within.ite | decide

theorem State.signalCpl_within {W : Nat} {s0 s : State} (g : Nat) (hW : Within W s0 s)
    (hM : 16777344 ||| W = W) : Within W s0 (s.signalCpl g) := by
  refine hW.step ?_ hM; clear hW hM; unfold State.signalCpl
  repeat' first
    | with_reducible apply Within.refl | with_reducible apply State.signalVec_within | decide

theorem State.signalEvt_within {W : Nat} {s0 s : State} (g : Nat) (hW : Within W s0 s)
    (hM : 16777344 ||| W = W) : Within W s0 (s.signalEvt g) := by
  refine hW.step ?_ hM; clear hW hM; unfold State.signalEvt
  repeat' first
    | with_reducible apply Within.refl | with_reducible apply State.signalVec_within | decide

theorem State.putEvent_within {W : Nat} {s0 s : State} (g : Nat) (e : Event) (hW : Within W s0 s)
    (hM : 16777344 ||| W = W) : Within W s0 (s.putEvent g e) := by
  refine hW.step ?_ hM; clear hW hM; unfold State.putEvent
  dsimp only
  repeat' first
    | with_reducible apply Within.refl | with_reducible apply State.emit_within | with_reducible apply State.setFunc_within
    | with_reducible apply State.signalEvt_within | decide

theorem State.loseEvent_within {W : Nat} {s0 s : State} (g : Nat) (hW : Within W s0 s)
    (hM : 128 ||| W = W) : Within W s0 (s.loseEvent g) := by
  refine hW.step ?_ hM; clear hW hM; unfold State.loseEvent
  repeat' first
    | with_reducible apply Within.refl | with_reducible apply State.updFunc_within | decide

theorem State.post_within {W : Nat} {s0 s : State} (g : Nat) (e : Event) (hW : Within W s0 s)
    (hM : 16777344 ||| W = W) : Within W s0 (s.post g e) := by
  refine hW.step ?_ hM; clear hW hM; unfold State.post
  dsimp only
  repeat' first
    | with_reducible apply Within.refl | with_reducible apply State.loseEvent_within
    | with_reducible apply State.putEvent_within | with_reducible apply State.setFunc_within | with_reducible apply Within.ite
    | decide

theorem State.postLost_within {W : Nat} {s0 s : State} (g : Nat) (hW : Within W s0 s)
    (hM : 16777344 ||| W = W) : Within W s0 (s.postLost g) := by
  refine hW.step ?_ hM; clear hW hM; unfold State.postLost
  dsimp only
  repeat' first
    | with_reducible apply Within.refl | with_reducible apply State.putEvent_within | with_reducible apply State.setFunc_within
    | with_reducible apply Within.ite | decide

theorem State.postAllLost_within {W : Nat} {s0 s : State}  (hW : Within W s0 s)
    (hM : 16777344 ||| W = W) : Within W s0 s.postAllLost := by
  refine hW.step ?_ hM; clear hW hM; unfold State.postAllLost
  repeat' first
    | with_reducible apply Within.refl | with_reducible apply Within.foldl | (intro _ _; try dsimp only)
    | with_reducible apply State.postLost_within | decide

theorem Errors.Ok.setLater {e f : Errors} (h : e.Ok) (hf : f.fifo = e.fifo) (hs : f.seq = e.seq) (hc : f.counts = e.counts)
    (hl : f.dumpLater ≤ 255) : f.Ok := ⟨hf ▸ h.fifo, hs ▸ h.seq, hl, fun c => hc ▸ h.counts c⟩

theorem satAdd_le (cap a b : Nat) : satAdd cap a b ≤ cap := by unfold satAdd; split <;> omega

theorem State.onFatal_within {W : Nat} {s0 s : State} (e : ErrEntry) (h : Within W s0 s)
    (hm : 3145792 ||| W = W) : Within W s0 (s.onFatal e) := by
  refine h.step ?_ hm
  unfold State.onFatal
  apply Within.ite <;> with_reducible apply Within.build
  all_goals first
    | with_reducible apply Within.refl | with_reducible exact Or.inl rfl | exact Or.inr (by decide)
    | exact Or.inr ⟨by decide, fun h => h.setLater rfl rfl rfl (satAdd_le _ _ _)⟩
    | exact Or.inr ⟨by decide, fun h => h.setLater rfl rfl rfl (Nat.zero_le _)⟩

theorem recordErr_length {l : List ErrEntry} (h : l.length ≤ 64) (e : ErrEntry) : (recordErr l e).length ≤ 64 := by
  unfold recordErr
  split
  · simp; omega
  · split
    · simp
    · have hl : 0 < l.length := by
        rename_i hl _ _; omega
      split <;> simp <;> omega

/-- A report recorded and counted keeps the Error FIFO and the counters as `Errors.Ok` says. -/
theorem Errors.Ok.record {e : Errors} (h : e.Ok) (x : ErrEntry) (cls : Nat) :
    Errors.Ok { e with fifo := recordErr e.fifo x, seq := (e.seq + 1) % 2 ^ 32,
                       counts := SMap.set 0 e.counts cls (inc32 (SMap.get 0 e.counts cls)) } := by
  refine ⟨recordErr_length h.fifo x, Nat.mod_lt _ (by decide), h.later, fun c => ?_⟩
  rw [SMap.get_set]
  split
  · exact satAdd_le _ _ _
  · exact h.counts c

theorem State.record_within (s : State) (e : ErrEntry) (cls : Nat) : Within 2097152 s { s with
    errs := { s.errs with fifo := recordErr s.errs.fifo e, seq := (s.errs.seq + 1) % 2 ^ 32
                          counts := SMap.set 0 s.errs.counts cls (inc32 (SMap.get 0 s.errs.counts cls)) } } := by
  with_reducible apply Within.build
  all_goals first
    | with_reducible apply Within.refl | with_reducible exact Or.inl rfl | exact Or.inr ⟨by decide, fun h => h.record _ _⟩

theorem State.raise_within {W : Nat} {s0 s : State} (code : Nat) (owner : Option Nat) (a b c : Nat) (h : Within W s0 s)
    (hm : 19923136 ||| W = W) : Within W s0 (s.raise code owner a b c) := by
  refine h.step ?_ hm
  have recd : ∀ e cls, Within 19923136 s { s with
      errs := { s.errs with fifo := recordErr s.errs.fifo e, seq := (s.errs.seq + 1) % 2 ^ 32
                            counts := SMap.set 0 s.errs.counts cls (inc32 (SMap.get 0 s.errs.counts cls)) } } :=
    fun e cls => (s.record_within e cls).mono (by decide)
  unfold State.raise
  apply Within.ite
  · apply State.onFatal_within _ _ (by decide)
    split
    · exact Within.ite (State.post_within _ _ (recd _ _) rfl) (State.post_within _ _ (State.post_within _ _ (recd _ _) rfl) rfl)
    · exact State.post_within _ _ (recd _ _) rfl
  · split
    · exact Within.ite (State.post_within _ _ (recd _ _) rfl) (State.post_within _ _ (State.post_within _ _ (recd _ _) rfl) rfl)
    · exact State.post_within _ _ (recd _ _) rfl

theorem State.raiseQ_within {W : Nat} {s0 s : State} (code : Nat) (q : Nat) (b : Nat) (hW : Within W s0 s)
    (hM : 19923136 ||| W = W) : Within W s0 (s.raiseQ code q b) := by
  refine hW.step ?_ hM; clear hW hM; unfold State.raiseQ
  repeat' first
    | with_reducible apply Within.refl | with_reducible apply State.raise_within | decide

theorem State.putCompletion_within {W : Nat} {s0 s : State} (r : CmdRef) (status : Nat) (info : Nat) (hW : Within W s0 s)
    (hM : 16777344 ||| W = W) : Within W s0 (s.putCompletion r status info) := by
  refine hW.step ?_ hM; clear hW hM; unfold State.putCompletion
  dsimp only
  repeat' first
    | with_reducible apply Within.refl | with_reducible apply State.emit_within | with_reducible apply State.setFunc_within
    | with_reducible apply State.signalCpl_within | decide

theorem State.completeInfo_within {W : Nat} {s0 s : State} (r : CmdRef) (status : Nat) (info : Nat) (hW : Within W s0 s)
    (hM : 19923136 ||| W = W) : Within W s0 (s.completeInfo r status info) := by
  refine hW.step ?_ hM; clear hW hM; unfold State.completeInfo
  dsimp only
  repeat' first
    | with_reducible apply Within.refl | with_reducible apply State.putCompletion_within
    | with_reducible apply State.raise_within | with_reducible apply State.updFunc_within | with_reducible apply Within.ite
    | decide

theorem State.complete_within {W : Nat} {s0 s : State} (r : CmdRef) (status : Nat) (hW : Within W s0 s)
    (hM : 19923136 ||| W = W) : Within W s0 (s.complete r status) := by
  refine hW.step ?_ hM; clear hW hM; unfold State.complete
  repeat' first
    | with_reducible apply Within.refl | with_reducible apply State.completeInfo_within | decide

theorem State.completeAll_within {W : Nat} {s0 s : State} (rs : List CmdRef) (status : Nat) (hW : Within W s0 s)
    (hM : 19923136 ||| W = W) : Within W s0 (s.completeAll rs status) := by
  refine hW.step ?_ hM; clear hW hM; unfold State.completeAll
  repeat' first
    | with_reducible apply Within.refl | with_reducible apply Within.foldl | (intro _ _; try dsimp only)
    | with_reducible apply State.complete_within | decide

theorem State.writeResult_within {W : Nat} {s0 s : State} (r : CmdRef) (addr : Nat) (block : Nat) (status : Nat) (hW : Within W s0 s)
    (hM : 19923136 ||| W = W) : Within W s0 (s.writeResult r addr block status) := by
  refine hW.step ?_ hM; clear hW hM; unfold State.writeResult
  repeat' first
    | with_reducible apply Within.refl | with_reducible apply State.complete_within | with_reducible apply State.emit_within
    | with_reducible apply State.raise_within | with_reducible apply State.updFunc_within | with_reducible apply Within.ite
    | decide

theorem State.completeResult_within {W : Nat} {s0 s : State} (r : CmdRef) (addr : Nat) (block : Nat) (status : Nat) (hW : Within W s0 s)
    (hM : 19923136 ||| W = W) : Within W s0 (s.completeResult r addr block status) := by
  refine hW.step ?_ hM; clear hW hM; unfold State.completeResult
  repeat' first
    | with_reducible apply Within.refl | with_reducible apply State.complete_within
    | with_reducible apply State.writeResult_within | with_reducible apply Within.ite | decide

theorem State.wrByte_within (s : State) (a : Nat) (b : Byte) :
    Within 3072 s { s with plaza := { s.plaza with mem := SMap.set 0 s.plaza.mem a b, bad := SMap.erase s.plaza.bad (a / 64) } } := by
  with_reducible apply Within.build
  all_goals first
    | with_reducible apply Within.refl | with_reducible exact Or.inl rfl | exact Or.inr (by decide)
    | exact Or.inr ⟨by decide, fun h => SMap.wf_set _ _ h⟩

theorem State.wrBytes_within {W : Nat} {s0 s : State} (q : Queue) (pos : Nat) (bs : List Byte) (h : Within W s0 s)
    (hm : 3072 ||| W = W) : Within W s0 (s.wrBytes q pos bs) := by
  refine h.step ?_ hm
  clear h hm
  induction bs generalizing s pos with
  | nil => exact Within.refl _ _
  | cons b bs ih =>
    unfold State.wrBytes
    split
    · exact (State.wrByte_within _ _ _).step (ih _) rfl
    · exact ih _

end Sys2Proof.Machine
end

