-- ==== Sys2Proof/Laws/Fill.lean ====
section
/-!
SUPPORT. What the operations of Machine/Fill.lean may change (Laws/Within.lean says how a mask names the parts).
-/
namespace Sys2Proof.Machine

theorem State.takeSeg_within {W : Nat} {s0 s : State} (n : Nat) (seg : Nat) (hW : Within W s0 s)
    (hM : 1025 ||| W = W) : Within W s0 (s.takeSeg n seg) := by
  refine hW.step ?_ hM; clear hW hM; unfold State.takeSeg
  dsimp only
  repeat' first
    | with_reducible apply Within.refl | with_reducible apply State.updQ_within
    | (conv => arg 3; arg 24; skip); with_reducible apply Within.build | with_reducible exact Or.inl rfl
    | exact Or.inr (by decide) | decide

theorem State.takeSegs_within {W : Nat} {s0 s : State} (n : Nat) (aff : Nat) (a3 : Nat) (hW : Within W s0 s)
    (hM : 1025 ||| W = W) : Within W s0 (s.takeSegs n aff a3) := by
  refine hW.step ?_ hM
  clear hW hM
  induction a3 generalizing s n aff with
  | zero =>
    unfold State.takeSegs
    repeat' with_reducible apply Within.refl
  | succ k ih =>
    unfold State.takeSegs
    repeat' first
      | with_reducible apply Within.refl | with_reducible apply State.takeSeg_within | decide
      | with_reducible refine Within.step (M := 1025) ?_ (ih _ _) rfl | split

theorem State.returnSeg_within {W : Nat} {s0 s : State} (zero : Bool) (seg : Nat) (hW : Within W s0 s)
    (hM : 1024 ||| W = W) : Within W s0 (s.returnSeg zero seg) := by
  refine hW.step ?_ hM; clear hW hM; unfold State.returnSeg
  dsimp only
  repeat' first
    | with_reducible apply Within.refl | (conv => arg 3; arg 24; skip); with_reducible apply Within.build
    | with_reducible exact Or.inl rfl | exact Or.inr (by decide) | split

theorem State.returnSegs_within {W : Nat} {s0 s : State} (zero : Bool) (segs : List Nat) (hW : Within W s0 s)
    (hM : 1024 ||| W = W) : Within W s0 (s.returnSegs zero segs) := by
  refine hW.step ?_ hM; clear hW hM; unfold State.returnSegs
  repeat' first
    | with_reducible apply Within.refl | with_reducible apply Within.foldl | (intro _ _; try dsimp only)
    | with_reducible apply State.returnSeg_within | decide

theorem State.denySeg_within {W : Nat} {s0 s : State} (n : Nat) (hW : Within W s0 s)
    (hM : 1 ||| W = W) : Within W s0 (s.denySeg n) := by
  refine hW.step ?_ hM; clear hW hM; unfold State.denySeg
  repeat' first
    | with_reducible apply Within.refl | with_reducible apply State.updQ_within | decide

theorem State.growTo_within {W : Nat} {s0 s : State} (n : Nat) (need : Nat) (a3 : Nat) (hW : Within W s0 s)
    (hM : 1025 ||| W = W) : Within W s0 (s.growTo n need a3) := by
  refine hW.step ?_ hM
  clear hW hM
  induction a3 generalizing s n need with
  | zero =>
    unfold State.growTo
    repeat' with_reducible apply Within.refl
  | succ k ih =>
    unfold State.growTo
    repeat' first
      | with_reducible apply Within.refl | with_reducible apply State.denySeg_within | with_reducible apply State.takeSeg_within
      | with_reducible apply State.updQ_within | with_reducible apply Within.ite | decide
      | with_reducible refine Within.step (M := 1025) ?_ (ih _ _) rfl | split

end Sys2Proof.Machine
end

