-- ==== Sys2Proof/Laws/Flags.lean ====
section
/-!
SUPPORT. What the operations of Machine/Flags.lean may change (Laws/Within.lean says how a mask names the parts).
-/
namespace Sys2Proof.Machine

theorem State.sendWord_within {W : Nat} {s0 s : State} (n : Nat) (bytes : List Byte) (hW : Within W s0 s)
    (hM : 16777216 ||| W = W) : Within W s0 (s.sendWord n bytes) := by
  refine hW.step ?_ hM; clear hW hM; unfold State.sendWord
  repeat' first
    | with_reducible apply Within.refl | with_reducible apply State.emit_within | with_reducible apply Within.ite | decide
    | split

theorem State.sendTimes_within {W : Nat} {s0 s : State}  (hW : Within W s0 s)
    (hM : 16777216 ||| W = W) : Within W s0 s.sendTimes := by
  refine hW.step ?_ hM; clear hW hM; unfold State.sendTimes
  repeat' first
    | with_reducible apply Within.refl | with_reducible apply Within.foldl | (intro _ _; try dsimp only)
    | with_reducible apply State.sendWord_within | decide

theorem State.sendStatus_within {W : Nat} {s0 s : State} (n : Nat) (hW : Within W s0 s)
    (hM : 16777216 ||| W = W) : Within W s0 (s.sendStatus n) := by
  refine hW.step ?_ hM; clear hW hM; unfold State.sendStatus
  repeat' first
    | with_reducible apply Within.refl | with_reducible apply Within.foldl | (intro _ _; try dsimp only)
    | with_reducible apply State.sendWord_within | decide

theorem State.postFlagChange_within {W : Nat} {s0 s : State} (n : Nat) (bounce : Bool) (hW : Within W s0 s)
    (hM : 16777344 ||| W = W) : Within W s0 (s.postFlagChange n bounce) := by
  refine hW.step ?_ hM; clear hW hM; unfold State.postFlagChange
  dsimp only
  repeat' first
    | with_reducible apply Within.refl | with_reducible apply State.post_within | decide

theorem State.flagEvent_within {W : Nat} {s0 s : State} (n : Nat) (diff : Nat) (hW : Within W s0 s)
    (hM : 16777345 ||| W = W) : Within W s0 (s.flagEvent n diff) := by
  refine hW.step ?_ hM; clear hW hM; unfold State.flagEvent
  dsimp only
  repeat' first
    | with_reducible apply Within.refl | with_reducible apply State.postFlagChange_within
    | with_reducible apply State.setQ_within | with_reducible apply Within.ite | decide | split

theorem State.evalFlags_within {W : Nat} {s0 s : State} (n : Nat) (hW : Within W s0 s)
    (hM : 16777345 ||| W = W) : Within W s0 (s.evalFlags n) := by
  refine hW.step ?_ hM; clear hW hM; unfold State.evalFlags
  dsimp only
  repeat' first
    | with_reducible apply Within.refl | with_reducible apply State.flagEvent_within
    | with_reducible apply State.sendStatus_within | with_reducible apply State.updQ_within | with_reducible apply Within.ite
    | decide

end Sys2Proof.Machine
end

