-- ==== Sys2Proof/Laws/RingOps.lean ====
section
/-!
SUPPORT. What the operations of Machine/RingOps.lean may change (Laws/Within.lean says how a mask names the parts).
-/
namespace Sys2Proof.Machine

theorem State.crossIn_within {W : Nat} {s0 s : State} (d : Side) (f : Frame) (hW : Within W s0 s)
    (hM : 64 ||| W = W) : Within W s0 (s.crossIn d f) := by
  refine hW.step ?_ hM; clear hW hM; unfold State.crossIn
  repeat' first
    | with_reducible apply Within.refl | with_reducible apply State.updSide_within | decide

theorem State.sendFrame_within {W : Nat} {s0 s : State} (d : Side) (f : Frame) (hW : Within W s0 s)
    (hM : 16777280 ||| W = W) : Within W s0 (s.sendFrame d f) := by
  refine hW.step ?_ hM; clear hW hM; unfold State.sendFrame
  repeat' first
    | with_reducible apply Within.refl | with_reducible apply State.emit_within | with_reducible apply State.updSide_within
    | decide

theorem State.resendFrames_within {W : Nat} {s0 s : State} (d : Side) (hW : Within W s0 s)
    (hM : 16777280 ||| W = W) : Within W s0 (s.resendFrames d) := by
  refine hW.step ?_ hM; clear hW hM; unfold State.resendFrames
  repeat' first
    | with_reducible apply Within.refl | with_reducible apply Within.foldl | (intro _ _; try dsimp only)
    | with_reducible apply State.sendFrame_within | with_reducible apply State.updSide_within | decide

theorem State.launch_within {W : Nat} {s0 s : State} (d : Side) (f : Frame) (ctrl : Option (Nat × List Byte)) (hW : Within W s0 s)
    (hM : 16777280 ||| W = W) : Within W s0 (s.launch d f ctrl) := by
  refine hW.step ?_ hM; clear hW hM; unfold State.launch
  dsimp only
  repeat' first
    | with_reducible apply Within.refl | with_reducible apply State.sendFrame_within | with_reducible apply State.setSide_within
    | decide

theorem State.pump_within {W : Nat} {s0 s : State} (d : Side) (a2 : Nat) (hW : Within W s0 s)
    (hM : 16777280 ||| W = W) : Within W s0 (s.pump d a2) := by
  refine hW.step ?_ hM
  clear hW hM
  induction a2 generalizing s d with
  | zero =>
    unfold State.pump
    repeat' with_reducible apply Within.refl
  | succ k ih =>
    unfold State.pump
    dsimp only
    repeat' first
      | with_reducible apply Within.refl | with_reducible apply State.launch_within | with_reducible apply State.setSide_within
      | with_reducible apply Within.ite | decide | with_reducible refine Within.step (M := 16777280) ?_ (ih _) rfl | split

theorem State.drain_within {W : Nat} {s0 s : State} (d : Side) (hW : Within W s0 s)
    (hM : 16777280 ||| W = W) : Within W s0 (s.drain d) := by
  refine hW.step ?_ hM; clear hW hM; unfold State.drain
  repeat' first
    | with_reducible apply Within.refl | with_reducible apply State.pump_within | decide

theorem State.pushFrame_within {W : Nat} {s0 s : State} (d : Side) (f : Frame) (ctrl : Option (Nat × List Byte)) (hW : Within W s0 s)
    (hM : 16777280 ||| W = W) : Within W s0 (s.pushFrame d f ctrl) := by
  refine hW.step ?_ hM; clear hW hM; unfold State.pushFrame
  repeat' first
    | with_reducible apply Within.refl | with_reducible apply State.drain_within | with_reducible apply State.updSide_within
    | with_reducible apply Within.ite | decide

theorem State.routeFrame_within {W : Nat} {s0 s : State} (f : Frame) (hW : Within W s0 s)
    (hM : 16777280 ||| W = W) : Within W s0 (s.routeFrame f) := by
  refine hW.step ?_ hM; clear hW hM; unfold State.routeFrame
  repeat' first
    | with_reducible apply Within.refl | with_reducible apply State.pushFrame_within | with_reducible apply Within.ite | decide
    | split

theorem State.controlFrame_eq_within {W : Nat} {s0 s t : State} {kind dst : Nat} {bcast : Bool} {payload : List Byte} {f : Frame}
    (e : s.controlFrame kind dst bcast payload = some (f, t)) (h : Within W s0 s) (hm : 64 ||| W = W) : Within W s0 t := by
  refine h.step ?_ hm
  unfold State.controlFrame at e
  split at e
  · cases e
  · simp only [Option.some.injEq, Prod.mk.injEq] at e
    obtain ⟨-, rfl⟩ := e
    with_reducible apply Within.build
    all_goals first
      | with_reducible apply Within.refl | with_reducible exact Or.inl rfl | exact Or.inr (by decide)

theorem State.sendCtrlOn_within {W : Nat} {s0 s : State} (d : Side) (dst : Nat) (payload : List Byte) (keep : Bool) (hW : Within W s0 s)
    (hM : 16777280 ||| W = W) : Within W s0 (s.sendCtrlOn d dst payload keep) := by
  refine hW.step ?_ hM; clear hW hM; unfold State.sendCtrlOn
  repeat' first
    | with_reducible apply Within.refl | with_reducible apply State.pushFrame_within
    | refine State.controlFrame_eq_within (by assumption) ?_ (by decide) | decide | split

theorem State.sendCtrl_within {W : Nat} {s0 s : State} (dst : Nat) (op : Nat) (args : List (Nat × Nat × Nat)) (hW : Within W s0 s)
    (hM : 16777280 ||| W = W) : Within W s0 (s.sendCtrl dst op args) := by
  refine hW.step ?_ hM; clear hW hM; unfold State.sendCtrl
  repeat' first
    | with_reducible apply Within.refl | with_reducible apply State.sendCtrlOn_within
    | with_reducible apply State.updSide_within | with_reducible apply Within.ite | decide | split

theorem State.broadcastCtrl_within {W : Nat} {s0 s : State} (op : Nat) (args : List (Nat × Nat × Nat)) (hW : Within W s0 s)
    (hM : 16777280 ||| W = W) : Within W s0 (s.broadcastCtrl op args) := by
  refine hW.step ?_ hM; clear hW hM; unfold State.broadcastCtrl
  dsimp only
  repeat' first
    | with_reducible apply Within.refl | with_reducible apply State.pushFrame_within | with_reducible apply State.updSide_within
    | refine State.controlFrame_eq_within (by assumption) ?_ (by decide) | with_reducible apply Within.ite | decide | split

theorem State.sendChainCmd_within {W : Nat} {s0 s : State} (n : Nat) (code : Nat) (pos : Nat) (hW : Within W s0 s)
    (hM : 16777280 ||| W = W) : Within W s0 (s.sendChainCmd n code pos) := by
  refine hW.step ?_ hM; clear hW hM; unfold State.sendChainCmd
  repeat' first
    | with_reducible apply Within.refl | with_reducible apply State.sendCtrl_within | decide | split

end Sys2Proof.Machine
end

