-- ==== Sys2Proof/Laws/Sync.lean ====
section
/-!
SUPPORT. What the operations of Machine/Sync.lean may change (Laws/Within.lean says how a mask names the parts).
-/
namespace Sys2Proof.Machine

theorem State.grantUp_within {W : Nat} {s0 s : State} (n : Nat) (hW : Within W s0 s)
    (hM : 1 ||| W = W) : Within W s0 (s.grantUp n) := by
  refine hW.step ?_ hM; clear hW hM; unfold State.grantUp
  dsimp only
  repeat' first
    | with_reducible apply Within.refl | with_reducible apply State.setQ_within | with_reducible apply Within.ite | decide

theorem State.sendSyncOn_within {W : Nat} {s0 s : State} (d : Side) (t : Nat) (payload : List Byte) (hW : Within W s0 s)
    (hM : 16777280 ||| W = W) : Within W s0 (s.sendSyncOn d t payload) := by
  refine hW.step ?_ hM; clear hW hM; unfold State.sendSyncOn
  repeat' first
    | with_reducible apply Within.refl | with_reducible apply State.pushFrame_within
    | refine State.controlFrame_eq_within (by assumption) ?_ (by decide) | decide | split

theorem State.sendSync_within {W : Nat} {s0 s : State} (t : Nat) (both : Bool) (entries : List Nat) (hW : Within W s0 s)
    (hM : 16777280 ||| W = W) : Within W s0 (s.sendSync t both entries) := by
  refine hW.step ?_ hM; clear hW hM; unfold State.sendSync
  dsimp only
  repeat' first
    | with_reducible apply Within.refl | with_reducible apply State.sendSyncOn_within | with_reducible apply Within.ite | decide
    | split

theorem State.syncNow_within {W : Nat} {s0 s : State} (n : Nat) (hW : Within W s0 s)
    (hM : 16777281 ||| W = W) : Within W s0 (s.syncNow n) := by
  refine hW.step ?_ hM; clear hW hM; unfold State.syncNow
  dsimp only
  repeat' first
    | with_reducible apply Within.refl | with_reducible apply Within.foldl | (intro _ _; try dsimp only)
    | with_reducible apply State.grantUp_within | with_reducible apply State.sendSync_within | decide

theorem State.syncTurn_within {W : Nat} {s0 s : State} (t : Nat) (hW : Within W s0 s)
    (hM : 16777281 ||| W = W) : Within W s0 (s.syncTurn t) := by
  refine hW.step ?_ hM; clear hW hM; unfold State.syncTurn
  dsimp only
  repeat' first
    | with_reducible apply Within.refl | with_reducible apply Within.foldl | (intro _ _; try dsimp only)
    | with_reducible apply State.grantUp_within | with_reducible apply State.sendSync_within | decide | split

end Sys2Proof.Machine
end

