-- ==== Sys2Proof/Laws/QueueOps.lean ====
section
/-!
SUPPORT. What the operations of Machine/QueueOps.lean may change (Laws/Within.lean says how a mask names the parts).
-/
namespace Sys2Proof.Machine

theorem State.settleFfMarks_within {W : Nat} {s0 s : State} (n : Nat) (removed : Option Nat) (hW : Within W s0 s)
    (hM : 16777281 ||| W = W) : Within W s0 (s.settleFfMarks n removed) := by
  refine hW.step ?_ hM; clear hW hM; unfold State.settleFfMarks
  dsimp only
  repeat' first
    | with_reducible apply Within.refl | with_reducible apply Within.foldl | (intro _ _; try dsimp only)
    | with_reducible apply State.sendCtrl_within | with_reducible apply State.setQ_within | with_reducible apply Within.ite
    | decide | split

theorem State.finishMsg_within {W : Nat} {s0 s : State} (n : Nat) (trunc : Bool) (hW : Within W s0 s)
    (hM : 16780353 ||| W = W) : Within W s0 (s.finishMsg n trunc) := by
  refine hW.step ?_ hM; clear hW hM; unfold State.finishMsg
  dsimp only
  repeat' first
    | with_reducible apply Within.refl | with_reducible apply State.settleFfMarks_within
    | with_reducible apply State.updQ_within | with_reducible apply State.wrBytes_within | decide | split

theorem State.flushBlock_within {W : Nat} {s0 s : State} (n : Nat) (hW : Within W s0 s)
    (hM : 3073 ||| W = W) : Within W s0 (s.flushBlock n) := by
  refine hW.step ?_ hM; clear hW hM; unfold State.flushBlock
  dsimp only
  repeat' first
    | with_reducible apply Within.refl | with_reducible apply State.setQ_within | with_reducible apply State.wrBytes_within
    | with_reducible apply Within.ite | decide | split

theorem State.stopWrite_within {W : Nat} {s0 s : State} (n : Nat) (hW : Within W s0 s)
    (hM : 19926209 ||| W = W) : Within W s0 (s.stopWrite n) := by
  refine hW.step ?_ hM; clear hW hM; unfold State.stopWrite
  dsimp only
  repeat' first
    | with_reducible apply Within.refl | with_reducible apply State.finishMsg_within
    | with_reducible apply State.flushBlock_within | with_reducible apply State.raiseQ_within
    | with_reducible apply State.settleFfMarks_within | with_reducible apply State.updQ_within
    | with_reducible apply State.wrBytes_within | with_reducible apply Within.ite | decide | split

theorem State.stopRead_within {W : Nat} {s0 s : State} (n : Nat) (hW : Within W s0 s)
    (hM : 1 ||| W = W) : Within W s0 (s.stopRead n) := by
  refine hW.step ?_ hM; clear hW hM; unfold State.stopRead
  repeat' first
    | with_reducible apply Within.refl | with_reducible apply State.updQ_within | decide

theorem State.freeSegs_within {W : Nat} {s0 s : State} (n : Nat) (a2 : Nat) (hW : Within W s0 s)
    (hM : 1025 ||| W = W) : Within W s0 (s.freeSegs n a2) := by
  refine hW.step ?_ hM
  clear hW hM
  induction a2 generalizing s n with
  | zero =>
    unfold State.freeSegs
    repeat' with_reducible apply Within.refl
  | succ k ih =>
    unfold State.freeSegs
    dsimp only
    repeat' first
      | with_reducible apply Within.refl | with_reducible apply State.returnSeg_within | with_reducible apply State.setQ_within
      | with_reducible apply Within.ite | decide | with_reducible refine Within.step (M := 1025) ?_ (ih _) rfl | split

theorem State.release_within {W : Nat} {s0 s : State} (n : Nat) (hW : Within W s0 s)
    (hM : 1025 ||| W = W) : Within W s0 (s.release n) := by
  refine hW.step ?_ hM; clear hW hM; unfold State.release
  repeat' first
    | with_reducible apply Within.refl | with_reducible apply State.freeSegs_within | decide

theorem State.writeBack_within {W : Nat} {s0 s : State} (g : Nat) (r : Nat) (desc : BitVec 256) (msn : Nat) (len : Nat) (status : Nat) (flags : Nat) (hW : Within W s0 s)
    (hM : 16777344 ||| W = W) : Within W s0 (s.writeBack g r desc msn len status flags) := by
  refine hW.step ?_ hM; clear hW hM; unfold State.writeBack
  dsimp only
  repeat' first
    | with_reducible apply Within.refl | with_reducible apply State.emit_within | with_reducible apply State.setDring_within
    | with_reducible apply State.signalVec_within | with_reducible apply Within.ite | decide

theorem State.abortRing_within {W : Nat} {s0 s : State} (g : Nat) (r : Nat) (a3 : Nat) (hW : Within W s0 s)
    (hM : 25165952 ||| W = W) : Within W s0 (s.abortRing g r a3) := by
  refine hW.step ?_ hM
  clear hW hM
  induction a3 generalizing s g r with
  | zero =>
    unfold State.abortRing
    repeat' with_reducible apply Within.refl
  | succ k ih =>
    unfold State.abortRing
    dsimp only
    repeat' first
      | with_reducible apply Within.refl | with_reducible apply State.drawn_within | with_reducible apply State.writeBack_within
      | with_reducible apply Within.ite | decide | with_reducible refine Within.step (M := 25165952) ?_ (ih _ _) rfl

theorem State.abortAll_within {W : Nat} {s0 s : State} (g : Nat) (r : Nat) (hW : Within W s0 s)
    (hM : 25165952 ||| W = W) : Within W s0 (s.abortAll g r) := by
  refine hW.step ?_ hM; clear hW hM; unfold State.abortAll
  repeat' first
    | with_reducible apply Within.refl | with_reducible apply State.abortRing_within | decide

theorem State.abortWriteEnd_within {W : Nat} {s0 s : State} (n : Nat) (hW : Within W s0 s)
    (hM : 25165952 ||| W = W) : Within W s0 (s.abortWriteEnd n) := by
  refine hW.step ?_ hM; clear hW hM; unfold State.abortWriteEnd
  repeat' first
    | with_reducible apply Within.refl | with_reducible apply State.abortAll_within | with_reducible apply Within.ite | decide

theorem State.abortReadEnd_within {W : Nat} {s0 s : State} (n : Nat) (hW : Within W s0 s)
    (hM : 25165952 ||| W = W) : Within W s0 (s.abortReadEnd n) := by
  refine hW.step ?_ hM; clear hW hM; unfold State.abortReadEnd
  repeat' first
    | with_reducible apply Within.refl | with_reducible apply State.abortAll_within | with_reducible apply Within.ite | decide

theorem State.tryClose_within {W : Nat} {s0 s : State} (n : Nat) (hW : Within W s0 s)
    (hM : 28312769 ||| W = W) : Within W s0 (s.tryClose n) := by
  refine hW.step ?_ hM; clear hW hM; unfold State.tryClose
  dsimp only
  repeat' first
    | with_reducible apply Within.refl | with_reducible apply State.abortReadEnd_within
    | with_reducible apply State.completeAll_within | with_reducible apply State.release_within
    | with_reducible apply State.setQ_within | with_reducible apply Within.ite | decide

theorem State.hold_within {W : Nat} {s0 s : State} (n : Nat) (reason : Nat) (hW : Within W s0 s)
    (hM : 19926209 ||| W = W) : Within W s0 (s.hold n reason) := by
  refine hW.step ?_ hM; clear hW hM; unfold State.hold
  dsimp only
  repeat' first
    | with_reducible apply Within.refl | with_reducible apply State.evalFlags_within | with_reducible apply State.post_within
    | with_reducible apply State.setQ_within | with_reducible apply State.stopRead_within
    | with_reducible apply State.stopWrite_within | with_reducible apply State.syncNow_within
    | with_reducible apply State.updQ_within | with_reducible apply Within.ite | decide

theorem State.unhold_within {W : Nat} {s0 s : State} (n : Nat) (reason : Nat) (hW : Within W s0 s)
    (hM : 28312769 ||| W = W) : Within W s0 (s.unhold n reason) := by
  refine hW.step ?_ hM; clear hW hM; unfold State.unhold
  dsimp only
  repeat' first
    | with_reducible apply Within.refl | with_reducible apply State.evalFlags_within | with_reducible apply State.post_within
    | with_reducible apply State.setQ_within | with_reducible apply State.syncNow_within
    | with_reducible apply State.tryClose_within | with_reducible apply Within.ite | decide

theorem State.shedElastic_within {W : Nat} {s0 s : State} (n : Nat) (hW : Within W s0 s)
    (hM : 1025 ||| W = W) : Within W s0 (s.shedElastic n) := by
  refine hW.step ?_ hM; clear hW hM; unfold State.shedElastic
  dsimp only
  repeat' first
    | with_reducible apply Within.refl | with_reducible apply State.returnSegs_within | with_reducible apply State.setQ_within
    | decide

theorem State.supersede_within {W : Nat} {s0 s : State} (n : Nat) (hW : Within W s0 s)
    (hM : 19923137 ||| W = W) : Within W s0 (s.supersede n) := by
  refine hW.step ?_ hM; clear hW hM; unfold State.supersede
  dsimp only
  repeat' first
    | with_reducible apply Within.refl | with_reducible apply State.completeAll_within | with_reducible apply State.setQ_within
    | decide

theorem State.dropData_within {W : Nat} {s0 s : State} (n : Nat) (hW : Within W s0 s)
    (hM : 1025 ||| W = W) : Within W s0 (s.dropData n) := by
  refine hW.step ?_ hM; clear hW hM; unfold State.dropData
  dsimp only
  repeat' first
    | with_reducible apply Within.refl | with_reducible apply State.shedElastic_within | with_reducible apply State.updQ_within
    | decide

theorem State.realign_within {W : Nat} {s0 s : State} (n : Nat) (pos : Nat) (hW : Within W s0 s)
    (hM : 1 ||| W = W) : Within W s0 (s.realign n pos) := by
  refine hW.step ?_ hM; clear hW hM; unfold State.realign
  dsimp only
  repeat' first
    | with_reducible apply Within.refl | with_reducible apply State.updQ_within | decide

theorem State.discard_within {W : Nat} {s0 s : State} (n : Nat) (hW : Within W s0 s)
    (hM : 28312769 ||| W = W) : Within W s0 (s.discard n) := by
  refine hW.step ?_ hM; clear hW hM; unfold State.discard
  dsimp only
  repeat' first
    | with_reducible apply Within.refl | with_reducible apply State.abortReadEnd_within
    | with_reducible apply State.abortWriteEnd_within | with_reducible apply State.dropData_within
    | with_reducible apply State.evalFlags_within | with_reducible apply State.supersede_within
    | with_reducible apply State.updQ_within | decide

theorem State.resetQueue_within {W : Nat} {s0 s : State} (n : Nat) (hW : Within W s0 s)
    (hM : 28312769 ||| W = W) : Within W s0 (s.resetQueue n) := by
  refine hW.step ?_ hM; clear hW hM; unfold State.resetQueue
  dsimp only
  repeat' first
    | with_reducible apply Within.refl | with_reducible apply State.abortReadEnd_within
    | with_reducible apply State.abortWriteEnd_within | with_reducible apply State.dropData_within
    | with_reducible apply State.evalFlags_within | with_reducible apply State.supersede_within
    | with_reducible apply State.updQ_within | decide

theorem State.unbind_within {W : Nat} {s0 s : State} (n : Nat) (hW : Within W s0 s)
    (hM : 16778241 ||| W = W) : Within W s0 (s.unbind n) := by
  refine hW.step ?_ hM; clear hW hM; unfold State.unbind
  dsimp only
  repeat' first
    | with_reducible apply Within.refl | with_reducible apply Within.foldl | (intro _ _; try dsimp only)
    | with_reducible apply State.returnSegs_within | with_reducible apply State.sendWord_within
    | with_reducible apply State.setQ_within | decide

end Sys2Proof.Machine
end

