-- ==== Sys2Proof/Laws/LinkOps.lean ====
section
/-!
SUPPORT. What the operations of Machine/LinkOps.lean may change (Laws/Within.lean says how a mask names the parts).
-/
namespace Sys2Proof.Machine

theorem State.setPhy_within {W : Nat} {s0 s : State} (p : Phy) (x : PhyState) (hW : Within W s0 s)
    (hM : 68 ||| W = W) : Within W s0 (s.setPhy p x) := by
  refine hW.step ?_ hM; clear hW hM; unfold State.setPhy
  repeat' first
    | with_reducible apply Within.refl | with_reducible apply State.updLink_within | with_reducible apply State.updSide_within
    | decide | split

theorem State.updPhy_within {W : Nat} {s0 s : State} (p : Phy) (f : PhyState → PhyState) (hW : Within W s0 s)
    (hM : 68 ||| W = W) : Within W s0 (s.updPhy p f) := by
  refine hW.step ?_ hM; clear hW hM; unfold State.updPhy
  repeat' first
    | with_reducible apply Within.refl | with_reducible apply State.setPhy_within | decide

theorem State.countLanes_within {W : Nat} {s0 s : State} (p : Phy) (c : LaneCounts) (hW : Within W s0 s)
    (hM : 68 ||| W = W) : Within W s0 (s.countLanes p c) := State.updPhy_within p _ hW hM

theorem State.noteFail_within {W : Nat} {s0 s : State} (p : Phy) (cause : Nat) (hW : Within W s0 s)
    (hM : 19923140 ||| W = W) : Within W s0 (s.noteFail p cause) := by
  refine hW.step ?_ hM; clear hW hM; unfold State.noteFail
  dsimp only
  repeat' first
    | with_reducible apply Within.refl | with_reducible apply State.raise_within | with_reducible apply State.setPhy_within
    | with_reducible apply Within.ite | decide

theorem State.noteCfg_within {W : Nat} {s0 s : State} (p : Phy) (hW : Within W s0 s)
    (hM : 19923140 ||| W = W) : Within W s0 (s.noteCfg p) := by
  refine hW.step ?_ hM; clear hW hM; unfold State.noteCfg
  dsimp only
  repeat' first
    | with_reducible apply Within.refl | with_reducible apply State.raise_within | with_reducible apply State.setPhy_within
    | with_reducible apply Within.ite | decide

theorem State.beginAttempt_within {W : Nat} {s0 s : State} (p : Phy) (st : LState) (hW : Within W s0 s)
    (hM : 19923140 ||| W = W) : Within W s0 (s.beginAttempt p st) := by
  refine hW.step ?_ hM; clear hW hM; unfold State.beginAttempt
  dsimp only
  repeat' first
    | with_reducible apply Within.refl | with_reducible apply State.noteCfg_within | with_reducible apply State.noteFail_within
    | with_reducible apply State.updPhy_within | with_reducible apply Within.ite | decide

theorem State.failAttempt_within {W : Nat} {s0 s : State} (p : Phy) (cause : Nat) (hW : Within W s0 s)
    (hM : 19923140 ||| W = W) : Within W s0 (s.failAttempt p cause) := by
  refine hW.step ?_ hM; clear hW hM; unfold State.failAttempt
  repeat' first
    | with_reducible apply Within.refl | with_reducible apply State.beginAttempt_within
    | with_reducible apply State.noteFail_within | decide

theorem State.holdLink_within {W : Nat} {s0 s : State} (n : Nat) (hW : Within W s0 s)
    (hM : 19926209 ||| W = W) : Within W s0 (s.holdLink n) := by
  refine hW.step ?_ hM; clear hW hM; unfold State.holdLink
  repeat' first
    | with_reducible apply Within.refl | with_reducible apply Within.foldl | (intro _ _; try dsimp only)
    | with_reducible apply State.hold_within | decide

theorem State.leaveUp_within {W : Nat} {s0 s : State} (p : Phy) (hW : Within W s0 s)
    (hM : 19926213 ||| W = W) : Within W s0 (s.leaveUp p) := by
  refine hW.step ?_ hM; clear hW hM; unfold State.leaveUp
  dsimp only
  repeat' first
    | with_reducible apply Within.refl | with_reducible apply State.holdLink_within | with_reducible apply State.post_within
    | with_reducible apply State.updLink_within | with_reducible apply State.updSide_within | decide | split

theorem State.phyLeave_within {W : Nat} {s0 s : State} (p : Phy) (hW : Within W s0 s)
    (hM : 19926213 ||| W = W) : Within W s0 (s.phyLeave p) := by
  refine hW.step ?_ hM; clear hW hM; unfold State.phyLeave
  repeat' first
    | with_reducible apply Within.refl | with_reducible apply State.leaveUp_within | with_reducible apply State.updPhy_within
    | with_reducible apply Within.ite | decide

theorem State.phyDown_within {W : Nat} {s0 s : State} (p : Phy) (hW : Within W s0 s)
    (hM : 19926213 ||| W = W) : Within W s0 (s.phyDown p) := by
  refine hW.step ?_ hM; clear hW hM; unfold State.phyDown
  repeat' first
    | with_reducible apply Within.refl | with_reducible apply State.beginAttempt_within
    | with_reducible apply State.phyLeave_within | with_reducible apply Within.ite | decide

theorem State.phyStop_within {W : Nat} {s0 s : State} (p : Phy) (st : LState) (hW : Within W s0 s)
    (hM : 19926213 ||| W = W) : Within W s0 (s.phyStop p st) := by
  refine hW.step ?_ hM; clear hW hM; unfold State.phyStop
  dsimp only
  repeat' first
    | with_reducible apply Within.refl | with_reducible apply State.phyLeave_within | with_reducible apply State.updPhy_within
    | decide

theorem State.phyEnable_within {W : Nat} {s0 s : State} (p : Phy) (hW : Within W s0 s)
    (hM : 19923140 ||| W = W) : Within W s0 (s.phyEnable p) := by
  refine hW.step ?_ hM; clear hW hM; unfold State.phyEnable
  repeat' first
    | with_reducible apply Within.refl | with_reducible apply State.beginAttempt_within | with_reducible apply Within.ite
    | decide

theorem State.phyWriteEn_within {W : Nat} {s0 s : State} (p : Phy) (hW : Within W s0 s)
    (hM : 19926213 ||| W = W) : Within W s0 (s.phyWriteEn p) := by
  refine hW.step ?_ hM; clear hW hM; unfold State.phyWriteEn
  dsimp only
  repeat' first
    | with_reducible apply Within.refl | with_reducible apply State.phyEnable_within | with_reducible apply State.phyStop_within
    | with_reducible apply State.updPhy_within | with_reducible apply Within.ite | decide

theorem State.resetCells_within {W : Nat} {s0 s : State} (cs : List Nat) (hW : Within W s0 s)
    (hM : 65536 ||| W = W) : Within W s0 (s.resetCells cs) := by
  refine hW.step ?_ hM; clear hW hM; unfold State.resetCells
  repeat' first
    | with_reducible apply Within.refl | (conv => arg 3; arg 24; skip); with_reducible apply Within.build
    | with_reducible exact Or.inl rfl | exact Or.inr (by decide)

theorem State.phyReset_within {W : Nat} {s0 s : State} (p : Phy) (hW : Within W s0 s)
    (hM : 19991749 ||| W = W) : Within W s0 (s.phyReset p) := by
  refine hW.step ?_ hM; clear hW hM; unfold State.phyReset
  dsimp only
  repeat' first
    | with_reducible apply Within.refl | with_reducible apply State.phyStop_within
    | with_reducible apply State.resetCells_within | with_reducible apply State.setPhy_within
    | with_reducible apply State.updLink_within | with_reducible apply State.updSide_within | decide | split

theorem State.phyResetDone_within {W : Nat} {s0 s : State} (p : Phy) (hW : Within W s0 s)
    (hM : 19923140 ||| W = W) : Within W s0 (s.phyResetDone p) := by
  refine hW.step ?_ hM; clear hW hM; unfold State.phyResetDone
  repeat' first
    | with_reducible apply Within.refl | with_reducible apply State.phyEnable_within | with_reducible apply State.updPhy_within
    | with_reducible apply Within.ite | decide

theorem State.unholdLink_within {W : Nat} {s0 s : State} (n : Nat) (hW : Within W s0 s)
    (hM : 28312769 ||| W = W) : Within W s0 (s.unholdLink n) := by
  refine hW.step ?_ hM; clear hW hM; unfold State.unholdLink
  repeat' first
    | with_reducible apply Within.refl | with_reducible apply Within.foldl | (intro _ _; try dsimp only)
    | with_reducible apply State.unhold_within | with_reducible apply Within.ite | decide

theorem State.sideUp_within {W : Nat} {s0 s : State} (d : Side) (hW : Within W s0 s)
    (hM : 16777281 ||| W = W) : Within W s0 (s.sideUp d) := by
  refine hW.step ?_ hM; clear hW hM; unfold State.sideUp
  dsimp only
  repeat' first
    | with_reducible apply Within.refl | with_reducible apply Within.foldl | (intro _ _; try dsimp only)
    | with_reducible apply State.pushFrame_within | with_reducible apply State.sendCtrlOn_within
    | with_reducible apply State.updQ_within | with_reducible apply State.updSide_within
    | refine State.controlFrame_eq_within (by assumption) ?_ (by decide) | with_reducible apply Within.ite | decide | split

theorem State.phyUp_within {W : Nat} {s0 s : State} (p : Phy) (hW : Within W s0 s)
    (hM : 28312773 ||| W = W) : Within W s0 (s.phyUp p) := by
  refine hW.step ?_ hM; clear hW hM; unfold State.phyUp
  dsimp only
  repeat' first
    | with_reducible apply Within.refl | with_reducible apply State.post_within | with_reducible apply State.sendWord_within
    | with_reducible apply State.sideUp_within | with_reducible apply State.unholdLink_within
    | with_reducible apply State.updLink_within | with_reducible apply State.updPhy_within
    | with_reducible apply State.updSide_within | decide | split

end Sys2Proof.Machine
end

