-- ==== Sys2Proof/Laws/HostBlock.lean ====
section
/-!
SUPPORT. What the operations of Machine/HostBlock.lean may change (Laws/Within.lean says how a mask names the parts),
and the commands of that file.
-/
namespace Sys2Proof.Machine

theorem State.holdHost_within {W : Nat} {s0 s : State} (g : Nat) (hW : Within W s0 s)
    (hM : 19926209 ||| W = W) : Within W s0 (s.holdHost g) := by
  refine hW.step ?_ hM; clear hW hM; unfold State.holdHost
  repeat' first
    | with_reducible apply Within.refl | with_reducible apply Within.foldl | (intro _ _; try dsimp only)
    | with_reducible apply State.hold_within | decide

theorem State.dropStalled_within {W : Nat} {s0 s : State} (g : Nat) (hW : Within W s0 s)
    (hM : 256 ||| W = W) : Within W s0 (s.dropStalled g) := by
  refine hW.step ?_ hM; clear hW hM; unfold State.dropStalled
  repeat' first
    | with_reducible apply Within.refl | (conv => arg 3; arg 24; skip); with_reducible apply Within.build
    | with_reducible exact Or.inl rfl | exact Or.inr (by decide)

theorem State.resetFunc_within {W : Nat} {s0 s : State} (g : Nat) (hW : Within W s0 s)
    (hM : 19926465 ||| W = W) : Within W s0 (s.resetFunc g) := by
  refine hW.step ?_ hM; clear hW hM; unfold State.resetFunc
  dsimp only
  repeat' first
    | with_reducible apply Within.refl | with_reducible apply State.holdHost_within | with_reducible apply State.setFunc_within
    | with_reducible apply State.dropStalled_within | with_reducible apply Within.ite | (conv => arg 3; arg 24; skip); with_reducible apply Within.build
    | with_reducible exact Or.inl rfl | exact Or.inr (by decide) | exact Or.inr ⟨by decide, fun h => ⟨h.1, h.2, h.3, h.4⟩⟩
    | decide

theorem State.resetHost_within {W : Nat} {s0 s : State}  (hW : Within W s0 s)
    (hM : 19992001 ||| W = W) : Within W s0 s.resetHost := by
  refine hW.step ?_ hM; clear hW hM; unfold State.resetHost
  dsimp only
  repeat' first
    | with_reducible apply Within.refl | with_reducible apply Within.foldl | (intro _ _; try dsimp only)
    | with_reducible apply State.resetCells_within | with_reducible apply State.resetFunc_within
    | (conv => arg 3; arg 24; skip); with_reducible apply Within.build | with_reducible exact Or.inl rfl
    | exact Or.inr (by decide) | decide

theorem State.hostBlockReset_within {W : Nat} {s0 s : State} (c : HostResetCause) (hW : Within W s0 s)
    (hM : 19992001 ||| W = W) : Within W s0 (s.hostBlockReset c) := by
  refine hW.step ?_ hM; clear hW hM; unfold State.hostBlockReset
  have h : Within 19992001 s s.resetHost := State.resetHost_within (Within.refl _ _) (by decide)
  generalize s.resetHost = t at h
  refine Within.step (M := 19992001) h ?_ (by decide)
  dsimp only
  split
  all_goals
    with_reducible apply Within.build
    all_goals first
      | with_reducible apply Within.refl | with_reducible exact Or.inl rfl | exact Or.inr (by decide)

theorem State.startHost_within {W : Nat} {s0 s : State}  (hW : Within W s0 s)
    (hM : 256 ||| W = W) : Within W s0 s.startHost := by
  refine hW.step ?_ hM; clear hW hM; unfold State.startHost
  dsimp only
  repeat' first
    | with_reducible apply Within.refl | (conv => arg 3; arg 24; skip); with_reducible apply Within.build
    | with_reducible exact Or.inl rfl | exact Or.inr (by decide)

theorem State.flrOne_within {W : Nat} {s0 s : State} (g : Nat) (hW : Within W s0 s)
    (hM : 19926465 ||| W = W) : Within W s0 (s.flrOne g) := by
  refine hW.step ?_ hM; clear hW hM; unfold State.flrOne
  repeat' first
    | with_reducible apply Within.refl | with_reducible apply State.resetFunc_within | with_reducible apply State.updFunc_within
    | decide

theorem State.setVfs_within {W : Nat} {s0 s : State} (enable : Bool) (num : Nat) (hW : Within W s0 s)
    (hM : 19926465 ||| W = W) : Within W s0 (s.setVfs enable num) := by
  refine hW.step ?_ hM; clear hW hM; unfold State.setVfs
  dsimp only
  repeat' first
    | with_reducible apply Within.refl | with_reducible apply Within.foldl | (intro _ _; try dsimp only)
    | with_reducible apply State.flrOne_within | (conv => arg 3; arg 24; skip); with_reducible apply Within.build
    | with_reducible exact Or.inl rfl | exact Or.inr (by decide) | decide

theorem State.flr_within {W : Nat} {s0 s : State} (g : Nat) (hW : Within W s0 s)
    (hM : 19926465 ||| W = W) : Within W s0 (s.flr g) := by
  refine hW.step ?_ hM; clear hW hM; unfold State.flr
  repeat' first
    | with_reducible apply Within.refl | with_reducible apply State.flrOne_within | with_reducible apply State.setVfs_within
    | with_reducible apply Within.ite | decide

theorem State.postHeld_within {W : Nat} {s0 s : State} (g : Nat) (hW : Within W s0 s)
    (hM : 16777344 ||| W = W) : Within W s0 (s.postHeld g) := by
  refine hW.step ?_ hM; clear hW hM; unfold State.postHeld
  dsimp only
  repeat' first
    | with_reducible apply Within.refl | with_reducible apply Within.foldl | (intro _ _; try dsimp only)
    | with_reducible apply State.postLost_within | with_reducible apply State.putEvent_within
    | with_reducible apply State.setFunc_within | decide

theorem State.writeHringCtrl_within {W : Nat} {s0 s : State} (g : Nat) (v : Word32) (hW : Within W s0 s)
    (hM : 16777344 ||| W = W) : Within W s0 (s.writeHringCtrl g v) := by
  refine hW.step ?_ hM; clear hW hM; unfold State.writeHringCtrl
  dsimp only
  repeat' first
    | with_reducible apply Within.refl | with_reducible apply State.postHeld_within | with_reducible apply State.setFunc_within
    | with_reducible apply Within.ite | decide

theorem State.writeBaseLow_within {W : Nat} {s0 s : State} (g : Nat) (r : BaseReg) (v : Word32) (hW : Within W s0 s)
    (hM : 2097280 ||| W = W) : Within W s0 (s.writeBaseLow g r v) := by
  refine hW.step ?_ hM; clear hW hM; unfold State.writeBaseLow
  dsimp only
  repeat' first
    | with_reducible apply Within.refl | with_reducible apply State.updFunc_within | with_reducible apply Within.ite
    | (conv => arg 3; arg 24; skip); with_reducible apply Within.build | with_reducible exact Or.inl rfl
    | exact Or.inr ⟨by decide, fun h => ⟨h.1, h.2, h.3, h.4⟩⟩ | decide | split

theorem State.writeBaseHigh_within {W : Nat} {s0 s : State} (g : Nat) (r : BaseReg) (v : Word32) (hW : Within W s0 s)
    (hM : 2097280 ||| W = W) : Within W s0 (s.writeBaseHigh g r v) := by
  refine hW.step ?_ hM; clear hW hM; unfold State.writeBaseHigh
  dsimp only
  repeat' first
    | with_reducible apply Within.refl | with_reducible apply State.updFunc_within | with_reducible apply Within.ite
    | (conv => arg 3; arg 24; skip); with_reducible apply Within.build | with_reducible exact Or.inl rfl
    | exact Or.inr ⟨by decide, fun h => ⟨h.1, h.2, h.3, h.4⟩⟩ | decide | split

theorem State.rejectDoorbell_within {W : Nat} {s0 s : State} (g : Nat) (off : Nat) (v : Nat) (hW : Within W s0 s)
    (hM : 19923136 ||| W = W) : Within W s0 (s.rejectDoorbell g off v) := by
  refine hW.step ?_ hM; clear hW hM; unfold State.rejectDoorbell
  repeat' first
    | with_reducible apply Within.refl | with_reducible apply State.raise_within | with_reducible apply State.updFunc_within
    | decide

theorem State.applyDoorbell_within {W : Nat} {s0 s : State} (g : Nat) (off : Nat) (v : Nat) (hW : Within W s0 s)
    (hM : 19923136 ||| W = W) : Within W s0 (s.applyDoorbell g off v) := by
  refine hW.step ?_ hM; clear hW hM; unfold State.applyDoorbell
  dsimp only
  repeat' first
    | with_reducible apply Within.refl | with_reducible apply State.postLost_within
    | with_reducible apply State.rejectDoorbell_within | with_reducible apply State.setDring_within
    | with_reducible apply State.setFunc_within | with_reducible apply Within.ite | decide

theorem State.doorbell_within {W : Nat} {s0 s : State} (g : Nat) (off : Nat) (v : Nat) (hW : Within W s0 s)
    (hM : 19923136 ||| W = W) : Within W s0 (s.doorbell g off v) := by
  refine hW.step ?_ hM; clear hW hM; unfold State.doorbell
  repeat' first
    | with_reducible apply Within.refl | with_reducible apply State.applyDoorbell_within
    | with_reducible apply State.updFunc_within | with_reducible apply Within.ite | decide

theorem State.applyLatched_within {W : Nat} {s0 s : State}  (hW : Within W s0 s)
    (hM : 19923136 ||| W = W) : Within W s0 s.applyLatched := by
  refine hW.step ?_ hM; clear hW hM; unfold State.applyLatched
  dsimp only
  repeat' first
    | with_reducible apply Within.refl | with_reducible apply Within.foldl | (intro _ _; try dsimp only)
    | with_reducible apply State.applyDoorbell_within | with_reducible apply State.updFunc_within | decide

theorem State.pageWrite_within {W : Nat} {s0 s : State} (g : Nat) (off : Nat) (size : Nat) (v : Nat) (hW : Within W s0 s)
    (hM : 19923136 ||| W = W) : Within W s0 (s.pageWrite g off size v) := by
  refine hW.step ?_ hM; clear hW hM; unfold State.pageWrite
  repeat' first
    | with_reducible apply Within.refl | with_reducible apply State.doorbell_within | with_reducible apply Within.ite | decide

theorem State.clearHostReset_within {W : Nat} {s0 s : State} (g : Nat) (hW : Within W s0 s)
    (hM : 28312769 ||| W = W) : Within W s0 (s.clearHostReset g) := by
  refine hW.step ?_ hM; clear hW hM; unfold State.clearHostReset
  repeat' first
    | with_reducible apply Within.refl | with_reducible apply Within.foldl | (intro _ _; try dsimp only)
    | with_reducible apply State.unhold_within | decide

theorem State.doDringSet_within {W : Nat} {s0 s : State} (r : CmdRef) (d : Block512) (hW : Within W s0 s)
    (hM : 28312769 ||| W = W) : Within W s0 (s.doDringSet r d) := by
  refine hW.step ?_ hM; clear hW hM; unfold State.doDringSet
  dsimp only
  repeat' first
    | with_reducible apply Within.refl | with_reducible apply State.abortAll_within
    | with_reducible apply State.clearHostReset_within | with_reducible apply State.complete_within
    | with_reducible apply State.setDring_within | with_reducible apply Within.ite | decide

theorem State.holdoffEnd_within {W : Nat} {s0 s : State} (g : Nat) (event : Bool) (hW : Within W s0 s)
    (hM : 16777344 ||| W = W) : Within W s0 (s.holdoffEnd g event) := by
  refine hW.step ?_ hM; clear hW hM; unfold State.holdoffEnd
  dsimp only
  repeat' first
    | with_reducible apply Within.refl | with_reducible apply State.setFunc_within | with_reducible apply State.signal_within
    | with_reducible apply Within.ite | decide

theorem State.raiseDma_within {W : Nat} {s0 s : State} (g : Nat) (k : DmaKind) (ring : Nat) (addr : Nat) (hW : Within W s0 s)
    (hM : 19923136 ||| W = W) : Within W s0 (s.raiseDma g k ring addr) := by
  refine hW.step ?_ hM; clear hW hM; unfold State.raiseDma
  repeat' first
    | with_reducible apply Within.refl | with_reducible apply State.raise_within | decide

theorem State.stopRing_within {W : Nat} {s0 s : State} (g : Nat) (r : Nat) (hW : Within W s0 s)
    (hM : 19926209 ||| W = W) : Within W s0 (s.stopRing g r) := by
  refine hW.step ?_ hM; clear hW hM; unfold State.stopRing
  repeat' first
    | with_reducible apply Within.refl | with_reducible apply Within.foldl | (intro _ _; try dsimp only)
    | with_reducible apply State.hold_within | with_reducible apply State.setDring_within | decide

theorem State.dmaFailure_within {W : Nat} {s0 s : State} (g : Nat) (k : DmaKind) (ring : Nat) (addr : Nat) (hW : Within W s0 s)
    (hM : 28314817 ||| W = W) : Within W s0 (s.dmaFailure g k ring addr) := by
  refine hW.step ?_ hM; clear hW hM; unfold State.dmaFailure
  dsimp only
  repeat' first
    | with_reducible apply Within.refl | with_reducible apply State.drawn_within | with_reducible apply State.raiseDma_within
    | with_reducible apply State.stopRing_within | with_reducible apply State.updFunc_within
    | with_reducible apply State.writeBack_within | with_reducible apply Within.ite | decide | split

/-! ## Commands -/

theorem execHostBlockReset_within (cause : HostResetCause) (s : State) :
    ∃ t, execHostBlockReset cause s = .next t ∧ Within 19992001 s t := by
  unfold execHostBlockReset
  refine ⟨_, rfl, ?_⟩
  repeat' first
    | with_reducible apply Within.refl | with_reducible apply State.hostBlockReset_within | decide

theorem execPerstNRise_within (s : State) :
    ∃ t, execPerstNRise s = .next t ∧ Within 256 s t := by
  unfold execPerstNRise
  dsimp only
  refine ⟨_, rfl, ?_⟩
  repeat' first
    | with_reducible apply Within.refl | with_reducible apply State.startHost_within | with_reducible apply Within.ite
    | (conv => arg 3; arg 24; skip); with_reducible apply Within.build | with_reducible exact Or.inl rfl
    | exact Or.inr (by decide) | decide

theorem execPcieConfigReady_within (s : State) :
    ∃ t, execPcieConfigReady s = .next t ∧ Within 256 s t := by
  unfold execPcieConfigReady
  dsimp only
  refine ⟨_, rfl, ?_⟩
  repeat' first
    | with_reducible apply Within.refl | with_reducible apply Within.ite
    | (conv => arg 3; arg 24; skip); with_reducible apply Within.build | with_reducible exact Or.inl rfl
    | exact Or.inr (by decide)

theorem execPcieL0Reached_within (s : State) :
    ∃ t, execPcieL0Reached s = .next t ∧ Within 256 s t := by
  unfold execPcieL0Reached
  dsimp only
  refine ⟨_, rfl, ?_⟩
  repeat' first
    | with_reducible apply Within.refl | with_reducible apply Within.ite
    | (conv => arg 3; arg 24; skip); with_reducible apply Within.build | with_reducible exact Or.inl rfl
    | exact Or.inr (by decide)

theorem execFlr_within (fn : Fin 16) (s : State) :
    ∃ t, execFlr fn s = .next t ∧ Within 19926465 s t := by
  unfold execFlr
  refine ⟨_, rfl, ?_⟩
  repeat' first
    | with_reducible apply Within.refl | with_reducible apply State.flr_within | decide

theorem execFlrComplete_within (fn : Fin 16) (s : State) :
    ∃ t, execFlrComplete fn s = .next t ∧ Within 128 s t := by
  unfold execFlrComplete
  refine ⟨_, rfl, ?_⟩
  repeat' first
    | with_reducible apply Within.refl | with_reducible apply State.updFunc_within | decide

theorem execVfEnableChange_within (enable : Bool) (numVfs : Fin 16) (s : State) :
    ∃ t, execVfEnableChange enable numVfs s = .next t ∧ Within 19926465 s t := by
  unfold execVfEnableChange
  refine ⟨_, rfl, ?_⟩
  repeat' first
    | with_reducible apply Within.refl | with_reducible apply State.setVfs_within | with_reducible apply Within.ite | decide

theorem execCmdPi_within (fn : Fin 16) (v : Word32) (s : State) :
    ∃ t, execCmdPi fn v s = .next t ∧ Within 19923136 s t := by
  unfold execCmdPi
  refine ⟨_, rfl, ?_⟩
  repeat' first
    | with_reducible apply Within.refl | with_reducible apply State.pageWrite_within | decide

theorem execCplCi_within (fn : Fin 16) (v : Word32) (s : State) :
    ∃ t, execCplCi fn v s = .next t ∧ Within 19923136 s t := by
  unfold execCplCi
  refine ⟨_, rfl, ?_⟩
  repeat' first
    | with_reducible apply Within.refl | with_reducible apply State.pageWrite_within | decide

theorem execEvtCi_within (fn : Fin 16) (v : Word32) (s : State) :
    ∃ t, execEvtCi fn v s = .next t ∧ Within 19923136 s t := by
  unfold execEvtCi
  refine ⟨_, rfl, ?_⟩
  repeat' first
    | with_reducible apply Within.refl | with_reducible apply State.pageWrite_within | decide

theorem execDringPi_within (fn : Fin 16) (ring : Fin 512) (v : Word32) (s : State) :
    ∃ t, execDringPi fn ring v s = .next t ∧ Within 19923136 s t := by
  unfold execDringPi
  refine ⟨_, rfl, ?_⟩
  repeat' first
    | with_reducible apply Within.refl | with_reducible apply State.pageWrite_within | decide

theorem execMsixHoldoffEnd_within (fn : Fin 16) (event : Bool) (s : State) :
    ∃ t, execMsixHoldoffEnd fn event s = .next t ∧ Within 16777344 s t := by
  unfold execMsixHoldoffEnd
  refine ⟨_, rfl, ?_⟩
  repeat' first
    | with_reducible apply Within.refl | with_reducible apply State.holdoffEnd_within | decide

theorem execHostDmaFailure_within (fn : Fin 16) (kind : DmaKind) (ring : Fin 512) (addr : Word64) (s : State) :
    ∃ t, execHostDmaFailure fn kind ring addr s = .next t ∧ Within 28314817 s t := by
  unfold execHostDmaFailure
  refine ⟨_, rfl, ?_⟩
  repeat' first
    | with_reducible apply Within.refl | with_reducible apply State.dmaFailure_within | decide

end Sys2Proof.Machine
end

