-- ==== Sys2Proof/Laws/Reset.lean ====
section
/-!
SUPPORT. What the operations of Machine/Reset.lean may change (Laws/Within.lean says how a mask names the parts),
and the commands of that file.
-/
namespace Sys2Proof.Machine

theorem State.padHold_within {W : Nat} {s0 s : State}  (hW : Within W s0 s)
    (hM : 262144 ||| W = W) : Within W s0 s.padHold := by
  refine hW.step ?_ hM; clear hW hM; unfold State.padHold
  dsimp only
  repeat' first
    | with_reducible apply Within.refl | (conv => arg 3; arg 24; skip); with_reducible apply Within.build
    | with_reducible exact Or.inl rfl | exact Or.inr ⟨by decide, fun h => ⟨h.1, h.2⟩⟩

theorem State.ioRelease_within {W : Nat} {s0 s : State}  (hW : Within W s0 s)
    (hM : 262144 ||| W = W) : Within W s0 s.ioRelease := by
  refine hW.step ?_ hM; clear hW hM; unfold State.ioRelease
  dsimp only
  repeat' first
    | with_reducible apply Within.refl | (conv => arg 3; arg 24; skip); with_reducible apply Within.build
    | with_reducible exact Or.inl rfl | exact Or.inr ⟨by decide, fun h => ⟨h.1, h.2⟩⟩

theorem Errors.Ok.afterReset {e : Errors} (h : e.Ok) : e.afterReset.Ok :=
  ⟨Nat.zero_le _, Nat.zero_lt_succ _, h.later, fun _ => Nat.zero_le _⟩

theorem Errors.Ok.halves (a b : Bool) (n : Nat) : Errors.Ok { half0 := a, half1 := b, newestHalf := n } :=
  ⟨Nat.zero_le _, Nat.zero_lt_succ _, Nat.zero_le _, fun _ => Nat.zero_le _⟩

theorem State.vddBack_within {W : Nat} {s0 s : State} (hW : Within W s0 s) (hM : 16777216 ||| W = W) :
    Within W s0 s.vddBack := by
  refine hW.step ?_ hM; clear hW hM; unfold State.vddBack
  repeat' first
    | with_reducible apply Within.refl | with_reducible apply State.emit_within | with_reducible apply Within.ite | decide

theorem State.systemReset_within {W : Nat} {s0 s : State} (hW : Within W s0 s)
    (hM : 20446719 ||| W = W) : Within W s0 s.systemReset := by
  refine hW.step ?_ hM; clear hW hM; unfold State.systemReset
  dsimp only
  repeat' first
    | with_reducible apply Within.refl | with_reducible apply State.padHold_within | exact Or.inr ⟨by decide, fun _ => rfl⟩
    | with_reducible apply State.vddBack_within | exact Or.inr ⟨by decide, fun h => ⟨h.bootcnt, h.trimRetry⟩⟩ | exact Or.inr ⟨by decide, fun h => h.afterReset⟩
    | (conv => arg 3; arg 24; skip); with_reducible apply Within.build | with_reducible exact Or.inl rfl
    | exact Or.inr (by decide) | decide

theorem State.porReset_within {W : Nat} {s0 s : State}  (hW : Within W s0 s)
    (hM : 3669503 ||| W = W) : Within W s0 s.porReset := by
  refine hW.step ?_ hM; clear hW hM; unfold State.porReset
  dsimp only
  repeat' first
    | with_reducible apply Within.refl | exact Or.inr ⟨by decide, fun _ => rfl⟩
    | exact Or.inr ⟨by decide, fun h => ⟨h.bootcnt, Nat.zero_le _⟩⟩ | exact Or.inr ⟨by decide, fun _ => Errors.Ok.halves _ _ _⟩
    | (conv => arg 3; arg 24; skip); with_reducible apply Within.build | with_reducible exact Or.inl rfl
    | exact Or.inr (by decide)

theorem State.staticKerb_within {W : Nat} {s0 s : State}  (hW : Within W s0 s)
    (hM : 16777345 ||| W = W) : Within W s0 s.staticKerb := by
  refine hW.step ?_ hM; clear hW hM; unfold State.staticKerb
  dsimp only
  repeat' first
    | with_reducible apply Within.refl | with_reducible apply Within.foldl | (intro _ _; try dsimp only)
    | with_reducible apply State.evalFlags_within | with_reducible apply State.updQ_within | decide

theorem State.coreReset_within {W : Nat} {s0 s : State}  (hW : Within W s0 s)
    (hM : 18223233 ||| W = W) : Within W s0 s.coreReset := by
  refine hW.step ?_ hM; clear hW hM; unfold State.coreReset
  dsimp only
  repeat' first
    | with_reducible apply Within.refl | with_reducible apply State.padHold_within
    | with_reducible apply State.staticKerb_within | with_reducible apply Within.ite
    | (conv => arg 3; arg 24; skip); with_reducible apply Within.build | with_reducible exact Or.inl rfl
    | exact Or.inr (by decide) | exact Or.inr ⟨by decide, fun h => ⟨h.1, h.2⟩⟩ | decide

theorem State.applyReset_within {W : Nat} {s0 s : State} (a1 : RLevel) (hW : Within W s0 s)
    (hM : 20446719 ||| W = W) : Within W s0 (s.applyReset a1) := by
  refine hW.step ?_ hM; clear hW hM; unfold State.applyReset
  repeat' first
    | with_reducible apply Within.refl | with_reducible apply State.coreReset_within
    | with_reducible apply State.porReset_within | with_reducible apply State.systemReset_within | decide | split

theorem State.setCause_within {W : Nat} {s0 s : State} (i : Nat) (hW : Within W s0 s)
    (hM : 262144 ||| W = W) : Within W s0 (s.setCause i) := by
  refine hW.step ?_ hM; clear hW hM; unfold State.setCause
  dsimp only
  repeat' first
    | with_reducible apply Within.refl | (conv => arg 3; arg 24; skip); with_reducible apply Within.build
    | with_reducible exact Or.inl rfl | exact Or.inr ⟨by decide, fun h => ⟨h.1, h.2⟩⟩

theorem Reset.Ok.abortTrim {r : Reset} (h : r.Ok) : r.abortTrim.Ok := by
  unfold Reset.abortTrim
  split
  · exact ⟨h.1, h.2⟩
  · exact h

theorem State.startReset_within {W : Nat} {s0 s : State} (lvl : RLevel) (source : Nat) (hW : Within W s0 s)
    (hM : 20446719 ||| W = W) : Within W s0 (s.startReset lvl source) := by
  refine hW.step ?_ hM; clear hW hM; unfold State.startReset
  dsimp only
  repeat' first
    | with_reducible apply Within.refl | with_reducible apply State.applyReset_within
    | with_reducible apply State.setCause_within | exact Or.inr ⟨by decide, fun h => Reset.Ok.abortTrim h⟩
    | with_reducible apply Within.ite | (conv => arg 3; arg 24; skip); with_reducible apply Within.build
    | with_reducible exact Or.inl rfl | exact Or.inr ⟨by decide, fun h => ⟨h.1, h.2⟩⟩ | decide | split

theorem State.releaseCore_within {W : Nat} {s0 s : State}  (hW : Within W s0 s)
    (hM : 148736 ||| W = W) : Within W s0 s.releaseCore := by
  refine hW.step ?_ hM; clear hW hM; unfold State.releaseCore
  dsimp only
  repeat' first
    | with_reducible apply Within.refl | (conv => arg 3; arg 24; skip); with_reducible apply Within.build
    | with_reducible exact Or.inl rfl | exact Or.inr (by decide)

theorem State.completeReset_within {W : Nat} {s0 s : State}  (hW : Within W s0 s)
    (hM : 410880 ||| W = W) : Within W s0 s.completeReset := by
  refine hW.step ?_ hM; clear hW hM; unfold State.completeReset
  dsimp only
  repeat' first
    | with_reducible apply Within.refl | with_reducible apply State.releaseCore_within | with_reducible apply Within.ite
    | (conv => arg 3; arg 24; skip); with_reducible apply Within.build | with_reducible exact Or.inl rfl
    | exact Or.inr ⟨by decide, fun h => ⟨h.1, h.2⟩⟩ | decide | split

theorem State.por_within {W : Nat} {s0 s : State} (refclk vaonLost : Bool) (hW : Within W s0 s)
    (hM : 3669503 ||| W = W) : Within W s0 (s.por refclk vaonLost) := by
  refine hW.step ?_ hM; clear hW hM; unfold State.por
  dsimp only
  repeat' first
    | with_reducible apply Within.refl | with_reducible apply State.porReset_within
    | (conv => arg 3; arg 24; skip); with_reducible apply Within.build | with_reducible exact Or.inl rfl
    | exact Or.inr ⟨by decide, fun h => ⟨by cases vaonLost <;> first | exact h.1 | exact Nat.zero_le _, h.2⟩⟩ | decide

theorem State.brownOut_within {W : Nat} {s0 s : State} (hW : Within W s0 s)
    (hM : 20446719 ||| W = W) : Within W s0 s.brownOut := by
  refine hW.step ?_ hM; clear hW hM; unfold State.brownOut
  dsimp only
  repeat' first
    | with_reducible apply Within.refl | with_reducible apply State.porReset_within | with_reducible apply State.setCause_within
    | with_reducible apply State.vddBack_within
    | (conv => arg 3; arg 24; skip); with_reducible apply Within.build | with_reducible exact Or.inl rfl
    | exact Or.inr ⟨by decide, fun h => ⟨h.1, h.2⟩⟩ | decide

theorem State.rstLow_within {W : Nat} {s0 s : State}  (hW : Within W s0 s)
    (hM : 20446719 ||| W = W) : Within W s0 s.rstLow := by
  refine hW.step ?_ hM; clear hW hM; unfold State.rstLow
  dsimp only
  repeat' first
    | with_reducible apply Within.refl | with_reducible apply State.startReset_within
    | (conv => arg 3; arg 24; skip); with_reducible apply Within.build | with_reducible exact Or.inl rfl
    | exact Or.inr ⟨by decide, fun h => ⟨h.1, h.2⟩⟩ | decide

theorem State.watchdog_within {W : Nat} {s0 s : State}  (hW : Within W s0 s)
    (hM : 20446719 ||| W = W) : Within W s0 s.watchdog := by
  refine hW.step ?_ hM; clear hW hM; unfold State.watchdog
  repeat' first
    | with_reducible apply Within.refl | with_reducible apply State.startReset_within | with_reducible apply Within.ite | decide
    | split

theorem State.trimDone_within {W : Nat} {s0 s : State} (ok : Bool) (degraded : BitVec 32) (kioskDegraded : Bool) (hW : Within W s0 s)
    (hM : 267264 ||| W = W) : Within W s0 (s.trimDone ok degraded kioskDegraded) := by
  refine hW.step ?_ hM; clear hW hM; unfold State.trimDone
  dsimp only
  repeat' first
    | with_reducible apply Within.refl | exact Or.inr ⟨by decide, fun h => ⟨h.bootcnt, satAdd_le _ _ _⟩⟩
    | with_reducible apply Within.ite | (conv => arg 3; arg 24; skip); with_reducible apply Within.build
    | with_reducible exact Or.inl rfl | exact Or.inr (by decide) | exact Or.inr ⟨by decide, fun h => ⟨h.1, h.2⟩⟩

theorem State.writeRstctl_within {W : Nat} {s0 s : State} (v : Word32) (hW : Within W s0 s)
    (hM : 20446719 ||| W = W) : Within W s0 (s.writeRstctl v) := by
  refine hW.step ?_ hM; clear hW hM; unfold State.writeRstctl
  repeat' first
    | with_reducible apply Within.refl | with_reducible apply State.startReset_within | with_reducible apply Within.ite | decide

theorem State.writeIorel_within {W : Nat} {s0 s : State} (v : Word32) (hW : Within W s0 s)
    (hM : 262144 ||| W = W) : Within W s0 (s.writeIorel v) := by
  refine hW.step ?_ hM; clear hW hM; unfold State.writeIorel
  repeat' first
    | with_reducible apply Within.refl | with_reducible apply State.ioRelease_within | with_reducible apply Within.ite | decide

/-! ## Commands -/

theorem execPor_within (x : PorInput) (s : State) :
    ∃ t, execPor x s = .next t ∧ Within 3669503 s t := by
  unfold execPor
  refine ⟨_, rfl, ?_⟩
  repeat' first
    | with_reducible apply Within.refl | with_reducible apply State.por_within | decide

theorem execBrownOut_within (s : State) :
    ∃ t, execBrownOut s = .next t ∧ Within 20446719 s t := by
  unfold execBrownOut
  refine ⟨_, rfl, ?_⟩
  repeat' first
    | with_reducible apply Within.refl | with_reducible apply State.brownOut_within | decide

theorem execRstNAssert_within (ns : Nat) (s : State) :
    ∃ t, execRstNAssert ns s = .next t ∧ Within 20446719 s t := by
  unfold execRstNAssert
  refine ⟨_, rfl, ?_⟩
  repeat' first
    | with_reducible apply Within.refl | with_reducible apply State.rstLow_within | with_reducible apply Within.ite | decide

theorem execRstNRelease_within (s : State) :
    ∃ t, execRstNRelease s = .next t ∧ Within 262144 s t := by
  unfold execRstNRelease
  dsimp only
  refine ⟨_, rfl, ?_⟩
  repeat' first
    | with_reducible apply Within.refl | with_reducible apply Within.ite
    | (conv => arg 3; arg 24; skip); with_reducible apply Within.build | with_reducible exact Or.inl rfl
    | exact Or.inr ⟨by decide, fun h => ⟨h.1, h.2⟩⟩

theorem execRefclkLoss_within (s : State) :
    ∃ t, execRefclkLoss s = .next t ∧ Within 20446719 s t := by
  unfold execRefclkLoss
  dsimp only
  refine ⟨_, rfl, ?_⟩
  repeat' first
    | with_reducible apply Within.refl | with_reducible apply State.startReset_within
    | (conv => arg 3; arg 24; skip); with_reducible apply Within.build | with_reducible exact Or.inl rfl
    | exact Or.inr ⟨by decide, fun h => ⟨h.1, h.2⟩⟩ | decide

theorem execSupplyMonitorTrip_within (r : Rail) (s : State) :
    ∃ t, execSupplyMonitorTrip r s = .next t ∧ Within 20446719 s t := by
  unfold execSupplyMonitorTrip
  refine ⟨_, rfl, ?_⟩
  repeat' first
    | with_reducible apply Within.refl | with_reducible apply State.startReset_within | with_reducible apply Within.ite | decide

theorem execWatchdogExpiry_within (s : State) :
    ∃ t, execWatchdogExpiry s = .next t ∧ Within 20446719 s t := by
  unfold execWatchdogExpiry
  refine ⟨_, rfl, ?_⟩
  repeat' first
    | with_reducible apply Within.refl | with_reducible apply State.watchdog_within | decide

theorem execFwcoreRequest_within (s : State) :
    ∃ t, execFwcoreRequest s = .next t ∧ Within 20446719 s t := by
  unfold execFwcoreRequest
  refine ⟨_, rfl, ?_⟩
  repeat' first
    | with_reducible apply Within.refl | with_reducible apply State.startReset_within | with_reducible apply Within.ite | decide

theorem execTrialTimeout_within (s : State) :
    ∃ t, execTrialTimeout s = .next t ∧ Within 20446719 s t := by
  unfold execTrialTimeout
  refine ⟨_, rfl, ?_⟩
  repeat' first
    | with_reducible apply Within.refl | with_reducible apply State.startReset_within | with_reducible apply Within.ite | decide

theorem execTrimLoadDone_within (crcOk : Bool) (degraded : BitVec 32) (kioskDegraded : Bool) (s : State) :
    ∃ t, execTrimLoadDone crcOk degraded kioskDegraded s = .next t ∧ Within 267264 s t := by
  unfold execTrimLoadDone
  refine ⟨_, rfl, ?_⟩
  repeat' first
    | with_reducible apply Within.refl | with_reducible apply State.trimDone_within | decide

theorem execTrimRetry_within (s : State) :
    ∃ t, execTrimRetry s = .next t ∧ Within 262144 s t := by
  unfold execTrimRetry
  dsimp only
  refine ⟨_, rfl, ?_⟩
  repeat' first
    | with_reducible apply Within.refl | with_reducible apply Within.ite
    | (conv => arg 3; arg 24; skip); with_reducible apply Within.build | with_reducible exact Or.inl rfl
    | exact Or.inr ⟨by decide, fun h => ⟨h.1, h.2⟩⟩

end Sys2Proof.Machine
end

