-- ==== Sys2Proof/Laws/Memory.lean ====
section
/-!
SUPPORT. What the operations of Machine/Memory.lean may change (Laws/Within.lean says how a mask names the parts).
-/
namespace Sys2Proof.Machine

theorem State.countUe_within {W : Nat} {s0 s : State} (quarter : Nat) (hW : Within W s0 s)
    (hM : 1024 ||| W = W) : Within W s0 (s.countUe quarter) := by
  refine hW.step ?_ hM; clear hW hM; unfold State.countUe
  repeat' first
    | with_reducible apply Within.refl | (conv => arg 3; arg 24; skip); with_reducible apply Within.build
    | with_reducible exact Or.inl rfl | exact Or.inr (by decide)

theorem State.countCe_within {W : Nat} {s0 s : State} (quarter : Nat) (hW : Within W s0 s)
    (hM : 1024 ||| W = W) : Within W s0 (s.countCe quarter) := by
  refine hW.step ?_ hM; clear hW hM; unfold State.countCe
  repeat' first
    | with_reducible apply Within.refl | (conv => arg 3; arg 24; skip); with_reducible apply Within.build
    | with_reducible exact Or.inl rfl | exact Or.inr (by decide)

theorem State.reportUe_within {W : Nat} {s0 s : State} (n : Nat) (words : List Nat) (chainPos : Nat) (hW : Within W s0 s)
    (hM : 19924160 ||| W = W) : Within W s0 (s.reportUe n words chainPos) := by
  refine hW.step ?_ hM; clear hW hM; unfold State.reportUe
  repeat' first
    | with_reducible apply Within.refl | with_reducible apply Within.foldl | (intro _ _; try dsimp only)
    | with_reducible apply State.countUe_within | with_reducible apply State.raise_within | decide

theorem State.headerUe_within {W : Nat} {s0 s : State} (n : Nat) (words : List Nat) (hW : Within W s0 s)
    (hM : 19924160 ||| W = W) : Within W s0 (s.headerUe n words) := by
  refine hW.step ?_ hM; clear hW hM; unfold State.headerUe
  repeat' first
    | with_reducible apply Within.refl | with_reducible apply State.countUe_within | with_reducible apply State.raise_within
    | decide | split

end Sys2Proof.Machine
end

