-- ==== Sys2Proof/Laws/Maint.lean ====
section
/-!
SUPPORT. What the operations of Machine/Maint.lean may change (Laws/Within.lean says how a mask names the parts),
and the commands of that file.
-/
namespace Sys2Proof.Machine

theorem State.updQuarter_within {W : Nat} {s0 s : State} (i : Nat) (f : Quarter → Quarter) (hW : Within W s0 s)
    (hM : 1024 ||| W = W) : Within W s0 (s.updQuarter i f) := by
  refine hW.step ?_ hM; clear hW hM; unfold State.updQuarter
  repeat' first
    | with_reducible apply Within.refl | (conv => arg 3; arg 24; skip); with_reducible apply Within.build
    | with_reducible exact Or.inl rfl | exact Or.inr (by decide)

theorem State.startAct_within {W : Nat} {s0 s : State} (a : Activity) (i : Nat) (hW : Within W s0 s)
    (hM : 132096 ||| W = W) : Within W s0 (s.startAct a i) := by
  refine hW.step ?_ hM; clear hW hM; unfold State.startAct
  dsimp only
  repeat' first
    | with_reducible apply Within.refl | with_reducible apply State.ungate_within | with_reducible apply State.updQuarter_within
    | decide

theorem State.hostStart_within {W : Nat} {s0 s : State} (a : Activity) (mask : Nat) (hW : Within W s0 s)
    (hM : 132096 ||| W = W) : Within W s0 (s.hostStart a mask) := by
  refine hW.step ?_ hM; clear hW hM; unfold State.hostStart
  dsimp only
  repeat' first
    | with_reducible apply Within.refl | with_reducible apply Within.foldl | (intro _ _; try dsimp only)
    | with_reducible apply State.startAct_within | (conv => arg 3; arg 24; skip); with_reducible apply Within.build
    | with_reducible exact Or.inl rfl | exact Or.inr (by decide) | decide

theorem State.maintStatus_within {W : Nat} {s0 s : State} (st : Nat) (hW : Within W s0 s)
    (hM : 1024 ||| W = W) : Within W s0 (s.maintStatus st) := by
  refine hW.step ?_ hM; clear hW hM; unfold State.maintStatus
  dsimp only
  repeat' first
    | with_reducible apply Within.refl | (conv => arg 3; arg 24; skip); with_reducible apply Within.build
    | with_reducible exact Or.inl rfl | exact Or.inr (by decide)

theorem State.writeMaintCtrl_within {W : Nat} {s0 s : State} (v : Word32) (hW : Within W s0 s)
    (hM : 132096 ||| W = W) : Within W s0 (s.writeMaintCtrl v) := by
  refine hW.step ?_ hM; clear hW hM; unfold State.writeMaintCtrl
  dsimp only
  repeat' first
    | with_reducible apply Within.refl | with_reducible apply State.hostStart_within
    | with_reducible apply State.maintStatus_within | with_reducible apply Within.ite
    | (conv => arg 3; arg 24; skip); with_reducible apply Within.build | with_reducible exact Or.inl rfl
    | exact Or.inr (by decide) | decide

theorem State.wipeQuarter_within {W : Nat} {s0 s : State} (i : Nat) (hW : Within W s0 s)
    (hM : 3072 ||| W = W) : Within W s0 (s.wipeQuarter i) := by
  refine hW.step ?_ hM; clear hW hM; unfold State.wipeQuarter
  dsimp only
  repeat' first
    | with_reducible apply Within.refl | with_reducible apply State.updQuarter_within
    | exact Or.inr ⟨by decide, fun h => SMap.wf_filter _ h⟩ | (conv => arg 3; arg 24; skip); with_reducible apply Within.build
    | with_reducible exact Or.inl rfl | exact Or.inr (by decide) | decide

theorem State.maintDone_within {W : Nat} {s0 s : State} (code : Nat) (quarters : Nat) (status : Nat) (failing : Nat) (hW : Within W s0 s)
    (hM : 16777344 ||| W = W) : Within W s0 (s.maintDone code quarters status failing) := by
  refine hW.step ?_ hM; clear hW hM; unfold State.maintDone
  repeat' first
    | with_reducible apply Within.refl | with_reducible apply State.post_within | decide

theorem State.endJobs_within {W : Nat} {s0 s : State} (a : Activity) (i : Nat) (failing : Nat) (hW : Within W s0 s)
    (hM : 16778368 ||| W = W) : Within W s0 (s.endJobs a i failing) := by
  refine hW.step ?_ hM; clear hW hM; unfold State.endJobs
  dsimp only
  repeat' first
    | with_reducible apply Within.refl | with_reducible apply Within.foldl | (intro _ _; try dsimp only)
    | with_reducible apply State.maintDone_within | (conv => arg 3; arg 24; skip); with_reducible apply Within.build
    | with_reducible exact Or.inl rfl | exact Or.inr (by decide) | decide

theorem State.actEnd_within {W : Nat} {s0 s : State} (i : Nat) (failing : Nat) (hW : Within W s0 s)
    (hM : 19926208 ||| W = W) : Within W s0 (s.actEnd i failing) := by
  refine hW.step ?_ hM; clear hW hM; unfold State.actEnd
  dsimp only
  repeat' first
    | with_reducible apply Within.refl | with_reducible apply State.endJobs_within | with_reducible apply State.raise_within
    | with_reducible apply State.updQuarter_within | with_reducible apply State.wipeQuarter_within
    | with_reducible apply Within.ite | decide | split

theorem State.zeroSegment_within {W : Nat} {s0 s : State} (seg : Nat) (hW : Within W s0 s)
    (hM : 3072 ||| W = W) : Within W s0 (s.zeroSegment seg) := by
  refine hW.step ?_ hM; clear hW hM; unfold State.zeroSegment
  dsimp only
  repeat' first
    | with_reducible apply Within.refl | with_reducible apply State.updQuarter_within
    | exact Or.inr ⟨by decide, fun h => SMap.wf_filter _ h⟩ | (conv => arg 3; arg 24; skip); with_reducible apply Within.build
    | with_reducible exact Or.inl rfl | exact Or.inr (by decide) | decide

theorem State.endReleases_within {W : Nat} {s0 s : State}  (hW : Within W s0 s)
    (hM : 19924160 ||| W = W) : Within W s0 s.endReleases := by
  refine hW.step ?_ hM; clear hW hM; unfold State.endReleases
  dsimp only
  repeat' first
    | with_reducible apply Within.refl | with_reducible apply State.completeAll_within
    | (conv => arg 3; arg 24; skip); with_reducible apply Within.build | with_reducible exact Or.inl rfl
    | exact Or.inr (by decide) | decide

theorem State.segmentZeroed_within {W : Nat} {s0 s : State} (seg : Nat) (hW : Within W s0 s)
    (hM : 19926208 ||| W = W) : Within W s0 (s.segmentZeroed seg) := by
  refine hW.step ?_ hM; clear hW hM; unfold State.segmentZeroed
  repeat' first
    | with_reducible apply Within.refl | with_reducible apply State.endReleases_within
    | with_reducible apply State.zeroSegment_within | with_reducible apply Within.ite | decide

theorem State.reportCe_within {W : Nat} {s0 s : State} (bank : Nat) (marked : Bool) (place qid : Nat) (hW : Within W s0 s)
    (hM : 19924160 ||| W = W) : Within W s0 (s.reportCe bank marked place qid) := by
  refine hW.step ?_ hM; clear hW hM; unfold State.reportCe
  dsimp only
  repeat' first
    | with_reducible apply Within.refl | with_reducible apply State.raise_within
    | with_reducible apply Within.ite | (conv => arg 3; arg 24; skip); with_reducible apply Within.build
    | with_reducible exact Or.inl rfl | exact Or.inr ⟨by decide, fun h => ⟨h.1, h.2, h.3, h.4⟩⟩ | decide

theorem State.correctedError_within {W : Nat} {s0 s : State} (bank granule row : Nat) (marked : Bool) (qid : Nat)
    (hW : Within W s0 s) (hM : 19924160 ||| W = W) : Within W s0 (s.correctedError bank granule row marked qid) := by
  refine hW.step ?_ hM; clear hW hM; unfold State.correctedError
  repeat' first
    | with_reducible apply Within.refl | with_reducible apply State.countCe_within
    | with_reducible apply State.reportCe_within | decide

theorem State.kioskCorrected_within {W : Nat} {s0 s : State} (marked : Bool) (hW : Within W s0 s)
    (hM : 28316864 ||| W = W) : Within W s0 (s.kioskCorrected marked) := by
  refine hW.step ?_ hM; clear hW hM; unfold State.kioskCorrected
  dsimp only
  repeat' first
    | with_reducible apply Within.refl | with_reducible apply State.reportCe_within | with_reducible apply State.drawn_within
    | (conv => arg 3; arg 24; skip); with_reducible apply Within.build | with_reducible exact Or.inl rfl
    | exact Or.inr ⟨by decide, fun h => h⟩ | exact Or.inr (by decide) | decide

theorem State.kioskUncorrectable_within {W : Nat} {s0 s : State} (a : Nat) (hW : Within W s0 s)
    (hM : 28316864 ||| W = W) : Within W s0 (s.kioskUncorrectable a) := by
  refine hW.step ?_ hM; clear hW hM; unfold State.kioskUncorrectable
  dsimp only
  repeat' first
    | with_reducible apply Within.refl | with_reducible apply State.raise_within | with_reducible apply State.drawn_within
    | (conv => arg 3; arg 24; skip); with_reducible apply Within.build | with_reducible exact Or.inl rfl
    | exact Or.inr ⟨by decide, fun h => h⟩ | exact Or.inr (by decide) | decide

theorem State.scrubRead_within {W : Nat} {s0 s : State} (quarter : Nat) (found : ScrubFinding) (hW : Within W s0 s)
    (hM : 28316864 ||| W = W) : Within W s0 (s.scrubRead quarter found) := by
  refine hW.step ?_ hM; clear hW hM; unfold State.scrubRead
  dsimp only
  repeat' first
    | with_reducible apply Within.refl | with_reducible apply State.correctedError_within
    | with_reducible apply State.kioskCorrected_within | with_reducible apply State.kioskUncorrectable_within
    | with_reducible apply State.countUe_within | with_reducible apply State.raise_within
    | (conv => arg 3; arg 24; skip); with_reducible apply Within.build | with_reducible exact Or.inl rfl
    | exact Or.inr (by decide) | decide | split

theorem State.cellEvent_within {W : Nat} {s0 s : State} (c : Nat) (hW : Within W s0 s)
    (hM : 20005056 ||| W = W) : Within W s0 (s.cellEvent c) := by
  refine hW.step ?_ hM; clear hW hM; unfold State.cellEvent
  dsimp only
  repeat' first
    | with_reducible apply Within.refl | with_reducible apply State.raise_within | with_reducible apply Within.ite
    | (conv => arg 3; arg 24; skip); with_reducible apply Within.build | with_reducible exact Or.inl rfl
    | exact Or.inr (by decide) | decide

theorem State.cellDeliver_within {W : Nat} {s0 s : State} (c : Nat) (hW : Within W s0 s)
    (hM : 16842752 ||| W = W) : Within W s0 (s.cellDeliver c) := by
  refine hW.step ?_ hM; clear hW hM; unfold State.cellDeliver
  dsimp only
  repeat' first
    | with_reducible apply Within.refl | with_reducible apply State.emit_within | with_reducible apply Within.ite
    | (conv => arg 3; arg 24; skip); with_reducible apply Within.build | with_reducible exact Or.inl rfl
    | exact Or.inr (by decide) | decide

theorem State.cellAck_within {W : Nat} {s0 s : State} (c : Nat) (hW : Within W s0 s)
    (hM : 65536 ||| W = W) : Within W s0 (s.cellAck c) := by
  refine hW.step ?_ hM; clear hW hM; unfold State.cellAck
  dsimp only
  repeat' first
    | with_reducible apply Within.refl | with_reducible apply Within.ite
    | (conv => arg 3; arg 24; skip); with_reducible apply Within.build | with_reducible exact Or.inl rfl
    | exact Or.inr (by decide)

theorem State.deliverCells_within {W : Nat} {s0 s : State}  (hW : Within W s0 s)
    (hM : 16842752 ||| W = W) : Within W s0 s.deliverCells := by
  refine hW.step ?_ hM; clear hW hM; unfold State.deliverCells
  repeat' first
    | with_reducible apply Within.refl | with_reducible apply Within.foldl | (intro _ _; try dsimp only)
    | with_reducible apply State.cellAck_within | with_reducible apply State.cellDeliver_within | decide

/-! ## Commands -/

theorem execMaintWipe_within (v : Word32) (s : State) :
    ∃ t, execMaintWipe v s = .next t ∧ Within 132224 s t := by
  unfold execMaintWipe
  refine ⟨_, rfl, ?_⟩
  repeat' first
    | with_reducible apply Within.refl | with_reducible apply State.coreWrite_within
    | with_reducible apply State.writeMaintCtrl_within | decide

theorem execMaintBist_within (v : Word32) (s : State) :
    ∃ t, execMaintBist v s = .next t ∧ Within 132224 s t := by
  unfold execMaintBist
  refine ⟨_, rfl, ?_⟩
  repeat' first
    | with_reducible apply Within.refl | with_reducible apply State.coreWrite_within
    | with_reducible apply State.writeMaintCtrl_within | decide

theorem execMaintKsweep_within (v : Word32) (s : State) :
    ∃ t, execMaintKsweep v s = .next t ∧ Within 132224 s t := by
  unfold execMaintKsweep
  refine ⟨_, rfl, ?_⟩
  repeat' first
    | with_reducible apply Within.refl | with_reducible apply State.coreWrite_within
    | with_reducible apply State.writeMaintCtrl_within | decide

theorem execSegmentZeroed_within (seg : Fin 32768) (s : State) :
    ∃ t, execSegmentZeroed seg s = .next t ∧ Within 19926208 s t := by
  unfold execSegmentZeroed
  refine ⟨_, rfl, ?_⟩
  repeat' first
    | with_reducible apply Within.refl | with_reducible apply State.segmentZeroed_within | decide

theorem execScrubRead_within (quarter : Fin 4) (found : ScrubFinding) (s : State) :
    ∃ t, execScrubRead quarter found s = .next t ∧ Within 28316864 s t := by
  unfold execScrubRead
  refine ⟨_, rfl, ?_⟩
  repeat' first
    | with_reducible apply Within.refl | with_reducible apply State.scrubRead_within | decide

theorem execCrosswalkEvent_within (cell : Fin 25) (s : State) :
    ∃ t, execCrosswalkEvent cell s = .next t ∧ Within 20005056 s t := by
  unfold execCrosswalkEvent
  refine ⟨_, rfl, ?_⟩
  repeat' first
    | with_reducible apply Within.refl | with_reducible apply State.cellEvent_within | decide

end Sys2Proof.Machine
end

