-- ==== Sys2Proof/Laws/Data.lean ====
section
/-!
SUPPORT. What the operations of Machine/Data.lean may change (Laws/Within.lean says how a mask names the parts).
-/
namespace Sys2Proof.Machine

theorem State.releaseTime_within {W : Nat} {s0 s : State} (n : Nat) (msn : BitVec 32) (at_ : Arrival) (carried : Option Nat) (hW : Within W s0 s)
    (hM : 19923137 ||| W = W) : Within W s0 (s.releaseTime n msn at_ carried).1 := by
  refine hW.step ?_ hM; clear hW hM; unfold State.releaseTime
  dsimp only
  repeat' first
    | with_reducible apply Within.refl | with_reducible apply State.raiseQ_within | with_reducible apply State.updQ_within
    | decide | dsimp only | split

theorem State.releaseTime_eq_within {W : Nat} {s0 s t : State} {n : Nat} {msn : BitVec 32} {at_ : Arrival} {carried : Option Nat} {y0 : Nat} (e : State.releaseTime s n msn at_ carried = (t, y0)) (hW : Within W s0 s)
    (hM : 19923137 ||| W = W) : Within W s0 t := by
  have h := State.releaseTime_within n msn at_ carried hW hM
  rw [e] at h
  exact h

theorem State.skipHead_within {W : Nat} {s0 s : State} (n : Nat) (pos : Nat) (h : StoredHdr) (kind : DropKind) (hW : Within W s0 s)
    (hM : 1025 ||| W = W) : Within W s0 (s.skipHead n pos h kind) := by
  refine hW.step ?_ hM; clear hW hM; unfold State.skipHead
  dsimp only
  repeat' first
    | with_reducible apply Within.refl | with_reducible apply State.release_within | with_reducible apply State.updQ_within
    | decide

theorem State.headDrops_within {W : Nat} {s0 s : State} (n : Nat) (more : State → Bool) (a3 : Nat) (hW : Within W s0 s)
    (hM : 1025 ||| W = W) : Within W s0 (s.headDrops n more a3) := by
  refine hW.step ?_ hM
  clear hW hM
  induction a3 generalizing s n more with
  | zero =>
    unfold State.headDrops
    repeat' with_reducible apply Within.refl
  | succ k ih =>
    unfold State.headDrops
    dsimp only
    repeat' first
      | with_reducible apply Within.refl | with_reducible apply State.skipHead_within | with_reducible apply Within.ite | decide
      | with_reducible refine Within.step (M := 1025) ?_ (ih _ _) rfl | split

theorem State.evict_within {W : Nat} {s0 s : State} (n : Nat) (i : Nat) (hW : Within W s0 s)
    (hM : 16778369 ||| W = W) : Within W s0 (s.evict n i) := by
  refine hW.step ?_ hM; clear hW hM; unfold State.evict
  dsimp only
  repeat' first
    | with_reducible apply Within.refl | with_reducible apply State.post_within | with_reducible apply State.release_within
    | with_reducible apply State.setQ_within | decide

theorem State.evictAll_within {W : Nat} {s0 s : State} (n : Nat) (more : State → Bool) (a3 : Nat) (hW : Within W s0 s)
    (hM : 16778369 ||| W = W) : Within W s0 (s.evictAll n more a3) := by
  refine hW.step ?_ hM
  clear hW hM
  induction a3 generalizing s n more with
  | zero =>
    unfold State.evictAll
    repeat' with_reducible apply Within.refl
  | succ k ih =>
    unfold State.evictAll
    repeat' first
      | with_reducible apply Within.refl | with_reducible apply State.evict_within | with_reducible apply Within.ite | decide
      | with_reducible refine Within.step (M := 16778369) ?_ (ih _ _) rfl | split

theorem State.askSegment_within {W : Nat} {s0 s : State} (n : Nat) (hW : Within W s0 s)
    (hM : 1 ||| W = W) : Within W s0 (s.askSegment n) := by
  refine hW.step ?_ hM; clear hW hM; unfold State.askSegment
  repeat' first
    | with_reducible apply Within.refl | with_reducible apply State.updQ_within | decide

theorem State.waitRoom_within {W : Nat} {s0 s : State} (n : Nat) (hW : Within W s0 s)
    (hM : 1 ||| W = W) : Within W s0 (s.waitRoom n) := by
  refine hW.step ?_ hM; clear hW hM; unfold State.waitRoom
  repeat' first
    | with_reducible apply Within.refl | with_reducible apply State.updQ_within | decide

theorem State.commit_within {W : Nat} {s0 s : State} (n : Nat) (p : Plan) (last : Bool) (hW : Within W s0 s)
    (hM : 20057281 ||| W = W) : Within W s0 (s.commit n p last) := by
  refine hW.step ?_ hM; clear hW hM; unfold State.commit
  dsimp only
  repeat' first
    | with_reducible apply Within.refl | with_reducible apply State.askSegment_within
    | with_reducible apply State.evalFlags_within | with_reducible apply State.finishMsg_within
    | with_reducible apply State.raiseQ_within | with_reducible apply State.setQ_within
    | with_reducible apply State.ungate_within | with_reducible apply State.updQ_within
    | with_reducible apply State.wrBytes_within | with_reducible apply Within.ite | decide | split

theorem State.take_eq_within {W : Nat} {s0 s t : State} {n room : Nat} {x : Chunk} (e : s.take n room = some (x, t)) (hW : Within W s0 s)
    (hM : 1 ||| W = W) : Within W s0 t := by
  refine hW.step ?_ hM
  clear hW hM
  have set : ∀ q, Within 1 s (s.setQ n q) := fun q => State.setQ_within n q (Within.refl _ _) rfl
  unfold State.take at e
  dsimp only at e
  repeat' split at e
  all_goals first
    | (simp only [Option.some.injEq, Prod.mk.injEq] at e; obtain ⟨-, rfl⟩ := e; exact set _) | cases e

theorem State.dropSentHead_within {W : Nat} {s0 s : State} (n : Nat) (hW : Within W s0 s)
    (hM : 1 ||| W = W) : Within W s0 (s.dropSentHead n) := by
  refine hW.step ?_ hM; clear hW hM; unfold State.dropSentHead
  dsimp only
  repeat' first
    | with_reducible apply Within.refl | with_reducible apply State.setQ_within | with_reducible apply Within.ite | decide
    | split

theorem State.judgeHead_within {W : Nat} {s0 s : State} (n : Nat) (hW : Within W s0 s)
    (hM : 19926209 ||| W = W) : Within W s0 (s.judgeHead n) := by
  refine hW.step ?_ hM; clear hW hM; unfold State.judgeHead
  dsimp only
  repeat' first
    | with_reducible apply Within.refl | with_reducible apply State.raiseQ_within | with_reducible apply State.updQ_within
    | with_reducible apply State.wrBytes_within | with_reducible apply Within.ite | decide | split

theorem State.rejudge_within {W : Nat} {s0 s : State} (n : Nat) (hW : Within W s0 s)
    (hM : 19926209 ||| W = W) : Within W s0 (s.rejudge n) := by
  refine hW.step ?_ hM; clear hW hM; unfold State.rejudge
  dsimp only
  repeat' first
    | with_reducible apply Within.refl | with_reducible apply State.judgeHead_within | with_reducible apply State.updQ_within
    | decide

theorem State.afterRead_within {W : Nat} {s0 s : State} (n : Nat) (hW : Within W s0 s)
    (hM : 28445889 ||| W = W) : Within W s0 (s.afterRead n) := by
  refine hW.step ?_ hM; clear hW hM; unfold State.afterRead
  dsimp only
  repeat' first
    | with_reducible apply Within.refl | with_reducible apply State.evalFlags_within
    | with_reducible apply State.judgeHead_within | with_reducible apply State.release_within
    | with_reducible apply State.syncNow_within | with_reducible apply State.tryClose_within
    | with_reducible apply State.ungate_within | with_reducible apply Within.ite | decide

theorem State.ageOut_within {W : Nat} {s0 s : State} (n : Nat) (a2 : Nat) (hW : Within W s0 s)
    (hM : 1025 ||| W = W) : Within W s0 (s.ageOut n a2) := by
  refine hW.step ?_ hM
  clear hW hM
  induction a2 generalizing s n with
  | zero =>
    unfold State.ageOut
    repeat' with_reducible apply Within.refl
  | succ k ih =>
    unfold State.ageOut
    dsimp only
    repeat' first
      | with_reducible apply Within.refl | with_reducible apply State.skipHead_within | with_reducible apply State.updQ_within
      | with_reducible apply Within.ite | decide | with_reducible refine Within.step (M := 1025) ?_ (ih _) rfl | split

end Sys2Proof.Machine
end

