-- ==== Sys2Proof/Laws/HostCmd.lean ====
section
/-!
SUPPORT. What the operations of Machine/HostCmd.lean may change (Laws/Within.lean says how a mask names the parts).
-/
namespace Sys2Proof.Machine

theorem State.placeMark_within {W : Nat} {s0 s : State} (n : Nat) (m : Nat) (atWrite : Bool) (hW : Within W s0 s)
    (hM : 16778369 ||| W = W) : Within W s0 (s.placeMark n m atWrite) := by
  refine hW.step ?_ hM; clear hW hM; unfold State.placeMark
  dsimp only
  repeat' first
    | with_reducible apply Within.refl | with_reducible apply State.evalFlags_within | with_reducible apply State.release_within
    | with_reducible apply State.updQ_within | decide

theorem State.writeMark_within {W : Nat} {s0 s : State} (n : Nat) (m : Nat) (hW : Within W s0 s)
    (hM : 16778433 ||| W = W) : Within W s0 (s.writeMark n m) := by
  refine hW.step ?_ hM; clear hW hM; unfold State.writeMark
  dsimp only
  repeat' first
    | with_reducible apply Within.refl | with_reducible apply State.placeMark_within
    | with_reducible apply State.sendCtrl_within | with_reducible apply State.updQ_within | with_reducible apply Within.ite
    | decide | split

theorem State.rewindTo_within {W : Nat} {s0 s : State} (n : Nat) (t : Nat) (hW : Within W s0 s)
    (hM : 16777345 ||| W = W) : Within W s0 (s.rewindTo n t) := by
  refine hW.step ?_ hM; clear hW hM; unfold State.rewindTo
  dsimp only
  repeat' first
    | with_reducible apply Within.refl | with_reducible apply State.evalFlags_within | with_reducible apply State.setQ_within
    | decide

theorem State.applyRewind_within {W : Nat} {s0 s : State} (n : Nat) (w : RewindWait) (hW : Within W s0 s)
    (hM : 28312769 ||| W = W) : Within W s0 (s.applyRewind n w) := by
  refine hW.step ?_ hM; clear hW hM; unfold State.applyRewind
  dsimp only
  repeat' first
    | with_reducible apply Within.refl | with_reducible apply State.completeResult_within
    | with_reducible apply State.rewindTo_within | with_reducible apply State.tryClose_within | decide | split

theorem State.startRewind_within {W : Nat} {s0 s : State} (n : Nat) (w : RewindWait) (hW : Within W s0 s)
    (hM : 28312769 ||| W = W) : Within W s0 (s.startRewind n w) := by
  refine hW.step ?_ hM; clear hW hM; unfold State.startRewind
  repeat' first
    | with_reducible apply Within.refl | with_reducible apply State.applyRewind_within | with_reducible apply State.updQ_within
    | with_reducible apply Within.ite | decide

theorem State.releaseMark_within {W : Nat} {s0 s : State} (n : Nat) (m : Nat) (hW : Within W s0 s)
    (hM : 28312769 ||| W = W) : Within W s0 (s.releaseMark n m) := by
  refine hW.step ?_ hM; clear hW hM; unfold State.releaseMark
  dsimp only
  repeat' first
    | with_reducible apply Within.refl | with_reducible apply State.evalFlags_within | with_reducible apply State.release_within
    | with_reducible apply State.tryClose_within | with_reducible apply State.updQ_within | decide

end Sys2Proof.Machine
end

