-- ==== Sys2Proof/Laws/QueueCmds.lean ====
section
/-!
SUPPORT. What the operations of Machine/QueueCmds.lean may change (Laws/Within.lean says how a mask names the parts).
-/
namespace Sys2Proof.Machine

theorem State.wakeQuarters_within {W : Nat} {s0 s : State} (aff : Nat) (hW : Within W s0 s)
    (hM : 1024 ||| W = W) : Within W s0 (s.wakeQuarters aff) := by
  refine hW.step ?_ hM; clear hW hM; unfold State.wakeQuarters
  dsimp only
  repeat' first
    | with_reducible apply Within.refl | (conv => arg 3; arg 24; skip); with_reducible apply Within.build
    | with_reducible exact Or.inl rfl | exact Or.inr (by decide)

theorem State.doQueueBind_within {W : Nat} {s0 s : State} (r : CmdRef) (d : Block512) (hW : Within W s0 s)
    (hM : 19924161 ||| W = W) : Within W s0 (s.doQueueBind r d) := by
  refine hW.step ?_ hM; clear hW hM; unfold State.doQueueBind
  dsimp only
  repeat' first
    | with_reducible apply Within.refl | with_reducible apply State.complete_within
    | with_reducible apply State.evalFlags_within | with_reducible apply State.setQ_within
    | with_reducible apply State.takeSegs_within | with_reducible apply State.wakeQuarters_within
    | with_reducible apply Within.ite | decide

theorem State.waitMembers_within {W : Nat} {s0 s : State} (n : Nat) (r : CmdRef) (code : Nat) (pos : Nat) (hW : Within W s0 s)
    (hM : 1 ||| W = W) : Within W s0 (s.waitMembers n r code pos) := by
  refine hW.step ?_ hM; clear hW hM; unfold State.waitMembers
  dsimp only
  repeat' first
    | with_reducible apply Within.refl | with_reducible apply State.updQ_within | decide

theorem State.openQueue_within {W : Nat} {s0 s : State} (n : Nat) (hW : Within W s0 s)
    (hM : 19926209 ||| W = W) : Within W s0 (s.openQueue n) := by
  refine hW.step ?_ hM; clear hW hM; unfold State.openQueue
  dsimp only
  repeat' first
    | with_reducible apply Within.refl | with_reducible apply State.evalFlags_within | with_reducible apply State.hold_within
    | with_reducible apply State.updQ_within | with_reducible apply Within.ite | decide

theorem State.doQueueOpen_within {W : Nat} {s0 s : State} (r : CmdRef) (d : Block512) (hW : Within W s0 s)
    (hM : 19926209 ||| W = W) : Within W s0 (s.doQueueOpen r d) := by
  refine hW.step ?_ hM; clear hW hM; unfold State.doQueueOpen
  dsimp only
  repeat' first
    | with_reducible apply Within.refl | with_reducible apply State.complete_within
    | with_reducible apply State.openQueue_within | with_reducible apply State.sendChainCmd_within
    | with_reducible apply State.waitMembers_within | with_reducible apply Within.ite | decide

theorem State.closeQueue_within {W : Nat} {s0 s : State} (n : Nat) (hW : Within W s0 s)
    (hM : 28314817 ||| W = W) : Within W s0 (s.closeQueue n) := by
  refine hW.step ?_ hM; clear hW hM; unfold State.closeQueue
  dsimp only
  repeat' first
    | with_reducible apply Within.refl | with_reducible apply State.abortWriteEnd_within
    | with_reducible apply State.evalFlags_within | with_reducible apply State.stopWrite_within
    | with_reducible apply State.tryClose_within | with_reducible apply State.updQ_within | decide

theorem State.doQueueClose_within {W : Nat} {s0 s : State} (r : CmdRef) (d : Block512) (hW : Within W s0 s)
    (hM : 28314817 ||| W = W) : Within W s0 (s.doQueueClose r d) := by
  refine hW.step ?_ hM; clear hW hM; unfold State.doQueueClose
  dsimp only
  repeat' first
    | with_reducible apply Within.refl | with_reducible apply State.abortWriteEnd_within
    | with_reducible apply State.closeQueue_within | with_reducible apply State.complete_within
    | with_reducible apply State.sendChainCmd_within | with_reducible apply State.updQ_within
    | with_reducible apply State.waitMembers_within | with_reducible apply Within.ite | decide | split

theorem State.discardIdle_within {W : Nat} {s0 s : State} (n : Nat) (hW : Within W s0 s)
    (hM : 25165953 ||| W = W) : Within W s0 (s.discardIdle n) := by
  refine hW.step ?_ hM; clear hW hM; unfold State.discardIdle
  dsimp only
  repeat' first
    | with_reducible apply Within.refl | with_reducible apply State.abortReadEnd_within
    | with_reducible apply State.abortWriteEnd_within | with_reducible apply State.evalFlags_within
    | with_reducible apply State.updQ_within | decide

theorem State.discardAny_within {W : Nat} {s0 s : State} (n : Nat) (hW : Within W s0 s)
    (hM : 28312769 ||| W = W) : Within W s0 (s.discardAny n) := by
  refine hW.step ?_ hM; clear hW hM; unfold State.discardAny
  repeat' first
    | with_reducible apply Within.refl | with_reducible apply State.discard_within
    | with_reducible apply State.discardIdle_within | decide | split

theorem State.doQueueDiscard_within {W : Nat} {s0 s : State} (r : CmdRef) (d : Block512) (hW : Within W s0 s)
    (hM : 28312769 ||| W = W) : Within W s0 (s.doQueueDiscard r d) := by
  refine hW.step ?_ hM; clear hW hM; unfold State.doQueueDiscard
  dsimp only
  repeat' first
    | with_reducible apply Within.refl | with_reducible apply State.complete_within
    | with_reducible apply State.discardAny_within | with_reducible apply State.realign_within
    | with_reducible apply State.sendChainCmd_within | with_reducible apply State.waitMembers_within
    | with_reducible apply Within.ite | decide

theorem State.doQueueReset_within {W : Nat} {s0 s : State} (r : CmdRef) (d : Block512) (hW : Within W s0 s)
    (hM : 28312769 ||| W = W) : Within W s0 (s.doQueueReset r d) := by
  refine hW.step ?_ hM; clear hW hM; unfold State.doQueueReset
  dsimp only
  repeat' first
    | with_reducible apply Within.refl | with_reducible apply State.complete_within | with_reducible apply State.realign_within
    | with_reducible apply State.resetQueue_within | with_reducible apply State.sendChainCmd_within
    | with_reducible apply State.waitMembers_within | with_reducible apply Within.ite | decide

theorem State.doQueueRelease_within {W : Nat} {s0 s : State} (r : CmdRef) (d : Block512) (hW : Within W s0 s)
    (hM : 19924161 ||| W = W) : Within W s0 (s.doQueueRelease r d) := by
  refine hW.step ?_ hM; clear hW hM; unfold State.doQueueRelease
  dsimp only
  repeat' first
    | with_reducible apply Within.refl | with_reducible apply State.complete_within | with_reducible apply State.unbind_within
    | with_reducible apply Within.ite | decide

theorem State.doQueryQueue_within {W : Nat} {s0 s : State} (r : CmdRef) (d : Block512) (hW : Within W s0 s)
    (hM : 19923136 ||| W = W) : Within W s0 (s.doQueryQueue r d) := by
  refine hW.step ?_ hM; clear hW hM; unfold State.doQueryQueue
  dsimp only
  repeat' first
    | with_reducible apply Within.refl | with_reducible apply State.complete_within
    | with_reducible apply State.completeResult_within | with_reducible apply Within.ite | decide

theorem State.doGroupSet_within {W : Nat} {s0 s : State} (r : CmdRef) (d : Block512) (hW : Within W s0 s)
    (hM : 19923138 ||| W = W) : Within W s0 (s.doGroupSet r d) := by
  refine hW.step ?_ hM; clear hW hM; unfold State.doGroupSet
  dsimp only
  repeat' first
    | with_reducible apply Within.refl | with_reducible apply State.complete_within | with_reducible apply State.setGroup_within
    | with_reducible apply Within.ite | decide

theorem State.doFlagSet_within {W : Nat} {s0 s : State} (r : CmdRef) (d : Block512) (hW : Within W s0 s)
    (hM : 19923137 ||| W = W) : Within W s0 (s.doFlagSet r d) := by
  refine hW.step ?_ hM; clear hW hM; unfold State.doFlagSet
  dsimp only
  repeat' first
    | with_reducible apply Within.refl | with_reducible apply State.complete_within
    | with_reducible apply State.completeResult_within | with_reducible apply State.flagEvent_within
    | with_reducible apply State.sendStatus_within | with_reducible apply State.setQ_within
    | with_reducible apply State.updQ_within | with_reducible apply Within.ite | decide

theorem State.doMark_within {W : Nat} {s0 s : State} (r : CmdRef) (d : Block512) (hW : Within W s0 s)
    (hM : 19924161 ||| W = W) : Within W s0 (s.doMark r d) := by
  refine hW.step ?_ hM; clear hW hM; unfold State.doMark
  dsimp only
  repeat' first
    | with_reducible apply Within.refl | with_reducible apply State.complete_within
    | with_reducible apply State.completeResult_within | with_reducible apply State.placeMark_within
    | with_reducible apply State.updQ_within | with_reducible apply Within.ite | decide

theorem State.doRewind_within {W : Nat} {s0 s : State} (r : CmdRef) (d : Block512) (hW : Within W s0 s)
    (hM : 28312769 ||| W = W) : Within W s0 (s.doRewind r d) := by
  refine hW.step ?_ hM; clear hW hM; unfold State.doRewind
  dsimp only
  repeat' first
    | with_reducible apply Within.refl | with_reducible apply State.complete_within
    | with_reducible apply State.startRewind_within | with_reducible apply Within.ite | decide

theorem State.doReleaseMark_within {W : Nat} {s0 s : State} (r : CmdRef) (d : Block512) (hW : Within W s0 s)
    (hM : 28312769 ||| W = W) : Within W s0 (s.doReleaseMark r d) := by
  refine hW.step ?_ hM; clear hW hM; unfold State.doReleaseMark
  dsimp only
  repeat' first
    | with_reducible apply Within.refl | with_reducible apply State.complete_within
    | with_reducible apply State.completeResult_within | with_reducible apply State.releaseMark_within
    | with_reducible apply Within.ite | decide

theorem State.doPinSet_within {W : Nat} {s0 s : State} (r : CmdRef) (d : Block512) (hW : Within W s0 s)
    (hM : 19926209 ||| W = W) : Within W s0 (s.doPinSet r d) := by
  refine hW.step ?_ hM; clear hW hM; unfold State.doPinSet
  dsimp only
  repeat' first
    | with_reducible apply Within.refl | with_reducible apply State.complete_within
    | with_reducible apply State.completeResult_within | with_reducible apply State.rejudge_within
    | with_reducible apply State.setQ_within | with_reducible apply Within.ite | decide

theorem State.doPolicySet_within {W : Nat} {s0 s : State} (r : CmdRef) (d : Block512) (hW : Within W s0 s)
    (hM : 19923137 ||| W = W) : Within W s0 (s.doPolicySet r d) := by
  refine hW.step ?_ hM; clear hW hM; unfold State.doPolicySet
  dsimp only
  repeat' first
    | with_reducible apply Within.refl | with_reducible apply State.complete_within
    | with_reducible apply State.completeResult_within | with_reducible apply State.evalFlags_within
    | with_reducible apply State.setQ_within | with_reducible apply State.updQ_within | with_reducible apply Within.ite | decide

end Sys2Proof.Machine
end

