-- ==== Sys2Proof/Laws/Slots.lean ====
section
/-!
SUPPORT. What the operations of Machine/Slots.lean may change (Laws/Within.lean says how a mask names the parts),
and the commands of that file.
-/
namespace Sys2Proof.Machine

theorem State.setSlot_within {W : Nat} {s0 s : State} (i : Nat) (x : Slot) (hW : Within W s0 s)
    (hM : 524288 ||| W = W) : Within W s0 (s.setSlot i x) := by
  refine hW.step ?_ hM; clear hW hM; unfold State.setSlot
  dsimp only
  repeat' first
    | with_reducible apply Within.refl
    | exact Or.inr ⟨by decide, rfl, rfl, rfl, rfl, Nat.le_refl _, Nat.le_refl _, fun h => ⟨h.1, h.2⟩⟩
    | (conv => arg 3; arg 24; skip); with_reducible apply Within.build | with_reducible exact Or.inl rfl

theorem State.slotChange_within {W : Nat} {s0 s : State} (i : Nat) (kind : Nat) (typ : Nat) (scope : Nat) (hW : Within W s0 s)
    (hM : 16777344 ||| W = W) : Within W s0 (s.slotChange i kind typ scope) := by
  refine hW.step ?_ hM; clear hW hM; unfold State.slotChange
  dsimp only
  repeat' first
    | with_reducible apply Within.refl | with_reducible apply State.post_within | with_reducible apply Within.ite | decide

theorem State.revokeQueue_within {W : Nat} {s0 s : State} (n : Nat) (hW : Within W s0 s)
    (hM : 19926209 ||| W = W) : Within W s0 (s.revokeQueue n) := by
  refine hW.step ?_ hM; clear hW hM; unfold State.revokeQueue
  dsimp only
  repeat' first
    | with_reducible apply Within.refl | with_reducible apply State.hold_within | with_reducible apply State.updQ_within
    | decide

theorem State.revokeSession_within {W : Nat} {s0 s : State} (g : Nat) (hW : Within W s0 s)
    (hM : 19926211 ||| W = W) : Within W s0 (s.revokeSession g) := by
  refine hW.step ?_ hM; clear hW hM; unfold State.revokeSession
  dsimp only
  repeat' first
    | with_reducible apply Within.refl | with_reducible apply Within.foldl | (intro _ _; try dsimp only)
    | with_reducible apply State.hold_within | with_reducible apply State.setGroup_within | decide

theorem State.invalidate_within {W : Nat} {s0 s : State} (scope : Nat) (hW : Within W s0 s)
    (hM : 19926211 ||| W = W) : Within W s0 (s.invalidate scope) := by
  refine hW.step ?_ hM; clear hW hM; unfold State.invalidate
  dsimp only
  repeat' first
    | with_reducible apply Within.refl | with_reducible apply Within.foldl | (intro _ _; try dsimp only)
    | with_reducible apply State.broadcastCtrl_within | with_reducible apply State.revokeQueue_within
    | with_reducible apply State.revokeSession_within | with_reducible apply Within.ite
    | (conv => arg 3; arg 24; skip); with_reducible apply Within.build | with_reducible exact Or.inl rfl
    | exact Or.inr (by decide) | decide

theorem State.markBad_within {W : Nat} {s0 s : State} (i : Nat) (hW : Within W s0 s)
    (hM : 20450499 ||| W = W) : Within W s0 (s.markBad i) := by
  refine hW.step ?_ hM; clear hW hM; unfold State.markBad
  dsimp only
  repeat' first
    | with_reducible apply Within.refl | with_reducible apply State.invalidate_within
    | with_reducible apply State.setSlot_within | with_reducible apply State.slotChange_within | with_reducible apply Within.ite
    | decide

theorem State.checkSlot_within {W : Nat} {s0 s : State} (i : Nat) (hW : Within W s0 s)
    (hM : 20450499 ||| W = W) : Within W s0 (s.checkSlot i) := by
  refine hW.step ?_ hM; clear hW hM; unfold State.checkSlot
  repeat' first
    | with_reducible apply Within.refl | with_reducible apply State.markBad_within | with_reducible apply Within.ite | decide

theorem State.readParent_within {W : Nat} {s0 s : State} (scope : Nat) (hW : Within W s0 s)
    (hM : 20450499 ||| W = W) : Within W s0 (s.readParent scope).1 := by
  refine hW.step ?_ hM; clear hW hM; unfold State.readParent
  dsimp only
  repeat' first
    | with_reducible apply Within.refl | with_reducible apply State.checkSlot_within | decide | split

theorem State.readParent_eq_within {W : Nat} {s0 s t : State} {scope : Nat} {y0 : Option (BitVec 256)} (e : State.readParent s scope = (t, y0)) (hW : Within W s0 s)
    (hM : 20450499 ||| W = W) : Within W s0 t := by
  have h := State.readParent_within scope hW hM
  rw [e] at h
  exact h

theorem State.sweep_within (s : State) : Within 20450499 s ((List.range 64).foldl State.checkSlot s) :=
  Within.foldl (fun _ _ => State.checkSlot_within _ (Within.refl _ _) (by decide)) _ (Within.refl _ _)

theorem State.sweepEnd_within {W : Nat} {s0 s : State} (hW : Within W s0 s)
    (hM : 20450499 ||| W = W) : Within W s0 s.sweepEnd := by
  refine hW.step ?_ hM
  unfold State.sweepEnd
  have h := s.sweep_within
  generalize (List.range 64).foldl State.checkSlot s = t at h
  refine Within.step (M := 20450499) h ?_ (by decide)
  dsimp only
  apply State.maintDone_within _ _ _ _ _ (by decide)
  with_reducible apply Within.build
  all_goals first
    | with_reducible apply Within.refl | with_reducible exact Or.inl rfl | exact Or.inr (by decide)

theorem State.maintEnd_within {W : Nat} {s0 s : State} (quarter : Option Nat) (failing : Nat) (hW : Within W s0 s)
    (hM : 20450499 ||| W = W) : Within W s0 (s.maintEnd quarter failing) := by
  refine hW.step ?_ hM
  unfold State.maintEnd
  split
  · exact State.endReleases_within (State.actEnd_within _ _ (Within.refl _ _) (by decide)) (by decide)
  · refine Within.ite (Within.ite (State.sweepEnd_within (Within.refl _ _) (by decide)) ?_) (Within.refl _ _)
    have h := s.sweep_within
    generalize (List.range 64).foldl State.checkSlot s = t at h
    refine Within.step (M := 20450499) h ?_ (by decide)
    dsimp only
    with_reducible apply Within.build
    all_goals first
      | with_reducible apply Within.refl | with_reducible exact Or.inl rfl | exact Or.inr (by decide)

theorem State.rekeyed_within {W : Nat} {s0 s : State} (n : Nat) (hW : Within W s0 s)
    (hM : 28312769 ||| W = W) : Within W s0 (s.rekeyed n) := by
  refine hW.step ?_ hM; clear hW hM; unfold State.rekeyed
  repeat' first
    | with_reducible apply Within.refl | with_reducible apply State.unhold_within | with_reducible apply Within.ite | decide

theorem State.rekeyedScope_within {W : Nat} {s0 s : State} (scope : Nat) (n : Nat) (g : Nat) (hW : Within W s0 s)
    (hM : 28312769 ||| W = W) : Within W s0 (s.rekeyedScope scope n g) := by
  refine hW.step ?_ hM; clear hW hM; unfold State.rekeyedScope
  repeat' first
    | with_reducible apply Within.refl | with_reducible apply Within.foldl | (intro _ _; try dsimp only)
    | with_reducible apply State.rekeyed_within | decide | split

theorem State.bindKeys_within {W : Nat} {s0 s : State} (scope : Nat) (n : Nat) (g : Nat) (epoch : BitVec 16) (parent : BitVec 256) (hW : Within W s0 s)
    (hM : 67 ||| W = W) : Within W s0 (s.bindKeys scope n g epoch parent) := by
  refine hW.step ?_ hM; clear hW hM; unfold State.bindKeys
  repeat' first
    | with_reducible apply Within.refl | with_reducible apply State.setGroup_within | with_reducible apply State.updQ_within
    | (conv => arg 3; arg 24; skip); with_reducible apply Within.build | with_reducible exact Or.inl rfl
    | exact Or.inr (by decide) | decide | split

theorem State.doRekey_within {W : Nat} {s0 s : State} (r : CmdRef) (d : Block512) (hW : Within W s0 s)
    (hM : 28839107 ||| W = W) : Within W s0 (s.doRekey r d) := by
  refine hW.step ?_ hM; clear hW hM; unfold State.doRekey
  dsimp only
  repeat' first
    | with_reducible apply Within.refl | with_reducible apply State.bindKeys_within | with_reducible apply State.complete_within
    | with_reducible apply State.rekeyedScope_within | refine State.readParent_eq_within (by assumption) ?_ (by decide)
    | with_reducible apply Within.ite | decide | split

theorem State.graceEnd_within {W : Nat} {s0 s : State} (scope : Nat) (target : Nat) (hW : Within W s0 s)
    (hM : 67 ||| W = W) : Within W s0 (s.graceEnd scope target) := by
  refine hW.step ?_ hM; clear hW hM; unfold State.graceEnd
  dsimp only
  repeat' first
    | with_reducible apply Within.refl | with_reducible apply State.setGroup_within | with_reducible apply State.updQ_within
    | with_reducible apply Within.ite | (conv => arg 3; arg 24; skip); with_reducible apply Within.build
    | with_reducible exact Or.inl rfl | exact Or.inr (by decide) | decide | split

theorem State.doKeyQuery_within {W : Nat} {s0 s : State} (r : CmdRef) (d : Block512) (hW : Within W s0 s)
    (hM : 19923136 ||| W = W) : Within W s0 (s.doKeyQuery r d) := by
  refine hW.step ?_ hM; clear hW hM; unfold State.doKeyQuery
  dsimp only
  repeat' first
    | with_reducible apply Within.refl | with_reducible apply State.complete_within
    | with_reducible apply State.writeResult_within | with_reducible apply Within.ite | decide

theorem State.releaseTenant_within {W : Nat} {s0 s : State} (g : Nat) (hW : Within W s0 s)
    (hM : 28312771 ||| W = W) : Within W s0 (s.releaseTenant g) := by
  refine hW.step ?_ hM; clear hW hM; unfold State.releaseTenant
  dsimp only
  repeat' first
    | with_reducible apply Within.refl | with_reducible apply Within.foldl | (intro _ _; try dsimp only)
    | with_reducible apply State.discardAny_within | with_reducible apply State.setGroup_within
    | with_reducible apply State.unbind_within | decide

theorem State.doTenantRelease_within {W : Nat} {s0 s : State} (r : CmdRef) (d : Block512) (hW : Within W s0 s)
    (hM : 28312771 ||| W = W) : Within W s0 (s.doTenantRelease r d) := by
  refine hW.step ?_ hM; clear hW hM; unfold State.doTenantRelease
  dsimp only
  repeat' first
    | with_reducible apply Within.refl | with_reducible apply State.complete_within
    | with_reducible apply State.endReleases_within | with_reducible apply State.releaseTenant_within
    | with_reducible apply Within.ite | (conv => arg 3; arg 24; skip); with_reducible apply Within.build
    | with_reducible exact Or.inl rfl | exact Or.inr (by decide) | decide

/-! ## Commands -/

theorem execMaintActivityEnd_within (quarter : Option (Fin 4)) (failing : Byte) (s : State) :
    ∃ t, execMaintActivityEnd quarter failing s = .next t ∧ Within 20450499 s t := by
  unfold execMaintActivityEnd
  refine ⟨_, rfl, ?_⟩
  repeat' first
    | with_reducible apply Within.refl | with_reducible apply State.maintEnd_within | decide

theorem execEpochGraceEnd_within (scope : Fin 3) (target : Fin 8192) (s : State) :
    ∃ t, execEpochGraceEnd scope target s = .next t ∧ Within 67 s t := by
  unfold execEpochGraceEnd
  refine ⟨_, rfl, ?_⟩
  repeat' first
    | with_reducible apply Within.refl | with_reducible apply State.graceEnd_within | decide

end Sys2Proof.Machine
end

