-- ==== Sys2Proof/Laws/Messages.lean ====
section
/-!
SUPPORT. What the operations of Machine/Messages.lean may change (Laws/Within.lean says how a mask names the parts).
-/
namespace Sys2Proof.Machine

theorem State.dropParent_within {W : Nat} {s0 s : State} (i : Nat) (hW : Within W s0 s)
    (hM : 19926211 ||| W = W) : Within W s0 (s.dropParent i) := by
  refine hW.step ?_ hM; clear hW hM; unfold State.dropParent
  repeat' first
    | with_reducible apply Within.refl | with_reducible apply State.invalidate_within | with_reducible apply Within.ite | decide

theorem State.install_within {W : Nat} {s0 s : State} (m : List Byte) (material : BitVec 256) (hW : Within W s0 s)
    (hM : 20450499 ||| W = W) : Within W s0 (s.install m material) := by
  refine hW.step ?_ hM; clear hW hM; unfold State.install
  dsimp only
  repeat' first
    | with_reducible apply Within.refl | with_reducible apply State.dropParent_within
    | with_reducible apply State.setSlot_within | with_reducible apply State.slotChange_within | decide

theorem State.eraseSlot_within {W : Nat} {s0 s : State} (m : List Byte) (hW : Within W s0 s)
    (hM : 20450499 ||| W = W) : Within W s0 (s.eraseSlot m) := by
  refine hW.step ?_ hM; clear hW hM; unfold State.eraseSlot
  dsimp only
  repeat' first
    | with_reducible apply Within.refl | with_reducible apply State.dropParent_within
    | with_reducible apply State.setSlot_within | with_reducible apply State.slotChange_within | decide

theorem State.dropParents_within (s : State) : Within 20971007 s ((List.range 64).foldl State.dropParent s) :=
  Within.foldl (fun _ _ => State.dropParent_within _ (Within.refl _ _) (by decide)) _ (Within.refl _ _)

theorem State.lcSet_within {W : Nat} {s0 s : State} (target : Nat) (hl : target ≤ 4) (hW : Within W s0 s)
    (hM : 20971007 ||| W = W) : Within W s0 (s.lcSet target) := by
  refine hW.step ?_ hM; clear hW hM; unfold State.lcSet
  have h : Within 20971007 s { s with nv := { s.nv with lc := target, ownerLock := false } } := by
    with_reducible apply Within.build
    all_goals first
      | with_reducible apply Within.refl | with_reducible exact Or.inl rfl
      | exact Or.inr ⟨by decide, rfl, rfl, rfl, rfl, Nat.le_refl _, Nat.le_refl _, fun h => ⟨h.1, hl⟩⟩
  refine Within.step (M := 20971007) h ?_ (by decide)
  clear h
  generalize ({ s with nv := { s.nv with lc := target, ownerLock := false } } : State) = t
  have emptied : Within 20971007 t { (List.range 64).foldl State.dropParent t with
      nv := { ((List.range 64).foldl State.dropParent t).nv with slots := [] } } := by
    have hd := t.dropParents_within
    generalize (List.range 64).foldl State.dropParent t = d at hd ⊢
    refine Within.step (M := 20971007) hd ?_ (by decide)
    with_reducible apply Within.build
    all_goals first
      | with_reducible apply Within.refl | with_reducible exact Or.inl rfl
      | exact Or.inr ⟨by decide, rfl, rfl, rfl, rfl, Nat.le_refl _, Nat.le_refl _, fun h => ⟨h.1, h.2⟩⟩
  have cleared : ∀ u, Within 20971007 t u → Within 20971007 t { u with power := { u.power with depot := {} } } := by
    intro u h
    refine Within.step (M := 20971007) h ?_ (by decide)
    with_reducible apply Within.build
    all_goals first
      | with_reducible apply Within.refl | with_reducible exact Or.inl rfl | exact Or.inr (by decide)
  exact cleared _ (State.startReset_within .system Cause.lcycle (Within.ite emptied (Within.refl _ _)) (by decide))

theorem State.performMsg_within {W : Nat} {s0 s : State} (m : List Byte) (material : BitVec 256)
    (hl : Msg.op m = Msg.opLcSet → Msg.arg m ≤ 4) (hW : Within W s0 s)
    (hM : 20971007 ||| W = W) : Within W s0 (s.performMsg m material) := by
  refine hW.step ?_ hM; clear hW hM; unfold State.performMsg
  split
  · exact State.install_within _ _ (Within.refl _ _) (by decide)
  · split
    · exact State.eraseSlot_within _ (Within.refl _ _) (by decide)
    · split
      · rename_i e
        exact State.lcSet_within _ (hl e) (Within.refl _ _) (by decide)
      · with_reducible apply Within.build
        all_goals first
          | with_reducible apply Within.refl | with_reducible exact Or.inl rfl
          | exact Or.inr ⟨by decide, rfl, rfl, rfl, rfl, Nat.le_refl _, Nat.le_refl _, fun h => ⟨h.1, h.2⟩⟩

theorem State.readMsgSlots_within {W : Nat} {s0 s : State} (m : List Byte) (hW : Within W s0 s)
    (hM : 20450499 ||| W = W) : Within W s0 (s.readMsgSlots m) := by
  refine hW.step ?_ hM; clear hW hM; unfold State.readMsgSlots
  dsimp only
  repeat' first
    | with_reducible apply Within.refl | with_reducible apply State.checkSlot_within | with_reducible apply Within.ite | decide

theorem State.applyMsg_within {W : Nat} {s0 s : State} (m : List Byte) (material : BitVec 256)
    (hl : Msg.op m = Msg.opLcSet → Msg.arg m ≤ 4) (hc : s.nv.ctr ≤ Msg.ctr m) (hb : Msg.ctr m < 4096) (hW : Within W s0 s)
    (hM : 29359615 ||| W = W) : Within W s0 (s.applyMsg m material).1 := by
  refine hW.step ?_ hM; clear hW hM; unfold State.applyMsg
  have h : Within 29359615 s { s with nv := { s.nv with ctr := Msg.ctr m } } := by
    with_reducible apply Within.build
    all_goals first
      | with_reducible apply Within.refl | with_reducible exact Or.inl rfl
      | exact Or.inr ⟨by decide, rfl, rfl, rfl, rfl, hc, Nat.le_refl _, fun h => ⟨hb, h.2⟩⟩
  generalize ({ s with nv := { s.nv with ctr := Msg.ctr m } } : State) = t at h
  refine Within.step (M := 29359615) h ?_ (by decide)
  dsimp only
  split
  · exact State.drawn_within (Within.refl _ _) (by decide)
  · exact State.performMsg_within _ _ hl (State.drawn_within (Within.refl _ _) (by decide)) (by decide)

theorem lcAllowed_beyond (lc n : Nat) (a : Authority) : lcAllowed lc (n + 5) a = false := by
  rcases lc with _ | _ | _ | _ | k <;> cases a <;> rfl

theorem lcAllowed_le {lc target : Nat} {a : Authority} (h : lcAllowed lc target a = true) : target ≤ 4 := by
  apply Nat.le_of_not_lt
  intro k
  obtain ⟨n, rfl⟩ := Nat.exists_eq_add_of_lt k
  rw [show 4 + n + 1 = n + 5 by omega, lcAllowed_beyond] at h
  cases h

theorem firstFail_pass {c : Bool} {st : Nat} {l : List (Bool × Nat)} (h : firstFail ((c, st) :: l) = St.ok) (hs : st ≠ St.ok) :
    c = false ∧ firstFail l = St.ok := by
  unfold firstFail at h
  cases c
  · exact ⟨rfl, by simpa using h⟩
  · simp at h
    exact absurd h hs

theorem State.authMsg_within {W : Nat} {s0 s : State} (m : List Byte) (hb : Msg.ctr m < 4096) (hW : Within W s0 s)
    (hM : 29359615 ||| W = W) : Within W s0 (s.authMsg m).1 := by
  refine hW.step ?_ hM; clear hW hM; unfold State.authMsg
  split
  · exact Within.refl _ _
  · dsimp only
    split
    · exact Within.refl _ _
    · rename_i a _ hf
      have hf := Decidable.of_not_not hf
      obtain ⟨-, hf⟩ := firstFail_pass hf (by decide)
      obtain ⟨-, hf⟩ := firstFail_pass hf (by decide)
      obtain ⟨h7, hf⟩ := firstFail_pass hf (by decide)
      obtain ⟨h8, -⟩ := firstFail_pass hf (by decide)
      have hc : s.nv.ctr ≤ Msg.ctr m := by simp at h7; omega
      have hl : Msg.op m = Msg.opLcSet → Msg.arg m ≤ 4 := by
        intro e
        have h8 : s.permitted m a = true := by simpa using h8
        unfold State.permitted at h8
        rw [if_neg (by rw [e]; decide), if_neg (by rw [e]; decide), if_pos e] at h8
        exact lcAllowed_le h8
      split
      · split
        · exact Within.refl _ _
        · exact State.applyMsg_within _ _ hl hc hb (Within.refl _ _) (by decide)
      · exact State.applyMsg_within _ _ hl hc hb (Within.refl _ _) (by decide)

theorem msgMalformed_ctr {m : List Byte} (h : msgMalformed m = false) : Msg.ctr m < 4096 := by
  unfold msgMalformed at h
  simp only [Bool.or_eq_false_iff, decide_eq_false_iff_not] at h
  omega

theorem State.keyMessage_within {W : Nat} {s0 s : State} (path : MsgPath) (m : List Byte) (hW : Within W s0 s)
    (hM : 29359615 ||| W = W) : Within W s0 (s.keyMessage path m).1 := by
  refine hW.step ?_ hM; clear hW hM; unfold State.keyMessage
  dsimp only
  split
  · exact Within.refl _ _
  · rename_i hf
    obtain ⟨h1, -⟩ := firstFail_pass (Decidable.of_not_not hf) (by decide)
    exact State.authMsg_within _ (msgMalformed_ctr h1) (State.readMsgSlots_within _ (Within.refl _ _) (by decide)) (by decide)

theorem State.keyMessage_eq_within {W : Nat} {s0 s t : State} {path : MsgPath} {m : List Byte} {y0 : Nat}
    (e : s.keyMessage path m = (t, y0)) (hW : Within W s0 s) (hM : 29359615 ||| W = W) : Within W s0 t := by
  have h := State.keyMessage_within path m hW hM
  rw [e] at h
  exact h

theorem State.doKeyCommand_within {W : Nat} {s0 s : State} (r : CmdRef) (path : MsgPath) (msg : Option (List Byte)) (hW : Within W s0 s)
    (hM : 29359615 ||| W = W) : Within W s0 (s.doKeyCommand r path msg) := by
  refine hW.step ?_ hM; clear hW hM; unfold State.doKeyCommand
  dsimp only
  repeat' first
    | with_reducible apply Within.refl | with_reducible apply State.complete_within
    | with_reducible apply State.keyMessage_within | decide | split

theorem State.doKeyUpdate_within {W : Nat} {s0 s : State} (r : CmdRef) (msg : Option (List Byte)) (hW : Within W s0 s)
    (hM : 29359615 ||| W = W) : Within W s0 (s.doKeyUpdate r msg) := by
  refine hW.step ?_ hM; clear hW hM; unfold State.doKeyUpdate
  repeat' first
    | with_reducible apply Within.refl | with_reducible apply State.doKeyCommand_within | decide

theorem State.doLcSubmit_within {W : Nat} {s0 s : State} (r : CmdRef) (msg : Option (List Byte)) (hW : Within W s0 s)
    (hM : 29359615 ||| W = W) : Within W s0 (s.doLcSubmit r msg) := by
  refine hW.step ?_ hM; clear hW hM; unfold State.doLcSubmit
  repeat' first
    | with_reducible apply Within.refl | with_reducible apply State.doKeyCommand_within | decide

end Sys2Proof.Machine
end

