-- ==== Sys2Proof/Laws/Kiosk.lean ====
section
/-!
SUPPORT. What the operations of Machine/Kiosk.lean may change (Laws/Within.lean says how a mask names the parts),
and the commands of that file.
-/
namespace Sys2Proof.Machine

theorem Kiosk.put_wf {k : Kiosk} (h : SMap.wf 0 k.words = true) (a : Nat) (v : Word64) :
    SMap.wf 0 (k.put a v).words = true := SMap.wf_set _ _ h

theorem Kiosk.advance_wf {k : Kiosk} (h : SMap.wf 0 k.words = true) (c : Nat) : SMap.wf 0 (k.advance c).words = true := by
  unfold Kiosk.advance
  dsimp only
  generalize List.filter _ _ = l
  induction l generalizing k with
  | nil => exact h
  | cons w l ih => exact ih (Kiosk.put_wf h _ _)

theorem State.kioskAccess_within {W : Nat} {s0 s : State} (who : Asker) (op : KOp) (a : Nat) (data : Word64) (hW : Within W s0 s)
    (hM : 28455104 ||| W = W) : Within W s0 (s.kioskAccess who op a data).2 := by
  refine hW.step ?_ hM; clear hW hM; unfold State.kioskAccess
  dsimp only
  repeat' first
    | with_reducible apply Within.refl | assumption | with_reducible apply State.drawn_within
    | with_reducible apply State.raise_within | with_reducible apply State.ungate_within
    | (refine Or.inr ⟨by decide, fun h => ?_⟩) | apply Kiosk.advance_wf | apply Kiosk.put_wf
    | (conv => arg 3; arg 24; skip); with_reducible apply Within.build | with_reducible exact Or.inl rfl
    | exact Or.inr (by decide) | decide | dsimp only | split

theorem State.kioskAccess_eq_within {W : Nat} {s0 s t : State} {who : Asker} {op : KOp} {a : Nat} {data : Word64} {y0 : KAnswer} (e : State.kioskAccess s who op a data = (y0, t)) (hW : Within W s0 s)
    (hM : 28455104 ||| W = W) : Within W s0 t := by
  have h := State.kioskAccess_within who op a data hW hM
  rw [e] at h
  exact h

theorem State.streetAccess_within {W : Nat} {s0 s : State} (who : Asker) (win : BitVec 32) (v10 : Bool) (op : Nat) (a : Nat) (data : Word64) (hW : Within W s0 s)
    (hM : 28455104 ||| W = W) : Within W s0 (s.streetAccess who win v10 op a data).2 := by
  refine hW.step ?_ hM; clear hW hM; unfold State.streetAccess
  dsimp only
  repeat' first
    | with_reducible apply Within.refl | refine State.kioskAccess_eq_within (by assumption) ?_ (by decide) | split

theorem State.streetAccess_eq_within {W : Nat} {s0 s t : State} {who : Asker} {win : BitVec 32} {v10 : Bool} {op : Nat} {a : Nat} {data : Word64} {y0 : Option (Nat × Word64)} (e : State.streetAccess s who win v10 op a data = (y0, t)) (hW : Within W s0 s)
    (hM : 28455104 ||| W = W) : Within W s0 t := by
  have h := State.streetAccess_within who win v10 op a data hW hM
  rw [e] at h
  exact h

theorem State.kioskReq_within {W : Nat} {s0 s : State} (n : Nat) (op : Nat) (tag : Nat) (a : Nat) (data : Word64) (hW : Within W s0 s)
    (hM : 28455104 ||| W = W) : Within W s0 (s.kioskReq n op tag a data) := by
  refine hW.step ?_ hM; clear hW hM; unfold State.kioskReq
  dsimp only
  repeat' first
    | with_reducible apply Within.refl | with_reducible apply State.sendWord_within
    | refine State.streetAccess_eq_within (by assumption) ?_ (by decide) | decide | split

theorem KAnswer.toHost_within {W : Nat} {s0 : State} (x : KAnswer × State) (hW : Within W s0 x.2)
    (hM : 16777216 ||| W = W) : Within W s0 (KAnswer.toHost x) := by
  refine hW.step ?_ hM
  unfold KAnswer.toHost
  split
  · exact State.emit_within _ (Within.refl _ _) rfl
  · exact State.emit_within _ (Within.refl _ _) rfl
  · exact Within.refl _ _

theorem State.kioskRead_within {W : Nat} {s0 s : State} (bytes : Nat) (off : Nat) (hW : Within W s0 s)
    (hM : 28455104 ||| W = W) : Within W s0 (s.kioskRead bytes off) := by
  refine hW.step ?_ hM; clear hW hM; unfold State.kioskRead
  repeat' first
    | with_reducible apply Within.refl | with_reducible apply State.emit_within
    | refine State.kioskAccess_eq_within (by assumption) ?_ (by decide) | decide | split

theorem State.kioskMerge_within {W : Nat} {s0 s : State} (a : Nat) (high : Bool) (v : Nat) (hW : Within W s0 s)
    (hM : 28455104 ||| W = W) : Within W s0 (s.kioskMerge a high v) := by
  refine hW.step ?_ hM; clear hW hM; unfold State.kioskMerge
  dsimp only
  repeat' first
    | with_reducible apply Within.refl | assumption | with_reducible apply State.kioskAccess_within
    | (refine Or.inr ⟨by decide, fun h => ?_⟩) | apply Kiosk.advance_wf
    | (conv => arg 3; arg 24; skip); with_reducible apply Within.build | with_reducible exact Or.inl rfl
    | exact Or.inr (by decide) | decide

theorem State.kioskServe_within {W : Nat} {s0 s : State} (op : BarOp) (bytes : Nat) (off : Nat) (v : Word64) (hW : Within W s0 s)
    (hM : 28455104 ||| W = W) : Within W s0 (s.kioskServe op bytes off v) := by
  refine hW.step ?_ hM; clear hW hM; unfold State.kioskServe
  repeat' first
    | with_reducible apply Within.refl | with_reducible apply KAnswer.toHost_within | with_reducible apply State.emit_within
    | with_reducible apply State.kioskMerge_within | with_reducible apply State.kioskRead_within
    | with_reducible apply State.kioskAccess_within | with_reducible apply Within.ite | decide | split

theorem State.kioskBar_within {W : Nat} {s0 s : State} (op : BarOp) (bytes : Nat) (off : Nat) (v : Word64) (hW : Within W s0 s)
    (hM : 28455360 ||| W = W) : Within W s0 (s.kioskBar op bytes off v) := by
  refine hW.step ?_ hM; clear hW hM; unfold State.kioskBar
  dsimp only
  repeat' first
    | with_reducible apply Within.refl | with_reducible apply State.kioskServe_within | with_reducible apply Within.ite
    | (conv => arg 3; arg 24; skip); with_reducible apply Within.build | with_reducible exact Or.inl rfl
    | exact Or.inr (by decide) | decide

/-! ## Commands -/

theorem execKioskReq_within (n : Fin 8) (op : Fin 4) (tag : Byte) (addr : Fin 32768) (data : Word64) (s : State) :
    ∃ t, execKioskReq n op tag addr data s = .next t ∧ Within 28455104 s t := by
  unfold execKioskReq
  refine ⟨_, rfl, ?_⟩
  repeat' first
    | with_reducible apply Within.refl | with_reducible apply State.kioskReq_within | with_reducible apply Within.ite | decide

theorem execKioskBarRead_within (off : BitVec 18) (wide : Bool) (s : State) :
    ∃ t, execKioskBarRead off wide s = .next t ∧ Within 28455360 s t := by
  unfold execKioskBarRead
  refine ⟨_, rfl, ?_⟩
  repeat' first
    | with_reducible apply Within.refl | with_reducible apply State.kioskBar_within | decide

theorem execKioskBarWrite_within (off : BitVec 18) (wide : Bool) (v : Word64) (s : State) :
    ∃ t, execKioskBarWrite off wide v s = .next t ∧ Within 28455360 s t := by
  unfold execKioskBarWrite
  refine ⟨_, rfl, ?_⟩
  repeat' first
    | with_reducible apply Within.refl | with_reducible apply State.kioskBar_within | decide

theorem execKioskFetchadd_within (off : BitVec 18) (v : Word64) (s : State) :
    ∃ t, execKioskFetchadd off v s = .next t ∧ Within 28455360 s t := by
  unfold execKioskFetchadd
  refine ⟨_, rfl, ?_⟩
  repeat' first
    | with_reducible apply Within.refl | with_reducible apply State.kioskBar_within | decide

theorem execKioskSwap_within (off : BitVec 18) (v : Word64) (s : State) :
    ∃ t, execKioskSwap off v s = .next t ∧ Within 28455360 s t := by
  unfold execKioskSwap
  refine ⟨_, rfl, ?_⟩
  repeat' first
    | with_reducible apply Within.refl | with_reducible apply State.kioskBar_within | decide

theorem execBusyNRelease_within (s : State) :
    ∃ t, execBusyNRelease s = .next t ∧ Within 4096 s t := by
  unfold execBusyNRelease
  dsimp only
  refine ⟨_, rfl, ?_⟩
  repeat' first
    | with_reducible apply Within.refl | (conv => arg 3; arg 24; skip); with_reducible apply Within.build
    | with_reducible exact Or.inl rfl | exact Or.inr (by decide)

end Sys2Proof.Machine
end

