-- ==== Sys2Proof/Laws/Write.lean ====
section
/-!
SUPPORT. What the operations of Machine/Write.lean may change (Laws/Within.lean says how a mask names the parts).
-/
namespace Sys2Proof.Machine

theorem State.kerbRoom_within {W : Nat} {s0 s : State} (n : Nat) (need : Nat) (hW : Within W s0 s)
    (hM : 16778369 ||| W = W) : Within W s0 (s.kerbRoom n need) := by
  refine hW.step ?_ hM; clear hW hM; unfold State.kerbRoom
  dsimp only
  repeat' first
    | with_reducible apply Within.refl | with_reducible apply State.evictAll_within | with_reducible apply State.growTo_within
    | with_reducible apply State.headDrops_within | with_reducible apply Within.ite | decide

theorem State.admission_within {W : Nat} {s0 s : State} (n : Nat) (extra : Nat) (p : Piece) (hW : Within W s0 s)
    (hM : 1025 ||| W = W) : Within W s0 (s.admission n extra p).1 := by
  refine hW.step ?_ hM; clear hW hM; unfold State.admission
  dsimp only
  repeat' first
    | with_reducible apply Within.refl | with_reducible apply State.headDrops_within | with_reducible apply State.updQ_within
    | with_reducible apply Within.ite | decide | split

theorem State.admission_eq_within {W : Nat} {s0 s t : State} {n : Nat} {extra : Nat} {p : Piece} {y0 : Bool} (e : State.admission s n extra p = (t, y0)) (hW : Within W s0 s)
    (hM : 1025 ||| W = W) : Within W s0 t := by
  have h := State.admission_within n extra p hW hM
  rw [e] at h
  exact h

theorem State.admitAll_within {W : Nat} {s0 s : State} (n extra : Nat) (ps : List Piece) (hW : Within W s0 s)
    (hM : 1025 ||| W = W) : Within W s0 (s.admitAll n extra ps).1 := by
  refine hW.step ?_ hM
  clear hW hM
  induction ps generalizing s extra with
  | nil => exact Within.refl _ _
  | cons p ps ih =>
    unfold State.admitAll
    dsimp only
    exact (State.admission_within n extra p (Within.refl _ _) (by decide)).step (ih _) rfl

theorem State.admitAll_eq_within {W : Nat} {s0 s t : State} {n extra : Nat} {ps : List Piece} {y : List (Piece × Bool)}
    (e : s.admitAll n extra ps = (t, y)) (hW : Within W s0 s) (hM : 1025 ||| W = W) : Within W s0 t := by
  have h := State.admitAll_within n extra ps hW hM
  rw [e] at h
  exact h

theorem State.openMsg_within {W : Nat} {s0 s : State} (n : Nat) (at_ : Arrival) (p : Piece) (hW : Within W s0 s)
    (hM : 19923137 ||| W = W) : Within W s0 (s.openMsg n at_ p) := by
  refine hW.step ?_ hM; clear hW hM; unfold State.openMsg
  dsimp only
  repeat' first
    | with_reducible apply Within.refl | with_reducible apply State.updQ_within | with_reducible apply State.releaseTime_within
    | decide | split

theorem State.storePiece_within {W : Nat} {s0 s : State} (n : Nat) (at_ : Arrival) (e : Piece × Bool) (hW : Within W s0 s)
    (hM : 20057281 ||| W = W) : Within W s0 (s.storePiece n at_ e) := by
  refine hW.step ?_ hM; clear hW hM; unfold State.storePiece
  dsimp only
  repeat' first
    | with_reducible apply Within.refl | with_reducible apply State.commit_within | with_reducible apply State.openMsg_within
    | with_reducible apply State.updQ_within | with_reducible apply Within.ite | decide

theorem State.evictRoom_within {W : Nat} {s0 s : State} (n : Nat) (ps : List Piece) (hW : Within W s0 s)
    (hM : 16778369 ||| W = W) : Within W s0 (s.evictRoom n ps) := by
  refine hW.step ?_ hM; clear hW hM; unfold State.evictRoom
  dsimp only
  repeat' first
    | with_reducible apply Within.refl | with_reducible apply State.evictAll_within | with_reducible apply Within.ite | decide

theorem State.trimMsgs_within {W : Nat} {s0 s : State} (n : Nat) (rp : Nat) (a3 : Nat) (hW : Within W s0 s)
    (hM : 1 ||| W = W) : Within W s0 (s.trimMsgs n rp a3) := by
  refine hW.step ?_ hM
  clear hW hM
  induction a3 generalizing s n rp with
  | zero =>
    unfold State.trimMsgs
    repeat' with_reducible apply Within.refl
  | succ k ih =>
    unfold State.trimMsgs
    dsimp only
    repeat' first
      | with_reducible apply Within.refl | with_reducible apply State.updQ_within | with_reducible apply Within.ite | decide
      | with_reducible refine Within.step (M := 1) ?_ (ih _ _) rfl | split

theorem State.trimElems_within {W : Nat} {s0 s : State} (n : Nat) (rp : Nat) (hW : Within W s0 s)
    (hM : 1 ||| W = W) : Within W s0 (s.trimElems n rp) := by
  refine hW.step ?_ hM; clear hW hM; unfold State.trimElems
  dsimp only
  repeat' first
    | with_reducible apply Within.refl | with_reducible apply State.setQ_within | decide

theorem State.followMarks_within {W : Nat} {s0 s : State} (n : Nat) (hW : Within W s0 s)
    (hM : 1 ||| W = W) : Within W s0 (s.followMarks n) := by
  refine hW.step ?_ hM; clear hW hM; unfold State.followMarks
  dsimp only
  repeat' first
    | with_reducible apply Within.refl | with_reducible apply State.setQ_within | decide

theorem State.followRead_within {W : Nat} {s0 s : State} (n : Nat) (hW : Within W s0 s)
    (hM : 16778369 ||| W = W) : Within W s0 (s.followRead n) := by
  refine hW.step ?_ hM; clear hW hM; unfold State.followRead
  dsimp only
  repeat' first
    | with_reducible apply Within.refl | with_reducible apply State.followMarks_within | with_reducible apply State.post_within
    | with_reducible apply State.release_within | with_reducible apply State.trimElems_within
    | with_reducible apply State.trimMsgs_within | with_reducible apply State.updQ_within | with_reducible apply Within.ite
    | decide

theorem State.acceptPieces_within {W : Nat} {s0 s : State} (n : Nat) (at_ : Arrival) (ps : List Piece) (hW : Within W s0 s)
    (hM : 20057281 ||| W = W) : Within W s0 (s.acceptPieces n at_ ps).2 := by
  refine hW.step ?_ hM; clear hW hM; unfold State.acceptPieces
  dsimp only
  repeat' first
    | with_reducible apply Within.refl | with_reducible apply Within.foldl | (intro _ _; try dsimp only)
    | with_reducible apply State.evictRoom_within | with_reducible apply State.followRead_within
    | with_reducible apply State.growTo_within | with_reducible apply State.kerbRoom_within
    | with_reducible apply State.storePiece_within | with_reducible apply State.updQ_within
    | with_reducible apply State.admitAll_within | decide | split

theorem State.acceptPieces_eq_within {W : Nat} {s0 s t : State} {n : Nat} {at_ : Arrival} {ps : List Piece} {y0 : Bool} (e : State.acceptPieces s n at_ ps = (y0, t)) (hW : Within W s0 s)
    (hM : 20057281 ||| W = W) : Within W s0 t := by
  have h := State.acceptPieces_within n at_ ps hW hM
  rw [e] at h
  exact h

end Sys2Proof.Machine
end

