-- ==== Sys2Proof/Laws/RingData.lean ====
section
/-!
SUPPORT. What the operations of Machine/RingData.lean may change (Laws/Within.lean says how a mask names the parts).
-/
namespace Sys2Proof.Machine

theorem State.arriveTail_within {W : Nat} {s0 s : State} (n : Nat) (start : Nat) (hW : Within W s0 s)
    (hM : 1025 ||| W = W) : Within W s0 (s.arriveTail n start) := by
  refine hW.step ?_ hM; clear hW hM; unfold State.arriveTail
  dsimp only
  repeat' first
    | with_reducible apply Within.refl | with_reducible apply State.headDrops_within | with_reducible apply State.setQ_within
    | with_reducible apply Within.ite | decide

theorem State.learnMsgs_within {W : Nat} {s0 s : State} (n : Nat) (oldEnd : Nat) (start : Nat) (a4 : Nat) (hW : Within W s0 s)
    (hM : 1025 ||| W = W) : Within W s0 (s.learnMsgs n oldEnd start a4) := by
  refine hW.step ?_ hM
  clear hW hM
  induction a4 generalizing s n oldEnd start with
  | zero =>
    unfold State.learnMsgs
    repeat' with_reducible apply Within.refl
  | succ k ih =>
    unfold State.learnMsgs
    dsimp only
    repeat' first
      | with_reducible apply Within.refl | with_reducible apply State.arriveTail_within | with_reducible apply State.setQ_within
      | with_reducible apply Within.ite | decide | with_reducible refine Within.step (M := 1025) ?_ (ih _ _ _) rfl

theorem State.commitRaw_within {W : Nat} {s0 s : State} (n : Nat) (bytes : List Byte) (hW : Within W s0 s)
    (hM : 3073 ||| W = W) : Within W s0 (s.commitRaw n bytes) := by
  refine hW.step ?_ hM; clear hW hM; unfold State.commitRaw
  dsimp only
  repeat' first
    | with_reducible apply Within.refl | with_reducible apply State.learnMsgs_within | with_reducible apply State.setQ_within
    | with_reducible apply State.wrBytes_within | with_reducible apply Within.ite | decide

theorem State.tailEvict_within {W : Nat} {s0 s : State} (n : Nat) (upCommit : Nat) (hW : Within W s0 s)
    (hM : 16778369 ||| W = W) : Within W s0 (s.tailEvict n upCommit) := by
  refine hW.step ?_ hM; clear hW hM; unfold State.tailEvict
  dsimp only
  repeat' first
    | with_reducible apply Within.refl | with_reducible apply State.evictAll_within | with_reducible apply Within.ite | decide

theorem State.ringRoom_within {W : Nat} {s0 s : State} (n : Nat) (need : Nat) (hW : Within W s0 s)
    (hM : 16778369 ||| W = W) : Within W s0 (s.ringRoom n need) := by
  refine hW.step ?_ hM; clear hW hM; unfold State.ringRoom
  dsimp only
  repeat' first
    | with_reducible apply Within.refl | with_reducible apply State.evictAll_within | with_reducible apply State.growTo_within
    | with_reducible apply Within.ite | decide

theorem State.endFailovers_within {W : Nat} {s0 s : State} (n : Nat) (hW : Within W s0 s)
    (hM : 19923137 ||| W = W) : Within W s0 (s.endFailovers n) := by
  refine hW.step ?_ hM; clear hW hM; unfold State.endFailovers
  dsimp only
  repeat' first
    | with_reducible apply Within.refl | with_reducible apply State.completeAll_within | with_reducible apply State.updQ_within
    | decide

theorem State.takeover_within {W : Nat} {s0 s : State} (n : Nat) (hW : Within W s0 s)
    (hM : 19923137 ||| W = W) : Within W s0 (s.takeover n) := by
  refine hW.step ?_ hM; clear hW hM; unfold State.takeover
  dsimp only
  repeat' first
    | with_reducible apply Within.refl | with_reducible apply State.endFailovers_within | with_reducible apply State.post_within
    | with_reducible apply State.setQ_within | with_reducible apply State.syncNow_within | with_reducible apply Within.ite
    | decide

theorem State.abdicate_within {W : Nat} {s0 s : State} (n : Nat) (hW : Within W s0 s)
    (hM : 16777281 ||| W = W) : Within W s0 (s.abdicate n) := by
  refine hW.step ?_ hM; clear hW hM; unfold State.abdicate
  dsimp only
  repeat' first
    | with_reducible apply Within.refl | with_reducible apply State.stopRead_within | with_reducible apply State.syncNow_within
    | with_reducible apply State.updQ_within | with_reducible apply Within.ite | decide

theorem State.demote_within {W : Nat} {s0 s : State} (n : Nat) (y : SyncIn) (hW : Within W s0 s)
    (hM : 19923137 ||| W = W) : Within W s0 (s.demote n y) := by
  refine hW.step ?_ hM; clear hW hM; unfold State.demote
  dsimp only
  repeat' first
    | with_reducible apply Within.refl | with_reducible apply State.endFailovers_within | with_reducible apply State.post_within
    | with_reducible apply State.stopRead_within | with_reducible apply State.syncNow_within
    | with_reducible apply State.updQ_within | decide

theorem State.pairSync_within {W : Nat} {s0 s : State} (n : Nat) (y : SyncIn) (hW : Within W s0 s)
    (hM : 19924161 ||| W = W) : Within W s0 (s.pairSync n y) := by
  refine hW.step ?_ hM; clear hW hM; unfold State.pairSync
  dsimp only
  repeat' first
    | with_reducible apply Within.refl | with_reducible apply State.demote_within
    | with_reducible apply State.endFailovers_within | with_reducible apply State.evalFlags_within
    | with_reducible apply State.followRead_within | with_reducible apply State.setQ_within
    | with_reducible apply State.takeover_within | with_reducible apply State.updQ_within | with_reducible apply Within.ite
    | decide

theorem State.passTo_within {W : Nat} {s0 s : State} (n : Nat) (target : Nat) (a3 : Nat) (hW : Within W s0 s)
    (hM : 1 ||| W = W) : Within W s0 (s.passTo n target a3) := by
  refine hW.step ?_ hM
  clear hW hM
  induction a3 generalizing s n target with
  | zero =>
    unfold State.passTo
    repeat' with_reducible apply Within.refl
  | succ k ih =>
    unfold State.passTo
    dsimp only
    repeat' first
      | with_reducible apply Within.refl | with_reducible apply State.setQ_within | with_reducible apply Within.ite | decide
      | with_reducible refine Within.step (M := 1) ?_ (ih _ _) rfl

theorem State.downSync_within {W : Nat} {s0 s : State} (n : Nat) (y : SyncIn) (hW : Within W s0 s)
    (hM : 28312769 ||| W = W) : Within W s0 (s.downSync n y) := by
  refine hW.step ?_ hM; clear hW hM; unfold State.downSync
  dsimp only
  repeat' first
    | with_reducible apply Within.refl | with_reducible apply State.passTo_within | with_reducible apply State.release_within
    | with_reducible apply State.setQ_within | with_reducible apply State.tryClose_within | decide

theorem State.noteWaits_within {W : Nat} {s0 s : State} (n : Nat) (y : SyncIn) (hW : Within W s0 s)
    (hM : 19923137 ||| W = W) : Within W s0 (s.noteWaits n y) := by
  refine hW.step ?_ hM; clear hW hM; unfold State.noteWaits
  dsimp only
  repeat' first
    | with_reducible apply Within.refl | with_reducible apply State.completeAll_within | with_reducible apply State.setQ_within
    | decide

theorem State.chainSync_within {W : Nat} {s0 s : State} (n : Nat) (y : SyncIn) (hW : Within W s0 s)
    (hM : 28312769 ||| W = W) : Within W s0 (s.chainSync n y) := by
  refine hW.step ?_ hM; clear hW hM; unfold State.chainSync
  dsimp only
  repeat' first
    | with_reducible apply Within.refl | with_reducible apply State.downSync_within
    | with_reducible apply State.evalFlags_within | with_reducible apply State.noteWaits_within
    | with_reducible apply State.setQ_within | with_reducible apply State.tailEvict_within
    | with_reducible apply State.tryClose_within | with_reducible apply State.updQ_within | with_reducible apply Within.ite
    | decide

theorem State.sendGone_within {W : Nat} {s0 s : State} (n : Nat) (t : Nat) (hW : Within W s0 s)
    (hM : 16777280 ||| W = W) : Within W s0 (s.sendGone n t) := by
  refine hW.step ?_ hM; clear hW hM; unfold State.sendGone
  repeat' first
    | with_reducible apply Within.refl | with_reducible apply State.sendCtrl_within | decide

theorem State.syncEntryIn_within {W : Nat} {s0 s : State} (t : Nat) (v : Nat) (hW : Within W s0 s)
    (hM : 28312769 ||| W = W) : Within W s0 (s.syncEntryIn t v) := by
  refine hW.step ?_ hM; clear hW hM; unfold State.syncEntryIn
  dsimp only
  repeat' first
    | with_reducible apply Within.refl | with_reducible apply State.chainSync_within
    | with_reducible apply State.pairSync_within | with_reducible apply State.sendGone_within | with_reducible apply Within.ite
    | decide

theorem State.reportLost_within {W : Nat} {s0 s : State} (t : Nat) (hW : Within W s0 s)
    (hM : 16777408 ||| W = W) : Within W s0 (s.reportLost t) := by
  refine hW.step ?_ hM; clear hW hM; unfold State.reportLost
  dsimp only
  repeat' first
    | with_reducible apply Within.refl | with_reducible apply State.post_within
    | (conv => arg 3; arg 24; skip); with_reducible apply Within.build | with_reducible exact Or.inl rfl
    | exact Or.inr (by decide) | decide

theorem State.tellLoss_within {W : Nat} {s0 s : State} (n : Nat) (hW : Within W s0 s)
    (hM : 16777280 ||| W = W) : Within W s0 (s.tellLoss n) := by
  refine hW.step ?_ hM; clear hW hM; unfold State.tellLoss
  dsimp only
  repeat' first
    | with_reducible apply Within.refl | with_reducible apply Within.foldl | (intro _ _; try dsimp only)
    | with_reducible apply State.sendCtrl_within | decide

theorem State.loseMember_within {W : Nat} {s0 s : State} (n : Nat) (t : Nat) (hW : Within W s0 s)
    (hM : 19926209 ||| W = W) : Within W s0 (s.loseMember n t) := by
  refine hW.step ?_ hM; clear hW hM; unfold State.loseMember
  dsimp only
  repeat' first
    | with_reducible apply Within.refl | with_reducible apply State.abdicate_within | with_reducible apply State.hold_within
    | with_reducible apply State.setQ_within | with_reducible apply State.tellLoss_within | with_reducible apply Within.ite
    | decide

theorem State.teardown_within {W : Nat} {s0 s : State} (n : Nat) (hW : Within W s0 s)
    (hM : 19926209 ||| W = W) : Within W s0 (s.teardown n) := by
  refine hW.step ?_ hM; clear hW hM; unfold State.teardown
  dsimp only
  repeat' first
    | with_reducible apply Within.refl | with_reducible apply State.abdicate_within | with_reducible apply State.hold_within
    | with_reducible apply State.loseMember_within | with_reducible apply State.reportLost_within
    | with_reducible apply State.setQ_within | with_reducible apply State.tellLoss_within | with_reducible apply Within.ite
    | decide | split

theorem State.loseBeyond_within {W : Nat} {s0 s : State} (d : Side) (gone : Nat → Bool) (hW : Within W s0 s)
    (hM : 19926209 ||| W = W) : Within W s0 (s.loseBeyond d gone) := by
  refine hW.step ?_ hM; clear hW hM; unfold State.loseBeyond
  dsimp only
  repeat' first
    | with_reducible apply Within.refl | with_reducible apply Within.foldl | (intro _ _; try dsimp only)
    | with_reducible apply State.loseMember_within | with_reducible apply State.reportLost_within | decide

theorem State.memberCmd_within {W : Nat} {s0 s : State} (n : Nat) (c : ChainCmd) (hW : Within W s0 s)
    (hM : 28314817 ||| W = W) : Within W s0 (s.memberCmd n c) := by
  refine hW.step ?_ hM; clear hW hM; unfold State.memberCmd
  dsimp only
  repeat' first
    | with_reducible apply Within.refl | with_reducible apply State.abortWriteEnd_within
    | with_reducible apply State.closeQueue_within | with_reducible apply State.discardAny_within
    | with_reducible apply State.openQueue_within | with_reducible apply State.realign_within
    | with_reducible apply State.resetQueue_within | with_reducible apply State.teardown_within
    | with_reducible apply State.updQ_within | with_reducible apply Within.ite | decide | split

theorem State.applyChainCmd_within {W : Nat} {s0 s : State} (n : Nat) (hW : Within W s0 s)
    (hM : 28314817 ||| W = W) : Within W s0 (s.applyChainCmd n) := by
  refine hW.step ?_ hM; clear hW hM; unfold State.applyChainCmd
  dsimp only
  repeat' first
    | with_reducible apply Within.refl | with_reducible apply State.grantUp_within | with_reducible apply State.memberCmd_within
    | with_reducible apply State.sendChainCmd_within | with_reducible apply State.syncNow_within
    | with_reducible apply State.updQ_within | with_reducible apply Within.ite | decide | split

theorem State.placeFfMark_within {W : Nat} {s0 s : State} (n : Nat) (m : Nat) (pos : Nat) (hW : Within W s0 s)
    (hM : 19924161 ||| W = W) : Within W s0 (s.placeFfMark n m pos) := by
  refine hW.step ?_ hM; clear hW hM; unfold State.placeFfMark
  dsimp only
  repeat' first
    | with_reducible apply Within.refl | with_reducible apply State.evalFlags_within | with_reducible apply State.raise_within
    | with_reducible apply State.release_within | with_reducible apply State.setQ_within | with_reducible apply Within.ite
    | decide

theorem State.applyFfMark_within {W : Nat} {s0 s : State} (n : Nat) (hW : Within W s0 s)
    (hM : 19924161 ||| W = W) : Within W s0 (s.applyFfMark n) := by
  refine hW.step ?_ hM; clear hW hM; unfold State.applyFfMark
  dsimp only
  repeat' first
    | with_reducible apply Within.refl | with_reducible apply State.placeFfMark_within
    | with_reducible apply State.sendCtrl_within | with_reducible apply State.updQ_within | with_reducible apply Within.ite
    | decide | split

end Sys2Proof.Machine
end

