-- ==== Sys2Proof/Laws/RingRx.lean ====
section
/-!
SUPPORT. What the operations of Machine/RingRx.lean may change (Laws/Within.lean says how a mask names the parts),
and the commands of that file.
-/
namespace Sys2Proof.Machine

theorem State.gapResend_within {W : Nat} {s0 s : State} (d : Side) (hW : Within W s0 s)
    (hM : 16777280 ||| W = W) : Within W s0 (s.gapResend d) := by
  refine hW.step ?_ hM; clear hW hM; unfold State.gapResend
  dsimp only
  repeat' first
    | with_reducible apply Within.refl | with_reducible apply State.sendCtrlOn_within
    | with_reducible apply State.setSide_within | with_reducible apply Within.ite | decide

theorem State.countRej_within {W : Nat} {s0 s : State} (d : Side) (hW : Within W s0 s)
    (hM : 64 ||| W = W) : Within W s0 (s.countRej d) := by
  refine hW.step ?_ hM; clear hW hM; unfold State.countRej
  repeat' first
    | with_reducible apply Within.refl | with_reducible apply State.updSide_within | decide

theorem State.endLeaves_within {W : Nat} {s0 s : State}  (hW : Within W s0 s)
    (hM : 19923137 ||| W = W) : Within W s0 s.endLeaves := by
  refine hW.step ?_ hM; clear hW hM; unfold State.endLeaves
  repeat' first
    | with_reducible apply Within.refl | with_reducible apply Within.foldl | (intro _ _; try dsimp only)
    | with_reducible apply State.complete_within | with_reducible apply State.updQ_within | decide | split

theorem State.authFail_within {W : Nat} {s0 s : State} (d : Side) (h : BitVec 256) (hW : Within W s0 s)
    (hM : 19923136 ||| W = W) : Within W s0 (s.authFail d h) := by
  refine hW.step ?_ hM; clear hW hM; unfold State.authFail
  repeat' first
    | with_reducible apply Within.refl | with_reducible apply State.raise_within | with_reducible apply State.updSide_within
    | decide

theorem State.ffReject_within {W : Nat} {s0 s : State} (n : Nat) (src : Nat) (pos : Nat) (hW : Within W s0 s)
    (hM : 16777281 ||| W = W) : Within W s0 (s.ffReject n src pos) := by
  refine hW.step ?_ hM; clear hW hM; unfold State.ffReject
  dsimp only
  repeat' first
    | with_reducible apply Within.refl | with_reducible apply State.sendCtrl_within | with_reducible apply State.setQ_within
    | with_reducible apply Within.ite | decide

theorem State.dataIn_within {W : Nat} {s0 s : State} (src : Nat) (n : Nat) (pos : Nat) (bytes : List Byte) (hW : Within W s0 s)
    (hM : 16780481 ||| W = W) : Within W s0 (s.dataIn src n pos bytes) := by
  refine hW.step ?_ hM; clear hW hM; unfold State.dataIn
  dsimp only
  repeat' first
    | with_reducible apply Within.refl | with_reducible apply State.askSegment_within
    | with_reducible apply State.commitRaw_within | with_reducible apply State.evalFlags_within
    | with_reducible apply State.ffReject_within | with_reducible apply State.followRead_within
    | with_reducible apply State.ringRoom_within | with_reducible apply State.sendGone_within
    | with_reducible apply State.updQ_within | with_reducible apply Within.ite | decide

theorem State.dataFrame_within {W : Nat} {s0 s : State} (d : Side) (f : Frame) (hW : Within W s0 s)
    (hM : 19926209 ||| W = W) : Within W s0 (s.dataFrame d f) := by
  refine hW.step ?_ hM; clear hW hM; unfold State.dataFrame
  dsimp only
  repeat' first
    | with_reducible apply Within.refl | with_reducible apply State.authFail_within | with_reducible apply State.dataIn_within
    | with_reducible apply State.ffReject_within | with_reducible apply State.sendGone_within
    | with_reducible apply State.updSide_within | with_reducible apply Within.ite | decide | split

theorem State.hearPeer_within {W : Nat} {s0 s : State} (t : Nat) (hW : Within W s0 s)
    (hM : 1 ||| W = W) : Within W s0 (s.hearPeer t) := by
  refine hW.step ?_ hM; clear hW hM; unfold State.hearPeer
  dsimp only
  repeat' first
    | with_reducible apply Within.refl | with_reducible apply Within.foldl | (intro _ _; try dsimp only)
    | with_reducible apply State.updQ_within | decide

theorem State.syncIn_within {W : Nat} {s0 s : State} (t : Nat) (payload : List Byte) (hW : Within W s0 s)
    (hM : 28312769 ||| W = W) : Within W s0 (s.syncIn t payload) := by
  refine hW.step ?_ hM; clear hW hM; unfold State.syncIn
  repeat' first
    | with_reducible apply Within.refl | with_reducible apply Within.foldl | (intro _ _; try dsimp only)
    | with_reducible apply State.hearPeer_within | with_reducible apply State.syncEntryIn_within | decide

theorem State.helloFrom_within {W : Nat} {s0 s : State} (d : Side) (o : Nat) (hops : Nat) (dev : BitVec 64) (hW : Within W s0 s)
    (hM : 19926209 ||| W = W) : Within W s0 (s.helloFrom d o hops dev) := by
  refine hW.step ?_ hM; clear hW hM; unfold State.helloFrom
  dsimp only
  repeat' first
    | with_reducible apply Within.refl | with_reducible apply State.loseBeyond_within | with_reducible apply State.post_within
    | with_reducible apply State.updSide_within | with_reducible apply Within.ite
    | (conv => arg 3; arg 24; skip); with_reducible apply Within.build | with_reducible exact Or.inl rfl
    | exact Or.inr (by decide) | decide | split

theorem State.helloIn_within {W : Nat} {s0 s : State} (d : Side) (payload : List Byte) (hW : Within W s0 s)
    (hM : 19926209 ||| W = W) : Within W s0 (s.helloIn d payload) := by
  refine hW.step ?_ hM; clear hW hM; unfold State.helloIn
  dsimp only
  repeat' first
    | with_reducible apply Within.refl | with_reducible apply State.helloFrom_within
    | with_reducible apply State.pushFrame_within | with_reducible apply State.raise_within
    | with_reducible apply State.updSide_within | refine State.controlFrame_eq_within (by assumption) ?_ (by decide)
    | with_reducible apply Within.ite | (conv => arg 3; arg 24; skip); with_reducible apply Within.build
    | with_reducible exact Or.inl rfl | exact Or.inr (by decide) | decide | split

theorem State.keepJoin_within {W : Nat} {s0 s : State} (t : Nat) (payload : List Byte) (hW : Within W s0 s)
    (hM : 64 ||| W = W) : Within W s0 (s.keepJoin t payload) := by
  refine hW.step ?_ hM; clear hW hM; unfold State.keepJoin
  dsimp only
  repeat' first
    | with_reducible apply Within.refl | (conv => arg 3; arg 24; skip); with_reducible apply Within.build
    | with_reducible exact Or.inl rfl | exact Or.inr (by decide)

theorem State.failChain_within {W : Nat} {s0 s : State} (n : Nat) (status : Nat) (hW : Within W s0 s)
    (hM : 19923137 ||| W = W) : Within W s0 (s.failChain n status) := by
  refine hW.step ?_ hM; clear hW hM; unfold State.failChain
  repeat' first
    | with_reducible apply Within.refl | with_reducible apply State.complete_within | with_reducible apply State.updQ_within
    | decide | split

theorem State.judgeChain_within {W : Nat} {s0 s : State} (n : Nat) (hW : Within W s0 s)
    (hM : 19923137 ||| W = W) : Within W s0 (s.judgeChain n) := by
  refine hW.step ?_ hM; clear hW hM; unfold State.judgeChain
  dsimp only
  repeat' first
    | with_reducible apply Within.refl | with_reducible apply State.complete_within
    | with_reducible apply State.evalFlags_within | with_reducible apply State.failChain_within
    | with_reducible apply State.updQ_within | with_reducible apply Within.ite
    | (conv => arg 3; arg 24; skip); with_reducible apply Within.build | with_reducible exact Or.inl rfl
    | exact Or.inr (by decide) | decide | split

theorem State.judgePair_within {W : Nat} {s0 s : State} (n : Nat) (hW : Within W s0 s)
    (hM : 19923137 ||| W = W) : Within W s0 (s.judgePair n) := by
  refine hW.step ?_ hM; clear hW hM; unfold State.judgePair
  dsimp only
  repeat' first
    | with_reducible apply Within.refl | with_reducible apply State.complete_within | with_reducible apply State.stopRead_within
    | with_reducible apply State.syncNow_within | with_reducible apply State.updQ_within | with_reducible apply Within.ite
    | (conv => arg 3; arg 24; skip); with_reducible apply Within.build | with_reducible exact Or.inl rfl
    | exact Or.inr (by decide) | decide | split

theorem State.revokeGroup_within {W : Nat} {s0 s : State} (g : Nat) (epoch : Nat) (hW : Within W s0 s)
    (hM : 19926211 ||| W = W) : Within W s0 (s.revokeGroup g epoch) := by
  refine hW.step ?_ hM; clear hW hM; unfold State.revokeGroup
  dsimp only
  repeat' first
    | with_reducible apply Within.refl | with_reducible apply Within.foldl | (intro _ _; try dsimp only)
    | with_reducible apply State.hold_within | with_reducible apply State.setGroup_within | decide

theorem State.ctrlOp_within {W : Nat} {s0 s : State} (d : Side) (src : Nat) (payload : List Byte) (hW : Within W s0 s)
    (hM : 19926211 ||| W = W) : Within W s0 (s.ctrlOp d src payload) := by
  refine hW.step ?_ hM; clear hW hM; unfold State.ctrlOp
  dsimp only
  repeat' first
    | with_reducible apply Within.refl | with_reducible apply State.helloIn_within
    | with_reducible apply State.judgeChain_within | with_reducible apply State.judgePair_within
    | with_reducible apply State.keepJoin_within | with_reducible apply State.loseMember_within
    | with_reducible apply State.reportLost_within | with_reducible apply State.resendFrames_within
    | with_reducible apply State.revokeGroup_within | with_reducible apply State.sendGone_within
    | with_reducible apply State.updQ_within | with_reducible apply State.updSide_within | with_reducible apply Within.ite
    | decide | split

theorem State.endRepeats_within {W : Nat} {s0 s : State} (d : Side) (hW : Within W s0 s)
    (hM : 64 ||| W = W) : Within W s0 (s.endRepeats d) := by
  refine hW.step ?_ hM; clear hW hM; unfold State.endRepeats
  repeat' first
    | with_reducible apply Within.refl | with_reducible apply State.updSide_within | decide

theorem State.ctrlIn_within {W : Nat} {s0 s : State} (d : Side) (src : Nat) (payload : List Byte) (hW : Within W s0 s)
    (hM : 19926211 ||| W = W) : Within W s0 (s.ctrlIn d src payload) := by
  refine hW.step ?_ hM; clear hW hM; unfold State.ctrlIn
  repeat' first
    | with_reducible apply Within.refl | with_reducible apply State.ctrlOp_within | with_reducible apply State.endRepeats_within
    | with_reducible apply State.updSide_within | with_reducible apply Within.ite | decide

theorem State.kioskIn_within {W : Nat} {s0 s : State} (src : Nat) (payload : List Byte) (hW : Within W s0 s)
    (hM : 28455104 ||| W = W) : Within W s0 (s.kioskIn src payload) := by
  refine hW.step ?_ hM; clear hW hM; unfold State.kioskIn
  dsimp only
  repeat' first
    | with_reducible apply Within.refl | with_reducible apply State.routeFrame_within
    | refine State.controlFrame_eq_within (by assumption) ?_ (by decide)
    | refine State.streetAccess_eq_within (by assumption) ?_ (by decide) | with_reducible apply Within.ite | decide | split

theorem State.forwardCast_within {W : Nat} {s0 s : State} (d : Side) (f : Frame) (hW : Within W s0 s)
    (hM : 16777280 ||| W = W) : Within W s0 (s.forwardCast d f) := by
  refine hW.step ?_ hM; clear hW hM; unfold State.forwardCast
  repeat' first
    | with_reducible apply Within.refl | with_reducible apply State.pushFrame_within | with_reducible apply State.updSide_within
    | with_reducible apply Within.ite | decide | split

theorem State.consume_within {W : Nat} {s0 s : State} (d : Side) (f : Frame) (hW : Within W s0 s)
    (hM : 28458179 ||| W = W) : Within W s0 (s.consume d f) := by
  refine hW.step ?_ hM; clear hW hM; unfold State.consume
  dsimp only
  repeat' first
    | with_reducible apply Within.refl | with_reducible apply State.authFail_within | with_reducible apply State.ctrlIn_within
    | with_reducible apply State.dataFrame_within | with_reducible apply State.endRepeats_within
    | with_reducible apply State.kioskIn_within | with_reducible apply State.syncIn_within | with_reducible apply Within.ite
    | decide | split

theorem State.forward_within {W : Nat} {s0 s : State} (d : Side) (f : Frame) (hW : Within W s0 s)
    (hM : 16777280 ||| W = W) : Within W s0 (s.forward d f) := by
  refine hW.step ?_ hM; clear hW hM; unfold State.forward
  dsimp only
  repeat' first
    | with_reducible apply Within.refl | with_reducible apply State.drain_within | with_reducible apply State.endRepeats_within
    | with_reducible apply State.updSide_within | with_reducible apply Within.ite | decide

theorem State.acceptFrame_within {W : Nat} {s0 s : State} (d : Side) (f : Frame) (hW : Within W s0 s)
    (hM : 28458179 ||| W = W) : Within W s0 (s.acceptFrame d f) := by
  refine hW.step ?_ hM; clear hW hM; unfold State.acceptFrame
  dsimp only
  repeat' first
    | with_reducible apply Within.refl | with_reducible apply State.consume_within | with_reducible apply State.drain_within
    | with_reducible apply State.endLeaves_within | with_reducible apply State.forward_within
    | with_reducible apply State.forwardCast_within | with_reducible apply State.updSide_within
    | with_reducible apply Within.ite | decide

theorem State.rxFrame_within {W : Nat} {s0 s : State} (d : Side) (f : Frame) (hW : Within W s0 s)
    (hM : 28458179 ||| W = W) : Within W s0 (s.rxFrame d f) := by
  refine hW.step ?_ hM; clear hW hM; unfold State.rxFrame
  dsimp only
  repeat' first
    | with_reducible apply Within.refl | with_reducible apply State.acceptFrame_within
    | with_reducible apply State.countRej_within | with_reducible apply State.crossIn_within
    | with_reducible apply State.gapResend_within | with_reducible apply State.updSide_within | with_reducible apply Within.ite
    | decide

/-! ## Commands -/

theorem execRingDataFrame_within (d : Side) (x : RxFrame) (s : State) :
    ∃ t, execRingDataFrame d x s = .next t ∧ Within 28458183 s t := by
  unfold execRingDataFrame
  refine ⟨_, rfl, ?_⟩
  repeat' first
    | with_reducible apply Within.refl | with_reducible apply State.rxFrame_within
    | with_reducible apply State.countLanes_within | with_reducible apply Within.ite | decide

theorem execSyncFrame_within (d : Side) (f : Frame) (s : State) :
    ∃ t, execSyncFrame d f s = .next t ∧ Within 28458179 s t := by
  unfold execSyncFrame
  refine ⟨_, rfl, ?_⟩
  repeat' first
    | with_reducible apply Within.refl | with_reducible apply State.rxFrame_within | decide

theorem execRingHello_within (d : Side) (f : Frame) (s : State) :
    ∃ t, execRingHello d f s = .next t ∧ Within 28458179 s t := by
  unfold execRingHello
  refine ⟨_, rfl, ?_⟩
  repeat' first
    | with_reducible apply Within.refl | with_reducible apply State.rxFrame_within | decide

theorem execAck_within (d : Side) (f : Frame) (s : State) :
    ∃ t, execAck d f s = .next t ∧ Within 28458179 s t := by
  unfold execAck
  refine ⟨_, rfl, ?_⟩
  repeat' first
    | with_reducible apply Within.refl | with_reducible apply State.rxFrame_within | decide

theorem execResend_within (d : Side) (f : Frame) (s : State) :
    ∃ t, execResend d f s = .next t ∧ Within 28458179 s t := by
  unfold execResend
  refine ⟨_, rfl, ?_⟩
  repeat' first
    | with_reducible apply Within.refl | with_reducible apply State.rxFrame_within | decide

theorem execChainJoin_within (d : Side) (f : Frame) (s : State) :
    ∃ t, execChainJoin d f s = .next t ∧ Within 28458179 s t := by
  unfold execChainJoin
  refine ⟨_, rfl, ?_⟩
  repeat' first
    | with_reducible apply Within.refl | with_reducible apply State.rxFrame_within | decide

theorem execChainCmd_within (d : Side) (f : Frame) (s : State) :
    ∃ t, execChainCmd d f s = .next t ∧ Within 28458179 s t := by
  unfold execChainCmd
  refine ⟨_, rfl, ?_⟩
  repeat' first
    | with_reducible apply Within.refl | with_reducible apply State.rxFrame_within | decide

theorem execFfMark_within (d : Side) (f : Frame) (s : State) :
    ∃ t, execFfMark d f s = .next t ∧ Within 28458179 s t := by
  unfold execFfMark
  refine ⟨_, rfl, ?_⟩
  repeat' first
    | with_reducible apply Within.refl | with_reducible apply State.rxFrame_within | decide

theorem execFfRewind_within (d : Side) (f : Frame) (s : State) :
    ∃ t, execFfRewind d f s = .next t ∧ Within 28458179 s t := by
  unfold execFfRewind
  refine ⟨_, rfl, ?_⟩
  repeat' first
    | with_reducible apply Within.refl | with_reducible apply State.rxFrame_within | decide

theorem execPairJoin_within (d : Side) (f : Frame) (s : State) :
    ∃ t, execPairJoin d f s = .next t ∧ Within 28458179 s t := by
  unfold execPairJoin
  refine ⟨_, rfl, ?_⟩
  repeat' first
    | with_reducible apply Within.refl | with_reducible apply State.rxFrame_within | decide

theorem execRevoke_within (d : Side) (f : Frame) (s : State) :
    ∃ t, execRevoke d f s = .next t ∧ Within 28458179 s t := by
  unfold execRevoke
  refine ⟨_, rfl, ?_⟩
  repeat' first
    | with_reducible apply Within.refl | with_reducible apply State.rxFrame_within | decide

theorem execGone_within (d : Side) (f : Frame) (s : State) :
    ∃ t, execGone d f s = .next t ∧ Within 28458179 s t := by
  unfold execGone
  refine ⟨_, rfl, ?_⟩
  repeat' first
    | with_reducible apply Within.refl | with_reducible apply State.rxFrame_within | decide

theorem execKioskFrame_within (d : Side) (f : Frame) (s : State) :
    ∃ t, execKioskFrame d f s = .next t ∧ Within 28458179 s t := by
  unfold execKioskFrame
  refine ⟨_, rfl, ?_⟩
  repeat' first
    | with_reducible apply Within.refl | with_reducible apply State.rxFrame_within | decide

theorem execRingFrameTransit_within (d : Side) (f : Frame) (s : State) :
    ∃ t, execRingFrameTransit d f s = .next t ∧ Within 28458179 s t := by
  unfold execRingFrameTransit
  refine ⟨_, rfl, ?_⟩
  repeat' first
    | with_reducible apply Within.refl | with_reducible apply State.rxFrame_within | decide

end Sys2Proof.Machine
end

