-- ==== Sys2Proof/Laws/RingCmds.lean ====
section
/-!
SUPPORT. What the operations of Machine/RingCmds.lean may change (Laws/Within.lean says how a mask names the parts),
and the commands of that file.
-/
namespace Sys2Proof.Machine

theorem State.toNeighbours_within {W : Nat} {s0 s : State} (n : Nat) (op : Nat) (args : List (Nat × Nat × Nat)) (hW : Within W s0 s)
    (hM : 16777280 ||| W = W) : Within W s0 (s.toNeighbours n op args) := by
  refine hW.step ?_ hM; clear hW hM; unfold State.toNeighbours
  dsimp only
  repeat' first
    | with_reducible apply Within.refl | with_reducible apply Within.foldl | (intro _ _; try dsimp only)
    | with_reducible apply State.sendCtrl_within | decide

theorem State.doChainSetup_within {W : Nat} {s0 s : State} (r : CmdRef) (d : Block512) (hW : Within W s0 s)
    (hM : 19923137 ||| W = W) : Within W s0 (s.doChainSetup r d) := by
  refine hW.step ?_ hM; clear hW hM; unfold State.doChainSetup
  dsimp only
  repeat' first
    | with_reducible apply Within.refl | with_reducible apply State.complete_within
    | with_reducible apply State.endLeaves_within | with_reducible apply State.judgeChain_within
    | with_reducible apply State.toNeighbours_within | with_reducible apply State.updQ_within | with_reducible apply Within.ite
    | decide

theorem State.doPairSetup_within {W : Nat} {s0 s : State} (r : CmdRef) (d : Block512) (hW : Within W s0 s)
    (hM : 19923137 ||| W = W) : Within W s0 (s.doPairSetup r d) := by
  refine hW.step ?_ hM; clear hW hM; unfold State.doPairSetup
  dsimp only
  repeat' first
    | with_reducible apply Within.refl | with_reducible apply State.complete_within
    | with_reducible apply State.endFailovers_within | with_reducible apply State.judgePair_within
    | with_reducible apply State.sendCtrl_within | with_reducible apply State.updQ_within | with_reducible apply Within.ite
    | decide

theorem State.doFailover_within {W : Nat} {s0 s : State} (r : CmdRef) (d : Block512) (hW : Within W s0 s)
    (hM : 19923137 ||| W = W) : Within W s0 (s.doFailover r d) := by
  refine hW.step ?_ hM; clear hW hM; unfold State.doFailover
  dsimp only
  repeat' first
    | with_reducible apply Within.refl | with_reducible apply State.abdicate_within | with_reducible apply State.complete_within
    | with_reducible apply State.syncNow_within | with_reducible apply State.takeover_within
    | with_reducible apply State.updQ_within | with_reducible apply Within.ite | decide

theorem State.fallForward_within {W : Nat} {s0 s : State} (n : Nat) (hW : Within W s0 s)
    (hM : 19924163 ||| W = W) : Within W s0 (s.fallForward n) := by
  refine hW.step ?_ hM; clear hW hM; unfold State.fallForward
  dsimp only
  repeat' first
    | with_reducible apply Within.refl | with_reducible apply State.drain_within | with_reducible apply State.launch_within
    | with_reducible apply State.reportUe_within | with_reducible apply State.setGroup_within
    | with_reducible apply State.setQ_within | with_reducible apply State.updSide_within | with_reducible apply Within.ite
    | decide

theorem State.mapExpiry_within {W : Nat} {s0 s : State} (t : Nat) (hW : Within W s0 s)
    (hM : 64 ||| W = W) : Within W s0 (s.mapExpiry t) := by
  refine hW.step ?_ hM; clear hW hM; unfold State.mapExpiry
  dsimp only
  repeat' first
    | with_reducible apply Within.refl | with_reducible apply Within.ite
    | (conv => arg 3; arg 24; skip); with_reducible apply Within.build | with_reducible exact Or.inl rfl
    | exact Or.inr (by decide)

theorem State.resendAll_within {W : Nat} {s0 s : State} (d : Side) (hW : Within W s0 s)
    (hM : 16777280 ||| W = W) : Within W s0 (s.resendAll d) := by
  refine hW.step ?_ hM; clear hW hM; unfold State.resendAll
  repeat' first
    | with_reducible apply Within.refl | with_reducible apply State.resendFrames_within | with_reducible apply Within.ite
    | decide

theorem State.writeRingCfg_within {W : Nat} {s0 s : State} (v : Word32) (hW : Within W s0 s)
    (hM : 19991749 ||| W = W) : Within W s0 (s.writeRingCfg v) := by
  refine hW.step ?_ hM; clear hW hM; unfold State.writeRingCfg
  dsimp only
  repeat' first
    | with_reducible apply Within.refl | with_reducible apply State.phyReset_within
    | with_reducible apply State.phyWriteEn_within | with_reducible apply Within.ite
    | (conv => arg 3; arg 24; skip); with_reducible apply Within.build | with_reducible exact Or.inl rfl
    | exact Or.inr (by decide) | decide

/-! ## Commands -/

theorem execChainSetupTimeout_within (q : Fin 8192) (s : State) :
    ∃ t, execChainSetupTimeout q s = .next t ∧ Within 19923137 s t := by
  unfold execChainSetupTimeout
  refine ⟨_, rfl, ?_⟩
  repeat' first
    | with_reducible apply Within.refl | with_reducible apply State.failChain_within | with_reducible apply Within.ite | decide
    | split

theorem execPairSetupTimeout_within (q : Fin 8192) (s : State) :
    ∃ t, execPairSetupTimeout q s = .next t ∧ Within 19923137 s t := by
  unfold execPairSetupTimeout
  refine ⟨_, rfl, ?_⟩
  repeat' first
    | with_reducible apply Within.refl | with_reducible apply State.complete_within | with_reducible apply State.updQ_within
    | decide | split

theorem execSyncTimeout_within (q : Fin 8192) (s : State) :
    ∃ t, execSyncTimeout q s = .next t ∧ Within 19923137 s t := by
  unfold execSyncTimeout
  refine ⟨_, rfl, ?_⟩
  repeat' first
    | with_reducible apply Within.refl | with_reducible apply State.takeover_within | decide

theorem execPairFailNLow_within (s : State) :
    ∃ t, execPairFailNLow s = .next t ∧ Within 1 s t := by
  unfold execPairFailNLow
  dsimp only
  refine ⟨_, rfl, ?_⟩
  repeat' first
    | with_reducible apply Within.refl | with_reducible apply Within.foldl | (intro _ _; try dsimp only)
    | with_reducible apply State.updQ_within | decide

theorem execPairFailSyncTimeout_within (q : Fin 8192) (s : State) :
    ∃ t, execPairFailSyncTimeout q s = .next t ∧ Within 19923137 s t := by
  unfold execPairFailSyncTimeout
  refine ⟨_, rfl, ?_⟩
  repeat' first
    | with_reducible apply Within.refl | with_reducible apply State.takeover_within | with_reducible apply Within.ite | decide

theorem execChainCmdApply_within (q : Fin 8192) (s : State) :
    ∃ t, execChainCmdApply q s = .next t ∧ Within 28314817 s t := by
  unfold execChainCmdApply
  refine ⟨_, rfl, ?_⟩
  repeat' first
    | with_reducible apply Within.refl | with_reducible apply State.applyChainCmd_within | decide

theorem execFfMarkApply_within (q : Fin 8192) (s : State) :
    ∃ t, execFfMarkApply q s = .next t ∧ Within 19924161 s t := by
  unfold execFfMarkApply
  refine ⟨_, rfl, ?_⟩
  repeat' first
    | with_reducible apply Within.refl | with_reducible apply State.applyFfMark_within | decide

theorem execFallForwardSend_within (q : Fin 8192) (s : State) :
    ∃ t, execFallForwardSend q s = .next t ∧ Within 19924163 s t := by
  unfold execFallForwardSend
  refine ⟨_, rfl, ?_⟩
  repeat' first
    | with_reducible apply Within.refl | with_reducible apply State.fallForward_within | decide

theorem execHelloTimer_within (s : State) :
    ∃ t, execHelloTimer s = .next t ∧ Within 16777280 s t := by
  unfold execHelloTimer
  refine ⟨_, rfl, ?_⟩
  repeat' first
    | with_reducible apply Within.refl | with_reducible apply State.broadcastCtrl_within | decide

theorem execRingMapExpiry_within (station : Fin 8) (s : State) :
    ∃ t, execRingMapExpiry station s = .next t ∧ Within 64 s t := by
  unfold execRingMapExpiry
  refine ⟨_, rfl, ?_⟩
  repeat' first
    | with_reducible apply Within.refl | with_reducible apply State.mapExpiry_within | decide

theorem execRingHelloMissing_within (d : Side) (s : State) :
    ∃ t, execRingHelloMissing d s = .next t ∧ Within 19926213 s t := by
  unfold execRingHelloMissing
  refine ⟨_, rfl, ?_⟩
  repeat' first
    | with_reducible apply Within.refl | with_reducible apply State.phyDown_within | with_reducible apply State.updPhy_within
    | with_reducible apply Within.ite | decide

theorem execRingAckTimer_within (d : Side) (s : State) :
    ∃ t, execRingAckTimer d s = .next t ∧ Within 16777280 s t := by
  unfold execRingAckTimer
  refine ⟨_, rfl, ?_⟩
  repeat' first
    | with_reducible apply Within.refl | with_reducible apply State.sendCtrlOn_within | with_reducible apply Within.ite | decide

theorem execRingResendTimeout_within (d : Side) (s : State) :
    ∃ t, execRingResendTimeout d s = .next t ∧ Within 16777280 s t := by
  unfold execRingResendTimeout
  refine ⟨_, rfl, ?_⟩
  repeat' first
    | with_reducible apply Within.refl | with_reducible apply State.resendAll_within | decide

theorem execSyncTimer_within (peer : Fin 8) (s : State) :
    ∃ t, execSyncTimer peer s = .next t ∧ Within 16777281 s t := by
  unfold execSyncTimer
  refine ⟨_, rfl, ?_⟩
  repeat' first
    | with_reducible apply Within.refl | with_reducible apply State.syncTurn_within | decide

theorem execSideDownTimeout_within (d : Side) (s : State) :
    ∃ t, execSideDownTimeout d s = .next t ∧ Within 19926209 s t := by
  unfold execSideDownTimeout
  refine ⟨_, rfl, ?_⟩
  repeat' first
    | with_reducible apply Within.refl | with_reducible apply State.loseBeyond_within | with_reducible apply Within.ite | decide

theorem execHopPauseTimeout_within (d : Side) (s : State) :
    ∃ t, execHopPauseTimeout d s = .next t ∧ Within 16777281 s t := by
  unfold execHopPauseTimeout
  refine ⟨_, rfl, ?_⟩
  repeat' first
    | with_reducible apply Within.refl | with_reducible apply Within.foldl | (intro _ _; try dsimp only)
    | with_reducible apply State.abdicate_within | with_reducible apply Within.ite | decide

theorem execRingSideEnable_within (v : Word32) (s : State) :
    ∃ t, execRingSideEnable v s = .next t ∧ Within 19991749 s t := by
  unfold execRingSideEnable
  refine ⟨_, rfl, ?_⟩
  repeat' first
    | with_reducible apply Within.refl | with_reducible apply State.coreWrite_within
    | with_reducible apply State.writeRingCfg_within | decide

theorem execRingSideDisable_within (v : Word32) (s : State) :
    ∃ t, execRingSideDisable v s = .next t ∧ Within 19991749 s t := by
  unfold execRingSideDisable
  refine ⟨_, rfl, ?_⟩
  repeat' first
    | with_reducible apply Within.refl | with_reducible apply State.coreWrite_within
    | with_reducible apply State.writeRingCfg_within | decide

theorem execRingInsert_within (v : Word32) (s : State) :
    ∃ t, execRingInsert v s = .next t ∧ Within 19991749 s t := by
  unfold execRingInsert
  refine ⟨_, rfl, ?_⟩
  repeat' first
    | with_reducible apply Within.refl | with_reducible apply State.coreWrite_within
    | with_reducible apply State.writeRingCfg_within | decide

theorem execRingSideRst_within (v : Word32) (s : State) :
    ∃ t, execRingSideRst v s = .next t ∧ Within 19991749 s t := by
  unfold execRingSideRst
  refine ⟨_, rfl, ?_⟩
  repeat' first
    | with_reducible apply Within.refl | with_reducible apply State.coreWrite_within
    | with_reducible apply State.writeRingCfg_within | decide

end Sys2Proof.Machine
end

