-- ==== Sys2Proof/Laws/Time.lean ====
section
/-!
SUPPORT. What the operations of Machine/Time.lean may change (Laws/Within.lean says how a mask names the parts),
and the commands of that file.
-/
namespace Sys2Proof.Machine

theorem State.rejudgeAll_within {W : Nat} {s0 s : State}  (hW : Within W s0 s)
    (hM : 19926209 ||| W = W) : Within W s0 s.rejudgeAll := by
  refine hW.step ?_ hM; clear hW hM; unfold State.rejudgeAll
  repeat' first
    | with_reducible apply Within.refl | with_reducible apply Within.foldl | (intro _ _; try dsimp only)
    | with_reducible apply State.rejudge_within | decide

theorem State.setLock_within {W : Nat} {s0 s : State} (l : Lock) (e : Int) (hW : Within W s0 s)
    (hM : 16793728 ||| W = W) : Within W s0 (s.setLock l e) := by
  refine hW.step ?_ hM; clear hW hM; unfold State.setLock
  dsimp only
  repeat' first
    | with_reducible apply Within.refl | with_reducible apply State.post_within | with_reducible apply State.sendTimes_within
    | with_reducible apply Within.ite | (conv => arg 3; arg 24; skip); with_reducible apply Within.build
    | with_reducible exact Or.inl rfl | exact Or.inr (by decide) | decide

theorem State.endTod_within {W : Nat} {s0 s : State} (status : Nat) (hW : Within W s0 s)
    (hM : 19939520 ||| W = W) : Within W s0 (s.endTod status) := by
  refine hW.step ?_ hM; clear hW hM; unfold State.endTod
  dsimp only
  repeat' first
    | with_reducible apply Within.refl | with_reducible apply State.complete_within
    | (conv => arg 3; arg 24; skip); with_reducible apply Within.build | with_reducible exact Or.inl rfl
    | exact Or.inr (by decide) | decide | split

theorem State.edgeUnlocked_within {W : Nat} {s0 s : State} (e : Int) (hW : Within W s0 s)
    (hM : 19942593 ||| W = W) : Within W s0 (s.edgeUnlocked e) := by
  refine hW.step ?_ hM; clear hW hM; unfold State.edgeUnlocked
  dsimp only
  repeat' first
    | with_reducible apply Within.refl | with_reducible apply State.rejudgeAll_within
    | with_reducible apply State.setLock_within | with_reducible apply Within.ite
    | (conv => arg 3; arg 24; skip); with_reducible apply Within.build | with_reducible exact Or.inl rfl
    | exact Or.inr (by decide) | decide

theorem State.edgeLocked_within {W : Nat} {s0 s : State} (e : Int) (hW : Within W s0 s)
    (hM : 19942593 ||| W = W) : Within W s0 (s.edgeLocked e) := by
  refine hW.step ?_ hM; clear hW hM; unfold State.edgeLocked
  dsimp only
  repeat' first
    | with_reducible apply Within.refl | with_reducible apply State.raise_within | with_reducible apply State.rejudgeAll_within
    | with_reducible apply State.setLock_within | with_reducible apply Within.ite
    | (conv => arg 3; arg 24; skip); with_reducible apply Within.build | with_reducible exact Or.inl rfl
    | exact Or.inr (by decide) | decide

theorem State.ppsEdge_within {W : Nat} {s0 s : State}  (hW : Within W s0 s)
    (hM : 19942593 ||| W = W) : Within W s0 s.ppsEdge := by
  refine hW.step ?_ hM; clear hW hM; unfold State.ppsEdge
  dsimp only
  repeat' first
    | with_reducible apply Within.refl | with_reducible apply State.completeResult_within
    | with_reducible apply State.edgeLocked_within | with_reducible apply State.edgeUnlocked_within
    | with_reducible apply State.rejudgeAll_within | with_reducible apply State.setLock_within | with_reducible apply Within.ite
    | (conv => arg 3; arg 24; skip); with_reducible apply Within.build | with_reducible exact Or.inl rfl
    | exact Or.inr (by decide) | decide | split

theorem State.ppsLoss_within {W : Nat} {s0 s : State}  (hW : Within W s0 s)
    (hM : 19939520 ||| W = W) : Within W s0 s.ppsLoss := by
  refine hW.step ?_ hM; clear hW hM; unfold State.ppsLoss
  dsimp only
  repeat' first
    | with_reducible apply Within.refl | with_reducible apply State.raise_within | with_reducible apply State.setLock_within
    | with_reducible apply Within.ite | (conv => arg 3; arg 24; skip); with_reducible apply Within.build
    | with_reducible exact Or.inl rfl | exact Or.inr (by decide) | decide

theorem State.writeTbCtrl_within {W : Nat} {s0 s : State} (v : Word32) (hW : Within W s0 s)
    (hM : 16793728 ||| W = W) : Within W s0 (s.writeTbCtrl v) := by
  refine hW.step ?_ hM; clear hW hM; unfold State.writeTbCtrl
  dsimp only
  repeat' first
    | with_reducible apply Within.refl | with_reducible apply State.setLock_within | with_reducible apply Within.ite
    | (conv => arg 3; arg 24; skip); with_reducible apply Within.build | with_reducible exact Or.inl rfl
    | exact Or.inr (by decide) | decide

theorem State.latchTb_within {W : Nat} {s0 s : State} (acc : Accessor) (hW : Within W s0 s)
    (hM : 16384 ||| W = W) : Within W s0 (s.latchTb acc) := by
  refine hW.step ?_ hM; clear hW hM; unfold State.latchTb
  dsimp only
  repeat' first
    | with_reducible apply Within.refl | (conv => arg 3; arg 24; skip); with_reducible apply Within.build
    | with_reducible exact Or.inl rfl | exact Or.inr (by decide)

theorem State.readTbNowLo_within {W : Nat} {s0 s : State} (acc : Accessor) (hW : Within W s0 s)
    (hM : 16384 ||| W = W) : Within W s0 (s.readTbNowLo acc).2 := by
  refine hW.step ?_ hM; clear hW hM; unfold State.readTbNowLo
  dsimp only
  repeat' first
    | with_reducible apply Within.refl | with_reducible apply State.latchTb_within | decide

theorem State.readTbNowLo_eq_within {W : Nat} {s0 s t : State} {acc : Accessor} {y0 : Nat} (e : State.readTbNowLo s acc = (y0, t)) (hW : Within W s0 s)
    (hM : 16384 ||| W = W) : Within W s0 t := by
  have h := State.readTbNowLo_within acc hW hM
  rw [e] at h
  exact h

theorem State.doTimeSet_within {W : Nat} {s0 s : State} (r : CmdRef) (d : Block512) (hW : Within W s0 s)
    (hM : 19942593 ||| W = W) : Within W s0 (s.doTimeSet r d) := by
  refine hW.step ?_ hM; clear hW hM; unfold State.doTimeSet
  dsimp only
  repeat' first
    | with_reducible apply Within.refl | with_reducible apply State.complete_within
    | with_reducible apply State.completeResult_within | with_reducible apply State.endTod_within
    | with_reducible apply State.rejudgeAll_within | with_reducible apply State.setLock_within | with_reducible apply Within.ite
    | (conv => arg 3; arg 24; skip); with_reducible apply Within.build | with_reducible exact Or.inl rfl
    | exact Or.inr (by decide) | decide

/-! ## Commands -/

theorem execPpsEdge_within (s : State) :
    ∃ t, execPpsEdge s = .next t ∧ Within 19942593 s t := by
  unfold execPpsEdge
  refine ⟨_, rfl, ?_⟩
  repeat' first
    | with_reducible apply Within.refl | with_reducible apply State.ppsEdge_within | decide

theorem execPpsLossTimeout_within (s : State) :
    ∃ t, execPpsLossTimeout s = .next t ∧ Within 19939520 s t := by
  unfold execPpsLossTimeout
  refine ⟨_, rfl, ?_⟩
  repeat' first
    | with_reducible apply Within.refl | with_reducible apply State.ppsLoss_within | decide

theorem execPhaseTermEnd_within (s : State) :
    ∃ t, execPhaseTermEnd s = .next t ∧ Within 16384 s t := by
  unfold execPhaseTermEnd
  dsimp only
  refine ⟨_, rfl, ?_⟩
  repeat' first
    | with_reducible apply Within.refl | (conv => arg 3; arg 24; skip); with_reducible apply Within.build
    | with_reducible exact Or.inl rfl | exact Or.inr (by decide)

theorem execPpsOutRise_within (s : State) :
    ∃ t, execPpsOutRise s = .next t ∧ Within 16384 s t := by
  unfold execPpsOutRise
  dsimp only
  refine ⟨_, rfl, ?_⟩
  repeat' first
    | with_reducible apply Within.refl | with_reducible apply Within.ite
    | (conv => arg 3; arg 24; skip); with_reducible apply Within.build | with_reducible exact Or.inl rfl
    | exact Or.inr (by decide)

theorem execPpsOutFall_within (s : State) :
    ∃ t, execPpsOutFall s = .next t ∧ Within 16384 s t := by
  unfold execPpsOutFall
  dsimp only
  refine ⟨_, rfl, ?_⟩
  repeat' first
    | with_reducible apply Within.refl | (conv => arg 3; arg 24; skip); with_reducible apply Within.build
    | with_reducible exact Or.inl rfl | exact Or.inr (by decide)

theorem execPpsEnWrite_within (v : Word32) (s : State) :
    ∃ t, execPpsEnWrite v s = .next t ∧ Within 16793728 s t := by
  unfold execPpsEnWrite
  refine ⟨_, rfl, ?_⟩
  repeat' first
    | with_reducible apply Within.refl | with_reducible apply State.coreWrite_within
    | with_reducible apply State.writeTbCtrl_within | decide

theorem execTimeSetEdgeTimeout_within (s : State) :
    ∃ t, execTimeSetEdgeTimeout s = .next t ∧ Within 19939520 s t := by
  unfold execTimeSetEdgeTimeout
  refine ⟨_, rfl, ?_⟩
  repeat' first
    | with_reducible apply Within.refl | with_reducible apply State.endTod_within | decide

end Sys2Proof.Machine
end

