-- ==== Sys2Proof/Laws/HostCmds.lean ====
section
/-!
SUPPORT. What the operations of Machine/HostCmds.lean may change (Laws/Within.lean says how a mask names the parts),
and the commands of that file.
-/
namespace Sys2Proof.Machine

theorem State.doHello_within {W : Nat} {s0 s : State} (r : CmdRef) (d : Block512) (hW : Within W s0 s)
    (hM : 19923136 ||| W = W) : Within W s0 (s.doHello r d) := by
  refine hW.step ?_ hM; clear hW hM; unfold State.doHello
  dsimp only
  repeat' first
    | with_reducible apply Within.refl | with_reducible apply State.completeInfo_within
    | with_reducible apply State.updFunc_within | decide | split

theorem State.hostEffect_within {W : Nat} {s0 s : State} (r : CmdRef) (d : Block512) (msg : Option (List Byte)) (hW : Within W s0 s)
    (hM : 29359615 ||| W = W) : Within W s0 (s.hostEffect r d msg) := by
  refine hW.step ?_ hM; clear hW hM; unfold State.hostEffect
  repeat' first
    | with_reducible apply Within.refl | with_reducible apply State.doChainSetup_within
    | with_reducible apply State.doDringSet_within | with_reducible apply State.doFailover_within
    | with_reducible apply State.doFlagSet_within | with_reducible apply State.doGroupSet_within
    | with_reducible apply State.doHello_within | with_reducible apply State.doKeyQuery_within
    | with_reducible apply State.doKeyUpdate_within | with_reducible apply State.doLcSubmit_within
    | with_reducible apply State.doMark_within | with_reducible apply State.doPairSetup_within
    | with_reducible apply State.doPinSet_within | with_reducible apply State.doPolicySet_within
    | with_reducible apply State.doQueryQueue_within | with_reducible apply State.doQueueBind_within
    | with_reducible apply State.doQueueClose_within | with_reducible apply State.doQueueDiscard_within
    | with_reducible apply State.doQueueOpen_within | with_reducible apply State.doQueueRelease_within
    | with_reducible apply State.doQueueReset_within | with_reducible apply State.doRekey_within
    | with_reducible apply State.doReleaseMark_within | with_reducible apply State.doRewind_within
    | with_reducible apply State.doTenantRelease_within | with_reducible apply State.doTimeSet_within | decide | split

theorem State.takeEffect_within {W : Nat} {s0 s : State} (r : CmdRef) (d : Block512) (msg : Option (List Byte)) (hW : Within W s0 s)
    (hM : 29359615 ||| W = W) : Within W s0 (s.takeEffect r d msg) := by
  refine hW.step ?_ hM; clear hW hM; unfold State.takeEffect
  dsimp only
  repeat' first
    | with_reducible apply Within.refl | with_reducible apply State.complete_within
    | with_reducible apply State.hostEffect_within | with_reducible apply Within.ite | decide

theorem State.fetch_within {W : Nat} {s0 s : State} (g : Nat) (d : Block512) (msg : Option (List Byte)) (hW : Within W s0 s)
    (hM : 29360127 ||| W = W) : Within W s0 (s.fetch g d msg) := by
  refine hW.step ?_ hM; clear hW hM; unfold State.fetch
  dsimp only
  repeat' first
    | with_reducible apply Within.refl | with_reducible apply State.takeEffect_within
    | with_reducible apply State.updFunc_within | with_reducible apply Within.ite
    | (conv => arg 3; arg 24; skip); with_reducible apply Within.build | with_reducible exact Or.inl rfl
    | exact Or.inr (by decide) | decide

theorem State.releaseFenced_within {W : Nat} {s0 s : State} (g : Nat) (a2 : Nat) (hW : Within W s0 s)
    (hM : 29359615 ||| W = W) : Within W s0 (s.releaseFenced g a2) := by
  refine hW.step ?_ hM
  clear hW hM
  induction a2 generalizing s g with
  | zero =>
    unfold State.releaseFenced
    repeat' with_reducible apply Within.refl
  | succ k ih =>
    unfold State.releaseFenced
    repeat' first
      | with_reducible apply Within.refl | with_reducible apply State.takeEffect_within
      | with_reducible apply State.updFunc_within | with_reducible apply Within.ite | decide
      | with_reducible refine Within.step (M := 29359615) ?_ (ih _) rfl | split

theorem State.releaseFences_within {W : Nat} {s0 s : State}  (hW : Within W s0 s)
    (hM : 29359615 ||| W = W) : Within W s0 s.releaseFences := by
  refine hW.step ?_ hM; clear hW hM; unfold State.releaseFences
  repeat' first
    | with_reducible apply Within.refl | with_reducible apply Within.foldl | (intro _ _; try dsimp only)
    | with_reducible apply State.releaseFenced_within | with_reducible apply Within.ite | decide

theorem State.hostCommand_within {W : Nat} {s0 s : State} (g : Nat) (op : Nat) (d : Block512) (msg : Option (List Byte)) (hW : Within W s0 s)
    (hM : 29360127 ||| W = W) : Within W s0 (s.hostCommand g op d msg) := by
  refine hW.step ?_ hM; clear hW hM; unfold State.hostCommand
  repeat' first
    | with_reducible apply Within.refl | with_reducible apply State.fetch_within | with_reducible apply Within.ite | decide

theorem State.startupCommands_within {W : Nat} {s0 s : State} (i : Nat) (a2 : List Block512) (hW : Within W s0 s)
    (hM : 29360127 ||| W = W) : Within W s0 (s.startupCommands i a2) := by
  refine hW.step ?_ hM
  clear hW hM
  induction a2 generalizing s i with
  | nil =>
    unfold State.startupCommands
    repeat' with_reducible apply Within.refl
  | cons x xs ih =>
    unfold State.startupCommands
    dsimp only
    repeat' first
      | with_reducible apply Within.refl | with_reducible apply State.takeEffect_within
      | (conv => arg 3; arg 24; skip); with_reducible apply Within.build | with_reducible exact Or.inl rfl
      | exact Or.inr (by decide) | decide | with_reducible refine Within.step (M := 29360127) ?_ (ih _) rfl

/-! ## Commands -/

theorem execHello_within (fn : Fin 16) (d : Block512) (s : State) :
    ∃ t, execHello fn d s = .next t ∧ Within 29360127 s t := by
  unfold execHello
  refine ⟨_, rfl, ?_⟩
  repeat' first
    | with_reducible apply Within.refl | with_reducible apply State.hostCommand_within | decide

theorem execDringSet_within (fn : Fin 16) (d : Block512) (s : State) :
    ∃ t, execDringSet fn d s = .next t ∧ Within 29360127 s t := by
  unfold execDringSet
  refine ⟨_, rfl, ?_⟩
  repeat' first
    | with_reducible apply Within.refl | with_reducible apply State.hostCommand_within | decide

theorem execQueueBind_within (fn : Fin 16) (d : Block512) (s : State) :
    ∃ t, execQueueBind fn d s = .next t ∧ Within 29360127 s t := by
  unfold execQueueBind
  refine ⟨_, rfl, ?_⟩
  repeat' first
    | with_reducible apply Within.refl | with_reducible apply State.hostCommand_within | decide

theorem execQueueOpen_within (fn : Fin 16) (d : Block512) (s : State) :
    ∃ t, execQueueOpen fn d s = .next t ∧ Within 29360127 s t := by
  unfold execQueueOpen
  refine ⟨_, rfl, ?_⟩
  repeat' first
    | with_reducible apply Within.refl | with_reducible apply State.hostCommand_within | decide

theorem execQueueClose_within (fn : Fin 16) (d : Block512) (s : State) :
    ∃ t, execQueueClose fn d s = .next t ∧ Within 29360127 s t := by
  unfold execQueueClose
  refine ⟨_, rfl, ?_⟩
  repeat' first
    | with_reducible apply Within.refl | with_reducible apply State.hostCommand_within | decide

theorem execQueueDiscard_within (fn : Fin 16) (d : Block512) (s : State) :
    ∃ t, execQueueDiscard fn d s = .next t ∧ Within 29360127 s t := by
  unfold execQueueDiscard
  refine ⟨_, rfl, ?_⟩
  repeat' first
    | with_reducible apply Within.refl | with_reducible apply State.hostCommand_within | decide

theorem execQueueReset_within (fn : Fin 16) (d : Block512) (s : State) :
    ∃ t, execQueueReset fn d s = .next t ∧ Within 29360127 s t := by
  unfold execQueueReset
  refine ⟨_, rfl, ?_⟩
  repeat' first
    | with_reducible apply Within.refl | with_reducible apply State.hostCommand_within | decide

theorem execQueueRelease_within (fn : Fin 16) (d : Block512) (s : State) :
    ∃ t, execQueueRelease fn d s = .next t ∧ Within 29360127 s t := by
  unfold execQueueRelease
  refine ⟨_, rfl, ?_⟩
  repeat' first
    | with_reducible apply Within.refl | with_reducible apply State.hostCommand_within | decide

theorem execQueryQueue_within (fn : Fin 16) (d : Block512) (s : State) :
    ∃ t, execQueryQueue fn d s = .next t ∧ Within 29360127 s t := by
  unfold execQueryQueue
  refine ⟨_, rfl, ?_⟩
  repeat' first
    | with_reducible apply Within.refl | with_reducible apply State.hostCommand_within | decide

theorem execGroupSet_within (fn : Fin 16) (d : Block512) (s : State) :
    ∃ t, execGroupSet fn d s = .next t ∧ Within 29360127 s t := by
  unfold execGroupSet
  refine ⟨_, rfl, ?_⟩
  repeat' first
    | with_reducible apply Within.refl | with_reducible apply State.hostCommand_within | decide

theorem execFlagSet_within (fn : Fin 16) (d : Block512) (s : State) :
    ∃ t, execFlagSet fn d s = .next t ∧ Within 29360127 s t := by
  unfold execFlagSet
  refine ⟨_, rfl, ?_⟩
  repeat' first
    | with_reducible apply Within.refl | with_reducible apply State.hostCommand_within | decide

theorem execMark_within (fn : Fin 16) (d : Block512) (s : State) :
    ∃ t, execMark fn d s = .next t ∧ Within 29360127 s t := by
  unfold execMark
  refine ⟨_, rfl, ?_⟩
  repeat' first
    | with_reducible apply Within.refl | with_reducible apply State.hostCommand_within | decide

theorem execRewind_within (fn : Fin 16) (d : Block512) (s : State) :
    ∃ t, execRewind fn d s = .next t ∧ Within 29360127 s t := by
  unfold execRewind
  refine ⟨_, rfl, ?_⟩
  repeat' first
    | with_reducible apply Within.refl | with_reducible apply State.hostCommand_within | decide

theorem execReleaseMark_within (fn : Fin 16) (d : Block512) (s : State) :
    ∃ t, execReleaseMark fn d s = .next t ∧ Within 29360127 s t := by
  unfold execReleaseMark
  refine ⟨_, rfl, ?_⟩
  repeat' first
    | with_reducible apply Within.refl | with_reducible apply State.hostCommand_within | decide

theorem execTimeSet_within (fn : Fin 16) (d : Block512) (s : State) :
    ∃ t, execTimeSet fn d s = .next t ∧ Within 29360127 s t := by
  unfold execTimeSet
  refine ⟨_, rfl, ?_⟩
  repeat' first
    | with_reducible apply Within.refl | with_reducible apply State.hostCommand_within | decide

theorem execPinSet_within (fn : Fin 16) (d : Block512) (s : State) :
    ∃ t, execPinSet fn d s = .next t ∧ Within 29360127 s t := by
  unfold execPinSet
  refine ⟨_, rfl, ?_⟩
  repeat' first
    | with_reducible apply Within.refl | with_reducible apply State.hostCommand_within | decide

theorem execPolicySet_within (fn : Fin 16) (d : Block512) (s : State) :
    ∃ t, execPolicySet fn d s = .next t ∧ Within 29360127 s t := by
  unfold execPolicySet
  refine ⟨_, rfl, ?_⟩
  repeat' first
    | with_reducible apply Within.refl | with_reducible apply State.hostCommand_within | decide

theorem execChainSetup_within (fn : Fin 16) (d : Block512) (s : State) :
    ∃ t, execChainSetup fn d s = .next t ∧ Within 29360127 s t := by
  unfold execChainSetup
  refine ⟨_, rfl, ?_⟩
  repeat' first
    | with_reducible apply Within.refl | with_reducible apply State.hostCommand_within | decide

theorem execPairSetup_within (fn : Fin 16) (d : Block512) (s : State) :
    ∃ t, execPairSetup fn d s = .next t ∧ Within 29360127 s t := by
  unfold execPairSetup
  refine ⟨_, rfl, ?_⟩
  repeat' first
    | with_reducible apply Within.refl | with_reducible apply State.hostCommand_within | decide

theorem execFailover_within (fn : Fin 16) (d : Block512) (s : State) :
    ∃ t, execFailover fn d s = .next t ∧ Within 29360127 s t := by
  unfold execFailover
  refine ⟨_, rfl, ?_⟩
  repeat' first
    | with_reducible apply Within.refl | with_reducible apply State.hostCommand_within | decide

theorem execRekey_within (fn : Fin 16) (d : Block512) (s : State) :
    ∃ t, execRekey fn d s = .next t ∧ Within 29360127 s t := by
  unfold execRekey
  refine ⟨_, rfl, ?_⟩
  repeat' first
    | with_reducible apply Within.refl | with_reducible apply State.hostCommand_within | decide

theorem execKeyUpdate_within (fn : Fin 16) (d : Block512) (msg : Option (List Byte)) (s : State) :
    ∃ t, execKeyUpdate fn d msg s = .next t ∧ Within 29360127 s t := by
  unfold execKeyUpdate
  refine ⟨_, rfl, ?_⟩
  repeat' first
    | with_reducible apply Within.refl | with_reducible apply State.hostCommand_within | decide

theorem execLcSubmit_within (fn : Fin 16) (d : Block512) (msg : Option (List Byte)) (s : State) :
    ∃ t, execLcSubmit fn d msg s = .next t ∧ Within 29360127 s t := by
  unfold execLcSubmit
  refine ⟨_, rfl, ?_⟩
  repeat' first
    | with_reducible apply Within.refl | with_reducible apply State.hostCommand_within | decide

theorem execKeyQuery_within (fn : Fin 16) (d : Block512) (s : State) :
    ∃ t, execKeyQuery fn d s = .next t ∧ Within 29360127 s t := by
  unfold execKeyQuery
  refine ⟨_, rfl, ?_⟩
  repeat' first
    | with_reducible apply Within.refl | with_reducible apply State.hostCommand_within | decide

theorem execTenantRelease_within (fn : Fin 16) (d : Block512) (s : State) :
    ∃ t, execTenantRelease fn d s = .next t ∧ Within 29360127 s t := by
  unfold execTenantRelease
  refine ⟨_, rfl, ?_⟩
  repeat' first
    | with_reducible apply Within.refl | with_reducible apply State.hostCommand_within | decide

end Sys2Proof.Machine
end

