-- ==== Sys2Proof/Laws/Crosswalk.lean ====
section
/-!
SUPPORT. What the operations of Machine/Crosswalk.lean may change (Laws/Within.lean says how a mask names the parts).
-/
namespace Sys2Proof.Machine

theorem State.mapDataCells_within {W : Nat} {s0 s : State} (inbound : DataCell → Windows → DataCell) (outbound : DataCell → Windows → DataCell) (hW : Within W s0 s)
    (hM : 324 ||| W = W) : Within W s0 (s.mapDataCells inbound outbound) := by
  refine hW.step ?_ hM; clear hW hM; unfold State.mapDataCells
  dsimp only
  repeat' first
    | with_reducible apply Within.refl | (conv => arg 3; arg 24; skip); with_reducible apply Within.build
    | with_reducible exact Or.inl rfl | exact Or.inr (by decide)

theorem State.coreHalvesStop_within {W : Nat} {s0 s : State}  (hW : Within W s0 s)
    (hM : 324 ||| W = W) : Within W s0 s.coreHalvesStop := by
  refine hW.step ?_ hM; clear hW hM; unfold State.coreHalvesStop
  repeat' first
    | with_reducible apply Within.refl | with_reducible apply State.mapDataCells_within | decide

theorem State.allHalvesStop_within {W : Nat} {s0 s : State}  (hW : Within W s0 s)
    (hM : 324 ||| W = W) : Within W s0 s.allHalvesStop := by
  refine hW.step ?_ hM; clear hW hM; unfold State.allHalvesStop
  repeat' first
    | with_reducible apply Within.refl | with_reducible apply State.mapDataCells_within | decide

theorem State.settleCells_within {W : Nat} {s0 s : State}  (hW : Within W s0 s)
    (hM : 324 ||| W = W) : Within W s0 s.settleCells := by
  refine hW.step ?_ hM; clear hW hM; unfold State.settleCells
  dsimp only
  repeat' first
    | with_reducible apply Within.refl | with_reducible apply State.mapDataCells_within | decide

end Sys2Proof.Machine
end

