-- ==== Sys2Proof/Laws/Power.lean ====
section
/-!
SUPPORT. What the operations of Machine/Power.lean may change (Laws/Within.lean says how a mask names the parts),
and the commands of that file.
-/
namespace Sys2Proof.Machine

theorem setPower_within {W : Nat} {s0 s : State} (f : Power → Power) (hW : Within W s0 s)
    (hM : 131072 ||| W = W) : Within W s0 (setPower s f) := by
  refine hW.step ?_ hM; clear hW hM; unfold setPower
  repeat' first
    | with_reducible apply Within.refl | (conv => arg 3; arg 24; skip); with_reducible apply Within.build
    | with_reducible exact Or.inl rfl | exact Or.inr (by decide)

theorem State.noteOutcome_within {W : Nat} {s0 s : State} (id : Nat) (status : Nat) (hW : Within W s0 s)
    (hM : 131072 ||| W = W) : Within W s0 (s.noteOutcome id status) := by
  refine hW.step ?_ hM; clear hW hM; unfold State.noteOutcome
  repeat' first
    | with_reducible apply Within.refl | with_reducible apply setPower_within | decide

theorem State.pwrDone_within {W : Nat} {s0 s : State} (id : Nat) (target : Nat) (status : Nat) (slot : Option Nat) (hW : Within W s0 s)
    (hM : 16908416 ||| W = W) : Within W s0 (s.pwrDone id target status slot) := by
  refine hW.step ?_ hM; clear hW hM; unfold State.pwrDone
  repeat' first
    | with_reducible apply Within.refl | with_reducible apply State.noteOutcome_within | with_reducible apply State.post_within
    | decide

theorem State.endReq_within {W : Nat} {s0 s : State} (r : PwrReq) (status : Nat) (slot : Option Nat) (hW : Within W s0 s)
    (hM : 16908416 ||| W = W) : Within W s0 (s.endReq r status slot) := by
  refine hW.step ?_ hM; clear hW hM; unfold State.endReq
  repeat' first
    | with_reducible apply Within.refl | with_reducible apply State.pwrDone_within | decide | split

theorem State.latchPend_within {W : Nat} {s0 s : State} (r : PwrReq) (hW : Within W s0 s)
    (hM : 16908416 ||| W = W) : Within W s0 (s.latchPend r) := by
  refine hW.step ?_ hM; clear hW hM; unfold State.latchPend
  dsimp only
  repeat' first
    | with_reducible apply Within.refl | with_reducible apply State.endReq_within | with_reducible apply setPower_within
    | decide | split

theorem State.idleNotice_within {W : Nat} {s0 s : State} (l : Nat) (hW : Within W s0 s)
    (hM : 16777220 ||| W = W) : Within W s0 (s.idleNotice l) := by
  refine hW.step ?_ hM; clear hW hM; unfold State.idleNotice
  repeat' first
    | with_reducible apply Within.refl | with_reducible apply State.sendWord_within | with_reducible apply State.updLink_within
    | with_reducible apply Within.ite | decide

theorem State.operation_within {W : Nat} {s0 s : State} (on : Bool) (hW : Within W s0 s)
    (hM : 16908288 ||| W = W) : Within W s0 (s.operation on) := by
  refine hW.step ?_ hM; clear hW hM; unfold State.operation
  repeat' first
    | with_reducible apply Within.refl | with_reducible apply State.emit_within | with_reducible apply setPower_within | decide

theorem State.startExit_within {W : Nat} {s0 s : State} (r : PwrReq) (hW : Within W s0 s)
    (hM : 16908288 ||| W = W) : Within W s0 (s.startExit r) := by
  refine hW.step ?_ hM; clear hW hM; unfold State.startExit
  dsimp only
  repeat' first
    | with_reducible apply Within.refl | with_reducible apply State.operation_within | with_reducible apply setPower_within
    | with_reducible apply Within.ite | decide

theorem State.startReq_within {W : Nat} {s0 s : State} (r : PwrReq) (hW : Within W s0 s)
    (hM : 16908420 ||| W = W) : Within W s0 (s.startReq r) := by
  refine hW.step ?_ hM; clear hW hM; unfold State.startReq
  repeat' first
    | with_reducible apply Within.refl | with_reducible apply Within.foldl | (intro _ _; try dsimp only)
    | with_reducible apply State.endReq_within | with_reducible apply State.idleNotice_within
    | with_reducible apply State.latchPend_within | with_reducible apply State.startExit_within
    | with_reducible apply setPower_within | with_reducible apply Within.ite | decide | split

theorem State.request_within {W : Nat} {s0 s : State} (r : PwrReq) (hW : Within W s0 s)
    (hM : 16908420 ||| W = W) : Within W s0 (s.request r) := by
  refine hW.step ?_ hM; clear hW hM; unfold State.request
  repeat' first
    | with_reducible apply Within.refl | with_reducible apply State.latchPend_within
    | with_reducible apply State.startReq_within | with_reducible apply Within.ite | decide

theorem State.actPending_within {W : Nat} {s0 s : State}  (hW : Within W s0 s)
    (hM : 16908420 ||| W = W) : Within W s0 s.actPending := by
  refine hW.step ?_ hM; clear hW hM; unfold State.actPending
  repeat' first
    | with_reducible apply Within.refl | with_reducible apply State.startReq_within | with_reducible apply setPower_within
    | decide | split

theorem State.writePwrctl_within {W : Nat} {s0 s : State} (v : Word32) (hW : Within W s0 s)
    (hM : 16908420 ||| W = W) : Within W s0 (s.writePwrctl v) := by
  refine hW.step ?_ hM; clear hW hM; unfold State.writePwrctl
  dsimp only
  repeat' first
    | with_reducible apply Within.refl | with_reducible apply State.pwrDone_within | with_reducible apply State.request_within
    | decide | split

theorem State.pendingStart_within {W : Nat} {s0 s : State}  (hW : Within W s0 s)
    (hM : 16908420 ||| W = W) : Within W s0 s.pendingStart := by
  refine hW.step ?_ hM; clear hW hM; unfold State.pendingStart
  repeat' first
    | with_reducible apply Within.refl | with_reducible apply State.actPending_within | with_reducible apply setPower_within
    | with_reducible apply Within.ite | decide | split

theorem State.dropDomain_within {W : Nat} {s0 s : State} (d : Nat) (hW : Within W s0 s)
    (hM : 20057285 ||| W = W) : Within W s0 (s.dropDomain d) := by
  refine hW.step ?_ hM; clear hW hM; unfold State.dropDomain
  dsimp only
  repeat' first
    | with_reducible apply Within.refl | with_reducible apply Within.foldl | (intro _ _; try dsimp only)
    | with_reducible apply State.phyStop_within | with_reducible apply setPower_within | decide

theorem State.resetDataCells_within {W : Nat} {s0 s : State} (p : Phy) (hW : Within W s0 s)
    (hM : 68 ||| W = W) : Within W s0 (s.resetDataCells p) := by
  refine hW.step ?_ hM; clear hW hM; unfold State.resetDataCells
  repeat' first
    | with_reducible apply Within.refl | with_reducible apply State.updLink_within | with_reducible apply State.updSide_within
    | decide | split

theorem State.raiseDomain_within {W : Nat} {s0 s : State} (d : Nat) (hW : Within W s0 s)
    (hM : 20119748 ||| W = W) : Within W s0 (s.raiseDomain d) := by
  refine hW.step ?_ hM; clear hW hM; unfold State.raiseDomain
  dsimp only
  repeat' first
    | with_reducible apply Within.refl | with_reducible apply Within.foldl | (intro _ _; try dsimp only)
    | with_reducible apply State.phyEnable_within | with_reducible apply State.resetCells_within
    | with_reducible apply State.resetDataCells_within | with_reducible apply setPower_within | decide

theorem State.settleDomain_within {W : Nat} {s0 s : State} (d : Nat) (hW : Within W s0 s)
    (hM : 20057285 ||| W = W) : Within W s0 (s.settleDomain d) := by
  refine hW.step ?_ hM; clear hW hM; unfold State.settleDomain
  repeat' first
    | with_reducible apply Within.refl | with_reducible apply State.dropDomain_within | with_reducible apply Within.ite | decide

theorem State.settleVotes_within {W : Nat} {s0 s : State}  (hW : Within W s0 s)
    (hM : 20057285 ||| W = W) : Within W s0 s.settleVotes := by
  refine hW.step ?_ hM; clear hW hM; unfold State.settleVotes
  repeat' first
    | with_reducible apply Within.refl | with_reducible apply Within.foldl | (intro _ _; try dsimp only)
    | with_reducible apply State.settleDomain_within | decide

theorem State.domainPowerUp_within {W : Nat} {s0 s : State} (d : Nat) (hW : Within W s0 s)
    (hM : 20119748 ||| W = W) : Within W s0 (s.domainPowerUp d) := by
  refine hW.step ?_ hM; clear hW hM; unfold State.domainPowerUp
  repeat' first
    | with_reducible apply Within.refl | with_reducible apply State.raiseDomain_within | with_reducible apply Within.ite
    | decide

theorem State.writePwrvote_within {W : Nat} {s0 s : State} (g : Nat) (v : Word32) (hW : Within W s0 s)
    (hM : 20057285 ||| W = W) : Within W s0 (s.writePwrvote g v) := by
  refine hW.step ?_ hM; clear hW hM; unfold State.writePwrvote
  repeat' first
    | with_reducible apply Within.refl | with_reducible apply State.settleVotes_within
    | with_reducible apply State.updFunc_within | decide

theorem State.partnerVote_within {W : Nat} {s0 s : State} (l : Nat) (vote : Nat) (sleepReq : Bool) (hW : Within W s0 s)
    (hM : 20057285 ||| W = W) : Within W s0 (s.partnerVote l vote sleepReq) := by
  refine hW.step ?_ hM; clear hW hM; unfold State.partnerVote
  dsimp only
  repeat' first
    | with_reducible apply Within.refl | with_reducible apply Within.foldl | (intro _ _; try dsimp only)
    | with_reducible apply State.idleNotice_within | with_reducible apply State.sendWord_within
    | with_reducible apply State.settleVotes_within | with_reducible apply State.updLink_within
    | with_reducible apply Within.ite | decide

theorem State.endLead_within {W : Nat} {s0 s : State} (p : Phy) (hW : Within W s0 s)
    (hM : 19926213 ||| W = W) : Within W s0 (s.endLead p) := by
  refine hW.step ?_ hM; clear hW hM; unfold State.endLead
  repeat' first
    | with_reducible apply Within.refl | with_reducible apply State.phyStop_within
    | with_reducible apply State.updLink_within | decide | split

theorem State.leadEnd_within {W : Nat} {s0 s : State} (d : Nat) (hW : Within W s0 s)
    (hM : 20057285 ||| W = W) : Within W s0 (s.leadEnd d) := by
  refine hW.step ?_ hM; clear hW hM; unfold State.leadEnd
  dsimp only
  repeat' first
    | with_reducible apply Within.refl | with_reducible apply Within.foldl | (intro _ _; try dsimp only)
    | with_reducible apply State.dropDomain_within | with_reducible apply State.phyEnable_within
    | with_reducible apply State.endLead_within | with_reducible apply Within.ite | decide

theorem State.wakeVoteRelease_within {W : Nat} {s0 s : State} (l : Nat) (hW : Within W s0 s)
    (hM : 20057285 ||| W = W) : Within W s0 (s.wakeVoteRelease l) := by
  refine hW.step ?_ hM; clear hW hM; unfold State.wakeVoteRelease
  repeat' first
    | with_reducible apply Within.refl | with_reducible apply State.settleVotes_within
    | with_reducible apply State.updLink_within | with_reducible apply Within.ite | decide

theorem State.idlePhys_within {W : Nat} {s0 s : State}  (hW : Within W s0 s)
    (hM : 20057285 ||| W = W) : Within W s0 s.idlePhys := by
  refine hW.step ?_ hM; clear hW hM; unfold State.idlePhys
  repeat' first
    | with_reducible apply Within.refl | with_reducible apply Within.foldl | (intro _ _; try dsimp only)
    | with_reducible apply State.dropDomain_within | decide

theorem State.entryDone_within {W : Nat} {s0 s : State}  (hW : Within W s0 s)
    (hM : 16908416 ||| W = W) : Within W s0 s.entryDone := by
  refine hW.step ?_ hM; clear hW hM; unfold State.entryDone
  repeat' first
    | with_reducible apply Within.refl | with_reducible apply State.endReq_within | decide | split

theorem State.entryEnds_within {W : Nat} {s0 s : State}  (hW : Within W s0 s)
    (hM : 131072 ||| W = W) : Within W s0 s.entryEnds := by
  refine hW.step ?_ hM; clear hW hM; unfold State.entryEnds
  repeat' first
    | with_reducible apply Within.refl | with_reducible apply setPower_within | with_reducible apply Within.ite | decide

theorem State.enterSleep_within {W : Nat} {s0 s : State}  (hW : Within W s0 s)
    (hM : 20057541 ||| W = W) : Within W s0 s.enterSleep := by
  refine hW.step ?_ hM; clear hW hM; unfold State.enterSleep
  repeat' first
    | with_reducible apply Within.refl | with_reducible apply State.allHalvesStop_within
    | with_reducible apply State.entryDone_within | with_reducible apply State.entryEnds_within
    | with_reducible apply State.idlePhys_within | with_reducible apply setPower_within | with_reducible apply Within.ite
    | decide

theorem State.sleepPads_within {W : Nat} {s0 s : State}  (hW : Within W s0 s)
    (hM : 282624 ||| W = W) : Within W s0 s.sleepPads := by
  refine hW.step ?_ hM; clear hW hM; unfold State.sleepPads
  dsimp only
  repeat' first
    | with_reducible apply Within.refl | with_reducible apply State.padHold_within
    | (conv => arg 3; arg 24; skip); with_reducible apply Within.build | with_reducible exact Or.inl rfl
    | exact Or.inr (by decide) | exact Or.inr ⟨by decide, fun h => ⟨h.1, h.2⟩⟩ | decide

theorem State.stopHost_within {W : Nat} {s0 s : State}  (hW : Within W s0 s)
    (hM : 65920 ||| W = W) : Within W s0 s.stopHost := by
  refine hW.step ?_ hM; clear hW hM; unfold State.stopHost
  dsimp only
  repeat' first
    | with_reducible apply Within.refl | with_reducible apply Within.foldl | (intro _ _; try dsimp only)
    | with_reducible apply State.resetCells_within | with_reducible apply State.setFunc_within
    | (conv => arg 3; arg 24; skip); with_reducible apply Within.build | with_reducible exact Or.inl rfl
    | exact Or.inr (by decide) | decide

theorem State.coreOff_within {W : Nat} {s0 s : State}  (hW : Within W s0 s)
    (hM : 19021824 ||| W = W) : Within W s0 s.coreOff := by
  refine hW.step ?_ hM; clear hW hM; unfold State.coreOff
  dsimp only
  repeat' first
    | with_reducible apply Within.refl | with_reducible apply State.operation_within
    | exact Or.inr ⟨by decide, fun h => ⟨Nat.zero_le _, h.seq, h.later, h.counts⟩⟩
    | (conv => arg 3; arg 24; skip); with_reducible apply Within.build | with_reducible exact Or.inl rfl
    | exact Or.inr (by decide) | decide

theorem State.enterDeepSleep_within {W : Nat} {s0 s : State} (nonce : Word64) (hW : Within W s0 s)
    (hM : 20405701 ||| W = W) : Within W s0 (s.enterDeepSleep nonce) := by
  refine hW.step ?_ hM; clear hW hM; unfold State.enterDeepSleep
  dsimp only
  repeat' first
    | with_reducible apply Within.refl | with_reducible apply State.coreOff_within | with_reducible apply State.entryEnds_within
    | with_reducible apply State.idlePhys_within | with_reducible apply State.noteOutcome_within
    | with_reducible apply State.sleepPads_within | with_reducible apply State.stopHost_within
    | with_reducible apply setPower_within | with_reducible apply Within.ite | decide

theorem State.offKept_within {W : Nat} {s0 s : State}  (hW : Within W s0 s)
    (hM : 3669495 ||| W = W) : Within W s0 s.offKept := by
  refine hW.step ?_ hM; clear hW hM; unfold State.offKept
  dsimp only
  repeat' first
    | with_reducible apply Within.refl | exact Or.inr ⟨by decide, fun _ => rfl⟩
    | exact Or.inr ⟨by decide, fun h => ⟨h.bootcnt, h.trimRetry⟩⟩
    | exact Or.inr ⟨by decide, fun h => ⟨Nat.zero_le _, Nat.zero_lt_succ _, h.later, h.counts⟩⟩
    | (conv => arg 3; arg 24; skip); with_reducible apply Within.build | with_reducible exact Or.inl rfl
    | exact Or.inr (by decide)

theorem State.enterOff_within {W : Nat} {s0 s : State}  (hW : Within W s0 s)
    (hM : 20446711 ||| W = W) : Within W s0 s.enterOff := by
  refine hW.step ?_ hM; clear hW hM; unfold State.enterOff
  dsimp only
  repeat' first
    | with_reducible apply Within.refl | with_reducible apply State.coreOff_within | with_reducible apply State.entryEnds_within
    | with_reducible apply State.idlePhys_within | with_reducible apply State.noteOutcome_within
    | with_reducible apply State.offKept_within | with_reducible apply State.sleepPads_within
    | with_reducible apply setPower_within | with_reducible apply Within.ite | decide

theorem setWake_within {W : Nat} {s0 s : State} (i : Nat) (hW : Within W s0 s)
    (hM : 131072 ||| W = W) : Within W s0 (setWake s i) := by
  refine hW.step ?_ hM; clear hW hM; unfold setWake
  repeat' first
    | with_reducible apply Within.refl | with_reducible apply setPower_within | decide

theorem State.wake_within {W : Nat} {s0 s : State} (i : Nat) (hW : Within W s0 s)
    (hM : 16908416 ||| W = W) : Within W s0 (s.wake i) := by
  refine hW.step ?_ hM; clear hW hM; unfold State.wake
  dsimp only
  repeat' first
    | with_reducible apply Within.refl | with_reducible apply State.latchPend_within
    | with_reducible apply State.startExit_within | with_reducible apply setWake_within | with_reducible apply Within.ite
    | decide

theorem State.pcieWake_within {W : Nat} {s0 s : State}  (hW : Within W s0 s)
    (hM : 16908416 ||| W = W) : Within W s0 s.pcieWake := by
  refine hW.step ?_ hM; clear hW hM; unfold State.pcieWake
  dsimp only
  repeat' first
    | with_reducible apply Within.refl | with_reducible apply State.wake_within | with_reducible apply Within.ite | decide

theorem State.laneSignal_within {W : Nat} {s0 s : State} (l : Nat) (hW : Within W s0 s)
    (hM : 16908420 ||| W = W) : Within W s0 (s.laneSignal l) := by
  refine hW.step ?_ hM; clear hW hM; unfold State.laneSignal
  dsimp only
  repeat' first
    | with_reducible apply Within.refl | with_reducible apply State.updLink_within | with_reducible apply State.wake_within
    | with_reducible apply setWake_within | with_reducible apply Within.ite | decide

theorem setPrev_within {W : Nat} {s0 s : State} (n : Nat) (hW : Within W s0 s)
    (hM : 131072 ||| W = W) : Within W s0 (setPrev s n) := by
  refine hW.step ?_ hM; clear hW hM; unfold setPrev
  repeat' first
    | with_reducible apply Within.refl | with_reducible apply setPower_within | decide

theorem State.postWake_within {W : Nat} {s0 s : State}  (hW : Within W s0 s)
    (hM : 16777344 ||| W = W) : Within W s0 s.postWake := by
  refine hW.step ?_ hM; clear hW hM; unfold State.postWake
  repeat' first
    | with_reducible apply Within.refl | with_reducible apply State.post_within | decide

theorem State.exitDone_within {W : Nat} {s0 s : State}  (hW : Within W s0 s)
    (hM : 16908420 ||| W = W) : Within W s0 s.exitDone := by
  refine hW.step ?_ hM; clear hW hM; unfold State.exitDone
  dsimp only
  repeat' first
    | with_reducible apply Within.refl | with_reducible apply State.actPending_within | with_reducible apply State.endReq_within
    | with_reducible apply setPower_within | decide | split

theorem State.exitSleep_within {W : Nat} {s0 s : State}  (hW : Within W s0 s)
    (hM : 16908420 ||| W = W) : Within W s0 s.exitSleep := by
  refine hW.step ?_ hM; clear hW hM; unfold State.exitSleep
  dsimp only
  repeat' first
    | with_reducible apply Within.refl | with_reducible apply State.exitDone_within | with_reducible apply State.postWake_within
    | with_reducible apply setPower_within | with_reducible apply setPrev_within | with_reducible apply Within.ite | decide

theorem State.restoreCore_within {W : Nat} {s0 s : State}  (hW : Within W s0 s)
    (hM : 2618492 ||| W = W) : Within W s0 s.restoreCore := by
  refine hW.step ?_ hM; clear hW hM; unfold State.restoreCore
  dsimp only
  repeat' first
    | with_reducible apply Within.refl | exact Or.inr ⟨by decide, fun _ => rfl⟩
    | (conv => arg 3; arg 24; skip); with_reducible apply Within.build | with_reducible exact Or.inl rfl
    | exact Or.inr (by decide) | exact Or.inr ⟨by decide, fun h => ⟨h.1, h.2⟩⟩
    | exact Or.inr ⟨by decide, fun h => ⟨h.1, h.2, h.3, h.4⟩⟩

theorem State.condemnQueue_within {W : Nat} {s0 s : State} (n : Nat) (hW : Within W s0 s)
    (hM : 28314817 ||| W = W) : Within W s0 (s.condemnQueue n) := by
  refine hW.step ?_ hM; clear hW hM; unfold State.condemnQueue
  repeat' first
    | with_reducible apply Within.refl | with_reducible apply State.abortReadEnd_within
    | with_reducible apply State.abortWriteEnd_within | with_reducible apply State.dropData_within
    | with_reducible apply State.hold_within | with_reducible apply State.supersede_within | decide

theorem State.condemn_within {W : Nat} {s0 s : State} (i : Nat) (tests : Nat) (hW : Within W s0 s)
    (hM : 28445889 ||| W = W) : Within W s0 (s.condemn i tests) := by
  refine hW.step ?_ hM; clear hW hM; unfold State.condemn
  dsimp only
  repeat' first
    | with_reducible apply Within.refl | with_reducible apply Within.foldl | (intro _ _; try dsimp only)
    | with_reducible apply State.condemnQueue_within | with_reducible apply State.raise_within
    | with_reducible apply State.wipeQuarter_within | with_reducible apply setWake_within | decide

theorem State.loseContexts_within {W : Nat} {s0 s : State}  (hW : Within W s0 s)
    (hM : 20057283 ||| W = W) : Within W s0 s.loseContexts := by
  refine hW.step ?_ hM; clear hW hM; unfold State.loseContexts
  dsimp only
  repeat' first
    | with_reducible apply Within.refl | with_reducible apply Within.foldl | (intro _ _; try dsimp only)
    | with_reducible apply State.raise_within | with_reducible apply State.wipeQuarter_within
    | with_reducible apply setWake_within | (conv => arg 3; arg 24; skip); with_reducible apply Within.build
    | with_reducible exact Or.inl rfl | exact Or.inr (by decide) | decide

theorem State.rederiveQueue_within {W : Nat} {s0 s : State} (n : Nat) (hW : Within W s0 s)
    (hM : 20450499 ||| W = W) : Within W s0 (s.rederiveQueue n) := by
  refine hW.step ?_ hM; clear hW hM; unfold State.rederiveQueue
  dsimp only
  repeat' first
    | with_reducible apply Within.refl | with_reducible apply State.revokeQueue_within | with_reducible apply State.updQ_within
    | refine State.readParent_eq_within (by assumption) ?_ (by decide) | decide | split

theorem State.rederiveGroup_within {W : Nat} {s0 s : State} (g : Nat) (hW : Within W s0 s)
    (hM : 20450499 ||| W = W) : Within W s0 (s.rederiveGroup g) := by
  refine hW.step ?_ hM; clear hW hM; unfold State.rederiveGroup
  dsimp only
  repeat' first
    | with_reducible apply Within.refl | with_reducible apply State.revokeSession_within
    | with_reducible apply State.setGroup_within | refine State.readParent_eq_within (by assumption) ?_ (by decide) | decide
    | split

theorem State.rederiveRing_within {W : Nat} {s0 s : State}  (hW : Within W s0 s)
    (hM : 20450499 ||| W = W) : Within W s0 s.rederiveRing := by
  refine hW.step ?_ hM; clear hW hM; unfold State.rederiveRing
  dsimp only
  repeat' first
    | with_reducible apply Within.refl | refine State.readParent_eq_within (by assumption) ?_ (by decide)
    | with_reducible apply Within.ite | (conv => arg 3; arg 24; skip); with_reducible apply Within.build
    | with_reducible exact Or.inl rfl | exact Or.inr (by decide) | split

theorem State.rederiveKeys_within {W : Nat} {s0 s : State}  (hW : Within W s0 s)
    (hM : 20450499 ||| W = W) : Within W s0 s.rederiveKeys := by
  refine hW.step ?_ hM; clear hW hM; unfold State.rederiveKeys
  dsimp only
  repeat' first
    | with_reducible apply Within.refl | with_reducible apply Within.foldl | (intro _ _; try dsimp only)
    | with_reducible apply State.rederiveGroup_within | with_reducible apply State.rederiveQueue_within
    | with_reducible apply State.rederiveRing_within | decide

theorem State.restartFlags_within {W : Nat} {s0 s : State} (n : Nat) (hW : Within W s0 s)
    (hM : 1 ||| W = W) : Within W s0 (s.restartFlags n) := by
  refine hW.step ?_ hM; clear hW hM; unfold State.restartFlags
  dsimp only
  repeat' first
    | with_reducible apply Within.refl | with_reducible apply State.updQ_within | decide

theorem State.verifyRetained_within {W : Nat} {s0 s : State} (ret : Nat) (droop : Nat) (rows : Nat) (ecc : Nat) (ctx : Bool) (hW : Within W s0 s)
    (hM : 28445891 ||| W = W) : Within W s0 (s.verifyRetained ret droop rows ecc ctx) := by
  refine hW.step ?_ hM; clear hW hM; unfold State.verifyRetained
  dsimp only
  repeat' first
    | with_reducible apply Within.refl | with_reducible apply Within.foldl | (intro _ _; try dsimp only)
    | with_reducible apply State.condemn_within | with_reducible apply State.loseContexts_within
    | with_reducible apply State.post_within | with_reducible apply Within.ite | decide

theorem State.holdHosts_within (s : State) : Within 29359615 s ((List.range 16).foldl State.holdHost s) :=
  Within.foldl (fun _ _ => State.holdHost_within _ (Within.refl _ _) (by decide)) _ (Within.refl _ _)

theorem State.wipeOthers_within (s : State) (l : List Nat) : Within 29359615 s (l.foldl State.wipeQuarter s) :=
  Within.foldl (fun _ _ => State.wipeQuarter_within _ (Within.refl _ _) (by decide)) _ (Within.refl _ _)

theorem State.restartAll_within (s : State) (l : List Nat) : Within 29359615 s (l.foldl State.restartFlags s) :=
  Within.foldl (fun _ _ => State.restartFlags_within _ (Within.refl _ _) (by decide)) _ (Within.refl _ _)

theorem State.resumeDeepSleep_within {W : Nat} {s0 s : State} (droop rows ecc : Nat) (ctx : Bool) (hW : Within W s0 s)
    (hM : 29359615 ||| W = W) : Within W s0 (s.resumeDeepSleep droop rows ecc ctx) := by
  refine hW.step ?_ hM; clear hW hM; unfold State.resumeDeepSleep
  dsimp only
  refine State.exitDone_within ?_ (by decide)
  have fin : ∀ t : State, Within 29359615 t { t.startHost with host := { t.startHost.host with pcieWakeN := false } } := by
    intro t
    have h : Within 29359615 t t.startHost := State.startHost_within (Within.refl _ _) (by decide)
    generalize t.startHost = u at h
    refine Within.step (M := 29359615) h ?_ (by decide)
    with_reducible apply Within.build
    all_goals first
      | with_reducible apply Within.refl | with_reducible exact Or.inl rfl | exact Or.inr (by decide)
  refine Within.step ?_ (fin _) rfl
  refine Within.step (t := _) ?_ (M := 29359615) (Within.ite (State.raise_within _ _ _ _ _ (setPower_within _ (Within.refl _ _) (by decide)) (by decide))
    (Within.refl _ _)) rfl
  refine Within.step ?_ (State.holdHosts_within _) rfl
  refine Within.step ?_ (State.restartAll_within _ _) rfl
  refine State.rederiveKeys_within ?_ (by decide)
  refine State.verifyRetained_within _ _ _ _ _ ?_ (by decide)
  refine Within.step ?_ (State.wipeOthers_within _ _) rfl
  exact State.postWake_within (setPrev_within _ (State.restoreCore_within (Within.refl _ _) (by decide)) (by decide)) (by decide)

theorem State.exitDeepSleep_within {W : Nat} {s0 s : State} (depotOk : Bool) (droop : Nat) (rows : Nat) (ecc : Nat) (ctx : Bool) (hW : Within W s0 s)
    (hM : 29359615 ||| W = W) : Within W s0 (s.exitDeepSleep depotOk droop rows ecc ctx) := by
  refine hW.step ?_ hM; clear hW hM; unfold State.exitDeepSleep
  repeat' first
    | with_reducible apply Within.refl | with_reducible apply State.resumeDeepSleep_within
    | with_reducible apply State.startReset_within | with_reducible apply setPower_within | with_reducible apply Within.ite
    | decide

theorem State.exitOff_within {W : Nat} {s0 s : State}  (hW : Within W s0 s)
    (hM : 3669503 ||| W = W) : Within W s0 s.exitOff := by
  refine hW.step ?_ hM; clear hW hM; unfold State.exitOff
  dsimp only
  repeat' first
    | with_reducible apply Within.refl | with_reducible apply State.offKept_within | with_reducible apply setPrev_within
    | (simp only [setPrev]; exact Or.inr ⟨by decide, fun h => ⟨h.bootcnt, Nat.zero_le _⟩⟩) | with_reducible apply Within.ite
    | (conv => arg 3; arg 24; skip); with_reducible apply Within.build | with_reducible exact Or.inl rfl
    | exact Or.inr (by decide) | decide

theorem State.vrRise_within {W : Nat} {s0 s : State}  (hW : Within W s0 s)
    (hM : 393216 ||| W = W) : Within W s0 s.vrRise := by
  refine hW.step ?_ hM; clear hW hM; unfold State.vrRise
  dsimp only
  repeat' first
    | with_reducible apply Within.refl | with_reducible apply setPower_within | with_reducible apply Within.ite
    | (conv => arg 3; arg 24; skip); with_reducible apply Within.build | with_reducible exact Or.inl rfl
    | exact Or.inr ⟨by decide, fun h => ⟨h.1, h.2⟩⟩ | decide

theorem State.vrTimeout_within {W : Nat} {s0 s : State}  (hW : Within W s0 s)
    (hM : 16908288 ||| W = W) : Within W s0 s.vrTimeout := by
  refine hW.step ?_ hM; clear hW hM; unfold State.vrTimeout
  dsimp only
  repeat' first
    | with_reducible apply Within.refl | with_reducible apply State.operation_within | with_reducible apply setPower_within
    | with_reducible apply setWake_within | with_reducible apply Within.ite | decide

theorem State.avsStep_within {W : Nat} {s0 s : State} (mv : Nat) (raiseNeeded : Bool) (hW : Within W s0 s)
    (hM : 16908288 ||| W = W) : Within W s0 (s.avsStep mv raiseNeeded) := by
  refine hW.step ?_ hM; clear hW hM; unfold State.avsStep
  repeat' first
    | with_reducible apply Within.refl | with_reducible apply State.emit_within | with_reducible apply setPower_within
    | with_reducible apply Within.ite | decide

theorem State.avsFail_within {W : Nat} {s0 s : State}  (hW : Within W s0 s)
    (hM : 20054208 ||| W = W) : Within W s0 s.avsFail := by
  refine hW.step ?_ hM; clear hW hM; unfold State.avsFail
  dsimp only
  repeat' first
    | with_reducible apply Within.refl | with_reducible apply State.emit_within | with_reducible apply State.raise_within
    | with_reducible apply setPower_within | with_reducible apply Within.ite | decide | split

theorem State.stretchTimeout_within {W : Nat} {s0 s : State}  (hW : Within W s0 s)
    (hM : 16908288 ||| W = W) : Within W s0 s.stretchTimeout := by
  refine hW.step ?_ hM; clear hW hM; unfold State.stretchTimeout
  repeat' first
    | with_reducible apply Within.refl | with_reducible apply State.emit_within | with_reducible apply setPower_within
    | with_reducible apply Within.ite | decide

theorem State.handleAlert_within {W : Nat} {s0 s : State} (status : Nat) (hW : Within W s0 s)
    (hM : 20054208 ||| W = W) : Within W s0 (s.handleAlert status) := by
  refine hW.step ?_ hM; clear hW hM; unfold State.handleAlert
  dsimp only
  repeat' first
    | with_reducible apply Within.refl | with_reducible apply State.emit_within | with_reducible apply State.raise_within
    | with_reducible apply setPower_within | with_reducible apply Within.ite | decide

theorem State.sampleTj_within {W : Nat} {s0 s : State} (tj : BitVec 12) (hW : Within W s0 s) (hM : 131072 ||| W = W) :
    Within W s0 (s.sampleTj tj) := setPower_within _ hW hM

/-! ## Commands -/

theorem execPwrPendingStart_within (s : State) :
    ∃ t, execPwrPendingStart s = .next t ∧ Within 16908420 s t := by
  unfold execPwrPendingStart
  refine ⟨_, rfl, ?_⟩
  repeat' first
    | with_reducible apply Within.refl | with_reducible apply State.pendingStart_within | decide

theorem execDomainPowerUp_within (d : Fin 6) (s : State) :
    ∃ t, execDomainPowerUp d s = .next t ∧ Within 20119748 s t := by
  unfold execDomainPowerUp
  refine ⟨_, rfl, ?_⟩
  repeat' first
    | with_reducible apply Within.refl | with_reducible apply State.domainPowerUp_within | decide

theorem execPowerVote_within (n : Fin 8) (vote : BitVec 6) (s : State) :
    ∃ t, execPowerVote n vote s = .next t ∧ Within 20057285 s t := by
  unfold execPowerVote
  refine ⟨_, rfl, ?_⟩
  repeat' first
    | with_reducible apply Within.refl | with_reducible apply State.partnerVote_within | with_reducible apply Within.ite
    | decide

theorem execSleepReq_within (n : Fin 8) (vote : BitVec 6) (s : State) :
    ∃ t, execSleepReq n vote s = .next t ∧ Within 20057285 s t := by
  unfold execSleepReq
  refine ⟨_, rfl, ?_⟩
  repeat' first
    | with_reducible apply Within.refl | with_reducible apply State.partnerVote_within | with_reducible apply Within.ite
    | decide

theorem execIdleNoticeLeadEnd_within (p : Port) (s : State) :
    ∃ t, execIdleNoticeLeadEnd p s = .next t ∧ Within 20057285 s t := by
  unfold execIdleNoticeLeadEnd
  refine ⟨_, rfl, ?_⟩
  repeat' first
    | with_reducible apply Within.refl | with_reducible apply State.leadEnd_within | decide

theorem execWakeVoteRelease_within (n : Fin 8) (s : State) :
    ∃ t, execWakeVoteRelease n s = .next t ∧ Within 20057285 s t := by
  unfold execWakeVoteRelease
  refine ⟨_, rfl, ?_⟩
  repeat' first
    | with_reducible apply Within.refl | with_reducible apply State.wakeVoteRelease_within | decide

theorem execSleepEntry_within (s : State) :
    ∃ t, execSleepEntry s = .next t ∧ Within 20057541 s t := by
  unfold execSleepEntry
  refine ⟨_, rfl, ?_⟩
  repeat' first
    | with_reducible apply Within.refl | with_reducible apply State.enterSleep_within | decide

theorem execDeepSleepEntry_within (nonce : Word64) (s : State) :
    ∃ t, execDeepSleepEntry nonce s = .next t ∧ Within 20405701 s t := by
  unfold execDeepSleepEntry
  refine ⟨_, rfl, ?_⟩
  repeat' first
    | with_reducible apply Within.refl | with_reducible apply State.enterDeepSleep_within | decide

theorem execOffEntry_within (s : State) :
    ∃ t, execOffEntry s = .next t ∧ Within 20446711 s t := by
  unfold execOffEntry
  refine ⟨_, rfl, ?_⟩
  repeat' first
    | with_reducible apply Within.refl | with_reducible apply State.enterOff_within | decide

theorem execWakeN_within (s : State) :
    ∃ t, execWakeN s = .next t ∧ Within 16908416 s t := by
  unfold execWakeN
  refine ⟨_, rfl, ?_⟩
  repeat' first
    | with_reducible apply Within.refl | with_reducible apply State.wake_within | with_reducible apply Within.ite | decide

theorem execSvcAddressMatch_within (s : State) :
    ∃ t, execSvcAddressMatch s = .next t ∧ Within 16908416 s t := by
  unfold execSvcAddressMatch
  refine ⟨_, rfl, ?_⟩
  repeat' first
    | with_reducible apply Within.refl | with_reducible apply State.wake_within | with_reducible apply Within.ite | decide

theorem execPcieWake_within (s : State) :
    ∃ t, execPcieWake s = .next t ∧ Within 16908416 s t := by
  unfold execPcieWake
  refine ⟨_, rfl, ?_⟩
  repeat' first
    | with_reducible apply Within.refl | with_reducible apply State.pcieWake_within | decide

theorem execLaneSignalDetect_within (n : Fin 8) (s : State) :
    ∃ t, execLaneSignalDetect n s = .next t ∧ Within 16908420 s t := by
  unfold execLaneSignalDetect
  refine ⟨_, rfl, ?_⟩
  repeat' first
    | with_reducible apply Within.refl | with_reducible apply State.laneSignal_within | decide

theorem execWakeSense_within (mv : BitVec 12) (s : State) :
    ∃ t, execWakeSense mv s = .next t ∧ Within 16908416 s t := by
  unfold execWakeSense
  refine ⟨_, rfl, ?_⟩
  repeat' first
    | with_reducible apply Within.refl | with_reducible apply State.wake_within | with_reducible apply Within.ite | decide

theorem execDeepSleepExit_within (depotOk : Bool) (droop : BitVec 4) (rows : BitVec 4) (ecc : BitVec 4) (ctxDroop : Bool) (s : State) :
    ∃ t, execDeepSleepExit depotOk droop rows ecc ctxDroop s = .next t ∧ Within 29359615 s t := by
  unfold execDeepSleepExit
  refine ⟨_, rfl, ?_⟩
  repeat' first
    | with_reducible apply Within.refl | with_reducible apply State.exitDeepSleep_within | decide

theorem execOffExit_within (s : State) :
    ∃ t, execOffExit s = .next t ∧ Within 3669503 s t := by
  unfold execOffExit
  refine ⟨_, rfl, ?_⟩
  repeat' first
    | with_reducible apply Within.refl | with_reducible apply State.exitOff_within | decide

theorem execIdleClockGate_within (s : State) :
    ∃ t, execIdleClockGate s = .next t ∧ Within 131072 s t := by
  unfold execIdleClockGate
  refine ⟨_, rfl, ?_⟩
  repeat' first
    | with_reducible apply Within.refl | with_reducible apply setPower_within | with_reducible apply Within.ite | decide

theorem execPlayoutUngate_within (s : State) :
    ∃ t, execPlayoutUngate s = .next t ∧ Within 131072 s t := by
  unfold execPlayoutUngate
  refine ⟨_, rfl, ?_⟩
  repeat' first
    | with_reducible apply Within.refl | with_reducible apply State.ungate_within | decide

theorem execVrPgRise_within (s : State) :
    ∃ t, execVrPgRise s = .next t ∧ Within 393216 s t := by
  unfold execVrPgRise
  refine ⟨_, rfl, ?_⟩
  repeat' first
    | with_reducible apply Within.refl | with_reducible apply State.vrRise_within | decide

theorem execVrPgTimeout_within (s : State) :
    ∃ t, execVrPgTimeout s = .next t ∧ Within 16908288 s t := by
  unfold execVrPgTimeout
  refine ⟨_, rfl, ?_⟩
  repeat' first
    | with_reducible apply Within.refl | with_reducible apply State.vrTimeout_within | decide

theorem execVrRetry_within (s : State) :
    ∃ t, execVrRetry s = .next t ∧ Within 16908288 s t := by
  unfold execVrRetry
  refine ⟨_, rfl, ?_⟩
  repeat' first
    | with_reducible apply Within.refl | with_reducible apply State.operation_within | with_reducible apply Within.ite | decide

theorem execAvsStep_within (mv : Fin 1024) (raiseNeeded : Bool) (s : State) :
    ∃ t, execAvsStep mv raiseNeeded s = .next t ∧ Within 16908288 s t := by
  unfold execAvsStep
  refine ⟨_, rfl, ?_⟩
  repeat' first
    | with_reducible apply Within.refl | with_reducible apply State.avsStep_within | decide

theorem execAvsAck_within (s : State) :
    ∃ t, execAvsAck s = .next t ∧ Within 131072 s t := by
  unfold execAvsAck
  refine ⟨_, rfl, ?_⟩
  repeat' first
    | with_reducible apply Within.refl | with_reducible apply setPower_within | decide

theorem execAvsAckTimeout_within (s : State) :
    ∃ t, execAvsAckTimeout s = .next t ∧ Within 20054208 s t := by
  unfold execAvsAckTimeout
  refine ⟨_, rfl, ?_⟩
  repeat' first
    | with_reducible apply Within.refl | with_reducible apply State.avsFail_within | decide

theorem execPmbusStretchTimeout_within (s : State) :
    ∃ t, execPmbusStretchTimeout s = .next t ∧ Within 16908288 s t := by
  unfold execPmbusStretchTimeout
  refine ⟨_, rfl, ?_⟩
  repeat' first
    | with_reducible apply Within.refl | with_reducible apply State.stretchTimeout_within | decide

theorem execPmbAlertN_within (statusWord : BitVec 16) (s : State) :
    ∃ t, execPmbAlertN statusWord s = .next t ∧ Within 20054208 s t := by
  unfold execPmbAlertN
  refine ⟨_, rfl, ?_⟩
  repeat' first
    | with_reducible apply Within.refl | with_reducible apply State.handleAlert_within | with_reducible apply Within.ite
    | decide

theorem execVrAlertHoldoffEnd_within (alertLow : Bool) (statusWord : BitVec 16) (s : State) :
    ∃ t, execVrAlertHoldoffEnd alertLow statusWord s = .next t ∧ Within 20054208 s t := by
  unfold execVrAlertHoldoffEnd
  dsimp only
  refine ⟨_, rfl, ?_⟩
  repeat' first
    | with_reducible apply Within.refl | with_reducible apply State.handleAlert_within | with_reducible apply setPower_within
    | with_reducible apply Within.ite | decide

end Sys2Proof.Machine
end

