-- ==== Sys2Proof/Laws/Training.lean ====
section
/-!
SUPPORT. What the operations of Machine/Training.lean may change (Laws/Within.lean says how a mask names the parts),
and the commands of that file.
-/
namespace Sys2Proof.Machine

theorem State.notePol_within {W : Nat} {s0 s : State} (p : Phy) (lane : Nat) (inv : Bool) (hW : Within W s0 s)
    (hM : 32 ||| W = W) : Within W s0 (s.notePol p lane inv) := by
  refine hW.step ?_ hM; clear hW hM; unfold State.notePol
  dsimp only
  repeat' first
    | with_reducible apply Within.refl | (conv => arg 3; arg 24; skip); with_reducible apply Within.build
    | with_reducible exact Or.inl rfl | exact Or.inr (by decide) | split

theorem State.judgeLock_within {W : Nat} {s0 s : State} (p : Phy) (hW : Within W s0 s)
    (hM : 19923140 ||| W = W) : Within W s0 (s.judgeLock p) := by
  refine hW.step ?_ hM; clear hW hM; unfold State.judgeLock
  dsimp only
  repeat' first
    | with_reducible apply Within.refl | with_reducible apply State.failAttempt_within
    | with_reducible apply State.updPhy_within | with_reducible apply Within.ite | decide

theorem State.judgeCaps_within {W : Nat} {s0 s : State} (p : Phy) (hW : Within W s0 s)
    (hM : 19923140 ||| W = W) : Within W s0 (s.judgeCaps p) := by
  refine hW.step ?_ hM; clear hW hM; unfold State.judgeCaps
  dsimp only
  repeat' first
    | with_reducible apply Within.refl | with_reducible apply State.failAttempt_within
    | with_reducible apply State.updPhy_within | with_reducible apply Within.ite | decide

theorem State.trainBlock_within {W : Nat} {s0 s : State} (p : Phy) (lane : Nat) (b : BitVec 64) (hW : Within W s0 s)
    (hM : 19923172 ||| W = W) : Within W s0 (s.trainBlock p lane b) := by
  refine hW.step ?_ hM; clear hW hM; unfold State.trainBlock
  dsimp only
  repeat' first
    | with_reducible apply Within.refl | with_reducible apply State.beginAttempt_within
    | with_reducible apply State.judgeCaps_within | with_reducible apply State.judgeLock_within
    | with_reducible apply State.notePol_within | with_reducible apply State.setPhy_within | with_reducible apply Within.ite
    | decide | split

theorem State.advance_within {W : Nat} {s0 s : State} (p : Phy) (hW : Within W s0 s)
    (hM : 68 ||| W = W) : Within W s0 (s.advance p) := by
  refine hW.step ?_ hM; clear hW hM; unfold State.advance
  dsimp only
  repeat' first
    | with_reducible apply Within.refl | with_reducible apply State.updPhy_within | with_reducible apply Within.ite | decide
    | split

theorem State.frameTick_within {W : Nat} {s0 s : State} (p : Phy) (hW : Within W s0 s)
    (hM : 16777284 ||| W = W) : Within W s0 (s.frameTick p) := by
  refine hW.step ?_ hM; clear hW hM; unfold State.frameTick
  dsimp only
  repeat' first
    | with_reducible apply Within.refl | with_reducible apply Within.foldl | (intro _ _; try dsimp only)
    | with_reducible apply State.emit_within | with_reducible apply State.setPhy_within | with_reducible apply Within.ite
    | decide

theorem State.frameTicks_within {W : Nat} {s0 s : State}  (hW : Within W s0 s)
    (hM : 16777284 ||| W = W) : Within W s0 s.frameTicks := by
  refine hW.step ?_ hM; clear hW hM; unfold State.frameTicks
  repeat' first
    | with_reducible apply Within.refl | with_reducible apply Within.foldl | (intro _ _; try dsimp only)
    | with_reducible apply State.frameTick_within | decide

theorem State.downBy_within {W : Nat} {s0 s : State} (p : Phy) (cause : DownCause) (hW : Within W s0 s)
    (hM : 19926213 ||| W = W) : Within W s0 (s.downBy p cause) := by
  refine hW.step ?_ hM; clear hW hM; unfold State.downBy
  dsimp only
  repeat' first
    | with_reducible apply Within.refl | with_reducible apply State.phyDown_within | with_reducible apply State.updPhy_within
    | with_reducible apply Within.ite | decide | split

theorem State.steer_within {W : Nat} {s0 s : State} (p : Phy) (lane : Nat) (hW : Within W s0 s)
    (hM : 8388676 ||| W = W) : Within W s0 (s.steer p lane) := by
  refine hW.step ?_ hM; clear hW hM; unfold State.steer
  dsimp only
  repeat' first
    | with_reducible apply Within.refl | with_reducible apply State.drawn_within | with_reducible apply State.setPhy_within
    | with_reducible apply Within.ite | decide

theorem State.eqWindow_within {W : Nat} {s0 s : State} (p : Phy) (met : Bool) (hW : Within W s0 s)
    (hM : 8388676 ||| W = W) : Within W s0 (s.eqWindow p met) := by
  refine hW.step ?_ hM; clear hW hM; unfold State.eqWindow
  dsimp only
  repeat' first
    | with_reducible apply Within.refl | with_reducible apply Within.foldl | (intro _ _; try dsimp only)
    | with_reducible apply State.setPhy_within | with_reducible apply State.steer_within | with_reducible apply Within.ite
    | decide

theorem State.markRemoved_within {W : Nat} {s0 s : State} (port : Nat) (hW : Within W s0 s)
    (hM : 1 ||| W = W) : Within W s0 (s.markRemoved port) := by
  refine hW.step ?_ hM; clear hW hM; unfold State.markRemoved
  repeat' first
    | with_reducible apply Within.refl | with_reducible apply Within.foldl | (intro _ _; try dsimp only)
    | with_reducible apply State.updQ_within | decide

theorem State.writePortCfg_within {W : Nat} {s0 s : State} (port : Nat) (v : Word32) (hW : Within W s0 s)
    (hM : 19923145 ||| W = W) : Within W s0 (s.writePortCfg port v) := by
  refine hW.step ?_ hM; clear hW hM; unfold State.writePortCfg
  dsimp only
  repeat' first
    | with_reducible apply Within.refl | with_reducible apply State.markRemoved_within | with_reducible apply State.raise_within
    | with_reducible apply Within.ite | (conv => arg 3; arg 24; skip); with_reducible apply Within.build
    | with_reducible exact Or.inl rfl | exact Or.inr (by decide) | decide

theorem State.writeLinkCfg_within {W : Nat} {s0 s : State} (n : Fin 8) (v : Word32) (hW : Within W s0 s)
    (hM : 19991749 ||| W = W) : Within W s0 (s.writeLinkCfg n v) := by
  refine hW.step ?_ hM; clear hW hM; unfold State.writeLinkCfg
  dsimp only
  repeat' first
    | with_reducible apply Within.refl | with_reducible apply State.phyReset_within
    | with_reducible apply State.phyWriteEn_within | with_reducible apply State.updLink_within | with_reducible apply Within.ite
    | decide

/-! ## Commands -/

theorem execTrainingStart_within (p : Phy) (s : State) :
    ∃ t, execTrainingStart p s = .next t ∧ Within 19923140 s t := by
  unfold execTrainingStart
  refine ⟨_, rfl, ?_⟩
  repeat' first
    | with_reducible apply Within.refl | with_reducible apply State.beginAttempt_within | with_reducible apply Within.ite
    | decide

theorem execTrainingBlock_within (p : Phy) (lane : Fin 16) (block : BitVec 64) (s : State) :
    ∃ t, execTrainingBlock p lane block s = .next t ∧ Within 19923172 s t := by
  unfold execTrainingBlock
  refine ⟨_, rfl, ?_⟩
  repeat' first
    | with_reducible apply Within.refl | with_reducible apply State.trainBlock_within | decide

theorem execTrainingPhaseAdvance_within (p : Phy) (s : State) :
    ∃ t, execTrainingPhaseAdvance p s = .next t ∧ Within 68 s t := by
  unfold execTrainingPhaseAdvance
  refine ⟨_, rfl, ?_⟩
  repeat' first
    | with_reducible apply Within.refl | with_reducible apply State.advance_within | decide

theorem execLinkUp_within (p : Phy) (s : State) :
    ∃ t, execLinkUp p s = .next t ∧ Within 28312773 s t := by
  unfold execLinkUp
  refine ⟨_, rfl, ?_⟩
  repeat' first
    | with_reducible apply Within.refl | with_reducible apply State.phyUp_within | with_reducible apply Within.ite | decide

theorem execTrainingTimeout_within (p : Phy) (s : State) :
    ∃ t, execTrainingTimeout p s = .next t ∧ Within 19923140 s t := by
  unfold execTrainingTimeout
  refine ⟨_, rfl, ?_⟩
  repeat' first
    | with_reducible apply Within.refl | with_reducible apply State.failAttempt_within | with_reducible apply Within.ite
    | decide

theorem execMarkerLockTimeout_within (p : Phy) (s : State) :
    ∃ t, execMarkerLockTimeout p s = .next t ∧ Within 19923140 s t := by
  unfold execMarkerLockTimeout
  refine ⟨_, rfl, ?_⟩
  repeat' first
    | with_reducible apply Within.refl | with_reducible apply State.failAttempt_within | with_reducible apply Within.ite
    | decide

theorem execTrainingRetry_within (n : Fin 8) (s : State) :
    ∃ t, execTrainingRetry n s = .next t ∧ Within 19923140 s t := by
  unfold execTrainingRetry
  refine ⟨_, rfl, ?_⟩
  repeat' first
    | with_reducible apply Within.refl | with_reducible apply State.beginAttempt_within | with_reducible apply Within.ite
    | decide

theorem execTrainingSignalLoss_within (p : Phy) (s : State) :
    ∃ t, execTrainingSignalLoss p s = .next t ∧ Within 19923140 s t := by
  unfold execTrainingSignalLoss
  refine ⟨_, rfl, ?_⟩
  repeat' first
    | with_reducible apply Within.refl | with_reducible apply State.beginAttempt_within | with_reducible apply Within.ite
    | decide

theorem execLinkDown_within (p : Phy) (cause : DownCause) (s : State) :
    ∃ t, execLinkDown p cause s = .next t ∧ Within 19926213 s t := by
  unfold execLinkDown
  refine ⟨_, rfl, ?_⟩
  repeat' first
    | with_reducible apply Within.refl | with_reducible apply State.downBy_within | decide

theorem execDataModeStart_within (p : Phy) (s : State) :
    ∃ t, execDataModeStart p s = .next t ∧ Within 68 s t := by
  unfold execDataModeStart
  refine ⟨_, rfl, ?_⟩
  repeat' first
    | with_reducible apply Within.refl | with_reducible apply State.updPhy_within | with_reducible apply Within.ite | decide

theorem execEqWindowEnd_within (p : Phy) (met : Bool) (s : State) :
    ∃ t, execEqWindowEnd p met s = .next t ∧ Within 8388676 s t := by
  unfold execEqWindowEnd
  refine ⟨_, rfl, ?_⟩
  repeat' first
    | with_reducible apply Within.refl | with_reducible apply State.eqWindow_within | decide

theorem execBlockResetComplete_within (p : Phy) (s : State) :
    ∃ t, execBlockResetComplete p s = .next t ∧ Within 19923140 s t := by
  unfold execBlockResetComplete
  refine ⟨_, rfl, ?_⟩
  repeat' first
    | with_reducible apply Within.refl | with_reducible apply State.phyResetDone_within | decide

theorem execLinkEnable_within (n : Fin 8) (v : Word32) (s : State) :
    ∃ t, execLinkEnable n v s = .next t ∧ Within 19991749 s t := by
  unfold execLinkEnable
  refine ⟨_, rfl, ?_⟩
  repeat' first
    | with_reducible apply Within.refl | with_reducible apply State.coreWrite_within
    | with_reducible apply State.writeLinkCfg_within | decide

theorem execLinkDisable_within (n : Fin 8) (v : Word32) (s : State) :
    ∃ t, execLinkDisable n v s = .next t ∧ Within 19991749 s t := by
  unfold execLinkDisable
  refine ⟨_, rfl, ?_⟩
  repeat' first
    | with_reducible apply Within.refl | with_reducible apply State.coreWrite_within
    | with_reducible apply State.writeLinkCfg_within | decide

theorem execLinkRst_within (n : Fin 8) (v : Word32) (s : State) :
    ∃ t, execLinkRst n v s = .next t ∧ Within 19991749 s t := by
  unfold execLinkRst
  refine ⟨_, rfl, ?_⟩
  repeat' first
    | with_reducible apply Within.refl | with_reducible apply State.coreWrite_within
    | with_reducible apply State.writeLinkCfg_within | decide

theorem execPortSplitWrite_within (p : Port) (v : Word32) (s : State) :
    ∃ t, execPortSplitWrite p v s = .next t ∧ Within 19923145 s t := by
  unfold execPortSplitWrite
  dsimp only
  refine ⟨_, rfl, ?_⟩
  repeat' first
    | with_reducible apply Within.refl | with_reducible apply State.coreWrite_within
    | with_reducible apply State.writePortCfg_within | decide

end Sys2Proof.Machine
end

