-- ==== Sys2Proof/Laws/Registers.lean ====
section
/-!
SUPPORT. What the operations of Machine/Registers.lean may change (Laws/Within.lean says how a mask names the parts),
and the commands of that file.
-/
namespace Sys2Proof.Machine

theorem State.readReg_within {W : Nat} {s0 s : State} (acc : Accessor) (off : Nat) (hW : Within W s0 s)
    (hM : 16384 ||| W = W) : Within W s0 (s.readReg acc off).2 := by
  refine hW.step ?_ hM; clear hW hM; unfold State.readReg
  dsimp only
  repeat' first
    | with_reducible apply Within.refl | with_reducible apply State.latchTb_within | with_reducible apply Within.ite | decide

theorem State.readReg_eq_within {W : Nat} {s0 s t : State} {acc : Accessor} {off : Nat} {y0 : Nat} (e : State.readReg s acc off = (y0, t)) (hW : Within W s0 s)
    (hM : 16384 ||| W = W) : Within W s0 t := by
  have h := State.readReg_within acc off hW hM
  rw [e] at h
  exact h

theorem State.writeMsix_within {W : Nat} {s0 s : State} (g : Nat) (i : Nat) (v : Word32) (hW : Within W s0 s)
    (hM : 16777344 ||| W = W) : Within W s0 (s.writeMsix g i v) := by
  refine hW.step ?_ hM; clear hW hM; unfold State.writeMsix
  dsimp only
  repeat' first
    | with_reducible apply Within.refl | with_reducible apply State.emit_within | with_reducible apply State.setFunc_within
    | with_reducible apply Within.ite | decide

theorem State.writeHostReg_within {W : Nat} {s0 s : State} (g : Nat) (off : Nat) (v : Word32) (hW : Within W s0 s)
    (hM : 20057285 ||| W = W) : Within W s0 (s.writeHostReg g off v) := by
  refine hW.step ?_ hM; clear hW hM; unfold State.writeHostReg
  repeat' first
    | with_reducible apply Within.refl | with_reducible apply State.updFunc_within
    | with_reducible apply State.writeBaseHigh_within | with_reducible apply State.writeBaseLow_within
    | with_reducible apply State.writeHringCtrl_within | with_reducible apply State.writeMsix_within
    | with_reducible apply State.writePwrvote_within | with_reducible apply Within.ite | decide | split

theorem State.writeLinkReg_within {W : Nat} {s0 s : State} (off : Nat) (v : Word32) (hW : Within W s0 s)
    (hM : 19991749 ||| W = W) : Within W s0 (s.writeLinkReg off v) := by
  refine hW.step ?_ hM; clear hW hM; unfold State.writeLinkReg
  dsimp only
  repeat' first
    | with_reducible apply Within.refl | with_reducible apply State.writeLinkCfg_within | with_reducible apply Within.ite
    | decide | split

theorem State.writeFlagmap_within {W : Nat} {s0 s : State} (n : Nat) (v : Word32) (hW : Within W s0 s)
    (hM : 32768 ||| W = W) : Within W s0 (s.writeFlagmap n v) := by
  refine hW.step ?_ hM; clear hW hM; unfold State.writeFlagmap
  repeat' first
    | with_reducible apply Within.refl | (conv => arg 3; arg 24; skip); with_reducible apply Within.build
    | with_reducible exact Or.inl rfl | exact Or.inr (by decide)

theorem State.writeErrlog_within {W : Nat} {s0 s : State} (v : Word32) (hW : Within W s0 s)
    (hM : 2097152 ||| W = W) : Within W s0 (s.writeErrlog v) := by
  refine hW.step ?_ hM; clear hW hM; unfold State.writeErrlog
  dsimp only
  repeat' first
    | with_reducible apply Within.refl
    | exact Or.inr ⟨by decide, fun h => ⟨by have := h.fifo; simp only [List.length_drop]; omega, h.seq, h.later, h.counts⟩⟩
    | with_reducible apply Within.ite | (conv => arg 3; arg 24; skip); with_reducible apply Within.build
    | with_reducible exact Or.inl rfl

theorem State.writeCoreReg_within {W : Nat} {s0 s : State} (off : Nat) (v : Word32) (hW : Within W s0 s)
    (hM : 20176093 ||| W = W) : Within W s0 (s.writeCoreReg off v) := by
  refine hW.step ?_ hM; clear hW hM; unfold State.writeCoreReg
  dsimp only
  repeat' first
    | with_reducible apply Within.refl | with_reducible apply State.writeBaseHigh_within
    | with_reducible apply State.writeBaseLow_within | with_reducible apply State.writeErrlog_within
    | with_reducible apply State.writeFlagmap_within | with_reducible apply State.writeLinkReg_within
    | with_reducible apply State.writeMaintCtrl_within | with_reducible apply State.writePortCfg_within
    | with_reducible apply State.writeRingCfg_within | with_reducible apply State.writeTbCtrl_within
    | with_reducible apply Within.ite | (conv => arg 3; arg 24; skip); with_reducible apply Within.build
    | with_reducible exact Or.inl rfl | exact Or.inr (by decide) | decide | split

theorem State.writeAonReg_within {W : Nat} {s0 s : State} (off : Nat) (v : Word32) (hW : Within W s0 s)
    (hM : 20446719 ||| W = W) : Within W s0 (s.writeAonReg off v) := by
  refine hW.step ?_ hM; clear hW hM; unfold State.writeAonReg
  dsimp only
  repeat' first
    | with_reducible apply Within.refl | with_reducible apply State.writePwrctl_within
    | with_reducible apply State.writeRstctl_within | with_reducible apply setPower_within
    | (conv => arg 3; arg 24; skip); with_reducible apply Within.build | with_reducible exact Or.inl rfl
    | exact Or.inr (by decide) | exact Or.inr ⟨by decide, fun h => ⟨h.1, h.2⟩⟩ | decide | split

theorem State.writeReg_within {W : Nat} {s0 s : State} (g : Nat) (off : Nat) (v : Word32) (hW : Within W s0 s)
    (hM : 20446719 ||| W = W) : Within W s0 (s.writeReg g off v) := by
  refine hW.step ?_ hM; clear hW hM; unfold State.writeReg
  repeat' first
    | with_reducible apply Within.refl | with_reducible apply State.writeAonReg_within
    | with_reducible apply State.writeCoreReg_within | with_reducible apply State.writeHostReg_within
    | with_reducible apply Within.ite | decide

theorem State.accessWrite_within {W : Nat} {s0 s : State} (acc : Accessor) (off : Nat) (v : Word32) (hW : Within W s0 s)
    (hM : 20446719 ||| W = W) : Within W s0 (s.accessWrite acc off v) := by
  refine hW.step ?_ hM; clear hW hM; unfold State.accessWrite
  repeat' first
    | with_reducible apply Within.refl | with_reducible apply State.coreWrite_within
    | with_reducible apply State.writeReg_within | with_reducible apply Within.ite | decide | split

theorem State.tbNowLo_within {W : Nat} {s0 s : State} (acc : Accessor) (hW : Within W s0 s)
    (hM : 16793856 ||| W = W) : Within W s0 (s.tbNowLo acc) := by
  refine hW.step ?_ hM; clear hW hM; unfold State.tbNowLo
  dsimp only
  repeat' first
    | with_reducible apply Within.refl | with_reducible apply State.emit_within | with_reducible apply State.latchTb_within
    | with_reducible apply Within.ite | (conv => arg 3; arg 24; skip); with_reducible apply Within.build
    | with_reducible exact Or.inl rfl | exact Or.inr (by decide) | decide | split

theorem State.replay_within {W : Nat} {s0 s : State} (a1 : HeldAccess) (hW : Within W s0 s)
    (hM : 28471744 ||| W = W) : Within W s0 (s.replay a1) := by
  refine hW.step ?_ hM; clear hW hM; unfold State.replay
  repeat' first
    | with_reducible apply Within.refl | with_reducible apply State.kioskBar_within | with_reducible apply State.tbNowLo_within
    | decide | split

/-- The accesses that waited, served in order. -/
theorem State.replays_within {W : Nat} {s0 s : State} (l : List HeldAccess) (hW : Within W s0 s) (hM : 28835327 ||| W = W) :
    Within W s0 (l.foldl State.replay { s with host := { s.host with stalled := [] } }) := by
  refine hW.step ?_ hM
  refine Within.foldl (fun t a => State.replay_within a (Within.refl _ t) (by decide)) l ?_
  with_reducible apply Within.build
  repeat' first
    | with_reducible apply Within.refl | with_reducible exact Or.inl rfl | exact Or.inr (by decide)

theorem State.settleHeld_within {W : Nat} {s0 s : State} (hW : Within W s0 s)
    (hM : 28835327 ||| W = W) : Within W s0 s.settleHeld := by
  refine hW.step ?_ hM; clear hW hM; unfold State.settleHeld
  dsimp only
  refine Within.ite (State.replays_within _ (State.applyLatched_within ?_ (by decide)) (by decide)) (Within.refl _ _)
  refine Within.foldl (fun t w => State.writeReg_within _ _ _ (Within.refl _ t) (by decide)) _ ?_
  exact State.updFunc_within _ _ (Within.refl _ _) (by decide)

/-! ## Commands -/

theorem execSleepExit_within (s : State) :
    ∃ t, execSleepExit s = .next t ∧ Within 28835327 s t := by
  unfold execSleepExit
  refine ⟨_, rfl, ?_⟩
  repeat' first
    | with_reducible apply Within.refl | with_reducible apply State.exitSleep_within
    | with_reducible apply State.settleHeld_within | decide

theorem execHringEnable_within (fn : Fin 16) (v : Word32) (s : State) :
    ∃ t, execHringEnable fn v s = .next t ∧ Within 20446719 s t := by
  unfold execHringEnable
  refine ⟨_, rfl, ?_⟩
  repeat' first
    | with_reducible apply Within.refl | with_reducible apply State.accessWrite_within | decide

theorem execHringDisable_within (fn : Fin 16) (v : Word32) (s : State) :
    ∃ t, execHringDisable fn v s = .next t ∧ Within 20446719 s t := by
  unfold execHringDisable
  refine ⟨_, rfl, ?_⟩
  repeat' first
    | with_reducible apply Within.refl | with_reducible apply State.accessWrite_within | decide

theorem execBaseLowWordWrite_within (fn : Fin 16) (reg : BaseReg) (v : Word32) (s : State) :
    ∃ t, execBaseLowWordWrite fn reg v s = .next t ∧ Within 20446719 s t := by
  unfold execBaseLowWordWrite
  refine ⟨_, rfl, ?_⟩
  repeat' first
    | with_reducible apply Within.refl | with_reducible apply State.accessWrite_within | decide

theorem execBaseHighWordWrite_within (fn : Fin 16) (reg : BaseReg) (v : Word32) (s : State) :
    ∃ t, execBaseHighWordWrite fn reg v s = .next t ∧ Within 20446719 s t := by
  unfold execBaseHighWordWrite
  refine ⟨_, rfl, ?_⟩
  repeat' first
    | with_reducible apply Within.refl | with_reducible apply State.accessWrite_within | decide

theorem execTbNowLoRead_within (acc : Accessor) (s : State) :
    ∃ t, execTbNowLoRead acc s = .next t ∧ Within 16793856 s t := by
  unfold execTbNowLoRead
  refine ⟨_, rfl, ?_⟩
  repeat' first
    | with_reducible apply Within.refl | with_reducible apply State.tbNowLo_within | decide

theorem execPwrReqRun_within (acc : Accessor) (v : Word32) (s : State) :
    ∃ t, execPwrReqRun acc v s = .next t ∧ Within 20446719 s t := by
  unfold execPwrReqRun
  refine ⟨_, rfl, ?_⟩
  repeat' first
    | with_reducible apply Within.refl | with_reducible apply State.accessWrite_within | decide

theorem execPwrReqIdle_within (acc : Accessor) (v : Word32) (s : State) :
    ∃ t, execPwrReqIdle acc v s = .next t ∧ Within 20446719 s t := by
  unfold execPwrReqIdle
  refine ⟨_, rfl, ?_⟩
  repeat' first
    | with_reducible apply Within.refl | with_reducible apply State.accessWrite_within | decide

theorem execPwrReqSleep_within (acc : Accessor) (v : Word32) (s : State) :
    ∃ t, execPwrReqSleep acc v s = .next t ∧ Within 20446719 s t := by
  unfold execPwrReqSleep
  refine ⟨_, rfl, ?_⟩
  repeat' first
    | with_reducible apply Within.refl | with_reducible apply State.accessWrite_within | decide

theorem execPwrReqDeepSleep_within (acc : Accessor) (w : DeepSleepWrite) (s : State) :
    ∃ t, execPwrReqDeepSleep acc w s = .next t ∧ Within 20446719 s t := by
  unfold execPwrReqDeepSleep
  refine ⟨_, rfl, ?_⟩
  repeat' first
    | with_reducible apply Within.refl | with_reducible apply State.accessWrite_within
    | with_reducible apply State.sampleTj_within | decide

theorem execPwrReqOff_within (acc : Accessor) (v : Word32) (s : State) :
    ∃ t, execPwrReqOff acc v s = .next t ∧ Within 20446719 s t := by
  unfold execPwrReqOff
  refine ⟨_, rfl, ?_⟩
  repeat' first
    | with_reducible apply Within.refl | with_reducible apply State.accessWrite_within | decide

theorem execPwrvoteWrite_within (fn : Fin 16) (v : Word32) (s : State) :
    ∃ t, execPwrvoteWrite fn v s = .next t ∧ Within 20446719 s t := by
  unfold execPwrvoteWrite
  refine ⟨_, rfl, ?_⟩
  repeat' first
    | with_reducible apply Within.refl | with_reducible apply State.accessWrite_within | decide

theorem execRstctlSys_within (acc : Accessor) (v : Word32) (s : State) :
    ∃ t, execRstctlSys acc v s = .next t ∧ Within 20446719 s t := by
  unfold execRstctlSys
  refine ⟨_, rfl, ?_⟩
  repeat' first
    | with_reducible apply Within.refl | with_reducible apply State.accessWrite_within | decide

theorem execRstctlCore_within (acc : Accessor) (v : Word32) (s : State) :
    ∃ t, execRstctlCore acc v s = .next t ∧ Within 20446719 s t := by
  unfold execRstctlCore
  refine ⟨_, rfl, ?_⟩
  repeat' first
    | with_reducible apply Within.refl | with_reducible apply State.accessWrite_within | decide

theorem execFlagmapWrite_within (n : Fin 8) (v : Word32) (s : State) :
    ∃ t, execFlagmapWrite n v s = .next t ∧ Within 32896 s t := by
  unfold execFlagmapWrite
  refine ⟨_, rfl, ?_⟩
  repeat' first
    | with_reducible apply Within.refl | with_reducible apply State.coreWrite_within
    | with_reducible apply State.writeFlagmap_within | decide

theorem execErrlogPop_within (v : Word32) (s : State) :
    ∃ t, execErrlogPop v s = .next t ∧ Within 2097280 s t := by
  unfold execErrlogPop
  refine ⟨_, rfl, ?_⟩
  repeat' first
    | with_reducible apply Within.refl | with_reducible apply State.coreWrite_within
    | with_reducible apply State.writeErrlog_within | decide

theorem execRegisterWrite_within (acc : Accessor) (off : BitVec 16) (be : BitVec 4) (v : Word32) (s : State) :
    ∃ t, execRegisterWrite acc off be v s = .next t ∧ Within 20446719 s t := by
  unfold execRegisterWrite
  refine ⟨_, rfl, ?_⟩
  repeat' first
    | with_reducible apply Within.refl | with_reducible apply State.accessWrite_within | with_reducible apply Within.ite
    | decide

end Sys2Proof.Machine
end

