-- ==== Sys2Proof/Laws/Boot.lean ====
section
/-!
SUPPORT. What the operations of Machine/Boot.lean may change (Laws/Within.lean says how a mask names the parts),
and the commands of that file.
-/
namespace Sys2Proof.Machine

theorem State.enterRecovery_within {W : Nat} {s0 s : State}  (hW : Within W s0 s)
    (hM : 393472 ||| W = W) : Within W s0 s.enterRecovery := by
  refine hW.step ?_ hM; clear hW hM; unfold State.enterRecovery
  dsimp only
  repeat' first
    | with_reducible apply Within.refl | (conv => arg 3; arg 24; skip); with_reducible apply Within.build
    | with_reducible exact Or.inl rfl | exact Or.inr (by decide) | exact Or.inr ⟨by decide, fun h => ⟨h.1, h.2⟩⟩

theorem State.runImage_within {W : Nat} {s0 s : State} (slot : Nat) (trial : Bool) (hW : Within W s0 s)
    (hM : 1310720 ||| W = W) : Within W s0 (s.runImage slot trial) := by
  refine hW.step ?_ hM; clear hW hM; unfold State.runImage
  dsimp only
  repeat' first
    | with_reducible apply Within.refl | (conv => arg 3; arg 24; skip); with_reducible apply Within.build
    | with_reducible exact Or.inl rfl | exact Or.inr (by decide) | exact Or.inr ⟨by decide, fun h => ⟨h.1, h.2⟩⟩

theorem State.fallBack_within {W : Nat} {s0 s : State} (failed : Nat) (hW : Within W s0 s)
    (hM : 19923136 ||| W = W) : Within W s0 (s.fallBack failed) := by
  refine hW.step ?_ hM; clear hW hM; unfold State.fallBack
  dsimp only
  repeat' first
    | with_reducible apply Within.refl | with_reducible apply State.raise_within
    | (conv => arg 3; arg 24; skip); with_reducible apply Within.build | with_reducible exact Or.inl rfl
    | exact Or.inr (by decide) | decide

theorem State.bootPlain_within {W : Nat} {s0 s : State} (ok : Nat → Bool) (slot : Nat) (hW : Within W s0 s)
    (hM : 20316608 ||| W = W) : Within W s0 (s.bootPlain ok slot) := by
  refine hW.step ?_ hM; clear hW hM; unfold State.bootPlain
  repeat' first
    | with_reducible apply Within.refl | with_reducible apply State.enterRecovery_within
    | with_reducible apply State.raise_within | with_reducible apply State.runImage_within | with_reducible apply Within.ite
    | decide

theorem State.bootBack_within {W : Nat} {s0 s : State} (ok : Nat → Bool) (slot : Nat) (hW : Within W s0 s)
    (hM : 20316608 ||| W = W) : Within W s0 (s.bootBack ok slot) := by
  refine hW.step ?_ hM; clear hW hM; unfold State.bootBack
  dsimp only
  repeat' first
    | with_reducible apply Within.refl | with_reducible apply State.bootPlain_within
    | with_reducible apply State.fallBack_within | with_reducible apply State.runImage_within | with_reducible apply Within.ite
    | (conv => arg 3; arg 24; skip); with_reducible apply Within.build | with_reducible exact Or.inl rfl
    | exact Or.inr (by decide) | decide

theorem State.bootUnwritten_within {W : Nat} {s0 s : State} (ok : Nat → Bool) (slot : Nat) (hW : Within W s0 s)
    (hM : 20316608 ||| W = W) : Within W s0 (s.bootUnwritten ok slot) := by
  refine hW.step ?_ hM; clear hW hM; unfold State.bootUnwritten
  repeat' first
    | with_reducible apply Within.refl | with_reducible apply State.bootPlain_within | with_reducible apply State.raise_within
    | decide

theorem State.bootDirectory_within {W : Nat} {s0 s : State} (ok : Nat → Bool) (dir : FlashResult) (hW : Within W s0 s)
    (hM : 20316608 ||| W = W) : Within W s0 (s.bootDirectory ok dir) := by
  refine hW.step ?_ hM; clear hW hM; unfold State.bootDirectory
  dsimp only
  repeat' first
    | with_reducible apply Within.refl | with_reducible apply State.bootBack_within
    | with_reducible apply State.bootPlain_within | with_reducible apply State.bootUnwritten_within
    | with_reducible apply State.runImage_within
    | exact Or.inr ⟨by decide, fun h => ⟨Nat.le_trans (Nat.sub_le _ _) h.bootcnt, h.trimRetry⟩⟩
    | with_reducible apply Within.ite | (conv => arg 3; arg 24; skip); with_reducible apply Within.build
    | with_reducible exact Or.inl rfl | exact Or.inr (by decide) | decide | split

theorem State.bootStart_within {W : Nat} {s0 s : State} (aOk : Bool) (bOk : Bool) (dir : FlashResult) (hW : Within W s0 s)
    (hM : 20316608 ||| W = W) : Within W s0 (s.bootStart aOk bOk dir) := by
  refine hW.step ?_ hM; clear hW hM; unfold State.bootStart
  dsimp only
  repeat' first
    | with_reducible apply Within.refl | with_reducible apply State.bootDirectory_within
    | with_reducible apply State.enterRecovery_within | exact Or.inr ⟨by decide, fun h => ⟨satAdd_le _ _ _, h.trimRetry⟩⟩
    | with_reducible apply Within.ite | (conv => arg 3; arg 24; skip); with_reducible apply Within.build
    | with_reducible exact Or.inl rfl | decide

theorem State.applyEntries_within {W : Nat} {s0 s : State} (i : Nat) (a2 : List (Word32 × Word32)) (hW : Within W s0 s)
    (hM : 20446719 ||| W = W) : Within W s0 (s.applyEntries i a2) := by
  refine hW.step ?_ hM
  clear hW hM
  induction a2 generalizing s i with
  | nil =>
    unfold State.applyEntries
    repeat' with_reducible apply Within.refl
  | cons x xs ih =>
    unfold State.applyEntries
    repeat' first
      | with_reducible apply Within.refl | with_reducible apply State.raise_within | with_reducible apply State.writeReg_within
      | with_reducible apply Within.ite | decide | with_reducible refine Within.step (M := 20446719) ?_ (ih _) rfl

theorem State.applyConfig_within {W : Nat} {s0 s : State}  (hW : Within W s0 s)
    (hM : 20446719 ||| W = W) : Within W s0 s.applyConfig := by
  refine hW.step ?_ hM; clear hW hM; unfold State.applyConfig
  dsimp only
  repeat' first
    | with_reducible apply Within.refl | with_reducible apply State.applyEntries_within
    | with_reducible apply State.raise_within | (conv => arg 3; arg 24; skip); with_reducible apply Within.build
    | with_reducible exact Or.inl rfl | exact Or.inr (by decide) | decide | split

theorem State.runStartup_within {W : Nat} {s0 s : State}  (hW : Within W s0 s)
    (hM : 29360127 ||| W = W) : Within W s0 s.runStartup := by
  refine hW.step ?_ hM; clear hW hM; unfold State.runStartup
  dsimp only
  repeat' first
    | with_reducible apply Within.refl | with_reducible apply State.startupCommands_within
    | (conv => arg 3; arg 24; skip); with_reducible apply Within.build | with_reducible exact Or.inl rfl
    | exact Or.inr (by decide) | decide | split

theorem State.writeIorelSeq_within {W : Nat} {s0 s : State} (v : Word32) (hW : Within W s0 s)
    (hM : 29360127 ||| W = W) : Within W s0 (s.writeIorelSeq v) := by
  refine hW.step ?_ hM; clear hW hM; unfold State.writeIorelSeq
  dsimp only
  repeat' first
    | with_reducible apply Within.refl | with_reducible apply State.runStartup_within
    | with_reducible apply State.writeIorel_within | with_reducible apply Within.ite | decide

theorem State.startSweep_within {W : Nat} {s0 s : State}  (hW : Within W s0 s)
    (hM : 1024 ||| W = W) : Within W s0 s.startSweep := by
  refine hW.step ?_ hM; clear hW hM; unfold State.startSweep
  dsimp only
  repeat' first
    | with_reducible apply Within.refl | with_reducible apply Within.ite
    | (conv => arg 3; arg 24; skip); with_reducible apply Within.build | with_reducible exact Or.inl rfl
    | exact Or.inr (by decide)

theorem State.becomeReady_within {W : Nat} {s0 s : State}  (hW : Within W s0 s)
    (hM : 29359615 ||| W = W) : Within W s0 s.becomeReady := by
  refine hW.step ?_ hM; clear hW hM; unfold State.becomeReady
  dsimp only
  repeat' first
    | with_reducible apply Within.refl | with_reducible apply State.postAllLost_within
    | with_reducible apply State.releaseFences_within | with_reducible apply State.settleHeld_within
    | with_reducible apply State.startSweep_within | (conv => arg 3; arg 24; skip); with_reducible apply Within.build
    | with_reducible exact Or.inl rfl | exact Or.inr (by decide) | exact Or.inr ⟨by decide, fun h => ⟨h.1, h.2⟩⟩ | decide

theorem State.commitSvn_within {W : Nat} {s0 s : State}  (hW : Within W s0 s)
    (hM : 524288 ||| W = W) : Within W s0 s.commitSvn := by
  refine hW.step ?_ hM; clear hW hM; unfold State.commitSvn
  dsimp only
  repeat' first
    | with_reducible apply Within.refl
    | exact Or.inr ⟨by decide, rfl, rfl, rfl, rfl, Nat.le_refl _, Nat.le_max_left _ _, fun h => ⟨h.1, h.2⟩⟩
    | with_reducible apply Within.ite | (conv => arg 3; arg 24; skip); with_reducible apply Within.build
    | with_reducible exact Or.inl rfl

theorem State.commitSvn_rst (s : State) : s.commitSvn.rst = s.rst := by
  unfold State.commitSvn
  dsimp only
  split <;> rfl

theorem State.commitSvn_errs (s : State) : s.commitSvn.errs = s.errs := by
  unfold State.commitSvn
  dsimp only
  split <;> rfl

theorem State.setHealthOk_within {W : Nat} {s0 s : State}  (hW : Within W s0 s)
    (hM : 3932160 ||| W = W) : Within W s0 s.setHealthOk := by
  refine hW.step ?_ hM; clear hW hM; unfold State.setHealthOk
  dsimp only
  repeat' first
    | with_reducible apply Within.refl | with_reducible apply State.commitSvn_within
    | (rw [State.commitSvn_rst]; exact Or.inr ⟨by decide, fun h => ⟨Nat.zero_le _, h.trimRetry⟩⟩)
    | (rw [State.commitSvn_errs]; exact Or.inr ⟨by decide, fun h => ⟨h.fifo, h.seq, h.later, h.counts⟩⟩)
    | (conv => arg 3; arg 24; skip); with_reducible apply Within.build | with_reducible exact Or.inl rfl
    | exact Or.inr (by decide) | decide

theorem State.refreezeKerb_within {W : Nat} {s0 s : State}  (hW : Within W s0 s)
    (hM : 1 ||| W = W) : Within W s0 s.refreezeKerb := by
  refine hW.step ?_ hM; clear hW hM; unfold State.refreezeKerb
  repeat' first
    | with_reducible apply Within.refl | with_reducible apply Within.foldl | (intro _ _; try dsimp only)
    | with_reducible apply State.updQ_within | decide

theorem State.abortOvertaken_within {W : Nat} {s0 s : State}  (hW : Within W s0 s)
    (hM : 19923136 ||| W = W) : Within W s0 s.abortOvertaken := by
  refine hW.step ?_ hM; clear hW hM; unfold State.abortOvertaken
  dsimp only
  repeat' first
    | with_reducible apply Within.refl | with_reducible apply Within.foldl | (intro _ _; try dsimp only)
    | with_reducible apply State.completeAll_within | with_reducible apply State.updFunc_within | decide

theorem State.ctlReturns_within {W : Nat} {s0 s : State}  (hW : Within W s0 s)
    (hM : 28835327 ||| W = W) : Within W s0 s.ctlReturns := by
  refine hW.step ?_ hM; clear hW hM; unfold State.ctlReturns
  dsimp only
  repeat' first
    | with_reducible apply Within.refl | with_reducible apply State.abortOvertaken_within
    | with_reducible apply State.postAllLost_within | with_reducible apply State.raise_within
    | with_reducible apply State.refreezeKerb_within | with_reducible apply State.settleHeld_within
    | with_reducible apply State.startSweep_within | with_reducible apply Within.ite
    | (conv => arg 3; arg 24; skip); with_reducible apply Within.build | with_reducible exact Or.inl rfl
    | exact Or.inr (by decide) | exact Or.inr ⟨by decide, fun h => ⟨h.1, h.2⟩⟩ | decide

theorem State.ctlMayReturn_within {W : Nat} {s0 s : State}  (hW : Within W s0 s)
    (hM : 28835327 ||| W = W) : Within W s0 s.ctlMayReturn := by
  refine hW.step ?_ hM; clear hW hM; unfold State.ctlMayReturn
  dsimp only
  repeat' first
    | with_reducible apply Within.refl | with_reducible apply State.ctlReturns_within | with_reducible apply Within.ite
    | (conv => arg 3; arg 24; skip); with_reducible apply Within.build | with_reducible exact Or.inl rfl
    | exact Or.inr ⟨by decide, fun h => ⟨h.1, h.2⟩⟩ | decide

theorem State.readVoutMode_within {W : Nat} {s0 s : State} (m : Byte) (hW : Within W s0 s)
    (hM : 20054208 ||| W = W) : Within W s0 (s.readVoutMode m) := by
  refine hW.step ?_ hM; clear hW hM; unfold State.readVoutMode
  dsimp only
  repeat' first
    | with_reducible apply Within.refl | with_reducible apply State.emit_within | with_reducible apply State.raise_within
    | with_reducible apply setPower_within | with_reducible apply Within.ite | decide

theorem State.monitorBack_within {W : Nat} {s0 t : State} (s : State) (hW : Within W s0 t) (hM : 16777216 ||| W = W) :
    Within W s0 (s.monitorBack t) := by
  unfold State.monitorBack
  exact Within.ite (State.emit_within _ hW hM) hW

/-! ## Commands -/

theorem execBootStart_within (aOk : Bool) (bOk : Bool) (x : BootInput) (s : State) :
    ∃ t, execBootStart aOk bOk x s = .next t ∧ Within 20316608 s t := by
  unfold execBootStart
  refine ⟨_, rfl, ?_⟩
  repeat' first
    | with_reducible apply Within.refl | with_reducible apply State.bootStart_within
    | with_reducible apply State.readVoutMode_within | decide

theorem execConfigStoreApply_within (s : State) :
    ∃ t, execConfigStoreApply s = .next t ∧ Within 20446719 s t := by
  unfold execConfigStoreApply
  refine ⟨_, rfl, ?_⟩
  repeat' first
    | with_reducible apply Within.refl | with_reducible apply State.applyConfig_within | with_reducible apply Within.ite
    | decide

theorem execIorelWrite_within (v : Word32) (s : State) :
    ∃ t, execIorelWrite v s = .next t ∧ Within 29360127 s t := by
  unfold execIorelWrite
  refine ⟨_, rfl, ?_⟩
  repeat' first
    | with_reducible apply Within.refl | with_reducible apply State.writeIorelSeq_within | decide

theorem execFirmwareReady_within (s : State) :
    ∃ t, execFirmwareReady s = .next t ∧ Within 29359615 s t := by
  unfold execFirmwareReady
  refine ⟨_, rfl, ?_⟩
  repeat' first
    | with_reducible apply Within.refl | with_reducible apply State.becomeReady_within | with_reducible apply Within.ite
    | decide

theorem execHealthOk_within (s : State) :
    ∃ t, execHealthOk s = .next t ∧ Within 3932160 s t := by
  unfold execHealthOk
  refine ⟨_, rfl, ?_⟩
  repeat' first
    | with_reducible apply Within.refl | with_reducible apply State.setHealthOk_within | with_reducible apply Within.ite
    | decide

theorem execControlPlaneReturn_within (s : State) :
    ∃ t, execControlPlaneReturn s = .next t ∧ Within 28835327 s t := by
  unfold execControlPlaneReturn
  refine ⟨_, rfl, ?_⟩
  repeat' first
    | with_reducible apply Within.refl | with_reducible apply State.ctlMayReturn_within
    | with_reducible apply State.monitorBack_within | decide

end Sys2Proof.Machine
end

