-- ==== Sys2Proof/Laws/ControlWords.lean ====
section
/-!
SUPPORT. What the operations of Machine/ControlWords.lean may change (Laws/Within.lean says how a mask names the parts),
and the commands of that file.
-/
namespace Sys2Proof.Machine

theorem State.statusRefresh_within {W : Nat} {s0 s : State} (l : Nat) (hW : Within W s0 s)
    (hM : 16777220 ||| W = W) : Within W s0 (s.statusRefresh l) := by
  refine hW.step ?_ hM; clear hW hM; unfold State.statusRefresh
  repeat' first
    | with_reducible apply Within.refl | with_reducible apply State.sendWord_within | with_reducible apply State.updLink_within
    | decide | split

theorem State.rejectInband_within {W : Nat} {s0 s : State} (l : Nat) (n : Nat) (op : Nat) (hW : Within W s0 s)
    (hM : 19923137 ||| W = W) : Within W s0 (s.rejectInband l n op) := by
  refine hW.step ?_ hM; clear hW hM; unfold State.rejectInband
  dsimp only
  repeat' first
    | with_reducible apply Within.refl | with_reducible apply State.raise_within | with_reducible apply State.updQ_within
    | decide

theorem State.inbandMark_within {W : Nat} {s0 s : State} (l : Nat) (n : Nat) (m : Nat) (hW : Within W s0 s)
    (hM : 19924165 ||| W = W) : Within W s0 (s.inbandMark l n m) := by
  refine hW.step ?_ hM; clear hW hM; unfold State.inbandMark
  dsimp only
  repeat' first
    | with_reducible apply Within.refl | with_reducible apply State.placeMark_within
    | with_reducible apply State.rejectInband_within | with_reducible apply State.updLink_within
    | with_reducible apply State.writeMark_within | with_reducible apply Within.ite | decide | split

theorem State.inbandRewind_within {W : Nat} {s0 s : State} (l : Nat) (n : Nat) (m : Nat) (hW : Within W s0 s)
    (hM : 28312769 ||| W = W) : Within W s0 (s.inbandRewind l n m) := by
  refine hW.step ?_ hM; clear hW hM; unfold State.inbandRewind
  dsimp only
  repeat' first
    | with_reducible apply Within.refl | with_reducible apply State.rejectInband_within
    | with_reducible apply State.startRewind_within | with_reducible apply Within.ite | decide

theorem State.inbandRelease_within {W : Nat} {s0 s : State} (l : Nat) (n : Nat) (m : Nat) (hW : Within W s0 s)
    (hM : 28312769 ||| W = W) : Within W s0 (s.inbandRelease l n m) := by
  refine hW.step ?_ hM; clear hW hM; unfold State.inbandRelease
  dsimp only
  repeat' first
    | with_reducible apply Within.refl | with_reducible apply State.rejectInband_within
    | with_reducible apply State.releaseMark_within | with_reducible apply Within.ite | decide

/-! ## Commands -/

theorem execStatusRefresh_within (n : Fin 8) (s : State) :
    ∃ t, execStatusRefresh n s = .next t ∧ Within 16777220 s t := by
  unfold execStatusRefresh
  refine ⟨_, rfl, ?_⟩
  repeat' first
    | with_reducible apply Within.refl | with_reducible apply State.statusRefresh_within | decide

theorem execTimeWordTimer_within (s : State) :
    ∃ t, execTimeWordTimer s = .next t ∧ Within 16777216 s t := by
  unfold execTimeWordTimer
  refine ⟨_, rfl, ?_⟩
  repeat' first
    | with_reducible apply Within.refl | with_reducible apply State.sendTimes_within | decide

theorem execInbandMark_within (n : Fin 8) (q : Fin 8192) (m : Fin 4) (s : State) :
    ∃ t, execInbandMark n q m s = .next t ∧ Within 19924165 s t := by
  unfold execInbandMark
  refine ⟨_, rfl, ?_⟩
  repeat' first
    | with_reducible apply Within.refl | with_reducible apply State.inbandMark_within | with_reducible apply Within.ite | decide

theorem execInbandRewind_within (n : Fin 8) (q : Fin 8192) (m : Fin 4) (s : State) :
    ∃ t, execInbandRewind n q m s = .next t ∧ Within 28312769 s t := by
  unfold execInbandRewind
  refine ⟨_, rfl, ?_⟩
  repeat' first
    | with_reducible apply Within.refl | with_reducible apply State.inbandRewind_within | with_reducible apply Within.ite
    | decide

theorem execInbandReleaseMark_within (n : Fin 8) (q : Fin 8192) (m : Fin 4) (s : State) :
    ∃ t, execInbandReleaseMark n q m s = .next t ∧ Within 28312769 s t := by
  unfold execInbandReleaseMark
  refine ⟨_, rfl, ?_⟩
  repeat' first
    | with_reducible apply Within.refl | with_reducible apply State.inbandRelease_within | with_reducible apply Within.ite
    | decide

theorem execControlWordDiscard_within (n : Fin 8) (bytes : List Byte) (s : State) :
    ∃ t, execControlWordDiscard n bytes s = .next t ∧ Within 4 s t := by
  unfold execControlWordDiscard
  refine ⟨_, rfl, ?_⟩
  repeat' first
    | with_reducible apply Within.refl | with_reducible apply State.updLink_within | with_reducible apply Within.ite | decide

end Sys2Proof.Machine
end

