-- ==== Sys2Proof/Laws/Dump.lean ====
section
/-!
SUPPORT. What the operations of Machine/Dump.lean may change (Laws/Within.lean says how a mask names the parts),
and the commands of that file.
-/
namespace Sys2Proof.Machine

theorem State.dumpWrite_within {W : Nat} {s0 s : State} (off : Nat) (len : Nat) (data : Nat) (hW : Within W s0 s)
    (hM : 16777216 ||| W = W) : Within W s0 (s.dumpWrite off len data) := by
  refine hW.step ?_ hM; clear hW hM; unfold State.dumpWrite
  repeat' first
    | with_reducible apply Within.refl | with_reducible apply State.emit_within | with_reducible apply Within.ite | decide

theorem State.dumpSection_within {W : Nat} {s0 s : State} (typ : Nat) (len : Nat) (value : Nat) (hW : Within W s0 s)
    (hM : 18874368 ||| W = W) : Within W s0 (s.dumpSection typ len value) := by
  refine hW.step ?_ hM; clear hW hM; unfold State.dumpSection
  dsimp only
  repeat' first
    | with_reducible apply Within.refl | with_reducible apply State.dumpWrite_within
    | (conv => arg 3; arg 24; skip); with_reducible apply Within.build | with_reducible exact Or.inl rfl
    | exact Or.inr ⟨by decide, fun h => ⟨h.1, h.2, h.3, h.4⟩⟩ | decide

theorem State.dumpFifo_within {W : Nat} {s0 s : State}  (hW : Within W s0 s)
    (hM : 18874368 ||| W = W) : Within W s0 s.dumpFifo := by
  refine hW.step ?_ hM; clear hW hM; unfold State.dumpFifo
  repeat' first
    | with_reducible apply Within.refl | with_reducible apply State.dumpSection_within | decide

theorem State.dumpCounters_within {W : Nat} {s0 s : State}  (hW : Within W s0 s)
    (hM : 18874368 ||| W = W) : Within W s0 s.dumpCounters := by
  refine hW.step ?_ hM; clear hW hM; unfold State.dumpCounters
  repeat' first
    | with_reducible apply Within.refl | with_reducible apply State.dumpSection_within | decide

theorem State.dumpBar_within {W : Nat} {s0 s : State}  (hW : Within W s0 s)
    (hM : 18874368 ||| W = W) : Within W s0 s.dumpBar := by
  refine hW.step ?_ hM; clear hW hM; unfold State.dumpBar
  repeat' first
    | with_reducible apply Within.refl | with_reducible apply State.dumpSection_within | decide

theorem State.dumpOpen_within {W : Nat} {s0 s : State} (typ max : Nat) (hW : Within W s0 s)
    (hM : 27262976 ||| W = W) : Within W s0 (s.dumpOpen typ max) := by
  refine hW.step ?_ hM; clear hW hM; unfold State.dumpOpen
  dsimp only
  repeat' first
    | with_reducible apply Within.refl | with_reducible apply State.drawn_within
    | with_reducible apply State.dumpSection_within | decide

theorem State.dumpRest_within {W : Nat} {s0 s : State} (hW : Within W s0 s)
    (hM : 27262976 ||| W = W) : Within W s0 s.dumpRest := by
  unfold State.dumpRest
  exact hW.step (Within.foldl (fun _ _ => State.dumpOpen_within _ _ (Within.refl _ _) (by decide)) _ (Within.refl _ _)) hM

theorem State.fatalReset_within {W : Nat} {s0 s : State}  (hW : Within W s0 s)
    (hM : 20446719 ||| W = W) : Within W s0 s.fatalReset := by
  refine hW.step ?_ hM; clear hW hM; unfold State.fatalReset
  repeat' first
    | with_reducible apply Within.refl | with_reducible apply State.startReset_within | decide

theorem State.noteDump_within {W : Nat} {s0 s : State} (dest : Nat) (done : Bool) (timeout : Bool) (hW : Within W s0 s)
    (hM : 2097152 ||| W = W) : Within W s0 (s.noteDump dest done timeout) := by
  refine hW.step ?_ hM; clear hW hM; unfold State.noteDump
  dsimp only
  repeat' first
    | with_reducible apply Within.refl | (conv => arg 3; arg 24; skip); with_reducible apply Within.build
    | with_reducible exact Or.inl rfl | exact Or.inr ⟨by decide, fun h => ⟨h.1, h.2, h.3, h.4⟩⟩

theorem State.dumpStart_within {W : Nat} {s0 s : State} (l1OrL0 : Bool) (busMaster : Bool) (hW : Within W s0 s)
    (hM : 28835327 ||| W = W) : Within W s0 (s.dumpStart l1OrL0 busMaster) := by
  refine hW.step ?_ hM; clear hW hM; unfold State.dumpStart
  dsimp only
  repeat' first
    | with_reducible apply Within.refl | with_reducible apply State.dumpBar_within
    | with_reducible apply State.dumpCounters_within | with_reducible apply State.dumpFifo_within
    | with_reducible apply State.dumpRest_within | with_reducible apply State.fatalReset_within
    | with_reducible apply State.noteDump_within | with_reducible apply Within.ite
    | (conv => arg 3; arg 24; skip); with_reducible apply Within.build | with_reducible exact Or.inl rfl
    | exact Or.inr ⟨by decide, fun h => ⟨h.1, h.2, h.3, h.4⟩⟩ | decide

theorem State.dumpComplete_within {W : Nat} {s0 s : State}  (hW : Within W s0 s)
    (hM : 28835327 ||| W = W) : Within W s0 s.dumpComplete := by
  refine hW.step ?_ hM; clear hW hM; unfold State.dumpComplete
  dsimp only
  repeat' first
    | with_reducible apply Within.refl | with_reducible apply State.drawn_within | with_reducible apply State.dumpWrite_within
    | with_reducible apply State.fatalReset_within | with_reducible apply State.noteDump_within
    | with_reducible apply Within.ite | (conv => arg 3; arg 24; skip); with_reducible apply Within.build
    | with_reducible exact Or.inl rfl | exact Or.inr ⟨by decide, fun h => ⟨h.1, h.2, h.3, h.4⟩⟩ | decide

/-! ## Commands -/

theorem execDumpStart_within (l1OrL0 : Bool) (busMaster : Bool) (s : State) :
    ∃ t, execDumpStart l1OrL0 busMaster s = .next t ∧ Within 28835327 s t := by
  unfold execDumpStart
  refine ⟨_, rfl, ?_⟩
  repeat' first
    | with_reducible apply Within.refl | with_reducible apply State.dumpStart_within | decide

theorem execDumpComplete_within (s : State) :
    ∃ t, execDumpComplete s = .next t ∧ Within 28835327 s t := by
  unfold execDumpComplete
  refine ⟨_, rfl, ?_⟩
  repeat' first
    | with_reducible apply Within.refl | with_reducible apply State.dumpComplete_within | with_reducible apply Within.ite
    | decide

theorem execDumpStartTimeout_within (s : State) :
    ∃ t, execDumpStartTimeout s = .next t ∧ Within 20446719 s t := by
  unfold execDumpStartTimeout
  refine ⟨_, rfl, ?_⟩
  repeat' first
    | with_reducible apply Within.refl | with_reducible apply State.fatalReset_within
    | with_reducible apply State.noteDump_within | with_reducible apply Within.ite | decide

theorem execDumpOverrun_within (s : State) :
    ∃ t, execDumpOverrun s = .next t ∧ Within 20446719 s t := by
  unfold execDumpOverrun
  refine ⟨_, rfl, ?_⟩
  repeat' first
    | with_reducible apply Within.refl | with_reducible apply State.fatalReset_within
    | with_reducible apply State.noteDump_within | with_reducible apply Within.ite | decide

end Sys2Proof.Machine
end

