-- ==== Sys2Proof/Laws/QueueEvents.lean ====
section
/-!
SUPPORT. What the operations of Machine/QueueEvents.lean may change (Laws/Within.lean says how a mask names the parts),
and the commands of that file.
-/
namespace Sys2Proof.Machine

theorem State.sweepVisit_within {W : Nat} {s0 s : State} (n : Nat) (hW : Within W s0 s)
    (hM : 16777345 ||| W = W) : Within W s0 (s.sweepVisit n) := by
  refine hW.step ?_ hM; clear hW hM; unfold State.sweepVisit
  dsimp only
  repeat' first
    | with_reducible apply Within.refl | with_reducible apply State.evalFlags_within | with_reducible apply State.setQ_within
    | with_reducible apply Within.ite | decide

theorem State.flagIntervalEnd_within {W : Nat} {s0 s : State} (n : Nat) (hW : Within W s0 s)
    (hM : 16777345 ||| W = W) : Within W s0 (s.flagIntervalEnd n) := by
  refine hW.step ?_ hM; clear hW hM; unfold State.flagIntervalEnd
  dsimp only
  repeat' first
    | with_reducible apply Within.refl | with_reducible apply State.postFlagChange_within
    | with_reducible apply State.setQ_within | with_reducible apply Within.ite | decide | split

theorem State.adaptVisit_within {W : Nat} {s0 s : State} (n : Nat) (hW : Within W s0 s)
    (hM : 16777345 ||| W = W) : Within W s0 (s.adaptVisit n) := by
  refine hW.step ?_ hM; clear hW hM; unfold State.adaptVisit
  dsimp only
  repeat' first
    | with_reducible apply Within.refl | with_reducible apply State.evalFlags_within | with_reducible apply State.setQ_within
    | with_reducible apply Within.ite | decide

theorem State.segmentResult_within {W : Nat} {s0 s : State} (n : Nat) (hW : Within W s0 s)
    (hM : 16778369 ||| W = W) : Within W s0 (s.segmentResult n) := by
  refine hW.step ?_ hM; clear hW hM; unfold State.segmentResult
  dsimp only
  repeat' first
    | with_reducible apply Within.refl | with_reducible apply State.denySeg_within | with_reducible apply State.evalFlags_within
    | with_reducible apply State.setQ_within | with_reducible apply State.takeSeg_within
    | with_reducible apply State.updQ_within | with_reducible apply Within.ite | decide | split

theorem State.rewindNow_within {W : Nat} {s0 s : State} (n : Nat) (hW : Within W s0 s)
    (hM : 28312769 ||| W = W) : Within W s0 (s.rewindNow n) := by
  refine hW.step ?_ hM; clear hW hM; unfold State.rewindNow
  dsimp only
  repeat' first
    | with_reducible apply Within.refl | with_reducible apply State.applyRewind_within | with_reducible apply State.setQ_within
    | with_reducible apply Within.ite | decide | split

theorem State.storeError_within {W : Nat} {s0 s : State} (n store granule : Nat) (hW : Within W s0 s)
    (hM : 19923136 ||| W = W) : Within W s0 (s.storeError n store granule) := by
  refine hW.step ?_ hM; clear hW hM; unfold State.storeError
  repeat' first
    | with_reducible apply Within.refl | with_reducible apply State.raise_within | with_reducible apply Within.ite | decide

/-! ## Commands -/

theorem execSweepVisit_within (x : SweepRead) (s : State) :
    ∃ t, execSweepVisit x s = .next t ∧ Within 19923137 s t := by
  unfold execSweepVisit
  refine ⟨_, rfl, ?_⟩
  repeat' first
    | with_reducible apply Within.refl | with_reducible apply State.sweepVisit_within
    | with_reducible apply State.storeError_within | decide | split

theorem execFlagEventIntervalEnd_within (q : Fin 8192) (s : State) :
    ∃ t, execFlagEventIntervalEnd q s = .next t ∧ Within 16777345 s t := by
  unfold execFlagEventIntervalEnd
  refine ⟨_, rfl, ?_⟩
  repeat' first
    | with_reducible apply Within.refl | with_reducible apply State.flagIntervalEnd_within | decide

theorem execAdaptationVisit_within (q : Fin 8192) (s : State) :
    ∃ t, execAdaptationVisit q s = .next t ∧ Within 16777345 s t := by
  unfold execAdaptationVisit
  refine ⟨_, rfl, ?_⟩
  repeat' first
    | with_reducible apply Within.refl | with_reducible apply State.adaptVisit_within | decide

theorem execKbDropIntervalEnd_within (q : Fin 8192) (s : State) :
    ∃ t, execKbDropIntervalEnd q s = .next t ∧ Within 16777345 s t := by
  unfold execKbDropIntervalEnd
  dsimp only
  refine ⟨_, rfl, ?_⟩
  repeat' first
    | with_reducible apply Within.refl | with_reducible apply State.post_within | with_reducible apply State.updQ_within
    | decide | split

theorem execSegmentGrant_within (q : Fin 8192) (s : State) :
    ∃ t, execSegmentGrant q s = .next t ∧ Within 16778369 s t := by
  unfold execSegmentGrant
  refine ⟨_, rfl, ?_⟩
  repeat' first
    | with_reducible apply Within.refl | with_reducible apply State.segmentResult_within | decide

theorem execSegmentRequestRetry_within (q : Fin 8192) (s : State) :
    ∃ t, execSegmentRequestRetry q s = .next t ∧ Within 1 s t := by
  unfold execSegmentRequestRetry
  refine ⟨_, rfl, ?_⟩
  repeat' first
    | with_reducible apply Within.refl | with_reducible apply State.setQ_within | with_reducible apply Within.ite | dsimp only | decide

theorem execRewindTakesEffect_within (q : Fin 8192) (s : State) :
    ∃ t, execRewindTakesEffect q s = .next t ∧ Within 28312769 s t := by
  unfold execRewindTakesEffect
  refine ⟨_, rfl, ?_⟩
  repeat' first
    | with_reducible apply Within.refl | with_reducible apply State.rewindNow_within | decide

end Sys2Proof.Machine
end

