-- ==== Sys2Proof/Laws/State.lean ====
section
/-!
SUPPORT. One lemma for each field of the state under each named update of it, so that no later proof unfolds a record update,
and reading a queue, group, link or function back after one was written.
-/
namespace Sys2Proof.Machine

/-! ## `setQ` -/

@[simp] theorem State.setQ_pending (s : State) (n : Nat) (x : Queue) : (s.setQ n x).pending = s.pending := rfl
@[simp] theorem State.setQ_queues (s : State) (n : Nat) (x : Queue) : (s.setQ n x).queues = SMap.set {} s.queues n x := rfl
@[simp] theorem State.setQ_groups (s : State) (n : Nat) (x : Queue) : (s.setQ n x).groups = s.groups := rfl
@[simp] theorem State.setQ_links (s : State) (n : Nat) (x : Queue) : (s.setQ n x).links = s.links := rfl
@[simp] theorem State.setQ_portCfg (s : State) (n : Nat) (x : Queue) : (s.setQ n x).portCfg = s.portCfg := rfl
@[simp] theorem State.setQ_portPol (s : State) (n : Nat) (x : Queue) : (s.setQ n x).portPol = s.portPol := rfl
@[simp] theorem State.setQ_portPolstat (s : State) (n : Nat) (x : Queue) : (s.setQ n x).portPolstat = s.portPolstat := rfl
@[simp] theorem State.setQ_ring (s : State) (n : Nat) (x : Queue) : (s.setQ n x).ring = s.ring := rfl
@[simp] theorem State.setQ_funcs (s : State) (n : Nat) (x : Queue) : (s.setQ n x).funcs = s.funcs := rfl
@[simp] theorem State.setQ_host (s : State) (n : Nat) (x : Queue) : (s.setQ n x).host = s.host := rfl
@[simp] theorem State.setQ_cmdSerial (s : State) (n : Nat) (x : Queue) : (s.setQ n x).cmdSerial = s.cmdSerial := rfl
@[simp] theorem State.setQ_plaza (s : State) (n : Nat) (x : Queue) : (s.setQ n x).plaza = s.plaza := rfl
@[simp] theorem State.setQ_kiosk (s : State) (n : Nat) (x : Queue) : (s.setQ n x).kiosk = s.kiosk := rfl
@[simp] theorem State.setQ_time (s : State) (n : Nat) (x : Queue) : (s.setQ n x).time = s.time := rfl
@[simp] theorem State.setQ_flagmap (s : State) (n : Nat) (x : Queue) : (s.setQ n x).flagmap = s.flagmap := rfl
@[simp] theorem State.setQ_cells (s : State) (n : Nat) (x : Queue) : (s.setQ n x).cells = s.cells := rfl
@[simp] theorem State.setQ_power (s : State) (n : Nat) (x : Queue) : (s.setQ n x).power = s.power := rfl
@[simp] theorem State.setQ_rst (s : State) (n : Nat) (x : Queue) : (s.setQ n x).rst = s.rst := rfl
@[simp] theorem State.setQ_nv (s : State) (n : Nat) (x : Queue) : (s.setQ n x).nv = s.nv := rfl
@[simp] theorem State.setQ_fw (s : State) (n : Nat) (x : Queue) : (s.setQ n x).fw = s.fw := rfl
@[simp] theorem State.setQ_errs (s : State) (n : Nat) (x : Queue) : (s.setQ n x).errs = s.errs := rfl
@[simp] theorem State.setQ_cyc (s : State) (n : Nat) (x : Queue) : (s.setQ n x).cyc = s.cyc := rfl
@[simp] theorem State.setQ_free (s : State) (n : Nat) (x : Queue) : (s.setQ n x).free = s.free := rfl
@[simp] theorem State.setQ_out (s : State) (n : Nat) (x : Queue) : (s.setQ n x).out = s.out := rfl

/-! ## `setGroup` -/

@[simp] theorem State.setGroup_pending (s : State) (g : Nat) (x : Group) : (s.setGroup g x).pending = s.pending := rfl
@[simp] theorem State.setGroup_queues (s : State) (g : Nat) (x : Group) : (s.setGroup g x).queues = s.queues := rfl
@[simp] theorem State.setGroup_groups (s : State) (g : Nat) (x : Group) : (s.setGroup g x).groups = SMap.set {} s.groups g x := rfl
@[simp] theorem State.setGroup_links (s : State) (g : Nat) (x : Group) : (s.setGroup g x).links = s.links := rfl
@[simp] theorem State.setGroup_portCfg (s : State) (g : Nat) (x : Group) : (s.setGroup g x).portCfg = s.portCfg := rfl
@[simp] theorem State.setGroup_portPol (s : State) (g : Nat) (x : Group) : (s.setGroup g x).portPol = s.portPol := rfl
@[simp] theorem State.setGroup_portPolstat (s : State) (g : Nat) (x : Group) : (s.setGroup g x).portPolstat = s.portPolstat := rfl
@[simp] theorem State.setGroup_ring (s : State) (g : Nat) (x : Group) : (s.setGroup g x).ring = s.ring := rfl
@[simp] theorem State.setGroup_funcs (s : State) (g : Nat) (x : Group) : (s.setGroup g x).funcs = s.funcs := rfl
@[simp] theorem State.setGroup_host (s : State) (g : Nat) (x : Group) : (s.setGroup g x).host = s.host := rfl
@[simp] theorem State.setGroup_cmdSerial (s : State) (g : Nat) (x : Group) : (s.setGroup g x).cmdSerial = s.cmdSerial := rfl
@[simp] theorem State.setGroup_plaza (s : State) (g : Nat) (x : Group) : (s.setGroup g x).plaza = s.plaza := rfl
@[simp] theorem State.setGroup_kiosk (s : State) (g : Nat) (x : Group) : (s.setGroup g x).kiosk = s.kiosk := rfl
@[simp] theorem State.setGroup_time (s : State) (g : Nat) (x : Group) : (s.setGroup g x).time = s.time := rfl
@[simp] theorem State.setGroup_flagmap (s : State) (g : Nat) (x : Group) : (s.setGroup g x).flagmap = s.flagmap := rfl
@[simp] theorem State.setGroup_cells (s : State) (g : Nat) (x : Group) : (s.setGroup g x).cells = s.cells := rfl
@[simp] theorem State.setGroup_power (s : State) (g : Nat) (x : Group) : (s.setGroup g x).power = s.power := rfl
@[simp] theorem State.setGroup_rst (s : State) (g : Nat) (x : Group) : (s.setGroup g x).rst = s.rst := rfl
@[simp] theorem State.setGroup_nv (s : State) (g : Nat) (x : Group) : (s.setGroup g x).nv = s.nv := rfl
@[simp] theorem State.setGroup_fw (s : State) (g : Nat) (x : Group) : (s.setGroup g x).fw = s.fw := rfl
@[simp] theorem State.setGroup_errs (s : State) (g : Nat) (x : Group) : (s.setGroup g x).errs = s.errs := rfl
@[simp] theorem State.setGroup_cyc (s : State) (g : Nat) (x : Group) : (s.setGroup g x).cyc = s.cyc := rfl
@[simp] theorem State.setGroup_free (s : State) (g : Nat) (x : Group) : (s.setGroup g x).free = s.free := rfl
@[simp] theorem State.setGroup_out (s : State) (g : Nat) (x : Group) : (s.setGroup g x).out = s.out := rfl

/-! ## `setLink` -/

@[simp] theorem State.setLink_pending (s : State) (n : Nat) (x : Link) : (s.setLink n x).pending = s.pending := rfl
@[simp] theorem State.setLink_queues (s : State) (n : Nat) (x : Link) : (s.setLink n x).queues = s.queues := rfl
@[simp] theorem State.setLink_groups (s : State) (n : Nat) (x : Link) : (s.setLink n x).groups = s.groups := rfl
@[simp] theorem State.setLink_links (s : State) (n : Nat) (x : Link) : (s.setLink n x).links = SMap.set {} s.links n x := rfl
@[simp] theorem State.setLink_portCfg (s : State) (n : Nat) (x : Link) : (s.setLink n x).portCfg = s.portCfg := rfl
@[simp] theorem State.setLink_portPol (s : State) (n : Nat) (x : Link) : (s.setLink n x).portPol = s.portPol := rfl
@[simp] theorem State.setLink_portPolstat (s : State) (n : Nat) (x : Link) : (s.setLink n x).portPolstat = s.portPolstat := rfl
@[simp] theorem State.setLink_ring (s : State) (n : Nat) (x : Link) : (s.setLink n x).ring = s.ring := rfl
@[simp] theorem State.setLink_funcs (s : State) (n : Nat) (x : Link) : (s.setLink n x).funcs = s.funcs := rfl
@[simp] theorem State.setLink_host (s : State) (n : Nat) (x : Link) : (s.setLink n x).host = s.host := rfl
@[simp] theorem State.setLink_cmdSerial (s : State) (n : Nat) (x : Link) : (s.setLink n x).cmdSerial = s.cmdSerial := rfl
@[simp] theorem State.setLink_plaza (s : State) (n : Nat) (x : Link) : (s.setLink n x).plaza = s.plaza := rfl
@[simp] theorem State.setLink_kiosk (s : State) (n : Nat) (x : Link) : (s.setLink n x).kiosk = s.kiosk := rfl
@[simp] theorem State.setLink_time (s : State) (n : Nat) (x : Link) : (s.setLink n x).time = s.time := rfl
@[simp] theorem State.setLink_flagmap (s : State) (n : Nat) (x : Link) : (s.setLink n x).flagmap = s.flagmap := rfl
@[simp] theorem State.setLink_cells (s : State) (n : Nat) (x : Link) : (s.setLink n x).cells = s.cells := rfl
@[simp] theorem State.setLink_power (s : State) (n : Nat) (x : Link) : (s.setLink n x).power = s.power := rfl
@[simp] theorem State.setLink_rst (s : State) (n : Nat) (x : Link) : (s.setLink n x).rst = s.rst := rfl
@[simp] theorem State.setLink_nv (s : State) (n : Nat) (x : Link) : (s.setLink n x).nv = s.nv := rfl
@[simp] theorem State.setLink_fw (s : State) (n : Nat) (x : Link) : (s.setLink n x).fw = s.fw := rfl
@[simp] theorem State.setLink_errs (s : State) (n : Nat) (x : Link) : (s.setLink n x).errs = s.errs := rfl
@[simp] theorem State.setLink_cyc (s : State) (n : Nat) (x : Link) : (s.setLink n x).cyc = s.cyc := rfl
@[simp] theorem State.setLink_free (s : State) (n : Nat) (x : Link) : (s.setLink n x).free = s.free := rfl
@[simp] theorem State.setLink_out (s : State) (n : Nat) (x : Link) : (s.setLink n x).out = s.out := rfl

/-! ## `setFunc` -/

@[simp] theorem State.setFunc_pending (s : State) (g : Nat) (x : Func) : (s.setFunc g x).pending = s.pending := rfl
@[simp] theorem State.setFunc_queues (s : State) (g : Nat) (x : Func) : (s.setFunc g x).queues = s.queues := rfl
@[simp] theorem State.setFunc_groups (s : State) (g : Nat) (x : Func) : (s.setFunc g x).groups = s.groups := rfl
@[simp] theorem State.setFunc_links (s : State) (g : Nat) (x : Func) : (s.setFunc g x).links = s.links := rfl
@[simp] theorem State.setFunc_portCfg (s : State) (g : Nat) (x : Func) : (s.setFunc g x).portCfg = s.portCfg := rfl
@[simp] theorem State.setFunc_portPol (s : State) (g : Nat) (x : Func) : (s.setFunc g x).portPol = s.portPol := rfl
@[simp] theorem State.setFunc_portPolstat (s : State) (g : Nat) (x : Func) : (s.setFunc g x).portPolstat = s.portPolstat := rfl
@[simp] theorem State.setFunc_ring (s : State) (g : Nat) (x : Func) : (s.setFunc g x).ring = s.ring := rfl
@[simp] theorem State.setFunc_funcs (s : State) (g : Nat) (x : Func) : (s.setFunc g x).funcs = SMap.set {} s.funcs g x := rfl
@[simp] theorem State.setFunc_host (s : State) (g : Nat) (x : Func) : (s.setFunc g x).host = s.host := rfl
@[simp] theorem State.setFunc_cmdSerial (s : State) (g : Nat) (x : Func) : (s.setFunc g x).cmdSerial = s.cmdSerial := rfl
@[simp] theorem State.setFunc_plaza (s : State) (g : Nat) (x : Func) : (s.setFunc g x).plaza = s.plaza := rfl
@[simp] theorem State.setFunc_kiosk (s : State) (g : Nat) (x : Func) : (s.setFunc g x).kiosk = s.kiosk := rfl
@[simp] theorem State.setFunc_time (s : State) (g : Nat) (x : Func) : (s.setFunc g x).time = s.time := rfl
@[simp] theorem State.setFunc_flagmap (s : State) (g : Nat) (x : Func) : (s.setFunc g x).flagmap = s.flagmap := rfl
@[simp] theorem State.setFunc_cells (s : State) (g : Nat) (x : Func) : (s.setFunc g x).cells = s.cells := rfl
@[simp] theorem State.setFunc_power (s : State) (g : Nat) (x : Func) : (s.setFunc g x).power = s.power := rfl
@[simp] theorem State.setFunc_rst (s : State) (g : Nat) (x : Func) : (s.setFunc g x).rst = s.rst := rfl
@[simp] theorem State.setFunc_nv (s : State) (g : Nat) (x : Func) : (s.setFunc g x).nv = s.nv := rfl
@[simp] theorem State.setFunc_fw (s : State) (g : Nat) (x : Func) : (s.setFunc g x).fw = s.fw := rfl
@[simp] theorem State.setFunc_errs (s : State) (g : Nat) (x : Func) : (s.setFunc g x).errs = s.errs := rfl
@[simp] theorem State.setFunc_cyc (s : State) (g : Nat) (x : Func) : (s.setFunc g x).cyc = s.cyc := rfl
@[simp] theorem State.setFunc_free (s : State) (g : Nat) (x : Func) : (s.setFunc g x).free = s.free := rfl
@[simp] theorem State.setFunc_out (s : State) (g : Nat) (x : Func) : (s.setFunc g x).out = s.out := rfl

/-! ## `emit` -/

@[simp] theorem State.emit_pending (s : State) (o : Out) : (s.emit o).pending = s.pending := rfl
@[simp] theorem State.emit_queues (s : State) (o : Out) : (s.emit o).queues = s.queues := rfl
@[simp] theorem State.emit_groups (s : State) (o : Out) : (s.emit o).groups = s.groups := rfl
@[simp] theorem State.emit_links (s : State) (o : Out) : (s.emit o).links = s.links := rfl
@[simp] theorem State.emit_portCfg (s : State) (o : Out) : (s.emit o).portCfg = s.portCfg := rfl
@[simp] theorem State.emit_portPol (s : State) (o : Out) : (s.emit o).portPol = s.portPol := rfl
@[simp] theorem State.emit_portPolstat (s : State) (o : Out) : (s.emit o).portPolstat = s.portPolstat := rfl
@[simp] theorem State.emit_ring (s : State) (o : Out) : (s.emit o).ring = s.ring := rfl
@[simp] theorem State.emit_funcs (s : State) (o : Out) : (s.emit o).funcs = s.funcs := rfl
@[simp] theorem State.emit_host (s : State) (o : Out) : (s.emit o).host = s.host := rfl
@[simp] theorem State.emit_cmdSerial (s : State) (o : Out) : (s.emit o).cmdSerial = s.cmdSerial := rfl
@[simp] theorem State.emit_plaza (s : State) (o : Out) : (s.emit o).plaza = s.plaza := rfl
@[simp] theorem State.emit_kiosk (s : State) (o : Out) : (s.emit o).kiosk = s.kiosk := rfl
@[simp] theorem State.emit_time (s : State) (o : Out) : (s.emit o).time = s.time := rfl
@[simp] theorem State.emit_flagmap (s : State) (o : Out) : (s.emit o).flagmap = s.flagmap := rfl
@[simp] theorem State.emit_cells (s : State) (o : Out) : (s.emit o).cells = s.cells := rfl
@[simp] theorem State.emit_power (s : State) (o : Out) : (s.emit o).power = s.power := rfl
@[simp] theorem State.emit_rst (s : State) (o : Out) : (s.emit o).rst = s.rst := rfl
@[simp] theorem State.emit_nv (s : State) (o : Out) : (s.emit o).nv = s.nv := rfl
@[simp] theorem State.emit_fw (s : State) (o : Out) : (s.emit o).fw = s.fw := rfl
@[simp] theorem State.emit_errs (s : State) (o : Out) : (s.emit o).errs = s.errs := rfl
@[simp] theorem State.emit_cyc (s : State) (o : Out) : (s.emit o).cyc = s.cyc := rfl
@[simp] theorem State.emit_free (s : State) (o : Out) : (s.emit o).free = s.free := rfl
@[simp] theorem State.emit_out (s : State) (o : Out) : (s.emit o).out = o :: s.out := rfl

/-! ## `drawn` -/

@[simp] theorem State.drawn_pending (s : State) : s.drawn.pending = s.pending := rfl
@[simp] theorem State.drawn_queues (s : State) : s.drawn.queues = s.queues := rfl
@[simp] theorem State.drawn_groups (s : State) : s.drawn.groups = s.groups := rfl
@[simp] theorem State.drawn_links (s : State) : s.drawn.links = s.links := rfl
@[simp] theorem State.drawn_portCfg (s : State) : s.drawn.portCfg = s.portCfg := rfl
@[simp] theorem State.drawn_portPol (s : State) : s.drawn.portPol = s.portPol := rfl
@[simp] theorem State.drawn_portPolstat (s : State) : s.drawn.portPolstat = s.portPolstat := rfl
@[simp] theorem State.drawn_ring (s : State) : s.drawn.ring = s.ring := rfl
@[simp] theorem State.drawn_funcs (s : State) : s.drawn.funcs = s.funcs := rfl
@[simp] theorem State.drawn_host (s : State) : s.drawn.host = s.host := rfl
@[simp] theorem State.drawn_cmdSerial (s : State) : s.drawn.cmdSerial = s.cmdSerial := rfl
@[simp] theorem State.drawn_plaza (s : State) : s.drawn.plaza = s.plaza := rfl
@[simp] theorem State.drawn_kiosk (s : State) : s.drawn.kiosk = s.kiosk := rfl
@[simp] theorem State.drawn_time (s : State) : s.drawn.time = s.time := rfl
@[simp] theorem State.drawn_flagmap (s : State) : s.drawn.flagmap = s.flagmap := rfl
@[simp] theorem State.drawn_cells (s : State) : s.drawn.cells = s.cells := rfl
@[simp] theorem State.drawn_power (s : State) : s.drawn.power = s.power := rfl
@[simp] theorem State.drawn_rst (s : State) : s.drawn.rst = s.rst := rfl
@[simp] theorem State.drawn_nv (s : State) : s.drawn.nv = s.nv := rfl
@[simp] theorem State.drawn_fw (s : State) : s.drawn.fw = s.fw := rfl
@[simp] theorem State.drawn_errs (s : State) : s.drawn.errs = s.errs := rfl
@[simp] theorem State.drawn_cyc (s : State) : s.drawn.cyc = s.cyc := rfl
@[simp] theorem State.drawn_free (s : State) : s.drawn.free = s.free + 1 := rfl
@[simp] theorem State.drawn_out (s : State) : s.drawn.out = s.out := rfl

/-! ## `ungate` -/

@[simp] theorem State.ungate_pending (s : State) : s.ungate.pending = s.pending := rfl
@[simp] theorem State.ungate_queues (s : State) : s.ungate.queues = s.queues := rfl
@[simp] theorem State.ungate_groups (s : State) : s.ungate.groups = s.groups := rfl
@[simp] theorem State.ungate_links (s : State) : s.ungate.links = s.links := rfl
@[simp] theorem State.ungate_portCfg (s : State) : s.ungate.portCfg = s.portCfg := rfl
@[simp] theorem State.ungate_portPol (s : State) : s.ungate.portPol = s.portPol := rfl
@[simp] theorem State.ungate_portPolstat (s : State) : s.ungate.portPolstat = s.portPolstat := rfl
@[simp] theorem State.ungate_ring (s : State) : s.ungate.ring = s.ring := rfl
@[simp] theorem State.ungate_funcs (s : State) : s.ungate.funcs = s.funcs := rfl
@[simp] theorem State.ungate_host (s : State) : s.ungate.host = s.host := rfl
@[simp] theorem State.ungate_cmdSerial (s : State) : s.ungate.cmdSerial = s.cmdSerial := rfl
@[simp] theorem State.ungate_plaza (s : State) : s.ungate.plaza = s.plaza := rfl
@[simp] theorem State.ungate_kiosk (s : State) : s.ungate.kiosk = s.kiosk := rfl
@[simp] theorem State.ungate_time (s : State) : s.ungate.time = s.time := rfl
@[simp] theorem State.ungate_flagmap (s : State) : s.ungate.flagmap = s.flagmap := rfl
@[simp] theorem State.ungate_cells (s : State) : s.ungate.cells = s.cells := rfl
@[simp] theorem State.ungate_power (s : State) : s.ungate.power = { s.power with gated := false } := rfl
@[simp] theorem State.ungate_rst (s : State) : s.ungate.rst = s.rst := rfl
@[simp] theorem State.ungate_nv (s : State) : s.ungate.nv = s.nv := rfl
@[simp] theorem State.ungate_fw (s : State) : s.ungate.fw = s.fw := rfl
@[simp] theorem State.ungate_errs (s : State) : s.ungate.errs = s.errs := rfl
@[simp] theorem State.ungate_cyc (s : State) : s.ungate.cyc = s.cyc := rfl
@[simp] theorem State.ungate_free (s : State) : s.ungate.free = s.free := rfl
@[simp] theorem State.ungate_out (s : State) : s.ungate.out = s.out := rfl

/-! ## `setSide` -/

@[simp] theorem State.setSide_pending (s : State) (d : Side) (x : RingSide) : (s.setSide d x).pending = s.pending := by cases d <;> rfl
@[simp] theorem State.setSide_queues (s : State) (d : Side) (x : RingSide) : (s.setSide d x).queues = s.queues := by cases d <;> rfl
@[simp] theorem State.setSide_groups (s : State) (d : Side) (x : RingSide) : (s.setSide d x).groups = s.groups := by cases d <;> rfl
@[simp] theorem State.setSide_links (s : State) (d : Side) (x : RingSide) : (s.setSide d x).links = s.links := by cases d <;> rfl
@[simp] theorem State.setSide_portCfg (s : State) (d : Side) (x : RingSide) : (s.setSide d x).portCfg = s.portCfg := by cases d <;> rfl
@[simp] theorem State.setSide_portPol (s : State) (d : Side) (x : RingSide) : (s.setSide d x).portPol = s.portPol := by cases d <;> rfl
@[simp] theorem State.setSide_portPolstat (s : State) (d : Side) (x : RingSide) : (s.setSide d x).portPolstat = s.portPolstat := by cases d <;> rfl
@[simp] theorem State.setSide_funcs (s : State) (d : Side) (x : RingSide) : (s.setSide d x).funcs = s.funcs := by cases d <;> rfl
@[simp] theorem State.setSide_host (s : State) (d : Side) (x : RingSide) : (s.setSide d x).host = s.host := by cases d <;> rfl
@[simp] theorem State.setSide_cmdSerial (s : State) (d : Side) (x : RingSide) : (s.setSide d x).cmdSerial = s.cmdSerial := by cases d <;> rfl
@[simp] theorem State.setSide_plaza (s : State) (d : Side) (x : RingSide) : (s.setSide d x).plaza = s.plaza := by cases d <;> rfl
@[simp] theorem State.setSide_kiosk (s : State) (d : Side) (x : RingSide) : (s.setSide d x).kiosk = s.kiosk := by cases d <;> rfl
@[simp] theorem State.setSide_time (s : State) (d : Side) (x : RingSide) : (s.setSide d x).time = s.time := by cases d <;> rfl
@[simp] theorem State.setSide_flagmap (s : State) (d : Side) (x : RingSide) : (s.setSide d x).flagmap = s.flagmap := by cases d <;> rfl
@[simp] theorem State.setSide_cells (s : State) (d : Side) (x : RingSide) : (s.setSide d x).cells = s.cells := by cases d <;> rfl
@[simp] theorem State.setSide_power (s : State) (d : Side) (x : RingSide) : (s.setSide d x).power = s.power := by cases d <;> rfl
@[simp] theorem State.setSide_rst (s : State) (d : Side) (x : RingSide) : (s.setSide d x).rst = s.rst := by cases d <;> rfl
@[simp] theorem State.setSide_nv (s : State) (d : Side) (x : RingSide) : (s.setSide d x).nv = s.nv := by cases d <;> rfl
@[simp] theorem State.setSide_fw (s : State) (d : Side) (x : RingSide) : (s.setSide d x).fw = s.fw := by cases d <;> rfl
@[simp] theorem State.setSide_errs (s : State) (d : Side) (x : RingSide) : (s.setSide d x).errs = s.errs := by cases d <;> rfl
@[simp] theorem State.setSide_cyc (s : State) (d : Side) (x : RingSide) : (s.setSide d x).cyc = s.cyc := by cases d <;> rfl
@[simp] theorem State.setSide_free (s : State) (d : Side) (x : RingSide) : (s.setSide d x).free = s.free := by cases d <;> rfl
@[simp] theorem State.setSide_out (s : State) (d : Side) (x : RingSide) : (s.setSide d x).out = s.out := by cases d <;> rfl

/-! ## Updates in place -/

theorem State.updQ_eq (s : State) (n : Nat) (f : Queue → Queue) : s.updQ n f = s.setQ n (f (s.q n)) := rfl
theorem State.updLink_eq (s : State) (n : Nat) (f : Link → Link) : s.updLink n f = s.setLink n (f (s.link n)) := rfl
theorem State.updFunc_eq (s : State) (g : Nat) (f : Func → Func) : s.updFunc g f = s.setFunc g (f (s.func g)) := rfl

/-! ## Reading back -/

@[simp] theorem State.q_setQ (s : State) (n m : Nat) (x : Queue) : (s.setQ n x).q m = if n = m then x else s.q m :=
  SMap.get_set _ _ _ _ _

@[simp] theorem State.group_setGroup (s : State) (g h : Nat) (x : Group) :
    (s.setGroup g x).group h = if g = h then x else s.group h := SMap.get_set _ _ _ _ _

@[simp] theorem State.link_setLink (s : State) (n m : Nat) (x : Link) : (s.setLink n x).link m = if n = m then x else s.link m :=
  SMap.get_set _ _ _ _ _

@[simp] theorem State.func_setFunc (s : State) (g h : Nat) (x : Func) :
    (s.setFunc g x).func h = if g = h then x else s.func h := SMap.get_set _ _ _ _ _

@[simp] theorem State.side_setSide (s : State) (d e : Side) (x : RingSide) :
    (s.setSide d x).side e = if e = d then x else s.side e := by cases d <;> cases e <;> rfl

end Sys2Proof.Machine
end

