-- ==== Sys2Proof/Laws/Effects.lean ====
section
/-!
SUPPORT. What the shared operations leave alone in one function or one queue, and how a host command comes to its effect: the
lemmas that the statements' proofs cite.
-/
namespace Sys2Proof.Machine
open Sys2Proof

theorem keeps_of {M : Nat} {s t : State} (h : Within M s t) (l : List Part) (hl : ∀ p : Part, p ∉ l → M.testBit p.idx = false) : s.keeps t l :=
  fun p hp => h.same p (hl p hp)

theorem accessWrite_host (s : State) (g : Fin 16) (off : Nat) (v : Word32) (hr : s.fnReached g.val = true)
    (h1 : vfSees off = true) (h2 : hostReg off = true) (h4 : off % 4 = 0) :
    s.accessWrite (.fn g) off v = s.writeHostReg g.val off v := by
  simp [State.accessWrite, State.mayWrite, hr, h1, h2, State.writeReg, viewOf, h4]

theorem aw_hctrl (s : State) (g : Fin 16) (v : Word32) (hr : s.fnReached g.val = true) :
   s.accessWrite (.fn g) 0x11C v = s.writeHringCtrl g.val v := by
  rw [accessWrite_host s g _ v hr (by decide) (by decide) (by decide)]; rfl

theorem sig_func (s : State) (g v h : Nat) (hh : h ≠ g) : (s.signal g v).func h = s.func h := by
  unfold State.signal; repeat' split
  · rfl
  · simp [State.updFunc_eq, Ne.symm hh]
  · rfl

/-- the registers of Table HI-3 to HI-5 and the ring indices but for the event ring's producer -/
def Func.regs (f : Func) : Func := { f with evtPi := 0, evtSeq := 0, msixPend := 0, evtHoldoff := false, evtHeld := false, cplHoldoff := false, cplHeld := false, lostSince := 0, heldEvents := [], heldOver := 0, evtLost := 0 }

theorem sig_regs (s : State) (g v : Nat) : Func.regs ((s.signal g v).func g) = Func.regs (s.func g) := by
  unfold State.signal; repeat' split
  · rfl
  · simp [State.updFunc_eq, Func.regs]
  · rfl

theorem sigEvt_regs (s : State) (g : Nat) : Func.regs ((s.signalEvt g).func g) = Func.regs (s.func g) := by
  unfold State.signalEvt State.signalVec; dsimp only
  repeat' split
  all_goals first
    | exact sig_regs _ _ _
    | (rw [sig_regs]; simp [Func.regs])
    | simp [Func.regs]

theorem sigEvt_func (s : State) (g h : Nat) (hh : h ≠ g) : ((s.signalEvt g).func h) = s.func h := by
  unfold State.signalEvt State.signalVec; dsimp only
  repeat' split
  all_goals first
    | exact sig_func _ _ _ _ hh
    | (rw [sig_func _ _ _ _ hh]; simp [Ne.symm hh])
    | simp [Ne.symm hh]

theorem putEvent_regs (s : State) (g : Nat) (e : Event) : Func.regs ((s.putEvent g e).func g) = Func.regs (s.func g) := by
  unfold State.putEvent; dsimp only
  rw [sigEvt_regs]; simp [Func.regs]

theorem putEvent_func (s : State) (g h : Nat) (e : Event) (hh : h ≠ g) : ((s.putEvent g e).func h) = s.func h := by
  unfold State.putEvent; dsimp only
  rw [sigEvt_func _ _ _ hh]; simp [Ne.symm hh]; rfl

theorem foldl_putEvent (l : List Event) (s : State) (g : Nat) :
   Func.regs ((l.foldl (fun s e => s.putEvent g e) s).func g) = Func.regs (s.func g) ∧ ∀ h, h ≠ g → (l.foldl (fun s e => s.putEvent g e) s).func h = s.func h := by
  induction l generalizing s with
  | nil => exact ⟨rfl, fun _ _ => rfl⟩
  | cons e l ih =>
    obtain ⟨a, b⟩ := ih (s.putEvent g e)
    exact ⟨a.trans (putEvent_regs _ _ _), fun h hh => (b h hh).trans (putEvent_func _ _ _ _ hh)⟩

theorem postLost_regs (s : State) (g : Nat) : Func.regs ((s.postLost g).func g) = Func.regs (s.func g) ∧ ∀ h, h ≠ g → (s.postLost g).func h = s.func h := by
  unfold State.postLost; dsimp only
  split
  · exact ⟨by rw [putEvent_regs]; simp [Func.regs], fun h hh => by rw [putEvent_func _ _ _ _ hh]; simp [Ne.symm hh]⟩
  · exact ⟨rfl, fun _ _ => rfl⟩

theorem postHeld_regs (s : State) (g : Nat) : Func.regs ((s.postHeld g).func g) = Func.regs (s.func g) ∧ ∀ h, h ≠ g → (s.postHeld g).func h = s.func h := by
  unfold State.postHeld; dsimp only
  obtain ⟨a, b⟩ := postLost_regs ((s.func g).heldEvents.foldl (fun s e => s.putEvent g e) (s.setFunc g { s.func g with heldEvents := [], heldOver := 0, evtLost := satAdd 0xFFFF (s.func g).evtLost (s.func g).heldOver, lostSince := (s.func g).lostSince + (s.func g).heldOver })) g
  obtain ⟨c, d⟩ := foldl_putEvent (s.func g).heldEvents (s.setFunc g { s.func g with heldEvents := [], heldOver := 0, evtLost := satAdd 0xFFFF (s.func g).evtLost (s.func g).heldOver, lostSince := (s.func g).lostSince + (s.func g).heldOver }) g
  refine ⟨?_, fun h hh => ?_⟩
  · rw [a, c]; simp [Func.regs]
  · rw [b h hh, d h hh]; simp [Ne.symm hh]

theorem reg_field {f g : Func} {α} (h : Func.regs f = Func.regs g) (p : Func → α) (hp : ∀ x, p (Func.regs x) = p x) : p f = p g := by
  rw [← hp f, h, hp]

theorem bit_hmask (v : Word32) (g : Nat) : bit (v &&& hctrlMask g) 0 = bit v 0 := by
  unfold hctrlMask
  have : ∀ m : BitVec 32, m.toNat % 2 = 1 → bit (v &&& m) 0 = bit v 0 := by
    intro m hm
    simp only [bit, fld, BitVec.toNat_and, Nat.pow_zero, Nat.div_one, Nat.pow_one]
    have : (v.toNat &&& m.toNat) % 2 = v.toNat % 2 := by
      rw [← Nat.and_one_is_mod, Nat.and_assoc]
      have : m.toNat &&& 1 = 1 := by rw [Nat.and_one_is_mod]; exact hm
      rw [this, Nat.and_one_is_mod]
    rw [this]
  split <;> exact this _ (by decide)

theorem post_func (s : State) (k : Nat) (e : Event) (g : Nat) : Func.regs ((s.post k e).func g) = Func.regs (s.func g) := by
  unfold State.post State.loseEvent; dsimp only
  by_cases hk : g = k
  · subst hk
    split
    · split <;> simp [Func.regs]
    · split
      · exact putEvent_regs _ _ _
      · simp [State.updFunc_eq, Func.regs]
  · split
    · split <;> simp [Ne.symm hk]
    · split
      · rw [putEvent_func _ _ _ _ hk]
      · simp [State.updFunc_eq, Ne.symm hk]

theorem raise_func (s : State) (code : Nat) (o : Option Nat) (a b c g : Nat) : Func.regs ((s.raise code o a b c).func g) = Func.regs (s.func g) := by
  unfold State.raise; dsimp only
  have fat : ∀ (u : State) e, (u.onFatal e).func g = u.func g := by intro u e; unfold State.onFatal; split <;> rfl
  split <;> (try rw [fat]) <;> (split <;> (try split) <;> (repeat rw [post_func]) <;> rfl)

@[simp] theorem TimeBase.gatePps_tb (t : TimeBase) : t.gatePps.tb = t.tb := rfl
@[simp] theorem TimeBase.gatePps_f (t : TimeBase) : t.gatePps.f = t.f := rfl
@[simp] theorem TimeBase.gatePps_lock (t : TimeBase) : t.gatePps.lock = t.lock := rfl
@[simp] theorem TimeBase.gatePps_ctrl (t : TimeBase) : t.gatePps.ctrl = t.ctrl := rfl

/-- A move of the lock state changes it, and of the rest of the time base only `PPS_OUT`. -/
theorem setLock_time (s : State) (l : Lock) (e : Int) :
    (s.setLock l e).time = { s.time with lock := l } ∨ (s.setLock l e).time = ({ s.time with lock := l } : TimeBase).gatePps := by
  unfold State.setLock
  dsimp only
  split
  · rename_i h; left; rw [← h]
  · right
    have a : ∀ u : State, u.sendTimes.time = u.time := fun u =>
      (State.sendTimes_within (W := 16777216) (Within.refl _ u) (by decide)).same .time (by decide)
    have b : ∀ (u : State) g ev, (u.post g ev).time = u.time := fun u g ev =>
      (State.post_within (W := 16777344) g ev (Within.refl _ u) (by decide)).same .time (by decide)
    rw [a, b]

theorem hold_none (s : State) (g : Nat) (h : s.noHostEnd g) : s.holdHost g = s := by
  unfold State.holdHost
  have : (s.groupQueues g).filter (fun e => e.2.hostEnd) = [] := by
    rw [List.filter_eq_nil_iff]; intro e he; simp [h e he]
  rw [this]; rfl

theorem flrOne_none (s : State) (g : Nat) (hg : g ≠ 0) (h : s.noHostEnd g) :
    s.flrOne g = ((s.dropStalled g).setFunc g ((s.func g).afterReset g)).updFunc g fun f => { f with flrBusy := true } := by
  unfold State.flrOne State.resetFunc
  simp only [hg]
  have : ((s.dropStalled g).setFunc g ((s.func g).afterReset g)).noHostEnd g := h
  simp only [if_false]
  exact congrArg (fun t : State => t.updFunc g fun f => { f with flrBusy := true }) (hold_none _ _ this)

theorem nh_set (s : State) (g : Nat) (x : Func) (k : Nat) (h : s.noHostEnd k) : (s.setFunc g x).noHostEnd k := h

theorem resetFunc_none (s : State) (g : Nat) (h : s.noHostEnd g) :
    s.resetFunc g = ({ s.dropStalled g with errs := if g = 0 then { s.errs with dumpLow := none } else s.errs } : State).setFunc g ((s.func g).afterReset g) := by
  unfold State.resetFunc
  dsimp only
  split
  · subst_vars
    rw [hold_none]
    · rfl
    · exact h
  · rw [hold_none]
    · rfl
    · exact h

theorem reset_fold (l : List Nat) (s : State) (hn : ∀ g, s.noHostEnd g) (hd : l.Nodup) :
    let t := l.foldl State.resetFunc s
    t.queues = s.queues ∧ (s.host.stalled = [] → t.host = s.host) ∧ (0 ∈ l → t.errs.dumpLow = none) ∧ (s.errs.dumpLow = none → t.errs.dumpLow = none) ∧ t.links = s.links ∧ t.kiosk = s.kiosk ∧ t.time = s.time ∧ t.nv = s.nv ∧
    (∀ g, t.func g = if g ∈ l then (s.func g).afterReset g else s.func g) := by
  induction l generalizing s with
  | nil => simp
  | cons a l ih =>
    obtain ⟨ha, hl⟩ := List.nodup_cons.mp hd
    have e := resetFunc_none s a (hn a)
    have := ih (s.resetFunc a) (by rw [e]; exact hn) hl
    obtain ⟨q, ho, d0, d1, li, ki, ti, nv, fs⟩ := this
    simp only [List.foldl_cons]
    rw [e] at q ho d0 d1 li ki ti nv fs ⊢
    have hs : s.host.stalled = [] → (s.dropStalled a).host = s.host := by
      intro h; unfold State.dropStalled; dsimp only; rw [h]; cases hh : s.host; simp_all
    refine ⟨q, fun h => (ho (by rw [State.setFunc_host, hs h]; exact h)).trans (hs h), ?_, ?_, li, ki, ti, nv, ?_⟩
    · intro h
      rcases List.mem_cons.mp h with h | h
      · apply d1; subst h; simp
      · exact d0 h
    · intro h; apply d1; simp only [State.setFunc_errs]; split <;> simp [h]
    · intro g
      rw [fs g]
      by_cases hg : g = a
      · subst hg; simp [ha]
      · simp [hg, Ne.symm hg]; rfl

theorem raise_seq (s : State) (code : Nat) (o : Option Nat) (a b c : Nat) : (s.raise code o a b c).errs.seq = (s.errs.seq + 1) % 2 ^ 32 := by
  unfold State.raise; dsimp only
  have fat : ∀ (u : State) e, (u.onFatal e).errs.seq = u.errs.seq := by intro u e; unfold State.onFatal; split <;> rfl
  have pe : ∀ (u : State) g e, (u.post g e).errs = u.errs := fun u g e => (State.post_within (W := 16777344) g e (Within.refl _ u) (by decide)).same .errs (by decide)
  split <;> (try rw [fat]) <;> (split <;> (try split) <;> (repeat rw [pe]))

theorem fetched_func_other (s : State) (g h : Nat) (d : Block512) (hh : h ≠ g) : (s.fetched g d).func h = s.func h := by
  show SMap.get {} (SMap.set {} s.funcs g _) h = _
  rw [SMap.get_set_other _ _ _ (Ne.symm hh)]; rfl

theorem fetched_func (s : State) (g : Nat) (d : Block512) : (s.fetched g d).func g = { s.func g with cmdCi := next32 (s.func g).cmdCi, inflight := (s.func g).inflight ++ [s.nextRef g d] } := by
  show SMap.get {} (SMap.set {} s.funcs g _) g = _
  rw [SMap.get_set_same]; rfl

theorem fetched_within (s : State) (g : Nat) (d : Block512) : Within (128 + 256 + 512) s (s.fetched g d) := by
  unfold State.fetched
  apply State.updFunc_within _ _ _ (by decide)
  with_reducible apply Within.build
  all_goals first
    | with_reducible apply Within.refl
    | with_reducible exact Or.inl rfl
    | exact Or.inr (by decide)

/-- A host command's meaning, uniformly. -/
theorem exec_host {c : Instr} {g : Fin 16} {op : Nat} {d : Block512} (h : hostOf c = some (g, op, d)) (s : State) :
    ∃ m, exec c s = .next (s.hostCommand g.val op d m) := by
  cases c <;> simp only [hostOf, Option.some.injEq, Prod.mk.injEq, reduceCtorEq] at h <;>
    (obtain ⟨rfl, rfl, rfl⟩ := h) <;> exact ⟨_, rfl⟩

theorem takes_fetch {s : State} {g op : Nat} {d : Block512} (h : s.Takes g op d) (m : Option (List Byte)) :
    s.hostCommand g op d m = (s.fetched g d).takeEffect (s.nextRef g d) d m := by
  unfold State.hostCommand
  rw [if_pos h.opcode]
  unfold State.fetch
  rw [if_pos h.fetches]
  have e : (({ s with cmdSerial := s.cmdSerial + 1, host := { s.host with fetchTurn := (g + 1) % 16 } }).updFunc g fun f => { f with cmdCi := next32 f.cmdCi, inflight := f.inflight ++ [({ fn := g, id := s.cmdSerial, opcode := Hdr.opcode d, tag := Hdr.tag d } : CmdRef)] }) = s.fetched g d := rfl
  dsimp only
  rw [e]
  have ha : (s.fetched g d).mayAct (s.nextRef g d) d = true := by
    have hc : (s.fetched g d).rst.control = true := h.running
    unfold State.mayAct fencing
    rw [hc, h.unfenced]
    by_cases ho : Hdr.opcode d = opHello
    · have := h.alone (h.opcode.symm.trans ho)
      simp [ho, fetched_func, State.nextRef, this]
    · simp [ho]
  have hn : (s.nextRef g d) = ({ fn := g, id := s.cmdSerial, opcode := Hdr.opcode d, tag := Hdr.tag d } : CmdRef) := rfl
  rw [← hn, fetched_func, h.first]
  rw [if_pos (by simp [ha])]

theorem header_ok {s : State} {g op : Nat} {d : Block512} (h : s.Accepts g op d) (hg : g < 16) :
    (s.fetched g d).headerStatus (s.nextRef g d) d = St.ok := by
  obtain ⟨v, hv, hm⟩ := h.admitted
  unfold State.headerStatus
  rw [h.opcode, hv]
  dsimp only
  split
  · rfl
  · have : (s.fetched g d).agreed (s.nextRef g d) (Hdr.ver d) = some (s.func g).ver := by
      have e : (s.nextRef g d).fn = g := rfl
      unfold State.agreed
      dsimp only
      rw [e, if_neg (by unfold startupFn; omega), fetched_func]
      simp [h.agreed]
    rw [this]
    dsimp only
    rw [if_neg (by simp [h.version]), if_neg (by omega)]

theorem accepts_exec {c : Instr} {g : Fin 16} {op : Nat} {d : Block512} (hc : hostOf c = some (g, op, d)) {s : State} (h : s.Accepts g.val op d) :
    ∃ m, exec c s = .next (s.hostCommand g.val op d m) ∧ s.hostCommand g.val op d m = (s.fetched g.val d).hostEffect (s.nextRef g.val d) d m := by
  obtain ⟨m, e⟩ := exec_host hc s
  refine ⟨m, e, ?_⟩
  rw [takes_fetch h.toTakes]
  unfold State.takeEffect
  dsimp only
  rw [header_ok h g.isLt]; simp [St.ok]

/-- A queue's context without its segments, its flag levels and the status last sent. -/
def Queue.core (q : Queue) : Queue := { q with segs := [], segBase := 0, segDenied := false, fst := {}, xoff := false }

/-- Only queue n's segments and flag state differ. -/
structure OnQ (n : Nat) (s t : State) : Prop where
  core : (t.q n).core = (s.q n).core
  other : ∀ m, m ≠ n → t.q m = s.q m

theorem OnQ.refl (n : Nat) (s : State) : OnQ n s s := ⟨rfl, fun _ _ => rfl⟩

theorem OnQ.trans {n : Nat} {s t u : State} (h : OnQ n s t) (k : OnQ n t u) : OnQ n s u :=
  ⟨k.core.trans h.core, fun m hm => (k.other m hm).trans (h.other m hm)⟩

theorem OnQ.field {n : Nat} {s t : State} (h : OnQ n s t) {α} (p : Queue → α) (hp : ∀ q, p q.core = p q := by intro q; rfl) : p (t.q n) = p (s.q n) := by
  rw [← hp, h.core, hp]

theorem OnQ.queues {n : Nat} {s t : State} (h : t.queues = s.queues) : OnQ n s t := by
  have : ∀ m, t.q m = s.q m := fun m => by unfold State.q; rw [h]
  exact ⟨by rw [this], fun m _ => this m⟩

theorem OnQ.set {n : Nat} {s : State} {x : Queue} (h : x.core = (s.q n).core) : OnQ n s (s.setQ n x) :=
  ⟨by simp [h], fun m hm => by simp [Ne.symm hm]⟩

theorem OnQ.within {n M : Nat} {s t : State} (h : Within M s t) (hm : M.testBit 0 = false) : OnQ n s t := OnQ.queues (h.same .queues hm)

theorem OnQ.after {n : Nat} {s t : State} {x : Queue} (k : OnQ n (s.setQ n x) t) (h : x.core = (s.q n).core) : OnQ n s t := (OnQ.set h).trans k

theorem onQ_freeSegs (n k : Nat) (s : State) : OnQ n s (s.freeSegs n k) := by
  induction k generalizing s with
  | zero => exact OnQ.refl _ _
  | succ k ih =>
    unfold State.freeSegs
    dsimp only
    split
    · exact OnQ.refl _ _
    · split
      · split
        · refine OnQ.trans ?_ (ih _)
          exact OnQ.set rfl
        · refine OnQ.trans ?_ (ih _)
          exact OnQ.after (s := s) (OnQ.queues rfl) rfl
      · exact OnQ.refl _ _

theorem onQ_takeSegs (n a k : Nat) (s : State) : OnQ n s (s.takeSegs n a k) := by
  induction k generalizing s with
  | zero => exact OnQ.refl _ _
  | succ k ih =>
    unfold State.takeSegs
    split
    · refine OnQ.trans ?_ (ih _)
      unfold State.takeSeg
      exact OnQ.after (s := s) (OnQ.queues rfl) rfl
    · exact OnQ.refl _ _

theorem onQ_sendStatus (n : Nat) (s : State) : OnQ n s (s.sendStatus n) :=
  OnQ.within (State.sendStatus_within (W := 16777216) n (Within.refl _ s) (by decide)) (by decide)

theorem onQ_flagEvent (n d : Nat) (s : State) : OnQ n s (s.flagEvent n d) := by
  unfold State.flagEvent
  dsimp only
  split
  · exact OnQ.refl _ _
  · split
    · exact OnQ.after (s := s) (OnQ.within (State.postFlagChange_within (W := 16777344) n false (Within.refl _ _) (by decide)) (by decide)) rfl
    · exact OnQ.set rfl

theorem onQ_evalFlags (n : Nat) (s : State) : OnQ n s (s.evalFlags n) := by
  unfold State.evalFlags
  split
  · exact OnQ.refl _ _
  · dsimp only
    refine OnQ.trans (t := _) ?_ (onQ_flagEvent _ _ _)
    have h : OnQ n s ((s.updQ n fun q => { q with fst := { q.fst with levels := s.evalLevels n } }).updQ n fun q => { q with xoff := (s.updQ n fun q => { q with fst := { q.fst with levels := s.evalLevels n } }).xoff n }) :=
      OnQ.after (s := s) (OnQ.after (OnQ.refl _ _) (by rfl)) rfl
    split
    · exact h.trans (onQ_sendStatus _ _)
    · exact h

theorem onQ_release (n : Nat) (s : State) : OnQ n s (s.release n) := onQ_freeSegs _ _ _

theorem onQ_returnSegs (n : Nat) (z : Bool) (l : List Nat) (s : State) : OnQ n s (s.returnSegs z l) :=
  OnQ.within (State.returnSegs_within (W := 1024) z l (Within.refl _ s) (by decide)) (by decide)

theorem onQ_shed (n : Nat) (s : State) : OnQ n s (s.shedElastic n) := by
  unfold State.shedElastic
  exact OnQ.after (s := s) (onQ_returnSegs _ _ _ _) rfl

theorem q_fetched (s : State) (g : Nat) (d : Block512) (n : Nat) : (s.fetched g d).q n = s.q n := rfl

/-- One host command, from its fetch to its effect. -/
theorem accepts_effect {c : Instr} {g : Fin 16} {op : Nat} {d : Block512} (hc : hostOf c = some (g, op, d)) {s : State} (h : s.Accepts g.val op d)
    {f : State} (hf : ∀ m, (s.fetched g.val d).hostEffect { s.nextRef g.val d with opcode := op } d m = f) : exec c s = .next f := by
  obtain ⟨m, e, e2⟩ := accepts_exec hc h
  rw [e, e2, ← hf m]
  have : ({ s.nextRef g.val d with opcode := op } : CmdRef) = s.nextRef g.val d := by
    simp [State.nextRef, h.opcode]
  rw [this]

theorem realign_q (s : State) (n pos : Nat) : ((s.realign n pos).q n).st = (s.q n).st ∧ ((s.realign n pos).q n).rptr = (s.q n).rptr ∧
   ((s.realign n pos).q n).wptr = (s.q n).wptr ∧ ((s.realign n pos).q n).wmsg = (s.q n).wmsg ∧ ((s.realign n pos).q n).rmsg = (s.q n).rmsg ∧
   ((s.realign n pos).q n).truncCnt = (s.q n).truncCnt ∧ ((s.realign n pos).q n).refusedCnt = (s.q n).refusedCnt ∧ ((s.realign n pos).q n).msnW = (s.q n).msnW ∧ ((s.realign n pos).q n).msnR = (s.q n).msnR := by
  unfold State.realign
  rw [State.updQ_eq, State.q_setQ, if_pos rfl]
  split <;> simp

theorem drop_q (s : State) (n : Nat) : ((s.dropData n).q n).rptr = ((s.dropData n).q n).wptr ∧ ((s.dropData n).q n).wmsg = none ∧ ((s.dropData n).q n).rmsg = none := by
  unfold State.dropData
  dsimp only
  rw [State.updQ_eq, State.q_setQ, if_pos rfl]
  dsimp only
  rw [(onQ_shed n _).field Queue.rptr, (onQ_shed n _).field Queue.wptr, (onQ_shed n _).field Queue.wmsg, (onQ_shed n _).field Queue.rmsg]
  rw [State.updQ_eq, State.q_setQ, if_pos rfl]
  refine ⟨rfl, rfl, rfl⟩

theorem discard_q (s : State) (n : Nat) : ((s.discard n).q n).st = .closed ∧ ((s.discard n).q n).rptr = ((s.discard n).q n).wptr ∧ ((s.discard n).q n).wmsg = none ∧ ((s.discard n).q n).rmsg = none := by
  have k := drop_q (((s.supersede n).abortWriteEnd n).abortReadEnd n) n
  unfold State.discard
  dsimp only
  generalize State.dropData (((s.supersede n).abortWriteEnd n).abortReadEnd n) n = z at k ⊢
  rw [(onQ_evalFlags n _).field Queue.st, (onQ_evalFlags n _).field Queue.rptr, (onQ_evalFlags n _).field Queue.wptr, (onQ_evalFlags n _).field Queue.wmsg, (onQ_evalFlags n _).field Queue.rmsg]
  rw [State.updQ_eq, State.q_setQ, if_pos rfl]
  exact ⟨rfl, k.1, k.2.1, k.2.2⟩

theorem reset_q (s : State) (n : Nat) : ((s.resetQueue n).q n).st = .ready ∧ ((s.resetQueue n).q n).rptr = ((s.resetQueue n).q n).wptr ∧ ((s.resetQueue n).q n).truncCnt = 0 ∧ ((s.resetQueue n).q n).refusedCnt = 0 ∧ ((s.resetQueue n).q n).msnW = 0 ∧ ((s.resetQueue n).q n).msnR = 0 := by
  have k := drop_q (((s.supersede n).abortWriteEnd n).abortReadEnd n) n
  unfold State.resetQueue
  dsimp only
  generalize State.dropData (((s.supersede n).abortWriteEnd n).abortReadEnd n) n = z at k ⊢
  rw [(onQ_evalFlags n _).field Queue.st, (onQ_evalFlags n _).field Queue.rptr, (onQ_evalFlags n _).field Queue.wptr, (onQ_evalFlags n _).field Queue.truncCnt, (onQ_evalFlags n _).field Queue.refusedCnt, (onQ_evalFlags n _).field Queue.msnW, (onQ_evalFlags n _).field Queue.msnR]
  rw [State.updQ_eq, State.q_setQ, if_pos rfl]
  exact ⟨rfl, k.1, rfl, rfl, rfl, rfl⟩

theorem markAt_set (q : Queue) (m k : Nat) (x : Mark) (hm : m < 4) : (q.setMark m x).markAt k = if k = m then x else q.markAt k := by
  unfold Queue.setMark Queue.markAt
  dsimp only
  rw [Vector.toList_mapIdx]
  by_cases hk : k < 4
  · rw [List.getD_eq_getElem _ _ (by simpa using hk), List.getD_eq_getElem _ _ (by simpa using hk)]
    simp
  · rw [List.getD_eq_default _ _ (by simpa using hk), List.getD_eq_default _ _ (by simpa using hk), if_neg (by omega)]

theorem tryClose_id (s : State) (n : Nat) (h : (s.q n).st ≠ .closing) : s.tryClose n = s := by
  unfold State.tryClose
  dsimp only
  rw [if_neg]
  simp [h]

theorem onQ_markAt {n : Nat} {s t : State} (h : OnQ n s t) (k : Nat) : (t.q n).markAt k = (s.q n).markAt k := h.field (fun q => q.markAt k)

theorem rewind_q (s : State) (n t : Nat) : ((s.rewindTo n t).q n).rptr = t ∧ ((s.rewindTo n t).q n).rsub = 0 ∧ ((s.rewindTo n t).q n).wptr = (s.q n).wptr ∧
    ((s.rewindTo n t).q n).st = (s.q n).st ∧ ((s.rewindTo n t).q n).rewinds = (s.q n).rewinds := by
  unfold State.rewindTo
  dsimp only
  rw [(onQ_evalFlags n _).field Queue.rptr, (onQ_evalFlags n _).field Queue.wptr, (onQ_evalFlags n _).field Queue.rsub, (onQ_evalFlags n _).field Queue.st, (onQ_evalFlags n _).field Queue.rewinds]
  simp [Queue.spoilInterval]

theorem setMark_rest (q : Queue) (m : Nat) (x : Mark) : (q.setMark m x).st = q.st ∧ (q.setMark m x).rptr = q.rptr ∧ (q.setMark m x).wptr = q.wptr ∧ (q.setMark m x).b = q.b ∧ (q.setMark m x).rmsg = q.rmsg := ⟨rfl, rfl, rfl, rfl, rfl⟩

end Sys2Proof.Machine
end

