-- ==== Sys2Proof/Laws/Receive.lean ====
section
/-!
SUPPORT. What the operations of Machine/Receive.lean may change (Laws/Within.lean says how a mask names the parts),
and the commands of that file.
-/
namespace Sys2Proof.Machine

theorem State.updCredit_within {W : Nat} {s0 s : State} (n : Nat) (k : Nat) (f : Credit → Credit) (hW : Within W s0 s)
    (hM : 4 ||| W = W) : Within W s0 (s.updCredit n k f) := by
  refine hW.step ?_ hM; clear hW hM; unfold State.updCredit
  repeat' first
    | with_reducible apply Within.refl | with_reducible apply State.updLink_within | decide

theorem State.charge_within {W : Nat} {s0 s : State} (n : Nat) (k : Nat) (cost : Nat) (hW : Within W s0 s)
    (hM : 4 ||| W = W) : Within W s0 (s.charge n k cost) := by
  refine hW.step ?_ hM; clear hW hM; unfold State.charge
  repeat' first
    | with_reducible apply Within.refl | with_reducible apply State.updCredit_within | decide

theorem State.giveBack_within {W : Nat} {s0 s : State} (n : Nat) (k : Nat) (cost : Nat) (hW : Within W s0 s)
    (hM : 4 ||| W = W) : Within W s0 (s.giveBack n k cost) := by
  refine hW.step ?_ hM; clear hW hM; unfold State.giveBack
  repeat' first
    | with_reducible apply Within.refl | with_reducible apply State.updCredit_within | decide

theorem State.raiseLimited_within {W : Nat} {s0 s : State} (n : Nat) (code : Nat) (owner : Option Nat) (a : Nat) (b : Nat) (c : Nat) (hW : Within W s0 s)
    (hM : 19923140 ||| W = W) : Within W s0 (s.raiseLimited n code owner a b c) := by
  refine hW.step ?_ hM; clear hW hM; unfold State.raiseLimited
  dsimp only
  repeat' first
    | with_reducible apply Within.refl | with_reducible apply State.raise_within | with_reducible apply State.updLink_within
    | with_reducible apply Within.ite | decide

theorem State.nak_within {W : Nat} {s0 s : State} (n : Nat) (qid : Nat) (why : NakReason) (msn : BitVec 32) (offset : Nat) (hW : Within W s0 s)
    (hM : 16777221 ||| W = W) : Within W s0 (s.nak n qid why msn offset) := by
  refine hW.step ?_ hM; clear hW hM; unfold State.nak
  dsimp only
  repeat' first
    | with_reducible apply Within.refl | with_reducible apply State.sendWord_within | with_reducible apply State.updLink_within
    | with_reducible apply State.updQ_within | decide

theorem State.refuse_within {W : Nat} {s0 s : State} (n : Nat) (qid : Nat) (why : NakReason) (h : BitVec 128) (hW : Within W s0 s)
    (hM : 16777221 ||| W = W) : Within W s0 (s.refuse n qid why h) := by
  refine hW.step ?_ hM; clear hW hM; unfold State.refuse
  repeat' first
    | with_reducible apply Within.refl | with_reducible apply State.nak_within | with_reducible apply Within.ite | decide

theorem State.sealCount_within {W : Nat} {s0 s : State} (n : Nat) (cnt : Nat) (dir : Nat) (hW : Within W s0 s)
    (hM : 19926209 ||| W = W) : Within W s0 (s.sealCount n cnt dir) := by
  refine hW.step ?_ hM; clear hW hM; unfold State.sealCount
  dsimp only
  repeat' first
    | with_reducible apply Within.refl | with_reducible apply State.hold_within | with_reducible apply State.post_within
    | with_reducible apply State.raiseQ_within | with_reducible apply State.updQ_within | with_reducible apply Within.ite
    | decide

theorem State.countSealedIn_within {W : Nat} {s0 s : State} (b : Burst) (hW : Within W s0 s)
    (hM : 19926209 ||| W = W) : Within W s0 (s.countSealedIn b) := by
  refine hW.step ?_ hM; clear hW hM; unfold State.countSealedIn
  dsimp only
  repeat' first
    | with_reducible apply Within.refl | with_reducible apply State.sealCount_within | with_reducible apply State.updQ_within
    | with_reducible apply Within.ite | decide

theorem State.tryBurst_within {W : Nat} {s0 s : State} (n : Nat) (x : Staged) (hW : Within W s0 s)
    (hM : 20057285 ||| W = W) : Within W s0 (s.tryBurst n x).2 := by
  refine hW.step ?_ hM; clear hW hM; unfold State.tryBurst
  dsimp only
  repeat' first
    | with_reducible apply Within.refl | with_reducible apply State.evalFlags_within
    | with_reducible apply State.giveBack_within | with_reducible apply State.nak_within
    | with_reducible apply State.refuse_within | with_reducible apply State.stopWrite_within
    | with_reducible apply State.updQ_within | with_reducible apply State.waitRoom_within
    | with_reducible apply State.acceptPieces_within | with_reducible apply Within.ite | decide | split

theorem State.tryBurst_eq_within {W : Nat} {s0 s t : State} {n : Nat} {x : Staged} {y0 : Bool} (e : State.tryBurst s n x = (y0, t)) (hW : Within W s0 s)
    (hM : 20057285 ||| W = W) : Within W s0 t := by
  have h := State.tryBurst_within n x hW hM
  rw [e] at h
  exact h

theorem State.finishChecks_within {W : Nat} {s0 s : State} (n : Nat) (x : Staged) (hW : Within W s0 s)
    (hM : 20057285 ||| W = W) : Within W s0 (s.finishChecks n x) := by
  refine hW.step ?_ hM; clear hW hM; unfold State.finishChecks
  dsimp only
  repeat' first
    | with_reducible apply Within.refl | with_reducible apply State.updLink_within | with_reducible apply State.tryBurst_within
    | with_reducible apply Within.ite | decide | split

theorem State.rxRouted_within {W : Nat} {s0 s : State} (n : Nat) (b : Burst) (hW : Within W s0 s)
    (hM : 20057285 ||| W = W) : Within W s0 (s.rxRouted n b) := by
  refine hW.step ?_ hM; clear hW hM; unfold State.rxRouted
  dsimp only
  repeat' first
    | with_reducible apply Within.refl | with_reducible apply State.charge_within
    | with_reducible apply State.countSealedIn_within | with_reducible apply State.finishChecks_within
    | with_reducible apply State.giveBack_within | with_reducible apply State.raiseLimited_within
    | with_reducible apply State.refuse_within | with_reducible apply State.updLink_within
    | with_reducible apply State.updQ_within | with_reducible apply Within.ite | decide | split

theorem State.rxReject_within {W : Nat} {s0 s : State} (n : Nat) (code : Nat) (h : BitVec 128) (hW : Within W s0 s)
    (hM : 19923140 ||| W = W) : Within W s0 (s.rxReject n code h) := by
  refine hW.step ?_ hM; clear hW hM; unfold State.rxReject
  dsimp only
  repeat' first
    | with_reducible apply Within.refl | with_reducible apply State.charge_within | with_reducible apply State.giveBack_within
    | with_reducible apply State.raiseLimited_within | with_reducible apply State.updLink_within
    | with_reducible apply Within.ite | decide

theorem State.crossRx_within {W : Nat} {s0 s : State} (n : Nat) (unit : List Byte) (hW : Within W s0 s)
    (hM : 4 ||| W = W) : Within W s0 (s.crossRx n unit) := by
  refine hW.step ?_ hM; clear hW hM; unfold State.crossRx
  repeat' first
    | with_reducible apply Within.refl | with_reducible apply State.updLink_within | decide

theorem State.crossTx_within {W : Nat} {s0 s : State} (n : Nat) (unit : List Byte) (hW : Within W s0 s)
    (hM : 4 ||| W = W) : Within W s0 (s.crossTx n unit) := by
  refine hW.step ?_ hM; clear hW hM; unfold State.crossTx
  repeat' first
    | with_reducible apply Within.refl | with_reducible apply State.updLink_within | decide

theorem State.rxBurst_within {W : Nat} {s0 s : State} (n : Nat) (b : Burst) (hW : Within W s0 s)
    (hM : 20057285 ||| W = W) : Within W s0 (s.rxBurst n b) := by
  refine hW.step ?_ hM; clear hW hM; unfold State.rxBurst
  dsimp only
  repeat' first
    | with_reducible apply Within.refl | with_reducible apply State.crossRx_within | with_reducible apply State.phyDown_within
    | with_reducible apply State.refuse_within | with_reducible apply State.rxReject_within
    | with_reducible apply State.rxRouted_within | with_reducible apply State.updLink_within | with_reducible apply Within.ite
    | decide | split

theorem State.commitStaged_within {W : Nat} {s0 s : State} (n : Nat) (before : List Staged) (a3 : List Staged) (hW : Within W s0 s)
    (hM : 20057285 ||| W = W) : Within W s0 (s.commitStaged n before a3) := by
  refine hW.step ?_ hM
  clear hW hM
  induction a3 generalizing s n before with
  | nil =>
    unfold State.commitStaged
    repeat' with_reducible apply Within.refl
  | cons x xs ih =>
    unfold State.commitStaged
    dsimp only
    repeat' first
      | with_reducible apply Within.refl | with_reducible apply Within.foldl | (intro _ _; try dsimp only)
      | with_reducible apply State.updLink_within | with_reducible apply State.writeMark_within
      | with_reducible apply State.tryBurst_within | with_reducible apply Within.ite | decide
      | with_reducible refine Within.step (M := 20057285) ?_ (ih _ _) rfl

theorem State.grant_within {W : Nat} {s0 s : State} (n : Nat) (k : Nat) (hW : Within W s0 s)
    (hM : 16777220 ||| W = W) : Within W s0 (s.grant n k) := by
  refine hW.step ?_ hM; clear hW hM; unfold State.grant
  dsimp only
  repeat' first
    | with_reducible apply Within.refl | with_reducible apply State.sendWord_within
    | with_reducible apply State.updCredit_within | with_reducible apply State.updLink_within | decide

theorem State.grantTurn_within {W : Nat} {s0 s : State} (n : Nat) (hW : Within W s0 s)
    (hM : 16777220 ||| W = W) : Within W s0 (s.grantTurn n) := by
  refine hW.step ?_ hM; clear hW hM; unfold State.grantTurn
  repeat' first
    | with_reducible apply Within.refl | with_reducible apply State.grant_within | decide | split

/-! ## Commands -/

theorem execBurstReceive_within (n : Fin 8) (x : RxBurst) (s : State) :
    ∃ t, execBurstReceive n x s = .next t ∧ Within 20057285 s t := by
  unfold execBurstReceive
  refine ⟨_, rfl, ?_⟩
  repeat' first
    | with_reducible apply Within.refl | with_reducible apply State.rxBurst_within
    | with_reducible apply State.countLanes_within | with_reducible apply Within.ite | decide

theorem execStagedBurstCommit_within (n : Fin 8) (s : State) :
    ∃ t, execStagedBurstCommit n s = .next t ∧ Within 20057285 s t := by
  unfold execStagedBurstCommit
  refine ⟨_, rfl, ?_⟩
  repeat' first
    | with_reducible apply Within.refl | with_reducible apply State.commitStaged_within | with_reducible apply Within.ite
    | decide

theorem execCreditGrant_within (n : Fin 8) (s : State) :
    ∃ t, execCreditGrant n s = .next t ∧ Within 16777220 s t := by
  unfold execCreditGrant
  refine ⟨_, rfl, ?_⟩
  repeat' first
    | with_reducible apply Within.refl | with_reducible apply State.grantTurn_within | with_reducible apply Within.ite | decide

theorem execCreditRefresh_within (n : Fin 8) (s : State) :
    ∃ t, execCreditRefresh n s = .next t ∧ Within 16777216 s t := by
  unfold execCreditRefresh
  refine ⟨_, rfl, ?_⟩
  repeat' first
    | with_reducible apply Within.refl | with_reducible apply Within.foldl | (intro _ _; try dsimp only)
    | with_reducible apply State.sendWord_within | decide

theorem execCredit_within (n : Fin 8) (group : Fin 16) (kerb : Bool) (limit : BitVec 24) (s : State) :
    ∃ t, execCredit n group kerb limit s = .next t ∧ Within 4 s t := by
  unfold execCredit
  refine ⟨_, rfl, ?_⟩
  repeat' first
    | with_reducible apply Within.refl | with_reducible apply State.updCredit_within | with_reducible apply Within.ite | decide

end Sys2Proof.Machine
end

