-- ==== Sys2Proof/Laws/Transmit.lean ====
section
/-!
SUPPORT. What the operations of Machine/Transmit.lean may change (Laws/Within.lean says how a mask names the parts),
and the commands of that file.
-/
namespace Sys2Proof.Machine

theorem State.spend_within {W : Nat} {s0 s : State} (n : Nat) (q : Nat) (cost : Nat) (hW : Within W s0 s)
    (hM : 4 ||| W = W) : Within W s0 (s.spend n q cost) := by
  refine hW.step ?_ hM; clear hW hM; unfold State.spend
  repeat' first
    | with_reducible apply Within.refl | with_reducible apply State.updCredit_within | decide

theorem State.beginKerb_within {W : Nat} {s0 s : State} (n : Nat) (hW : Within W s0 s)
    (hM : 1 ||| W = W) : Within W s0 (s.beginKerb n) := by
  refine hW.step ?_ hM; clear hW hM; unfold State.beginKerb
  dsimp only
  repeat' first
    | with_reducible apply Within.refl | with_reducible apply State.setQ_within | with_reducible apply Within.ite | decide

theorem State.packRun_within {W : Nat} {s0 s : State} (n room : Nat) (want : Option (BitVec 32)) (fuel : Nat) (hW : Within W s0 s)
    (hM : 1025 ||| W = W) : Within W s0 (s.packRun n room want fuel).2 := by
  refine hW.step ?_ hM
  clear hW hM
  induction fuel generalizing s room want with
  | zero => exact Within.refl _ _
  | succ fuel ih =>
    unfold State.packRun
    dsimp only
    split
    · split
      · rename_i e
        exact (State.take_eq_within e (State.beginKerb_within _ (State.ageOut_within _ _ (Within.refl _ _) (by decide)) (by decide))
          (by decide)).step (ih _ _) rfl
      · exact Within.refl _ _
    · exact Within.refl _ _

theorem State.packRun_eq_within {W : Nat} {s0 s t : State} {n room : Nat} {want : Option (BitVec 32)} {fuel : Nat} {cs : List Chunk}
    (e : s.packRun n room want fuel = (cs, t)) (hW : Within W s0 s) (hM : 1025 ||| W = W) : Within W s0 t := by
  have h := State.packRun_within n room want fuel hW hM
  rw [e] at h
  exact h

theorem State.countSealedOut_within {W : Nat} {s0 s : State} (n : Nat) (first : Bool) (hW : Within W s0 s)
    (hM : 19926209 ||| W = W) : Within W s0 (s.countSealedOut n first) := by
  refine hW.step ?_ hM; clear hW hM; unfold State.countSealedOut
  dsimp only
  repeat' first
    | with_reducible apply Within.refl | with_reducible apply State.sealCount_within | with_reducible apply State.setQ_within
    | with_reducible apply Within.ite | decide

theorem State.dataBurst_eq_within {W : Nat} {s0 s t : State} {n : Nat} {x : OutBurst} (e : s.dataBurst n = some (x, t)) (hW : Within W s0 s)
    (hM : 19924161 ||| W = W) : Within W s0 t := by
  refine hW.step ?_ hM; clear hW hM; unfold State.dataBurst at e
  dsimp only at e
  split at e
  · cases e
  · rename_i c u k
    simp only [Option.some.injEq, Prod.mk.injEq] at e
    obtain ⟨-, rfl⟩ := e
    have hu : Within 19924161 s u := State.take_eq_within k (State.beginKerb_within _ (Within.refl _ _) (by decide)) (by decide)
    apply State.reportUe_within _ _ _ _ (by decide)
    exact Within.ite hu (State.updQ_within _ _ hu (by decide))

theorem State.packedBurst_eq_within {W : Nat} {s0 s t : State} {l n : Nat} {x : OutBurst} (e : s.packedBurst l n = some (x, t)) (hW : Within W s0 s)
    (hM : 19924161 ||| W = W) : Within W s0 t := by
  refine hW.step ?_ hM; clear hW hM; unfold State.packedBurst at e
  split at e
  · dsimp only at e
    split at e
    · rename_i k
      simp only [Option.some.injEq, Prod.mk.injEq] at e
      obtain ⟨-, rfl⟩ := e
      exact State.reportUe_within _ _ _ (State.packRun_eq_within k (Within.refl _ _) (by decide)) (by decide)
    · cases e
  · cases e

theorem State.nextBurst_eq_within {W : Nat} {s0 s t : State} {l n : Nat} {x : OutBurst} (e : s.nextBurst l n = some (x, t)) (hW : Within W s0 s)
    (hM : 19924161 ||| W = W) : Within W s0 t := by
  refine hW.step ?_ hM; clear hW hM; unfold State.nextBurst at e
  split at e
  · rename_i k
    simp only [Option.some.injEq] at e
    subst e
    exact State.packedBurst_eq_within k (Within.refl _ _) (by decide)
  · exact State.dataBurst_eq_within e (Within.refl _ _) (by decide)

theorem State.ready_eq_within {W : Nat} {s0 s t : State} {l n : Nat} {x : OutBurst} (e : s.ready l n = some (x, t)) (hW : Within W s0 s)
    (hM : 19924161 ||| W = W) : Within W s0 t := by
  refine hW.step ?_ hM; clear hW hM; unfold State.ready at e
  dsimp only at e
  split at e
  · split at e
    · rename_i k
      split at e
      · simp only [Option.some.injEq, Prod.mk.injEq] at e
        obtain ⟨-, rfl⟩ := e
        exact State.nextBurst_eq_within k (Within.refl _ _) (by decide)
      · cases e
    · cases e
  · cases e

theorem State.ageReady_within {W : Nat} {s0 s : State} (l : Nat) (n : Nat) (hW : Within W s0 s)
    (hM : 28445889 ||| W = W) : Within W s0 (s.ageReady l n) := by
  refine hW.step ?_ hM; clear hW hM; unfold State.ageReady
  repeat' first
    | with_reducible apply Within.refl | with_reducible apply State.afterRead_within | with_reducible apply State.ageOut_within
    | with_reducible apply Within.ite | decide

theorem State.sendBurst_within {W : Nat} {s0 s : State} (l : Fin 8) (n : Nat) (ob : OutBurst) {t : State} (hs : Within W s0 s)
    (ht : Within W s0 t) (hM : 28445893 ||| W = W) : Within W s0 (s.sendBurst l n ob t) := by
  unfold State.sendBurst
  split
  · refine Within.step ht ?_ hM
    dsimp only
    repeat' first
      | with_reducible apply Within.refl | with_reducible apply State.afterRead_within
      | with_reducible apply State.dropSentHead_within | with_reducible apply State.countSealedOut_within
      | with_reducible apply State.emit_within | with_reducible apply State.crossTx_within
      | with_reducible apply State.spend_within | decide
  · refine Within.step hs ?_ hM
    exact State.headerUe_within _ _ (Within.refl _ _) (by decide)

theorem State.ageLink_within {W : Nat} {s0 s : State} (l : Nat) (hW : Within W s0 s)
    (hM : 28445889 ||| W = W) : Within W s0 (s.ageLink l) := by
  refine hW.step ?_ hM; clear hW hM; unfold State.ageLink
  repeat' first
    | with_reducible apply Within.refl | with_reducible apply Within.foldl | (intro _ _; try dsimp only)
    | with_reducible apply State.ageReady_within | decide

/-- Both states of a choice are near the one it is made in. -/
structure Choice.Near (s : State) (c : Choice) : Prop where
  before : Within 28445893 s c.before
  after : Within 28445893 s c.after

theorem State.turn_near (s : State) {u : State} (h : Within 28445893 s u) (l : Nat) (f : Link → Link) :
    Within 28445893 s (u.updLink l f) := State.updLink_within _ _ h (by decide)

theorem State.ready_near {s t u : State} {l n : Nat} {b : OutBurst} (k : t.ready l n = some (b, u)) (h : Within 28445893 s t) :
    Within 28445893 s u := State.ready_eq_within k h (by decide)

theorem State.pickExpress_near {s : State} {l g : Nat} {c : Choice} (e : s.pickExpress l g = some c) : Choice.Near s c := by
  unfold State.pickExpress at e
  obtain ⟨n, -, e⟩ := List.exists_of_findSome?_eq_some e
  dsimp only at e
  split at e
  · rename_i k
    simp only [Option.some.injEq] at e
    subst e
    constructor <;> dsimp only
    · exact s.turn_near (Within.refl _ _) _ _
    · exact s.turn_near (s.ready_near k (Within.refl _ _)) _ _
  · cases e

theorem Choice.Near.trans {s t : State} {c : Choice} (h : Choice.Near t c) (k : Within 28445893 s t) : Choice.Near s c :=
  ⟨k.step h.before rfl, k.step h.after rfl⟩

theorem State.drr_near {s : State} {l g fuel : Nat} {fresh : Bool} {ns : List Nat} {c : Choice}
    (e : s.drr l g fuel fresh ns = some c) : Choice.Near s c := by
  induction fuel generalizing s fresh ns with
  | zero => simp [State.drr] at e
  | succ fuel ih =>
    cases ns with
    | nil => simp [State.drr] at e
    | cons n rest =>
      have upd {u : State} (h : Within 28445893 s u) (m : Nat) (f : Queue → Queue) : Within 28445893 s (u.updQ m f) :=
        State.updQ_within _ _ h (by decide)
      rw [State.drr.eq_def] at e
      dsimp only at e
      have ha : Within 28445893 s (s.ageReady l n) := State.ageReady_within _ _ (Within.refl _ _) (by decide)
      generalize s.ageReady l n = a at e ha
      split at e
      · exact (ih e).trans (upd ha _ _)
      · split at e
        · exact (ih e).trans ha
        · have hb : Within 28445893 s (if fresh = true then
              a.updQ n fun q => { q with kerb := { q.kerb with deficit := q.kerb.deficit + q.kerb.policy.quantum } } else a) :=
            Within.ite (upd ha _ _) ha
          generalize (if fresh = true then
              a.updQ n fun q => { q with kerb := { q.kerb with deficit := q.kerb.deficit + q.kerb.policy.quantum } } else a) = b
            at e hb
          split at e
          · exact (ih e).trans hb
          · rename_i k
            split at e
            · simp only [Option.some.injEq] at e
              subst e
              constructor <;> dsimp only
              · exact s.turn_near hb _ _
              · exact s.turn_near (upd (s.ready_near k hb) _ _) _ _
            · exact (ih e).trans hb

theorem State.pickKerb_near {s : State} {l g : Nat} {c : Choice} (e : s.pickKerb l g = some c) : Choice.Near s c := by
  unfold State.pickKerb at e
  dsimp only at e
  split at e
  · exact State.drr_near e
  · cases e

theorem State.pickClass_near {s : State} {l : Nat} {kerb : Bool} {c : Choice} (e : s.pickClass l kerb = some c) :
    Choice.Near s c := by
  unfold State.pickClass at e
  dsimp only at e
  obtain ⟨g, -, e⟩ := List.exists_of_findSome?_eq_some e
  split at e
  · rename_i x k
    have h : Choice.Near s x := by
      split at k
      · exact State.pickKerb_near k
      · exact State.pickExpress_near k
    simp only [Option.some.injEq] at e
    subst e
    constructor <;> dsimp only
    · exact s.turn_near h.before _ _
    · exact s.turn_near h.after _ _
  · cases e

theorem State.choose_near {s : State} {l : Nat} {c : Choice} (e : s.choose l = some c) : Choice.Near s c := by
  unfold State.choose at e
  split at e
  · rename_i n _
    cases k : s.ready l n with
    | none => simp [k] at e
    | some x =>
      obtain ⟨b, t⟩ := x
      simp only [k, Option.map_some, Option.some.injEq] at e
      subst e
      exact ⟨Within.refl _ _, s.ready_near k (Within.refl _ _)⟩
  · dsimp only at e
    split at e
    · rename_i k1 k2
      have h1 := State.pickClass_near (Option.filter_eq_some_iff.mp k1).1
      have h2 := State.pickClass_near (Option.filter_eq_some_iff.mp k2).1
      split at e
      · simp only [Option.some.injEq] at e
        subst e
        constructor <;> dsimp only
        · exact s.turn_near h1.before _ _
        · exact s.turn_near h1.after _ _
      · simp only [Option.some.injEq] at e
        subst e
        exact h2
    · rename_i k1 _
      simp only [Option.some.injEq] at e
      subst e
      exact State.pickClass_near (Option.filter_eq_some_iff.mp k1).1
    · exact State.pickClass_near (Option.filter_eq_some_iff.mp e).1

theorem State.transmit_within {W : Nat} {s0 s : State} (l : Fin 8) (hW : Within W s0 s) (hM : 28445893 ||| W = W) :
    Within W s0 (s.transmit l) := by
  refine hW.step ?_ hM
  unfold State.transmit
  split
  · split
    · rename_i c k
      have h := State.choose_near k
      exact State.sendBurst_within _ _ _ h.before h.after (by decide)
    · exact Within.ite (State.ageLink_within _ (Within.refl _ _) (by decide)) (Within.refl _ _)
  · exact Within.refl _ _

theorem State.beginPinned_within {W : Nat} {s0 s : State} (n : Nat) (slack : Nat) (h : Head) (hW : Within W s0 s)
    (hM : 1 ||| W = W) : Within W s0 (s.beginPinned n slack h) := by
  refine hW.step ?_ hM; clear hW hM; unfold State.beginPinned
  dsimp only
  repeat' first
    | with_reducible apply Within.refl | with_reducible apply State.setQ_within | with_reducible apply Within.ite | decide

theorem State.pinRelease_within {W : Nat} {s0 s : State} (n : Nat) (hW : Within W s0 s)
    (hM : 28445893 ||| W = W) : Within W s0 (s.pinRelease n) := by
  refine hW.step ?_ hM; clear hW hM; unfold State.pinRelease
  dsimp only
  repeat' first
    | with_reducible apply Within.refl | with_reducible apply State.beginPinned_within
    | with_reducible apply State.judgeHead_within | with_reducible apply State.sendBurst_within
    | with_reducible apply State.updLink_within | refine State.ready_eq_within (by assumption) ?_ (by decide)
    | with_reducible apply Within.ite | decide | split

theorem State.pinReserve_within {W : Nat} {s0 s : State} (l : Nat) (hW : Within W s0 s)
    (hM : 4 ||| W = W) : Within W s0 (s.pinReserve l) := by
  refine hW.step ?_ hM; clear hW hM; unfold State.pinReserve
  dsimp only
  repeat' first
    | with_reducible apply Within.refl | with_reducible apply State.updLink_within | decide | split

/-! ## Commands -/

theorem execBurstTransmit_within (n : Fin 8) (s : State) :
    ∃ t, execBurstTransmit n s = .next t ∧ Within 28445893 s t := by
  unfold execBurstTransmit
  refine ⟨_, rfl, ?_⟩
  repeat' first
    | with_reducible apply Within.refl | with_reducible apply State.transmit_within | decide

theorem execPinRelease_within (q : Fin 8192) (s : State) :
    ∃ t, execPinRelease q s = .next t ∧ Within 28445893 s t := by
  unfold execPinRelease
  refine ⟨_, rfl, ?_⟩
  repeat' first
    | with_reducible apply Within.refl | with_reducible apply State.pinRelease_within | decide

theorem execPinReserve_within (n : Fin 8) (s : State) :
    ∃ t, execPinReserve n s = .next t ∧ Within 4 s t := by
  unfold execPinReserve
  refine ⟨_, rfl, ?_⟩
  repeat' first
    | with_reducible apply Within.refl | with_reducible apply State.pinReserve_within | with_reducible apply Within.ite | decide

theorem execPinLateIntervalEnd_within (q : Fin 8192) (s : State) :
    ∃ t, execPinLateIntervalEnd q s = .next t ∧ Within 16777345 s t := by
  unfold execPinLateIntervalEnd
  dsimp only
  refine ⟨_, rfl, ?_⟩
  repeat' first
    | with_reducible apply Within.refl | with_reducible apply State.post_within | with_reducible apply State.updQ_within
    | decide | split

end Sys2Proof.Machine
end

