-- ==== Sys2Proof/Laws/HostData.lean ====
section
/-!
SUPPORT. What the operations of Machine/HostData.lean may change (Laws/Within.lean says how a mask names the parts),
and the commands of that file.
-/
namespace Sys2Proof.Machine

theorem State.crossToHost_within {W : Nat} {s0 s : State} (bs : List Byte) (hW : Within W s0 s)
    (hM : 256 ||| W = W) : Within W s0 (s.crossToHost bs) := by
  refine hW.step ?_ hM; clear hW hM; unfold State.crossToHost
  dsimp only
  repeat' first
    | with_reducible apply Within.refl | (conv => arg 3; arg 24; skip); with_reducible apply Within.build
    | with_reducible exact Or.inl rfl | exact Or.inr (by decide)

theorem State.crossFromHost_within {W : Nat} {s0 s : State} (bs : List Byte) (hW : Within W s0 s)
    (hM : 256 ||| W = W) : Within W s0 (s.crossFromHost bs) := by
  refine hW.step ?_ hM; clear hW hM; unfold State.crossFromHost
  dsimp only
  repeat' first
    | with_reducible apply Within.refl | (conv => arg 3; arg 24; skip); with_reducible apply Within.build
    | with_reducible exact Or.inl rfl | exact Or.inr (by decide)

theorem State.takeDesc_within {W : Nat} {s0 s : State} (g : Nat) (r : Nat) (n : Nat) (d : BitVec 256) (data : List Byte) (hW : Within W s0 s)
    (hM : 20057537 ||| W = W) : Within W s0 (s.takeDesc g r n d data) := by
  refine hW.step ?_ hM; clear hW hM; unfold State.takeDesc
  dsimp only
  repeat' first
    | with_reducible apply Within.refl | with_reducible apply State.crossFromHost_within
    | with_reducible apply State.evalFlags_within | with_reducible apply State.stopWrite_within
    | with_reducible apply State.updQ_within | with_reducible apply State.waitRoom_within
    | with_reducible apply State.writeBack_within | refine State.acceptPieces_eq_within (by assumption) ?_ (by decide)
    | with_reducible apply Within.ite | decide | split

theorem State.writeDesc_within {W : Nat} {s0 s : State} (g : Nat) (r : Nat) (d : BitVec 256) (data : List Byte) (hW : Within W s0 s)
    (hM : 20057537 ||| W = W) : Within W s0 (s.writeDesc g r d data) := by
  refine hW.step ?_ hM; clear hW hM; unfold State.writeDesc
  repeat' first
    | with_reducible apply Within.refl | with_reducible apply State.evalFlags_within
    | with_reducible apply State.stopWrite_within | with_reducible apply State.takeDesc_within
    | with_reducible apply State.writeBack_within | with_reducible apply Within.ite | decide | split

theorem State.putBuffer_within {W : Nat} {s0 s : State} (addr : Nat) (bs : List Byte) (hW : Within W s0 s)
    (hM : 16777472 ||| W = W) : Within W s0 (s.putBuffer addr bs) := by
  refine hW.step ?_ hM; clear hW hM; unfold State.putBuffer
  repeat' first
    | with_reducible apply Within.refl | with_reducible apply State.crossToHost_within | with_reducible apply State.emit_within
    | with_reducible apply Within.ite | decide

theorem State.approach_within {W : Nat} {s0 s : State} (n : Nat) (hW : Within W s0 s)
    (hM : 28445889 ||| W = W) : Within W s0 (s.approach n) := by
  refine hW.step ?_ hM; clear hW hM; unfold State.approach
  dsimp only
  repeat' first
    | with_reducible apply Within.refl | with_reducible apply State.afterRead_within | with_reducible apply State.ageOut_within
    | with_reducible apply State.judgeHead_within | with_reducible apply Within.ite | decide

theorem State.startPinned_within {W : Nat} {s0 s : State} (n : Nat) (hW : Within W s0 s)
    (hM : 1 ||| W = W) : Within W s0 (s.startPinned n) := by
  refine hW.step ?_ hM; clear hW hM; unfold State.startPinned
  dsimp only
  repeat' first
    | with_reducible apply Within.refl | with_reducible apply State.beginPinned_within | with_reducible apply Within.ite
    | decide | split

theorem State.readMessage_within {W : Nat} {s0 s : State} (g : Nat) (r : Nat) (n : Nat) (d : BitVec 256) (hW : Within W s0 s)
    (hM : 28446145 ||| W = W) : Within W s0 (s.readMessage g r n d) := by
  refine hW.step ?_ hM; clear hW hM; unfold State.readMessage
  dsimp only
  repeat' first
    | with_reducible apply Within.refl | with_reducible apply State.afterRead_within
    | with_reducible apply State.approach_within | with_reducible apply State.beginKerb_within
    | with_reducible apply State.dropSentHead_within | with_reducible apply State.headerUe_within
    | with_reducible apply State.putBuffer_within | with_reducible apply State.reportUe_within
    | with_reducible apply State.startPinned_within | with_reducible apply State.writeBack_within
    | refine State.take_eq_within (by assumption) ?_ (by decide) | with_reducible apply Within.ite | decide | split

theorem State.readStream_within {W : Nat} {s0 s : State} (g : Nat) (r : Nat) (n : Nat) (d : BitVec 256) (hW : Within W s0 s)
    (hM : 28446145 ||| W = W) : Within W s0 (s.readStream g r n d) := by
  refine hW.step ?_ hM; clear hW hM; unfold State.readStream
  dsimp only
  repeat' first
    | with_reducible apply Within.refl | with_reducible apply State.afterRead_within
    | with_reducible apply State.putBuffer_within | with_reducible apply State.reportUe_within
    | with_reducible apply State.setDring_within | with_reducible apply State.writeBack_within
    | refine State.take_eq_within (by assumption) ?_ (by decide) | with_reducible apply Within.ite | decide | split

theorem State.ringDrr_within {W : Nat} {s0 s : State} (len fuel : Nat) (fresh : Bool) (ns : List Nat) (hW : Within W s0 s)
    (hM : 1 ||| W = W) : Within W s0 (s.ringDrr len fuel fresh ns).1 := by
  refine hW.step ?_ hM
  clear hW hM
  induction fuel generalizing s fresh ns with
  | zero => exact Within.refl _ _
  | succ fuel ih =>
    cases ns with
    | nil => exact Within.refl _ _
    | cons n rest =>
      have upd (f : Queue → Queue) : Within 1 s (s.updQ n f) := State.updQ_within _ _ (Within.refl _ _) (by decide)
      rw [State.ringDrr.eq_def]
      dsimp only
      split
      · exact (upd _).step (ih _ _) rfl
      · split
        · exact ih _ _
        · split <;> split
          all_goals first
            | exact (upd _).step (ih _ _) rfl | (dsimp only; exact upd _)

theorem State.ringDrr_eq_within {W : Nat} {s0 s t : State} {len fuel : Nat} {fresh : Bool} {ns : List Nat} {y : Option Nat}
    (e : s.ringDrr len fuel fresh ns = (t, y)) (hW : Within W s0 s) (hM : 1 ||| W = W) : Within W s0 t := by
  have h := State.ringDrr_within len fuel fresh ns hW hM
  rw [e] at h
  exact h

theorem State.chooseReader_within {W : Nat} {s0 s : State} (g : Nat) (r : Nat) (len : Nat) (hW : Within W s0 s)
    (hM : 28445889 ||| W = W) : Within W s0 (s.chooseReader g r len).1 := by
  refine hW.step ?_ hM; clear hW hM; unfold State.chooseReader
  dsimp only
  repeat' first
    | with_reducible apply Within.refl | with_reducible apply Within.foldl | (intro _ _; try dsimp only)
    | with_reducible apply State.approach_within | with_reducible apply State.ringDrr_within | decide | split

theorem State.chooseReader_eq_within {W : Nat} {s0 s t : State} {g : Nat} {r : Nat} {len : Nat} {y0 : Option Nat} (e : State.chooseReader s g r len = (t, y0)) (hW : Within W s0 s)
    (hM : 28445889 ||| W = W) : Within W s0 t := by
  have h := State.chooseReader_within g r len hW hM
  rw [e] at h
  exact h

theorem State.readDesc_within {W : Nat} {s0 s : State} (g : Nat) (r : Nat) (d : BitVec 256) (hW : Within W s0 s)
    (hM : 28446145 ||| W = W) : Within W s0 (s.readDesc g r d) := by
  refine hW.step ?_ hM; clear hW hM; unfold State.readDesc
  dsimp only
  repeat' first
    | with_reducible apply Within.refl | with_reducible apply State.readMessage_within
    | with_reducible apply State.readStream_within | with_reducible apply State.setDring_within
    | with_reducible apply State.writeBack_within | refine State.chooseReader_eq_within (by assumption) ?_ (by decide)
    | with_reducible apply Within.ite | decide | split

theorem State.flushRing_within {W : Nat} {s0 s : State} (g : Nat) (r : Nat) (hW : Within W s0 s)
    (hM : 16777344 ||| W = W) : Within W s0 (s.flushRing g r) := by
  refine hW.step ?_ hM; clear hW hM; unfold State.flushRing
  repeat' first
    | with_reducible apply Within.refl | with_reducible apply State.writeBack_within | with_reducible apply Within.ite | decide
    | split

/-! ## Commands -/

theorem execHostWriteDescriptor_within (fn : Fin 16) (ring : Fin 512) (desc : BitVec 256) (data : List Byte) (s : State) :
    ∃ t, execHostWriteDescriptor fn ring desc data s = .next t ∧ Within 20057537 s t := by
  unfold execHostWriteDescriptor
  refine ⟨_, rfl, ?_⟩
  repeat' first
    | with_reducible apply Within.refl | with_reducible apply State.writeDesc_within | decide

theorem execHostReadDescriptor_within (fn : Fin 16) (ring : Fin 512) (desc : BitVec 256) (s : State) :
    ∃ t, execHostReadDescriptor fn ring desc s = .next t ∧ Within 28446145 s t := by
  unfold execHostReadDescriptor
  refine ⟨_, rfl, ?_⟩
  repeat' first
    | with_reducible apply Within.refl | with_reducible apply State.readDesc_within | decide

theorem execDringFlushTimeout_within (fn : Fin 16) (ring : Fin 512) (s : State) :
    ∃ t, execDringFlushTimeout fn ring s = .next t ∧ Within 16777344 s t := by
  unfold execDringFlushTimeout
  refine ⟨_, rfl, ?_⟩
  repeat' first
    | with_reducible apply Within.refl | with_reducible apply State.flushRing_within | decide

end Sys2Proof.Machine
end

