-- ==== Sys2Proof/Laws/Idle.lean ====
section
/-!
SUPPORT. What the operations of Machine/Idle.lean may change (Laws/Within.lean says how a mask names the parts).
-/
namespace Sys2Proof.Machine

theorem State.tick_within {W : Nat} {s0 s : State}  (hW : Within W s0 s)
    (hM : 4222976 ||| W = W) : Within W s0 s.tick := by
  refine hW.step ?_ hM; clear hW hM; unfold State.tick
  repeat' first
    | with_reducible apply Within.refl | split | (refine Or.inr ⟨by decide, fun h => Kiosk.advance_wf h _⟩)
    | (conv => arg 3; arg 24; skip); with_reducible apply Within.build | with_reducible exact Or.inl rfl
    | exact Or.inr (by decide)

theorem State.clocked_within {W : Nat} {s0 s : State}  (hW : Within W s0 s)
    (hM : 16777540 ||| W = W) : Within W s0 s.clocked := by
  refine hW.step ?_ hM; clear hW hM; unfold State.clocked
  repeat' first
    | with_reducible apply Within.refl | with_reducible apply State.frameTicks_within
    | with_reducible apply State.settleCells_within | with_reducible apply Within.ite | decide

theorem State.idle_within {W : Nat} {s0 s : State}  (hW : Within W s0 s)
    (hM : 33553919 ||| W = W) : Within W s0 s.idle := by
  refine hW.step ?_ hM; clear hW hM; unfold State.idle
  repeat' first
    | with_reducible apply Within.refl | with_reducible apply State.clocked_within
    | with_reducible apply State.deliverCells_within | with_reducible apply State.releaseFences_within
    | with_reducible apply State.settleHeld_within | with_reducible apply State.settleVotes_within
    | with_reducible apply State.tick_within | decide

end Sys2Proof.Machine
end

