-- ==== Sys2Proof/Laws/Service.lean ====
section
/-!
SUPPORT. What the operations of Machine/Service.lean may change (Laws/Within.lean says how a mask names the parts),
and the commands of that file.
-/
namespace Sys2Proof.Machine

theorem State.svcReply_within {W : Nat} {s0 s : State} (tag : Byte) (status : Nat) (data : List Byte) (hW : Within W s0 s)
    (hM : 17825792 ||| W = W) : Within W s0 (s.svcReply tag status data) := by
  refine hW.step ?_ hM; clear hW hM; unfold State.svcReply
  dsimp only
  repeat' first
    | with_reducible apply Within.refl | with_reducible apply State.emit_within
    | (conv => arg 3; arg 24; skip); with_reducible apply Within.build | with_reducible exact Or.inl rfl
    | exact Or.inr (by decide) | decide

theorem State.svcPending_within {W : Nat} {s0 s : State} (tag : Byte) (hW : Within W s0 s)
    (hM : 1048576 ||| W = W) : Within W s0 (s.svcPending tag) := by
  refine hW.step ?_ hM; clear hW hM; unfold State.svcPending
  dsimp only
  repeat' first
    | with_reducible apply Within.refl | (conv => arg 3; arg 24; skip); with_reducible apply Within.build
    | with_reducible exact Or.inl rfl | exact Or.inr (by decide)

theorem State.svcDone_within {W : Nat} {s0 s : State} (status : Nat) (hW : Within W s0 s)
    (hM : 17825792 ||| W = W) : Within W s0 (s.svcDone status) := by
  refine hW.step ?_ hM; clear hW hM; unfold State.svcDone
  repeat' first
    | with_reducible apply Within.refl | with_reducible apply State.svcReply_within | with_reducible apply Within.ite | decide

theorem State.svcDiscard_within {W : Nat} {s0 s : State} (tag : Byte) (hW : Within W s0 s)
    (hM : 17825792 ||| W = W) : Within W s0 (s.svcDiscard tag) := by
  refine hW.step ?_ hM; clear hW hM; unfold State.svcDiscard
  repeat' first
    | with_reducible apply Within.refl | (conv => arg 3; arg 24; skip); with_reducible apply Within.build
    | with_reducible exact Or.inl rfl | exact Or.inr (by decide) | decide

theorem State.svcRequest_within {W : Nat} {s0 s : State} (aon inRecovery : Bool) (op : Nat) (tag : Byte)
    (payload : List Byte) (crc : Byte) (lenOk : Bool) (act : State → State) (hW : Within W s0 s) (ha : Within W s0 (act s)) (hM : 17825792 ||| W = W) :
    Within W s0 (s.svcRequest aon inRecovery op tag payload crc lenOk act) := by
  unfold State.svcRequest
  exact Within.ite hW (Within.ite (State.svcDiscard_within _ hW hM) (Within.ite (State.svcReply_within _ _ _ hW hM) (Within.ite (State.svcReply_within _ _ _ hW hM) ha)))

theorem State.svcRegRead_within {W : Nat} {s0 s : State} (tag : Byte) (off : Nat) (hW : Within W s0 s)
    (hM : 17842176 ||| W = W) : Within W s0 (s.svcRegRead tag off) := by
  refine hW.step ?_ hM; clear hW hM; unfold State.svcRegRead
  dsimp only
  repeat' first
    | with_reducible apply Within.refl | with_reducible apply State.svcReply_within | with_reducible apply State.readReg_within
    | with_reducible apply Within.ite | decide

theorem State.svcRegWrite_within {W : Nat} {s0 s : State} (tag : Byte) (off : Nat) (v : Word32) (hW : Within W s0 s)
    (hM : 20446719 ||| W = W) : Within W s0 (s.svcRegWrite tag off v) := by
  refine hW.step ?_ hM; clear hW hM; unfold State.svcRegWrite
  dsimp only
  repeat' first
    | with_reducible apply Within.refl | with_reducible apply State.svcReply_within | with_reducible apply State.writeReg_within
    | with_reducible apply Within.ite | decide

theorem State.svcKeyMsg_within {W : Nat} {s0 s : State} (tag : Byte) (m : List Byte) (hW : Within W s0 s)
    (hM : 29359615 ||| W = W) : Within W s0 (s.svcKeyMsg tag m) := by
  refine hW.step ?_ hM; clear hW hM; unfold State.svcKeyMsg
  dsimp only
  repeat' first
    | with_reducible apply Within.refl | with_reducible apply State.svcReply_within
    | with_reducible apply State.keyMessage_within | with_reducible apply Within.ite | decide

theorem State.pkgCheck_within {W : Nat} {s0 s : State} (h : List Byte) (other : Bool) (body : Option (List Byte)) (hW : Within W s0 s)
    (hM : 20450499 ||| W = W) : Within W s0 (s.pkgCheck h other body).1 := by
  refine hW.step ?_ hM; clear hW hM; unfold State.pkgCheck
  dsimp only
  repeat' first
    | with_reducible apply Within.refl | with_reducible apply State.checkSlot_within | with_reducible apply Within.ite | decide
    | split

theorem State.pkgCheck_eq_within {W : Nat} {s0 s t : State} {h : List Byte} {other : Bool} {body : Option (List Byte)} {y0 : Nat} (e : State.pkgCheck s h other body = (t, y0)) (hW : Within W s0 s)
    (hM : 20450499 ||| W = W) : Within W s0 t := by
  have h := State.pkgCheck_within h other body hW hM
  rw [e] at h
  exact h

theorem State.pkgBegin_within {W : Nat} {s0 s : State} (tag : Byte) (h : List Byte) (hW : Within W s0 s)
    (hM : 20450499 ||| W = W) : Within W s0 (s.pkgBegin tag h) := by
  refine hW.step ?_ hM; clear hW hM; unfold State.pkgBegin
  dsimp only
  repeat' first
    | with_reducible apply Within.refl | with_reducible apply State.svcPending_within
    | with_reducible apply State.svcReply_within | with_reducible apply State.pkgCheck_within | with_reducible apply Within.ite
    | (conv => arg 3; arg 24; skip); with_reducible apply Within.build | with_reducible exact Or.inl rfl
    | exact Or.inr (by decide) | decide

theorem State.endUpload_within {W : Nat} {s0 s : State}  (hW : Within W s0 s)
    (hM : 1048576 ||| W = W) : Within W s0 s.endUpload := by
  refine hW.step ?_ hM; clear hW hM; unfold State.endUpload
  dsimp only
  repeat' first
    | with_reducible apply Within.refl | (conv => arg 3; arg 24; skip); with_reducible apply Within.build
    | with_reducible exact Or.inl rfl | exact Or.inr (by decide)

theorem State.eraseDone_within {W : Nat} {s0 s : State} (r : FlashResult) (hW : Within W s0 s)
    (hM : 17825792 ||| W = W) : Within W s0 (s.eraseDone r) := by
  refine hW.step ?_ hM; clear hW hM; unfold State.eraseDone
  dsimp only
  repeat' first
    | with_reducible apply Within.refl | with_reducible apply State.endUpload_within | with_reducible apply State.svcDone_within
    | with_reducible apply Within.ite | (conv => arg 3; arg 24; skip); with_reducible apply Within.build
    | with_reducible exact Or.inl rfl | exact Or.inr (by decide) | decide | split

theorem State.pkgData_within {W : Nat} {s0 s : State} (tag : Byte) (payload : List Byte) (r : FlashResult) (hW : Within W s0 s)
    (hM : 17825792 ||| W = W) : Within W s0 (s.pkgData tag payload r) := by
  refine hW.step ?_ hM; clear hW hM; unfold State.pkgData
  dsimp only
  repeat' first
    | with_reducible apply Within.refl | with_reducible apply State.endUpload_within
    | with_reducible apply State.svcReply_within | with_reducible apply Within.ite
    | (conv => arg 3; arg 24; skip); with_reducible apply Within.build | with_reducible exact Or.inl rfl
    | exact Or.inr (by decide) | decide | split

theorem State.pkgCommit_within {W : Nat} {s0 s : State} (u : Upload) (hW : Within W s0 s)
    (hM : 1048576 ||| W = W) : Within W s0 (s.pkgCommit u) := by
  refine hW.step ?_ hM; clear hW hM; unfold State.pkgCommit
  dsimp only
  repeat' first
    | with_reducible apply Within.refl | with_reducible apply Within.ite
    | (conv => arg 3; arg 24; skip); with_reducible apply Within.build | with_reducible exact Or.inl rfl
    | exact Or.inr (by decide)

theorem State.pkgEnd_within {W : Nat} {s0 s : State} (tag : Byte) (activate : Bool) (r : FlashResult) (hW : Within W s0 s)
    (hM : 20450499 ||| W = W) : Within W s0 (s.pkgEnd tag activate r) := by
  refine hW.step ?_ hM; clear hW hM; unfold State.pkgEnd
  dsimp only
  repeat' first
    | with_reducible apply Within.refl | with_reducible apply State.endUpload_within
    | with_reducible apply State.pkgCommit_within | with_reducible apply State.svcReply_within
    | with_reducible apply State.pkgCheck_within | with_reducible apply Within.ite
    | (conv => arg 3; arg 24; skip); with_reducible apply Within.build | with_reducible exact Or.inl rfl
    | exact Or.inr (by decide) | decide | split

/-! ## Commands -/

theorem execInfo_within (tag : Byte) (p : SvcPayload) (s : State) :
    ∃ t, execInfo tag p s = .next t ∧ Within 17825792 s t := by
  unfold execInfo
  refine ⟨_, rfl, ?_⟩
  repeat' first
    | with_reducible apply Within.refl | with_reducible apply State.svcReply_within
    | with_reducible apply State.svcRequest_within | decide

theorem execRegRead_within (tag : Byte) (p : SvcPayload) (s : State) :
    ∃ t, execRegRead tag p s = .next t ∧ Within 17842176 s t := by
  unfold execRegRead
  refine ⟨_, rfl, ?_⟩
  repeat' first
    | with_reducible apply Within.refl | with_reducible apply State.svcRegRead_within
    | with_reducible apply State.svcRequest_within | decide

theorem execRegWrite_within (tag : Byte) (p : SvcPayload) (s : State) :
    ∃ t, execRegWrite tag p s = .next t ∧ Within 20446719 s t := by
  unfold execRegWrite
  refine ⟨_, rfl, ?_⟩
  repeat' first
    | with_reducible apply Within.refl | with_reducible apply State.svcRegWrite_within
    | with_reducible apply State.svcRequest_within | decide

theorem execKeyMsg_within (tag : Byte) (p : SvcPayload) (s : State) :
    ∃ t, execKeyMsg tag p s = .next t ∧ Within 29359615 s t := by
  unfold execKeyMsg
  refine ⟨_, rfl, ?_⟩
  repeat' first
    | with_reducible apply Within.refl | with_reducible apply State.svcKeyMsg_within
    | with_reducible apply State.svcRequest_within | decide

theorem execPkgBegin_within (tag : Byte) (p : SvcPayload) (s : State) :
    ∃ t, execPkgBegin tag p s = .next t ∧ Within 20450499 s t := by
  unfold execPkgBegin
  refine ⟨_, rfl, ?_⟩
  repeat' first
    | with_reducible apply Within.refl | with_reducible apply State.pkgBegin_within
    | with_reducible apply State.svcRequest_within | decide

theorem execPkgEraseDone_within (r : FlashResult) (s : State) :
    ∃ t, execPkgEraseDone r s = .next t ∧ Within 17825792 s t := by
  unfold execPkgEraseDone
  refine ⟨_, rfl, ?_⟩
  repeat' first
    | with_reducible apply Within.refl | with_reducible apply State.eraseDone_within | decide

theorem execPkgData_within (tag : Byte) (p : SvcPayload) (r : FlashResult) (s : State) :
    ∃ t, execPkgData tag p r s = .next t ∧ Within 17825792 s t := by
  unfold execPkgData
  refine ⟨_, rfl, ?_⟩
  repeat' first
    | with_reducible apply Within.refl | with_reducible apply State.pkgData_within
    | with_reducible apply State.svcRequest_within | decide

theorem execPkgEnd_within (tag : Byte) (p : SvcPayload) (r : FlashResult) (s : State) :
    ∃ t, execPkgEnd tag p r s = .next t ∧ Within 20450499 s t := by
  unfold execPkgEnd
  refine ⟨_, rfl, ?_⟩
  repeat' first
    | with_reducible apply Within.refl | with_reducible apply State.pkgEnd_within | with_reducible apply State.svcRequest_within
    | decide

theorem execPkgActivateReset_within (s : State) :
    ∃ t, execPkgActivateReset s = .next t ∧ Within 20446719 s t := by
  unfold execPkgActivateReset
  refine ⟨_, rfl, ?_⟩
  repeat' first
    | with_reducible apply Within.refl | with_reducible apply State.startReset_within | with_reducible apply Within.ite | decide

theorem execPkgAbort_within (tag : Byte) (p : SvcPayload) (s : State) :
    ∃ t, execPkgAbort tag p s = .next t ∧ Within 17825792 s t := by
  unfold execPkgAbort
  refine ⟨_, rfl, ?_⟩
  repeat' first
    | with_reducible apply Within.refl | with_reducible apply State.endUpload_within
    | with_reducible apply State.svcReply_within | with_reducible apply State.svcRequest_within | decide

theorem execPkgUploadTimeout_within (s : State) :
    ∃ t, execPkgUploadTimeout s = .next t ∧ Within 1048576 s t := by
  unfold execPkgUploadTimeout
  refine ⟨_, rfl, ?_⟩
  repeat' first
    | with_reducible apply Within.refl | with_reducible apply State.endUpload_within | with_reducible apply Within.ite | decide

theorem execPwrfailNFall_within (s : State) :
    ∃ t, execPwrfailNFall s = .next t ∧ Within 17956864 s t := by
  unfold execPwrfailNFall
  dsimp only
  refine ⟨_, rfl, ?_⟩
  repeat' first
    | with_reducible apply Within.refl | with_reducible apply State.endUpload_within | with_reducible apply State.svcDone_within
    | with_reducible apply setPower_within | with_reducible apply Within.ite | decide

theorem execBootClear_within (tag : Byte) (p : SvcPayload) (s : State) :
    ∃ t, execBootClear tag p s = .next t ∧ Within 18087936 s t := by
  unfold execBootClear
  dsimp only
  refine ⟨_, rfl, ?_⟩
  repeat' first
    | with_reducible apply Within.refl | with_reducible apply State.svcReply_within
    | with_reducible apply State.svcRequest_within | exact Or.inr ⟨by decide, fun h => ⟨Nat.zero_le _, h.trimRetry⟩⟩
    | with_reducible apply Within.ite | (conv => arg 3; arg 24; skip); with_reducible apply Within.build
    | with_reducible exact Or.inl rfl | decide

theorem execConfirm_within (tag : Byte) (p : SvcPayload) (s : State) :
    ∃ t, execConfirm tag p s = .next t ∧ Within 17825792 s t := by
  unfold execConfirm
  dsimp only
  refine ⟨_, rfl, ?_⟩
  repeat' first
    | with_reducible apply Within.refl | with_reducible apply State.svcReply_within
    | with_reducible apply State.svcRequest_within | (conv => arg 3; arg 24; skip); with_reducible apply Within.build
    | with_reducible exact Or.inl rfl | exact Or.inr (by decide) | decide

end Sys2Proof.Machine
end

