-- ==== Sys2Proof/Laws/Votes.lean ====
section
/-!
SUPPORT. What the commands of Machine/Votes.lean may change (Laws/Within.lean says how a mask names the parts).
-/
namespace Sys2Proof.Machine

theorem execQuarterRest_within (quarter : Fin 4) (s : State) :
    ∃ t, execQuarterRest quarter s = .next t ∧ Within 1024 s t := by
  unfold execQuarterRest
  refine ⟨_, rfl, ?_⟩
  repeat' first
    | with_reducible apply Within.refl | with_reducible apply State.updQuarter_within | with_reducible apply Within.ite | decide

theorem execQuarterWake_within (quarter : Fin 4) (s : State) :
    ∃ t, execQuarterWake quarter s = .next t ∧ Within 1024 s t := by
  unfold execQuarterWake
  refine ⟨_, rfl, ?_⟩
  repeat' first
    | with_reducible apply Within.refl | with_reducible apply State.updQuarter_within | decide

end Sys2Proof.Machine
end

