-- ==== Sys2Proof/Laws/Warden.lean ====
section
/-!
SUPPORT. What the operations of Machine/Warden.lean may change (Laws/Within.lean says how a mask names the parts),
and the commands of that file.
-/
namespace Sys2Proof.Machine

theorem State.wprint_within {W : Nat} {s0 s : State} (text : String) (values : List Nat) (hW : Within W s0 s)
    (hM : 16777216 ||| W = W) : Within W s0 (s.wprint text values) := by
  refine hW.step ?_ hM; clear hW hM; unfold State.wprint
  repeat' first
    | with_reducible apply Within.refl | with_reducible apply State.emit_within | decide

theorem State.wprompt_within {W : Nat} {s0 s : State}  (hW : Within W s0 s)
    (hM : 16777216 ||| W = W) : Within W s0 s.wprompt := by
  refine hW.step ?_ hM; clear hW hM; unfold State.wprompt
  repeat' first
    | with_reducible apply Within.refl | with_reducible apply State.wprint_within | decide

theorem State.wok_within {W : Nat} {s0 s : State}  (hW : Within W s0 s)
    (hM : 16777216 ||| W = W) : Within W s0 s.wok := by
  refine hW.step ?_ hM; clear hW hM; unfold State.wok
  repeat' first
    | with_reducible apply Within.refl | with_reducible apply State.wprint_within | with_reducible apply State.wprompt_within
    | decide

theorem State.werr_within {W : Nat} {s0 s : State} (reason : String) (hW : Within W s0 s)
    (hM : 16777216 ||| W = W) : Within W s0 (s.werr reason) := by
  refine hW.step ?_ hM; clear hW hM; unfold State.werr
  repeat' first
    | with_reducible apply Within.refl | with_reducible apply State.wprint_within | with_reducible apply State.wprompt_within
    | decide

theorem State.warden_within {W : Nat} {s0 s : State} (allowed inRange awake : Bool) (act : State → State)
    (hW : Within W s0 s) (ha : Within W s0 (act s)) (hM : 16777216 ||| W = W) :
    Within W s0 (s.warden allowed inRange awake act) := by
  unfold State.warden
  exact Within.ite hW (Within.ite (State.werr_within _ hW hM) (Within.ite (State.werr_within _ hW hM)
    (Within.ite (State.werr_within _ hW hM) ha)))

theorem State.wardenAfter_within {W : Nat} {s0 s t : State} (ht : Within W s0 t) (hM : 16777216 ||| W = W) :
    Within W s0 (s.wardenAfter t) := by
  unfold State.wardenAfter
  exact Within.ite (State.wprint_within _ _ ht hM) ht

theorem State.wardenRead_within {W : Nat} {s0 s : State} (off : Nat) (a2 : Nat) (hW : Within W s0 s)
    (hM : 16793600 ||| W = W) : Within W s0 (s.wardenRead off a2) := by
  refine hW.step ?_ hM
  clear hW hM
  induction a2 generalizing s off with
  | zero =>
    unfold State.wardenRead
    repeat' with_reducible apply Within.refl
  | succ k ih =>
    unfold State.wardenRead
    dsimp only
    repeat' first
      | with_reducible apply Within.refl | with_reducible apply State.wprint_within | with_reducible apply State.readReg_within
      | decide | with_reducible refine Within.step (M := 16793600) ?_ (ih _) rfl

theorem State.setPlazaWord_within {W : Nat} {s0 s : State} (a : Nat) (v : Nat) (hW : Within W s0 s)
    (hM : 3072 ||| W = W) : Within W s0 (s.setPlazaWord a v) := by
  refine hW.step ?_ hM; clear hW hM; unfold State.setPlazaWord
  dsimp only
  repeat' first
    | with_reducible apply Within.refl | exact Or.inr ⟨by decide, fun h => SMap.wf_setList _ _ h⟩
    | (conv => arg 3; arg 24; skip); with_reducible apply Within.build | with_reducible exact Or.inl rfl
    | exact Or.inr (by decide)

theorem State.wardenWord_within {W : Nat} {s0 s : State} (m : WardenMem) (a : Nat) (hW : Within W s0 s)
    (hM : 28455104 ||| W = W) : Within W s0 (s.wardenWord m a).2 := by
  refine hW.step ?_ hM; clear hW hM; unfold State.wardenWord
  repeat' first
    | with_reducible apply Within.refl | with_reducible apply State.drawn_within | with_reducible apply State.ungate_within
    | refine State.kioskAccess_eq_within (by assumption) ?_ (by decide) | decide | split

theorem State.wardenWord_eq_within {W : Nat} {s0 s t : State} {m : WardenMem} {a : Nat} {y0 : Option Nat} (e : State.wardenWord s m a = (y0, t)) (hW : Within W s0 s)
    (hM : 28455104 ||| W = W) : Within W s0 t := by
  have h := State.wardenWord_within m a hW hM
  rw [e] at h
  exact h

theorem State.wardenMem_within {W : Nat} {s0 s : State} (m : WardenMem) (a : Nat) (a3 : Nat) (hW : Within W s0 s)
    (hM : 28455104 ||| W = W) : Within W s0 (s.wardenMem m a a3) := by
  refine hW.step ?_ hM
  clear hW hM
  induction a3 generalizing s m a with
  | zero =>
    unfold State.wardenMem
    repeat' first
      | with_reducible apply Within.refl | with_reducible apply State.wok_within | decide
  | succ k ih =>
    unfold State.wardenMem
    repeat' first
      | with_reducible apply Within.refl | with_reducible apply State.werr_within | with_reducible apply State.wprint_within
      | refine State.wardenWord_eq_within (by assumption) ?_ (by decide) | decide
      | with_reducible refine Within.step (M := 28455104) ?_ (ih _ _) rfl | split

theorem State.wardenPut_within {W : Nat} {s0 s : State} (m : WardenMem) (a : Nat) (v : Nat) (hW : Within W s0 s)
    (hM : 28458176 ||| W = W) : Within W s0 (s.wardenPut m a v) := by
  refine hW.step ?_ hM; clear hW hM; unfold State.wardenPut
  dsimp only
  repeat' first
    | with_reducible apply Within.refl | with_reducible apply State.setPlazaWord_within
    | with_reducible apply State.ungate_within | with_reducible apply setPower_within
    | with_reducible apply State.kioskAccess_within | decide | split

/-! ## Commands -/

theorem execWardenAutobaud_within (baud : Nat) (s : State) :
    ∃ t, execWardenAutobaud baud s = .next t ∧ Within 1048576 s t := by
  unfold execWardenAutobaud
  dsimp only
  refine ⟨_, rfl, ?_⟩
  repeat' first
    | with_reducible apply Within.refl | (conv => arg 3; arg 24; skip); with_reducible apply Within.build
    | with_reducible exact Or.inl rfl | exact Or.inr (by decide)

theorem execResetComplete_within (s : State) :
    ∃ t, execResetComplete s = .next t ∧ Within 17188096 s t := by
  unfold execResetComplete
  refine ⟨_, rfl, ?_⟩
  repeat' first
    | with_reducible apply Within.refl | with_reducible apply State.completeReset_within
    | with_reducible apply State.wardenAfter_within | decide

theorem execId_within (s : State) :
    ∃ t, execId s = .next t ∧ Within 16777216 s t := by
  unfold execId
  refine ⟨_, rfl, ?_⟩
  repeat' first
    | with_reducible apply Within.refl | with_reducible apply State.warden_within | with_reducible apply State.wok_within
    | with_reducible apply State.wprint_within | decide

theorem execStat_within (s : State) :
    ∃ t, execStat s = .next t ∧ Within 16777216 s t := by
  unfold execStat
  refine ⟨_, rfl, ?_⟩
  repeat' first
    | with_reducible apply Within.refl | with_reducible apply State.warden_within | with_reducible apply State.wok_within
    | with_reducible apply State.wprint_within | decide

theorem execErr_within (n : Option Nat) (s : State) :
    ∃ t, execErr n s = .next t ∧ Within 16777216 s t := by
  unfold execErr
  refine ⟨_, rfl, ?_⟩
  repeat' first
    | with_reducible apply Within.refl | with_reducible apply Within.foldl | (intro _ _; try dsimp only)
    | with_reducible apply State.warden_within | with_reducible apply State.wok_within
    | with_reducible apply State.wprint_within | decide

theorem execCnt_within (s : State) :
    ∃ t, execCnt s = .next t ∧ Within 16777216 s t := by
  unfold execCnt
  refine ⟨_, rfl, ?_⟩
  repeat' first
    | with_reducible apply Within.refl | with_reducible apply State.warden_within | with_reducible apply State.wok_within
    | with_reducible apply State.wprint_within | decide

theorem execRd_within (off : Nat) (n : Option Nat) (s : State) :
    ∃ t, execRd off n s = .next t ∧ Within 16793600 s t := by
  unfold execRd
  refine ⟨_, rfl, ?_⟩
  repeat' first
    | with_reducible apply Within.refl | with_reducible apply State.warden_within | with_reducible apply State.wardenRead_within
    | with_reducible apply State.wok_within | decide

theorem execWr_within (off : Nat) (v : Nat) (s : State) :
    ∃ t, execWr off v s = .next t ∧ Within 20446719 s t := by
  unfold execWr
  dsimp only
  refine ⟨_, rfl, ?_⟩
  repeat' first
    | with_reducible apply Within.refl | with_reducible apply State.accessWrite_within
    | with_reducible apply State.warden_within | with_reducible apply State.wok_within | with_reducible apply Within.ite
    | decide

theorem execMem_within (m : WardenMem) (addr : Nat) (n : Option Nat) (s : State) :
    ∃ t, execMem m addr n s = .next t ∧ Within 28455104 s t := by
  unfold execMem
  refine ⟨_, rfl, ?_⟩
  repeat' first
    | with_reducible apply Within.refl | with_reducible apply State.warden_within | with_reducible apply State.wardenMem_within
    | decide

theorem execMemw_within (m : WardenMem) (addr : Nat) (v : Nat) (s : State) :
    ∃ t, execMemw m addr v s = .next t ∧ Within 28458176 s t := by
  unfold execMemw
  refine ⟨_, rfl, ?_⟩
  repeat' first
    | with_reducible apply Within.refl | with_reducible apply State.warden_within | with_reducible apply State.wardenPut_within
    | with_reducible apply State.wok_within | decide

theorem execReset_within (s : State) :
    ∃ t, execReset s = .next t ∧ Within 20446719 s t := by
  unfold execReset
  refine ⟨_, rfl, ?_⟩
  repeat' first
    | with_reducible apply Within.refl | with_reducible apply State.startReset_within | with_reducible apply State.warden_within
    | with_reducible apply State.wok_within | decide

theorem execBootclr_within (s : State) :
    ∃ t, execBootclr s = .next t ∧ Within 17039360 s t := by
  unfold execBootclr
  dsimp only
  refine ⟨_, rfl, ?_⟩
  repeat' first
    | with_reducible apply Within.refl | with_reducible apply State.warden_within | with_reducible apply State.wok_within
    | exact Or.inr ⟨by decide, fun h => ⟨Nat.zero_le _, h.trimRetry⟩⟩
    | (conv => arg 3; arg 24; skip); with_reducible apply Within.build | with_reducible exact Or.inl rfl | decide

end Sys2Proof.Machine
end

