-- ==== Sys2Proof/WellFormed.lean ====
section
/-!
DEFINITION. What a term of `Instr` must satisfy to be the command its row names: the descriptor carries the row's opcode,
a register write spells what the row says it starts, and payloads have lengths that the command's carrier can have. The
machine gives every term a next state; of an ill-formed one nothing is claimed about the hardware.
-/
namespace Sys2Proof

open Sys2Proof.Machine (fld bit ofBytes)

/-- The descriptor's `OPCODE` is the row's (Table HI-8). -/
def opcodeIs (op : Nat) (d : Block512) : Bool := fld d 0 8 == op

/-- The message bytes of KEY_UPDATE and LC_SUBMIT, where the read succeeds, are `MSG_LEN` bytes (R429). -/
def messageOk (d : Block512) (msg : Option (List Byte)) : Bool :=
  match msg with
  | none => true
  | some m => m.length == fld d 192 16

/-- `DUMP_BASE` is function 0's (R468). -/
def baseRegOk (fn : Fin 16) (reg : BaseReg) : Bool := reg != .dump || fn == 0

/-- `PWRCTL.TARGET` is the row's (Table PW-13). -/
def targetIs (t : Nat) (v : Word32) : Bool := fld v 0 3 == t

/-- A word access of the Kiosk BAR is aligned to its width (R345). -/
def kioskAligned (off : BitVec 18) (wide : Bool) : Bool := off.toNat % (if wide then 8 else 4) == 0

/-- A host write descriptor's data is the `LEN` bytes that the device reads (Table HI-13). -/
def descData (desc : BitVec 256) (data : List Byte) : Bool := data.length == fld desc 64 16

/-- A burst's payload and a ring frame's fit their `LEN` fields (Table BL-2, Table RR-1). -/
def burstFits (b : Burst) : Bool := decide (b.payload.length < 4096)
def frameFits (f : Frame) : Bool := decide (f.payload.length < 4096)

/-- A control word is one to four blocks of 8 bytes (R249). -/
def wordLength (bs : List Byte) : Bool := bs.length == 8 || bs.length == 16 || bs.length == 24 || bs.length == 32

/-- A service-port request's payload is at most 520 bytes (Table FW-6). -/
def svcFits (payload : List Byte) : Bool := decide (payload.length ≤ 520)

/-- A control-BAR write that has no row of its own lies on a word of the BAR. -/
def offsetOk (off : BitVec 16) : Bool := off.toNat % 4 == 0

/-- The well-formed commands. -/
def WellFormed : Instr → Bool
  | .hello _ d => opcodeIs 0x01 d
  | .dringSet _ d => opcodeIs 0x02 d
  | .queueBind _ d => opcodeIs 0x10 d
  | .queueOpen _ d => opcodeIs 0x11 d
  | .queueClose _ d => opcodeIs 0x12 d
  | .queueDiscard _ d => opcodeIs 0x13 d
  | .queueReset _ d => opcodeIs 0x14 d
  | .queueRelease _ d => opcodeIs 0x15 d
  | .queryQueue _ d => opcodeIs 0x16 d
  | .groupSet _ d => opcodeIs 0x17 d
  | .flagSet _ d => opcodeIs 0x20 d
  | .mark _ d => opcodeIs 0x28 d
  | .rewind _ d => opcodeIs 0x29 d
  | .releaseMark _ d => opcodeIs 0x2A d
  | .timeSet _ d => opcodeIs 0x30 d
  | .pinSet _ d => opcodeIs 0x31 d
  | .policySet _ d => opcodeIs 0x38 d
  | .chainSetup _ d => opcodeIs 0x40 d
  | .pairSetup _ d => opcodeIs 0x41 d
  | .failover _ d => opcodeIs 0x42 d
  | .rekey _ d => opcodeIs 0x50 d
  | .keyUpdate _ d msg => opcodeIs 0x51 d && messageOk d msg
  | .lcSubmit _ d msg => opcodeIs 0x52 d && messageOk d msg
  | .keyQuery _ d => opcodeIs 0x53 d
  | .tenantRelease _ d => opcodeIs 0x54 d
  | .hringEnable _ v => bit v 0
  | .hringDisable _ v => !bit v 0
  | .baseLowWordWrite fn reg _ => baseRegOk fn reg
  | .baseHighWordWrite fn reg _ => baseRegOk fn reg
  | .pwrReqRun _ v => targetIs 0 v
  | .pwrReqIdle _ v => targetIs 1 v
  | .pwrReqSleep _ v => targetIs 2 v
  | .pwrReqDeepSleep _ w => targetIs 3 w.v
  | .pwrReqOff _ v => targetIs 4 v
  | .rstctlSys _ v => bit v 0
  | .rstctlCore _ v => bit v 1 && !bit v 0
  | .iorelWrite v => bit v 0
  | .maintWipe v => fld v 8 4 != 0
  | .maintBist v => fld v 12 4 != 0
  | .maintKsweep v => bit v 16
  | .linkEnable _ v => bit v 0
  | .linkDisable _ v => !bit v 0
  | .linkRst _ v => bit v 8
  | .ringSideEnable v => fld v 4 2 != 0
  | .ringSideDisable v => fld v 4 2 != 3
  | .ringSideRst v => fld v 7 2 != 0
  | .errlogPop v => bit v 8
  | .registerWrite _ off _ _ => offsetOk off
  | .kioskBarRead off wide => kioskAligned off wide
  | .kioskBarWrite off wide _ => kioskAligned off wide
  | .kioskFetchadd off _ => kioskAligned off true
  | .kioskSwap off _ => kioskAligned off true
  | .hostWriteDescriptor _ _ desc data => descData desc data
  | .burstReceive _ b => burstFits b.burst
  | .controlWordDiscard _ bytes => wordLength bytes
  | .ringDataFrame _ f => frameFits f.frame
  | .syncFrame _ f | .ringHello _ f | .ack _ f | .resend _ f | .chainJoin _ f | .chainCmd _ f
  | .ffMark _ f | .ffRewind _ f | .pairJoin _ f | .revoke _ f | .gone _ f | .kioskFrame _ f | .ringFrameTransit _ f =>
    frameFits f
  | .info _ p | .regRead _ p | .regWrite _ p | .keyMsg _ p | .pkgBegin _ p | .pkgData _ p _ | .pkgEnd _ p _ | .pkgAbort _ p
  | .bootClear _ p | .confirm _ p => svcFits p.bytes
  | .rewindTakesEffect _ | .cmdPi _ _ | .cplCi _ _ | .evtCi _ _ | .dringPi _ _ _ | .tbNowLoRead _ | .pwrvoteWrite _ _
  | .portSplitWrite _ _ | .ringInsert _ | .flagmapWrite _ _ | .ppsEnWrite _ | .hostBlockReset _ | .perstNRise
  | .pcieConfigReady | .flr _ | .vfEnableChange _ _ | .hostDmaFailure _ _ _ _ | .hostReadDescriptor _ _ _
  | .dringFlushTimeout _ _ | .msixHoldoffEnd _ _ | .stagedBurstCommit _ | .burstTransmit _ | .credit _ _ _ _
  | .creditGrant _ | .creditRefresh _ | .statusRefresh _ | .timeWordTimer | .inbandMark _ _ _ | .inbandRewind _ _ _
  | .inbandReleaseMark _ _ _ | .kioskReq _ _ _ _ _ | .powerVote _ _ | .sleepReq _ _ | .idleNoticeLeadEnd _
  | .trainingStart _ | .trainingBlock _ _ _ | .trainingPhaseAdvance _ | .linkUp _ | .trainingTimeout _
  | .markerLockTimeout _ | .trainingRetry _ | .trainingSignalLoss _ | .linkDown _ _ | .chainCmdApply _ | .ffMarkApply _
  | .fallForwardSend _ | .helloTimer | .ringMapExpiry _ | .ringHelloMissing _ | .ringAckTimer _ | .ringResendTimeout _
  | .syncTimer _ | .sideDownTimeout _ | .hopPauseTimeout _ | .syncTimeout _ | .pairFailNLow | .pairFailSyncTimeout _
  | .chainSetupTimeout _ | .pairSetupTimeout _ | .ppsEdge | .ppsLossTimeout | .phaseTermEnd | .ppsOutRise | .ppsOutFall
  | .timeSetEdgeTimeout | .pinReserve _ | .pinRelease _ | .pinLateIntervalEnd _ | .epochGraceEnd _ _ | .sweepVisit _
  | .flagEventIntervalEnd _ | .adaptationVisit _ | .kbDropIntervalEnd _ | .segmentGrant _ | .segmentRequestRetry _
  | .segmentZeroed _ | .scrubRead _ _ | .maintActivityEnd _ _ | .quarterRest _ | .quarterWake _ | .busyNRelease
  | .crosswalkEvent _ | .pwrPendingStart | .sleepEntry | .deepSleepEntry _ | .offEntry | .sleepExit
  | .deepSleepExit _ _ _ _ _ | .offExit | .wakeN | .svcAddressMatch | .laneSignalDetect _ | .pcieWake | .wakeSense _
  | .domainPowerUp _ | .wakeVoteRelease _ | .idleClockGate | .playoutUngate | .vrPgTimeout | .vrRetry | .avsStep _ _
  | .avsAck | .avsAckTimeout | .pmbusStretchTimeout | .pmbAlertN _ | .brownOut | .pwrfailNFall | .por _ | .rstNAssert _
  | .rstNRelease | .refclkLoss | .resetComplete | .supplyMonitorTrip _ | .watchdogExpiry | .fwcoreRequest | .trialTimeout
  | .trimLoadDone _ _ _ | .trimRetry | .bootStart _ _ _ | .configStoreApply | .firmwareReady | .healthOk
  | .controlPlaneReturn | .dumpStart _ _ | .dumpComplete | .dumpStartTimeout | .dumpOverrun | .pkgEraseDone _
  | .pkgActivateReset | .pkgUploadTimeout | .wardenAutobaud _ | .id | .stat | .err _ | .cnt | .rd _ _ | .wr _ _
  | .mem _ _ _ | .memw _ _ _ | .reset | .bootclr | .dataModeStart _ | .eqWindowEnd _ _ | .blockResetComplete _
  | .flrComplete _ | .vrPgRise | .pcieL0Reached | .vrAlertHoldoffEnd _ _ => true

end Sys2Proof
end

