-- ==== Sys2Proof/Tests/Slice0.lean ====
section
/-!
SUPPORT. Tests: ill-formed terms that the check refuses, the spec's worked values, and for each statement with hypotheses a
concrete state and operands that meet them together.
-/
namespace Sys2Proof.Tests

-- One theorem at a time: each closed evaluation waits for the kernel, and a thread for each is too many.
set_option Elab.async false

open Sys2Proof Sys2Proof.Machine

/-! ## Ill-formed commands are refused, one for each check -/

/-- A descriptor or word with the given fields: place, width, value. -/
def tDesc (fs : List (Nat × Nat × Nat)) : Block512 := BitVec.ofNat 512 (packNat fs)

def tBytes (n : Nat) : List Byte := List.replicate n 0

theorem test_wf_opcode : WellFormed (.hello 0 (tDesc [(0, 8, 0x02)])) = false ∧ WellFormed (.hello 0 (tDesc [(0, 8, 0x01)])) = true := by
  decide +kernel
theorem test_wf_message : WellFormed (.keyUpdate 0 (tDesc [(0, 8, 0x51), (192, 16, 144)]) (some [0])) = false := by decide +kernel
theorem test_wf_hring : WellFormed (.hringEnable 0 0) = false ∧ WellFormed (.hringDisable 0 1) = false := by decide +kernel
theorem test_wf_dump_base : WellFormed (.baseLowWordWrite 1 .dump 0) = false ∧ WellFormed (.baseHighWordWrite 0 .dump 0) = true := by
  decide +kernel
theorem test_wf_target : WellFormed (.pwrReqRun .svc 1) = false ∧ WellFormed (.pwrReqOff .svc 4) = true := by decide +kernel
theorem test_wf_rstctl : WellFormed (.rstctlCore .svc 3) = false ∧ WellFormed (.rstctlSys .svc 2) = false := by decide +kernel
theorem test_wf_iorel : WellFormed (.iorelWrite 2) = false := by decide +kernel
theorem test_wf_maint : WellFormed (.maintWipe 0x1000) = false ∧ WellFormed (.maintBist 0x100) = false ∧
    WellFormed (.maintKsweep 0) = false := by decide +kernel
theorem test_wf_link : WellFormed (.linkEnable 0 0) = false ∧ WellFormed (.linkDisable 0 1) = false ∧
    WellFormed (.linkRst 0 1) = false := by decide +kernel
theorem test_wf_ring : WellFormed (.ringSideEnable 0) = false ∧ WellFormed (.ringSideDisable 0x30) = false ∧
    WellFormed (.ringSideRst 0) = false := by decide +kernel
theorem test_wf_errlog : WellFormed (.errlogPop 0) = false := by decide +kernel
theorem test_wf_offset : WellFormed (.registerWrite .svc 2 0xF 0) = false := by decide +kernel
theorem test_wf_kiosk : WellFormed (.kioskBarRead 4 true) = false ∧ WellFormed (.kioskBarRead 4 false) = true ∧
    WellFormed (.kioskFetchadd 4 0) = false := by decide +kernel
theorem test_wf_desc_data : WellFormed (.hostWriteDescriptor 0 0 (BitVec.ofNat 256 (2 * 2 ^ 64)) [0]) = false := by decide +kernel
theorem test_wf_word : WellFormed (.controlWordDiscard 0 [0]) = false ∧ WellFormed (.controlWordDiscard 0 (tBytes 8)) = true := by
  decide +kernel
theorem test_wf_service : WellFormed (.info 0 ⟨tBytes 521, 0⟩) = false ∧ WellFormed (.info 0 ⟨tBytes 520, 0⟩) = true := by decide +kernel
theorem test_wf_burst : WellFormed (.burstReceive 0 ⟨⟨0, tBytes 4096, 0, 0, false, false⟩, ⟨0, 0, 0⟩⟩) = false := by decide +kernel
theorem test_wf_frame : WellFormed (.syncFrame .east ⟨0, tBytes 4096, 0, 0, false⟩) = false := by decide +kernel

/-! ## Control words, lane coding and data cells -/

/-- Words spell their rows at the top of each field (Tables BL-7, BL-10 to BL-12); a reserved OP spells none. -/
theorem test_words : wordCommand 7 (Machine.cword 0 0 [(16, 4, 15), (20, 1, 1), (24, 24, 0xFFFFFF)]) = some (.credit 7 15 true 0xFFFFFF) ∧
    wordCommand 0 (Machine.cword 3 0 [(16, 13, 8191), (29, 2, 1), (32, 2, 3)]) = some (.inbandRewind 0 8191 3) ∧
    wordCommand 0 (Machine.cword 3 0 [(16, 13, 1), (29, 2, 3)]) = none ∧
    wordCommand 0 (Machine.cword 4 2 [(16, 2, 3), (24, 8, 9), (32, 15, 32767), (64, 64, 5)]) = some (.kioskReq 0 3 9 32767 5) ∧
    wordCommand 0 (Machine.cword 6 0 [(16, 6, 63), (24, 4, 1)]) = some (.sleepReq 0 63) ∧
    wordCommand 0 (toBytes 8 0x100) = some (.controlWordDiscard 0 (toBytes 8 0x100)) := by decide +kernel

/-- The doorbells of Table HI-6, and writes that R306 ignores. -/
theorem test_doorbells : doorbellCommand 15 4 0xFFC 7 = some (.dringPi 15 511 7) ∧ doorbellCommand 0 4 8 7 = some (.evtCi 0 7) ∧
    doorbellCommand 0 4 0xC 7 = none ∧ doorbellCommand 0 8 0 7 = none ∧ doorbellCommand 0 4 0x802 7 = none := by decide +kernel
/-- A mixed group of four blocks comes back from 257 bits, and a word corrects seven wrong symbols (R215, R218). -/
def tBlocks : List Block66 := [⟨1, 5⟩, ⟨2, 0x4B#64⟩, ⟨1, 7⟩, ⟨2, 0x1E#64⟩]
theorem test_transcode : untranscode (transcode tBlocks) = tBlocks ∧ (transcode tBlocks).length = 257 := by decide +kernel
/-- What a framer makes of a unit's blocks with an `IDLE` inside: the burst of eight bytes, and a ring frame (R234, R267). -/
def tUnit : Burst := { hdr := BitVec.ofNat 128 (8 * 2 ^ 24), payload := tBytes 8, tag := 0, crc := 0x12345678, hdrErr := false, payErr := false }
def tRunit : Frame := { hdr := BitVec.ofNat 256 (8 * 2 ^ 48), payload := tBytes 8, tag := 1, crc := 2, errored := false }
theorem test_framer : (({} : Framer).run (((unitBlocks (burstUnit tUnit)).take 1) ++ idleBlock :: (unitBlocks (burstUnit tUnit)).drop 1)).2 = [.burst tUnit] ∧
    (({ ring := true } : Framer).run (unitBlocks (frameUnit tRunit))).2 = [.frame tRunit] ∧
    (Block66.errored true { sync := 2, payload := 0x78 }) = true ∧ (unitBlocks (burstUnit tUnit)).length = 4 := by decide +kernel
/-- Words cross a data cell once each, in order, more of them than it has entries (R77). -/
theorem test_cell : (DataCell.carry {} rxWindows (List.range 40)).1 = List.range 40 := by decide +kernel
/-- A value is accepted at the second agreeing sample, and not where the two differ (R73, R76). -/
theorem test_agree : (({ published := 9 } : ValueCell).destCycle).accepted = 0 ∧ (({ published := 9 } : ValueCell).destCycle.destCycle).accepted = 9 ∧
    (({ published := 9 } : ValueCell).sampled 8).destCycle.accepted = 0 := by decide +kernel

/-! ## States for the tests -/

/-- CORE runs with every domain on and firmware ready; function 0's rings run, agreed on 1.2, with one command waiting; the VFs
exist, and function 1's rings run too. -/
def tRun : State :=
  { funcs := [(0, { hctrl := 1, cmdPi := 1, verSet := true, ver := 0x12, vote := 0x3F })
              , (1, { hctrl := 1, cmdPi := 1, verSet := true, ver := 0x12 })]
    host := { perstN := true, inReset := false, vfEnable := true, numVfs := 15 }
    time := { running := true, cycles := 8 }
    power := { domains := 63 }
    rst := { active := none, refclk := true, trimValid := true, trimRun := false, ioHeld := false, rstStateN := true
             control := true, booted := true, released := true }
    fw := { ready := true } }

/-- The same with the round robin at function 1's ring. -/
def tRun1 : State := { tRun with host := { tRun.host with fetchTurn := 1 } }

/-- The same with one queue's record. -/
def tQ (n : Nat) (q : Queue) : State := tRun.setQ n q

/-- Whether `Accepts` holds, for decision. -/
def takesB (s : State) (g op : Nat) (d : Block512) : Bool :=
  Hdr.opcode d == op && s.fetches g d && (s.func g).fenced.isEmpty && !Hdr.fence d && s.rst.control && (s.func g).inflight.isEmpty
def acceptsB (s : State) (g op : Nat) (d : Block512) : Bool :=
  takesB s g op d && (s.func g).verSet && Hdr.ver d == (s.func g).ver &&
    (match opcodeFrom op with | some v => decide (0x10 + v ≤ (s.func g).ver) | none => false)

theorem takes_of {s : State} {g op : Nat} {d : Block512} (h : takesB s g op d = true) : s.Takes g op d := by
  simp only [takesB, Bool.and_eq_true, beq_iff_eq, Bool.not_eq_true', List.isEmpty_iff] at h
  obtain ⟨⟨⟨⟨⟨h1, h2⟩, h3⟩, h4⟩, h5⟩, h6⟩ := h
  exact ⟨h1, h2, h3, h4, h5, fun _ => h6⟩

theorem accepts_of {s : State} {g op : Nat} {d : Block512} (h : acceptsB s g op d = true) : s.Accepts g op d := by
  simp only [acceptsB, Bool.and_eq_true, beq_iff_eq] at h
  obtain ⟨⟨⟨h1, h2⟩, h3⟩, h4⟩ := h
  refine ⟨takes_of h1, h2, h3, ?_⟩
  split at h4
  · exact ⟨_, ‹_›, of_decide_eq_true h4⟩
  · cases h4

/-- A command's descriptor under version 1.2. -/
def tCmd (op : Nat) (fs : List (Nat × Nat × Nat)) : Block512 := tDesc ((0, 8, op) :: (8, 8, 0x12) :: fs)

/-! ## The machine as a whole, the host block (spec/12, spec/19) -/

/-- The step on an empty queue: five core cycles. -/
theorem test_empty_queue : State.reset.pending = [] ∧ (State.reset.idle).cyc = 5 := by decide +kernel

theorem meets_HringCtrl : tRun.fnReached 2 = true ∧ bit 1#32 0 = true ∧ (tRun.func 2).en = false ∧
    hringCfgOk (tRun.func 2).hcfg = true ∧ hringCfgOk ((tRun.setFunc 2 { hcfg := 0x00060605 }).func 2).hcfg = false ∧
    bit 0#32 0 = false ∧ (tRun.func 0).en = true := by decide +kernel

/-- Spec/19's example of a base written in two halves: `DUMP_BASE` = 0x10_4000_0001 (R472). -/
def tLow : State := tRun.setFunc 2 { cmdLow := some 0x40000001#32 }
theorem meets_BaseRegisters : tRun.fnReached 2 = true ∧ (tRun.func 2).en = false ∧ (tLow.func 2).low .cmdq = some 0x40000001#32 ∧
    tLow.fnReached 2 = true ∧ (tLow.func 2).en = false ∧ (tRun.func 0).en = true ∧ tRun.fnReached 0 = true ∧ tRun.coreRuns = true ∧
    ({ tRun with errs := { dumpLow := some 0x40000001#32 } } : State).errs.dumpLow = some 0x40000001#32 := by decide +kernel
theorem test_base_value : (0x10#32).toNat * 2 ^ 32 + (0x40000001#32).toNat / 4096 * 4096 + (0x40000001#32).toNat % 2 = 0x1040000001 := by decide

theorem meets_Doorbells : tRun.fnReached 0 = true ∧ tRun.coreRuns = true ∧ tRun.rst.ctlReturn = false ∧ (tRun.func 0).en = true ∧
    ringDist (64#32).toNat (tRun.func 0).cmdCi ≤ (tRun.func 0).cmdSize ∧
    ringDist (tRun.func 0).cmdPi (tRun.func 0).cmdCi ≤ ringDist (64#32).toNat (tRun.func 0).cmdCi ∧
    ringDist (0#32).toNat (tRun.func 0).cplCi ≤ ringDist (tRun.func 0).cplPi (tRun.func 0).cplCi ∧ (tRun.func 0).lostSince = 0 ∧
    ringDist (0#32).toNat (tRun.func 0).evtCi ≤ ringDist (tRun.func 0).evtPi (tRun.func 0).evtCi := by decide +kernel

def tDring : State := tRun.setDring 0 511 { en := true, log2 := 6, pi := 2, ci := 1 }
theorem meets_Doorbells_dring : (tDring.dring 0 511).en = true ∧
    ringDist (65#32).toNat (tDring.dring 0 511).ci ≤ 2 ^ (tDring.dring 0 511).log2 ∧
    ringDist (tDring.dring 0 511).pi (tDring.dring 0 511).ci ≤ ringDist (65#32).toNat (tDring.dring 0 511).ci := by decide +kernel
theorem meets_Doorbells_wait : ({ tRun with rst := { tRun.rst with ctlReturn := true } } : State).fnReached 0 = true ∧
    ({ tRun with power := { domains := 0 } } : State).coreRuns = false := by decide +kernel
theorem meets_BadDoorbell : (tRun.func 0).cmdSize < ringDist (65#32).toNat (tRun.func 0).cmdCi ∧
    ringDist (0#32).toNat (tRun.func 0).cmdCi < ringDist (tRun.func 0).cmdPi (tRun.func 0).cmdCi ∧
    ringDist (tRun.func 0).cplPi (tRun.func 0).cplCi < ringDist (1#32).toNat (tRun.func 0).cplCi ∧
    (tRun.func 5).en = false ∧ (tRun.dring 0 0).en = false ∧
    2 ^ (tDring.dring 0 511).log2 < ringDist (66#32).toNat (tDring.dring 0 511).ci ∧
    ringDist (1#32).toNat (tDring.dring 0 511).ci < ringDist (tDring.dring 0 511).pi (tDring.dring 0 511).ci := by decide +kernel

theorem meets_HostBlockEvents : ((tRun.setFunc 0 { cplHoldoff := true, cplHeld := true }).func 0).cplHoldoff = true ∧
    ((tRun.setFunc 0 { cplHoldoff := true, cplHeld := true }).func 0).cplHeld = true ∧ (tRun.func 0).evtHeld = false ∧
    bit tRun.power.domains Dom.host = true ∧ ({ tRun with host := { tRun.host with training := true } } : State).host.training = true := by
  decide +kernel

/-- A stream queue of group 1 with a host read end, without data. -/
def tHostQ : Queue := { st := .opened, b := { affinity := 15, wend := .link 0, rend := .host, rsvSeg := 1, maxSeg := 4 } }

theorem meets_Flr : tRun.host.inReset = false ∧ tRun.fnExists 15 = true ∧ (15 : Fin 16) ≠ 0 ∧ tRun.noHostEnd 15 :=
  ⟨by decide +kernel, by decide +kernel, by decide, by unfold State.noHostEnd; decide +kernel⟩
theorem meets_HostBlockReset : ∀ g, tRun.noHostEnd g := by
  intro g e he
  simp [State.groupQueues, tRun] at he
theorem meets_VfEnable : tRun.fnConfigured 0 = true ∧ (tRun.host.vfEnable = true → tRun.host.numVfs ≤ (15 : Fin 16).val) := by
  decide +kernel
theorem meets_FailedDma : tRun.fnReached 0 = true ∧ (tRun.func 0).en = true ∧
    ((tRun.setDring 0 0 { en := true, log2 := 6 }).dring 0 0).en = true ∧
    ringDist ((tRun.setDring 0 0 { en := true, log2 := 6 }).dring 0 0).pi ((tRun.setDring 0 0 { en := true, log2 := 6 }).dring 0 0).ci = 0 ∧
    ((tRun.setDring 0 0 { en := true, log2 := 6 }).groupQueues 0).all (fun e => !e.2.usesRing 0) = true := by decide +kernel

/-! ## Host commands (spec/12) -/

theorem meets_HeaderChecks :
    hostOf (.queueOpen 0 (tCmd 0x55 [])) = some (0, 0x11, tCmd 0x55 []) ∧ opcodeFrom (Hdr.opcode (tCmd 0x55 [])) = none ∧
    tRun.Takes 0 (Hdr.opcode (tCmd 0x55 [])) (tCmd 0x55 []) ∧ tRun.Takes 0 0x01 (tCmd 0x01 []) ∧
    tRun.Takes 0 0x11 (tCmd 0x11 []) ∧ ((tRun.setFunc 0 { tRun.func 0 with verSet := false }).func 0).verSet = false ∧
    Hdr.ver (tDesc [(0, 8, 0x11), (8, 8, 0x11)]) ≠ (tRun.func 0).ver ∧ Hdr.ver (tCmd 0x11 []) = (tRun.func 0).ver ∧
    opcodeFrom 0x51 = some 2 ∧ ((tRun.setFunc 0 { tRun.func 0 with ver := 0x10 }).func 0).ver < 0x10 + 2 :=
  ⟨rfl, by decide +kernel, takes_of (by decide +kernel), takes_of (by decide +kernel), takes_of (by decide +kernel), by decide +kernel,
    by decide +kernel, by decide +kernel, by decide +kernel, by decide +kernel⟩

/-- `HELLO` of spec/12's Table HI-15: INFO is 0x0002_0712. -/
theorem test_hello_info : bestVersion 7 = some 0x12 ∧ helloInfo 0x12 2 = 0x00020712 := by decide +kernel
theorem meets_Hello : tRun.Takes 0 0x01 (tCmd 0x01 [(128, 3, 7)]) ∧ fld (tCmd 0x01 []) 128 3 = 0 :=
  ⟨takes_of (by decide +kernel), by decide +kernel⟩
def tDringSet : Block512 := tCmd 0x02 [(128, 9, 511), (144, 1, 1), (145, 5, 16), (150, 1, 1), (192, 64, 0x1000)]
theorem meets_DringSet : tRun.Accepts 0 0x02 tDringSet ∧ bit tDringSet 144 = true ∧ 6 ≤ fld tDringSet 145 5 ∧ fld tDringSet 145 5 ≤ 16 ∧
    fld tDringSet 192 64 % 4096 = 0 ∧ (tRun.dring 0 (fld tDringSet 128 9)).en = false ∧ tRun.noHostEnd 0 :=
  ⟨accepts_of (by decide +kernel), by decide +kernel, by decide +kernel, by decide +kernel, by decide +kernel, by decide +kernel,
    by unfold State.noHostEnd; decide +kernel⟩
theorem meets_TimeSet : tRun.Accepts 0 0x30 (tCmd 0x30 [(128, 4, 1), (192, 64, 5)]) ∧
    tRun.Accepts 0 0x30 (tCmd 0x30 [(128, 4, 2), (160, 32, 200000)]) ∧ signed 32 (fld (tCmd 0x30 [(128, 4, 2), (160, 32, 200000)]) 160 32) = 200000 ∧
    tRun.Accepts 0 0x30 (tCmd 0x30 [(128, 4, 3)]) ∧ fld (tCmd 0x30 [(128, 4, 3)]) 256 64 = 0 :=
  ⟨accepts_of (by decide +kernel), accepts_of (by decide +kernel), by decide +kernel, accepts_of (by decide +kernel), by decide +kernel⟩

theorem meets_CommandsWait : Hdr.opcode (tCmd 0x11 []) = 0x11 ∧ (tRun.func 9).running = false ∧ (tRun.func 9).cmdPi = (tRun.func 9).cmdCi ∧
    ({ tRun with errs := { frozen := true } } : State).errs.frozen = true ∧ tRun.rst.control = true ∧ tRun.nextRing ≠ some 1 ∧
    (tRun.setFunc 0 { tRun.func 0 with inflight := [⟨0, 0, 0x12, 0⟩], cmdPi := 2 }).fetches 0 (tCmd 0x11 [(32, 1, 1)]) = true ∧
    Hdr.fence (tCmd 0x11 [(32, 1, 1)]) = true ∧ (0 : Nat) < ({ tRun with cmdSerial := 1 } : State).cmdSerial := by decide +kernel

theorem meets_VfMayNot : tRun1.Accepts 1 0x11 (tCmd 0x11 [(128, 13, 1024)]) ∧ qidOf (tCmd 0x11 [(128, 13, 1024)]) / 512 ≠ 1 ∧
    tRun1.Accepts 1 0x11 (tCmd 0x11 [(128, 13, 511)]) ∧ qidOf (tCmd 0x11 [(128, 13, 511)]) / 512 ≠ 1 :=
  ⟨accepts_of (by decide +kernel), by decide +kernel, accepts_of (by decide +kernel), by decide +kernel⟩

/-! ## Queues, flags, marks and policies (spec/02 to spec/08) -/

def tReady : Queue := { tHostQ with st := .ready, segs := [0] }
def tOpen : Queue := { tHostQ with segs := [0] }
def tUpLink : Link := { phy := { st := .up, txIdle := false } }

/-- `QUEUE_BIND` of queue 8191 is legal at both bounds of its segments. -/
def tBind : Block512 := tCmd 0x10 [(128, 13, 8191), (148, 4, 15), (176, 8, 8), (184, 8, 8), (192, 16, 1), (208, 16, 32768)]
theorem meets_Bind : tRun.Accepts 0 0x10 tBind ∧ tRun.bindStatus 0 tBind = St.ok := ⟨accepts_of (by decide +kernel), by decide +kernel⟩

theorem meets_Open : ((tQ 5 tReady).setLink 0 tUpLink).Accepts 0 0x11 (tCmd 0x11 [(128, 13, 5)]) ∧ owns 0 5 = true ∧
    ((tQ 5 tReady).q 5).st = .ready ∧ ((tQ 5 tReady).q 5).hasRingEnd = false ∧ ((tQ 5 tReady).q 5).chained = false ∧
    (tQ 5 tReady).keysBound 5 = true ∧ ∀ l ∈ ((tQ 5 tReady).q 5).endLinks, (((tQ 5 tReady).setLink 0 tUpLink).link l).phy.st = .up :=
  ⟨accepts_of (by decide +kernel), by decide +kernel, by decide +kernel, by decide +kernel, by decide +kernel, by decide +kernel, by decide +kernel⟩

theorem meets_CloseDiscardResetRelease : (tQ 5 tOpen).Accepts 0 0x12 (tCmd 0x12 [(128, 13, 5)]) ∧
    (tQ 5 tOpen).Accepts 0 0x13 (tCmd 0x13 [(128, 13, 5)]) ∧ (tQ 5 tOpen).Accepts 0 0x14 (tCmd 0x14 [(128, 13, 5)]) ∧
    (tQ 5 tReady).Accepts 0 0x15 (tCmd 0x15 [(128, 13, 5)]) ∧ (tQ 5 tReady).Accepts 0 0x12 (tCmd 0x12 [(128, 13, 5)]) ∧
    ((tQ 5 tOpen).q 5).st = .opened ∧ ((tQ 5 tOpen).q 5).chained = false ∧ ((tQ 5 tReady).q 5).st = .ready ∧
    qidOf (tCmd 0x12 [(128, 13, 5)]) = 5 :=
  ⟨accepts_of (by decide +kernel), accepts_of (by decide +kernel), accepts_of (by decide +kernel), accepts_of (by decide +kernel),
    accepts_of (by decide +kernel), by decide +kernel, by decide +kernel, by decide +kernel, by decide +kernel⟩

theorem meets_Query : (tQ 5 tOpen).Accepts 0 0x16 (tCmd 0x16 [(128, 13, 5), (192, 64, 64)]) ∧
    fld (tCmd 0x16 [(128, 13, 5), (192, 64, 64)]) 192 64 = 64 := ⟨accepts_of (by decide +kernel), by decide +kernel⟩

/-- A READY queue without a host end has nothing to discard. -/
def tLinkReady : Queue := { tReady with b := { tReady.b with rend := .link 1 } }
theorem meets_DiscardEmpty : (tQ 5 tLinkReady).Accepts 0 0x13 (tCmd 0x13 [(128, 13, 5)]) ∧ owns 0 5 = true ∧
    ((tQ 5 tLinkReady).q 5).chained = false ∧ ((tQ 5 tLinkReady).q 5).hostEnd = false ∧ ((tQ 5 tLinkReady).q 5).st = .ready :=
  ⟨accepts_of (by decide +kernel), by decide +kernel, by decide +kernel, by decide +kernel, by decide +kernel⟩

def tGroupSet : Block512 := tCmd 0x17 [(128, 4, 15), (160, 16, 0), (176, 16, 32768)]
theorem meets_GroupSet : tRun.Accepts 0 0x17 tGroupSet ∧ fld tGroupSet 160 16 ≤ 32768 ∧ fld tGroupSet 176 16 ≤ 32768 ∧
    tRun.groupRsv (fld tGroupSet 128 4) ≤ fld tGroupSet 160 16 :=
  ⟨accepts_of (by decide +kernel), by decide +kernel, by decide +kernel, by decide +kernel⟩

/-- A forecast flag at its shortest lead, and AF at its smallest threshold for its hysteresis. -/
def tFlagSet : Block512 := tCmd 0x20 [(128, 13, 5), (144, 4, 7), (160, 21, 4), (192, 21, 4), (288, 16, 4), (304, 16, 4), (384, 20, 100)]
theorem meets_FlagSet : (tQ 5 tOpen).Accepts 0 0x20 tFlagSet ∧ owns 0 (qidOf tFlagSet) = true ∧ ((tQ 5 tOpen).q 5).st ≠ .unbound ∧
    fld tFlagSet 448 64 = 0 ∧ (flagCfgOf tFlagSet).enable = 7 ∧ (flagCfgOf tFlagSet).fafLead = 100 ∧
    (flagCfgOf tFlagSet).afHys = (flagCfgOf tFlagSet).afSet ∧ (flagCfgOf tFlagSet).fafHys = (flagCfgOf tFlagSet).fafSet ∧
    (flagCfgOf tFlagSet).afUnit = false :=
  ⟨accepts_of (by decide +kernel), by decide +kernel, by decide +kernel, by decide +kernel, by decide +kernel, by decide +kernel,
    by decide +kernel, by decide +kernel, by decide +kernel⟩

def tPinQ : Queue := { tOpen with b := { tOpen.b with msgMode := true, pin := true } }
def tPinSet : Block512 := tCmd 0x31 [(128, 13, 5), (144, 1, 1), (160, 32, 1000000000)]
theorem meets_PinSet : (tQ 5 tPinQ).Accepts 0 0x31 tPinSet ∧ owns 0 (qidOf tPinSet) = true ∧ ((tQ 5 tPinQ).q 5).b.pin = true ∧
    fld tPinSet 160 32 ≤ 1000000000 ∧ fld tPinSet 192 32 = 0 ∧ ((tQ 5 tPinQ).q 5).pin.horizon = 1000000000 ∧ fld tPinSet 256 64 = 0 :=
  ⟨accepts_of (by decide +kernel), by decide +kernel, by decide +kernel, by decide +kernel, by decide +kernel, by decide +kernel, by decide +kernel⟩

def tKerbQ : Queue := { tOpen with b := { tOpen.b with msgMode := true, kerb := true } }
def tPolicySet : Block512 := tCmd 0x38 [(128, 13, 5), (147, 1, 1), (152, 8, 1), (160, 21, 64), (192, 21, 64), (224, 21, 64), (256, 20, 100)]
theorem meets_PolicySet : (tQ 5 tKerbQ).Accepts 0 0x38 tPolicySet ∧ ((tQ 5 tKerbQ).q 5).b.kerb = true ∧ fld tPolicySet 144 2 = 0 ∧
    bit tPolicySet 146 = false ∧ fld tPolicySet 448 64 = 0 ∧ policyBad ((tQ 5 tKerbQ).q 5) (policyOf tPolicySet) = false :=
  ⟨accepts_of (by decide +kernel), by decide +kernel, by decide +kernel, by decide +kernel, by decide +kernel, by decide +kernel⟩

def tMarked : Queue := { tOpen with rptr := 128, wptr := 256, marks := tOpen.marks.set 3 { isSet := true, pos := 64 } }
def tMark (op : Nat) : Block512 := tCmd op [(128, 13, 5), (144, 2, 3)]
theorem meets_Mark : (tQ 5 tMarked).Accepts 0 0x28 (tMark 0x28) ∧ fld (tMark 0x28) 192 64 = 0 ∧ bit (tMark 0x28) 146 = false ∧
    bit (tMark 0x28) 147 = false ∧ bit (tMark 0x28) 148 = false ∧ ((tQ 5 tMarked).q 5).chained = false ∧ fld (tMark 0x28) 144 2 = 3 :=
  ⟨accepts_of (by decide +kernel), by decide +kernel, by decide +kernel, by decide +kernel, by decide +kernel, by decide +kernel, by decide +kernel⟩
theorem meets_Rewind : (tQ 5 tMarked).Accepts 0 0x29 (tMark 0x29) ∧ (((tQ 5 tMarked).q 5).markAt 3).isSet = true ∧
    (((tQ 5 tMarked).q 5).markAt 3).behind ((tQ 5 tMarked).q 5).rptr = true ∧ ((tQ 5 tMarked).q 5).rmsg = none ∧
    ((tQ 5 tMarked).q 5).st ≠ .closing ∧ (tQ 5 tOpen).Accepts 0 0x29 (tMark 0x29) ∧ (((tQ 5 tOpen).q 5).markAt 3).isSet = false ∧
    ((tQ 5 { tMarked with rmsg := some { start := 128, msn := 0 } }).q 5).rmsg ≠ none :=
  ⟨accepts_of (by decide +kernel), by decide +kernel, by decide +kernel, by decide +kernel, by decide +kernel,
    accepts_of (by decide +kernel), by decide +kernel, by decide +kernel⟩
theorem meets_ReleaseMark : (tQ 5 tMarked).Accepts 0 0x2A (tMark 0x2A) ∧ (((tQ 5 tMarked).q 5).markAt 3).isSet = true ∧
    ((tQ 5 tMarked).q 5).st ≠ .closing ∧ (tQ 5 tOpen).Accepts 0 0x2A (tMark 0x2A) ∧ (((tQ 5 tOpen).q 5).markAt 3).isSet = false :=
  ⟨accepts_of (by decide +kernel), by decide +kernel, by decide +kernel, accepts_of (by decide +kernel), by decide +kernel⟩
theorem meets_RewindTakesEffect : ((tQ 5 { tMarked with rewinds := [{ mark := 3, target := 64 }] }).q 5).rewinds = [{ mark := 3, target := 64 }] ∧
    ((tQ 5 { tMarked with rewinds := [{ mark := 3, target := 64 }] }).q 5).rmsg = none ∧ ({ mark := 3, target := 64 } : RewindWait).ref = none := by
  decide +kernel

theorem meets_Sweep : (tQ 8191 tOpen).coreRuns = true ∧ (tRun.q 8191).st = .unbound ∧
    ({ tRun with power := { tRun.power with cur := .sleep } } : State).coreRuns = false ∧ ((tQ 8191 tOpen).q 8191).st ≠ .unbound ∧ ((tQ 8191 tOpen).q 8191).fst.intervalValid = false ∧
    ((tQ 8191 { tOpen with fst := { intervalValid := true } }).q 8191).fst.intervalValid = true := by decide +kernel
def tWindows : Queue := { tKerbQ with fst := { window := some { changed := 1 } }, kerb := { window := some { msn := 1 } }
                                      pin := { window := some { msn := 1, count := 1, worst := 7 } } }
theorem meets_Intervals : ((tQ 5 tOpen).q 5).fst.window = none ∧ ((tQ 5 tOpen).q 5).kerb.window = none ∧ ((tQ 5 tOpen).q 5).pin.window = none ∧
    ((tQ 5 tWindows).q 5).fst.window = some { changed := 1 } ∧ ((tQ 5 tWindows).q 5).kerb.window = some { msn := 1 } ∧
    ((tQ 5 tWindows).q 5).pin.window = some { msn := 1, count := 1, worst := 7 } ∧
    ((tQ 5 { tOpen with fst := { window := some {} } }).q 5).fst.window = some {} := by decide +kernel

/-- 32 samples, one new; averages at 9/8 and at 3/4 of the target, where no clause but the middle one applies, and beyond each. -/
def tAdapt (avg : Nat) : Queue :=
  { tKerbQ with kerb := { policy := { adapt := true, target := 100, afMin := 1, afMax := 100, paceMax := 10 }, nsoj := 32, sampled := true, sojAvg := avg } }
theorem meets_Adaptation : ((tQ 5 (tAdapt 0)).q 5).b.kerb = true ∧ (tQ 5 (tAdapt 0)).rst.control = true ∧ (tQ 5 (tAdapt 0)).coreRuns = true ∧
    ((tQ 5 (tAdapt 0)).q 5).kerb.lastVisit < (tQ 5 (tAdapt 0)).mcount ∧
    1000 * 100 + 1000 * 100 / 8 < ((tQ 5 (tAdapt 112501)).q 5).kerb.sojAvg ∧ ((tQ 5 (tAdapt 74999)).q 5).kerb.sojAvg < 1000 * 100 - 1000 * 100 / 4 ∧
    1000 * 100 - 1000 * 100 / 4 ≤ ((tQ 5 (tAdapt 75000)).q 5).kerb.sojAvg ∧ ((tQ 5 (tAdapt 112500)).q 5).kerb.sojAvg ≤ 1000 * 100 + 1000 * 100 / 8 ∧
    ((tQ 5 tKerbQ).q 5).kerb.policy.adapt = false := by decide +kernel

def tAsk : Queue := { tOpen with segReq := true }
theorem meets_Segments : ((tQ 5 tAsk).q 5).segReq = true ∧ 0 < ((tQ 5 tAsk).setQ 5 { tAsk with segReq := false }).grantable 5 ∧
    (tQ 5 tAsk).plaza.pickSeg ((tQ 5 tAsk).q 5).b.affinity = some 0 ∧
    ((tQ 5 { tAsk with b := { tAsk.b with maxSeg := 1 } }).setQ 5 { tAsk with segReq := false, b := { tAsk.b with maxSeg := 1 } }).grantable 5 = 0 ∧
    ((tQ 5 tOpen).q 5).segReq = false ∧ ((tQ 5 { tOpen with segDenied := true, needRoom := true }).q 5).segDenied = true ∧
    ((tQ 5 tOpen).q 5).needRoom = false ∧ ((tQ 5 tOpen).q 5).wptr < ((tQ 5 tOpen).q 5).heldEnd ∧
    ((tQ 5 { tOpen with segDenied := true, segs := [], needRoom := false }).q 5).heldEnd ≤
      ((tQ 5 { tOpen with segDenied := true, segs := [], needRoom := false }).q 5).wptr := by decide +kernel

/-! ## Registers and maintenance (spec/13, spec/19) -/

theorem meets_CoreRegisterWrites : tRun.coreRuns = true ∧ tRun.mayWrite (.fn 0) 0x204 = true ∧ tRun.mayWrite (.fn 0) 0x1840 = true ∧
    tRun.mayWrite (.fn 0) 0x1864 = true ∧ bit 0x100#32 8 = true ∧ bit 0#32 8 = false := by decide +kernel
theorem meets_RegisterWrites : tRun.mayWrite (.fn 1) 0x204 = false ∧ tRun.mayWrite (.fn 0) 0x2100 = true ∧ tRun.mayWrite (.fn 0) 0x2038 = true ∧
    (0x2#16).toNat % 4 ≠ 0 ∧ ({ tRun with power := { tRun.power with cur := .sleep } } : State).fnReached 0 = true := by decide +kernel
theorem meets_ReadingTheTime : tRun.coreRuns = true ∧ tRun.fnReached 15 = true ∧ tRun.fnReached 0 = true := by decide +kernel

def tQuarter (i : Nat) (x : Quarter) : State := tRun.updQuarter i fun _ => x
theorem meets_MaintenanceStarts : tRun.quarterHeld 3 = false ∧ (tRun.plaza.quarter 3).act = none ∧ tRun.anyLive = false ∧
    fld 0xF00#32 8 4 ≠ 0 ∧ fld 0xF00#32 12 4 = 0 ∧ bit 0xF00#32 16 = false ∧ fld 0xF000#32 12 4 ≠ 0 ∧ fld 0xF000#32 8 4 = 0 ∧
    bit 0x10000#32 16 = true ∧ fld 0x1100#32 8 4 ≠ 0 ∧ fld 0x1100#32 12 4 ≠ 0 ∧
    ({ tQ 5 tOpen with plaza := { tRun.plaza with owner := [(0, 6)] } } : State).quarterHeld 0 = true ∧
    ({ tQ 5 tOpen with plaza := { tRun.plaza with owner := [(0, 6)] } } : State).anyLive = true := by decide +kernel

theorem meets_MaintenanceEnds : ((tQuarter 3 { act := some .wipe }).plaza.quarter 3).act = some .wipe ∧
    ((tQuarter 3 { act := some .wipe }).plaza.quarter 3).pend = [] ∧ tRun.plaza.releases = [] ∧ tRun.plaza.jobs = [] ∧
    ({ tRun with plaza := { ksweepRun := true, ksweepHost := true } } : State).plaza.ksweepRun = true ∧
    (tQuarter 3 { zeroing := [32767] }).plaza.dirty 32767 = true ∧
    (({ tRun with power := { tRun.power with cur := .idle } } : State).setFunc 0 { tRun.func 0 with vote := 1 }).mayRest 3 = true := by decide +kernel

theorem meets_ScrubVisits : ({ tRun with plaza := { owner := [(32767, 6)] } } : State).scrubVisits 3 31 65535 = some 2097095 ∧
    ({ tRun with plaza := { owner := [(0, 6)] } } : State).scrubVisits 0 0 0 = some 0 ∧
    tRun.quarterAct 3 = 4 ∧ (tRun.updQuarter 3 fun _ => { act := some .wipe }).quarterAct 3 ≠ 4 := by decide +kernel

/-! ## Links, ring sides and training (spec/09, spec/10, spec/11) -/

/-- Link 0 or the east side in a state of training; link 0's LINK_CFG enables it with the reset fields. -/
def tPhy (x : PhyState) : State := tRun.setLink 0 { cfg := 0x69, phy := x }
def tEast (x : RingSide) : State := { tRun with ring := { tRun.ring with cfg := 0x30, east := x } }

theorem meets_LinkSettings : tRun.coreRuns = true ∧ bit 0x69#32 0 = true ∧ bit 0x69#32 8 = false ∧ tRun.linkPresent 4 = true ∧
    (tRun.link 4).phy.st = .disabled ∧ tRun.phyPowered (.link 4) = true ∧ fld 0x69#32 2 2 ≠ 3 ∧ fld 0x69#32 2 2 ≠ 0 ∧
    fld 0x63#32 2 2 = 0 ∧ bit 0x63#32 1 = true ∧ bit 0x68#32 0 = false ∧ ((tPhy { st := .lock }).link 0).phy.st = .lock ∧
    bit 0x169#32 8 = true ∧ bit 0x169#32 0 = ((tPhy { st := .lock }).link 0).en ∧ fld 2#32 0 2 = 2 ∧ fld 3#32 0 2 = 3 ∧
    (∀ j, j < 4 → (tRun.link (4 + j)).en = false) ∧ tRun.queues = [] ∧ (tPhy {}).link 0 = { cfg := 0x69 } ∧
    ((tPhy {}).link 0).en = true := by decide +kernel

theorem meets_RingSettings : tRun.coreRuns = true ∧ tRun.ring.east.phy.st = .disabled ∧ tRun.ring.west.phy.st = .disabled ∧
    tRun.phyPowered (.side .east) = true ∧ bit 0x10#32 4 = true ∧ bit 0x10#32 5 = false ∧ bit 0x10#32 7 = false ∧ bit 0x10#32 8 = false ∧
    bit 0x180#32 7 = true ∧ bit 0x180#32 8 = true ∧ bit 0x180#32 4 = false ∧ bit 0x180#32 5 = false ∧
    ({ tRun with ring := { cfg := 0x30, east := { phy := { st := .lock } }, west := { phy := { st := .ready } } } } : State).ring.west.phy.st = .ready ∧
    bit 0x70#32 4 = bit 0x30#32 4 ∧ bit 0x70#32 5 = bit 0x30#32 5 ∧ bit 0x70#32 7 = false ∧ bit 0x70#32 8 = false := by decide +kernel

/-- One lane of every number done in phase 1, LOCK; the receiver is done too. -/
def tDone : PhyState := { st := .lock, done := true, lanes := (List.range 16).map fun i => (i, { done := true, phase := 1 }) }
theorem meets_TrainingPassesItsPhases : (tPhy { st := .sigdet }).phyPowered (.link 0) = true ∧ (tPhy { st := .sigdet }).phyEn (.link 0) = true ∧
    ((tPhy { st := .sigdet }).phy (.link 0)).st = .sigdet ∧ ((tPhy { st := .sigdet }).readTrainCfg (.link 0)).illegal = false ∧
    ((tPhy { st := .eq }).phy (.link 0)).st = .eq ∧ (tPhy tDone).mayAdvance (.link 0) = true ∧ ((tPhy tDone).phy (.link 0)).cfgWait = false ∧
    ((tPhy tDone).phy (.link 0)).st = .lock ∧ ((tPhy { st := .ready, dataMode := true }).phy (.link 0)).st = .ready ∧
    ((tPhy { st := .ready, dataMode := true }).phy (.link 0)).dataMode = true ∧ ((tPhy { st := .reset }).phy (.link 0)).st = .reset ∧
    (tPhy { st := .reset }).phyEn (.link 0) = true ∧ (tPhy { st := .reset }).phyPowered (.link 0) = true ∧
    ((tEast { phy := { st := .reset } }).phy (.side .east)).st = .reset ∧ (tEast { phy := { st := .reset } }).phyEn (.side .west) = true ∧
    ({ tEast {} with power := { tRun.power with domains := 1 } } : State).phyPowered (.side .east) = false := by decide +kernel

/-- A valid training block of the given phase. -/
def tBlock (p : Nat) : BitVec 64 :=
  BitVec.ofNat 64 (packNat [(0, 8, 0xE1), (12, 3, p)] + 2 ^ 56 * crc8 (packNat [(0, 8, 0xE1), (12, 3, p)]) 0 56)
def tEq : State := tPhy { st := .eq }
theorem meets_TrainingBlocks : (tEq.phy (.link 0)).training = true ∧ (tEq.phy (.link 0)).dataMode = false ∧ tEq.phyLanes (.link 0) = 16 ∧
    tEq.polarised (.link 0) 15 0 = none ∧ tEq.polarised (.link 0) 15 (tBlock 2) = some (tBlock 2, false) ∧ Tb.phase (tBlock 2) ≠ 0 ∧
    tEq.polarised (.link 0) 15 (tBlock 0) = some (tBlock 0, false) ∧ Tb.phase (tBlock 0) = 0 ∧ (tEq.phy (.link 0)).st = .eq ∧
    tEq.polarised (.link 0) 0 (invertBlock false (tBlock 2)) = some (tBlock 2, true) ∧ (tEq.readTrainCfg (.link 0)).illegal = false := by
  decide +kernel

theorem meets_TrainingFailures : ((tPhy { st := .caps }).readTrainCfg (.link 0)).illegal = false ∧ ((tPhy { st := .caps }).phy (.link 0)).training = true ∧
    ((tPhy { cfgWait := true }).phy (.link 0)).cfgWait = true ∧ (tPhy { cfgWait := true }).phyEn (.link 0) = true ∧
    ((tPhy { st := .up }).phy (.link 0)).st = .up ∧ ((tPhy { cfgWait := true }).readTrainCfg (.link 0)).illegal = false := by decide +kernel

/-! ## Time base, event cells and Kiosk (spec/07, spec/03, spec/13) -/

/-- The time base e nanoseconds off the whole second when the stamped edge passed; both compensations are 0. -/
def tPps (e : Int) (x : TimeBase) : State :=
  { tRun with time := { x with running := true, ppsArm := false, ctrl := 0x321, tb := ((5000000010 + e).toNat) * 2 ^ 32 } }
def tPpsB (e : Int) (s : State) : Bool :=
  !s.time.ppsArm && s.time.running && bit s.time.ctrl 0 && decide (-500000000 < e) && decide (e ≤ 500000000) &&
    decide ((s.tbNs - 10 - signed 16 (fld s.time.comp 0 16) - e) % 1000000000 = 0)
theorem meets_TimeBaseFollowsThePulse :
    (tPpsB 500000000 (tPps 500000000 { tod := some { ref := none, value := 7000000000, result := 0 } })) = true ∧
    tPpsB (-499999999) (tPps (-499999999) {}) = true ∧ tPpsB 51 (tPps 51 {}) = true ∧ tPpsB 50 (tPps 50 { good := 1, todDone := true }) = true ∧
    tPpsB (-50) (tPps (-50) { good := 1 }) = true ∧ tPpsB 1000 (tPps 1000 { lock := .locked }) = true ∧
    tPpsB (-1000) (tPps (-1000) { lock := .holdover }) = true ∧ tPpsB 1001 (tPps 1001 { lock := .locked, rej := 3 }) = true ∧
    tPpsB 1001 (tPps 1001 { lock := .holdover, rej := 2 }) = true ∧ (tPps 51 {}).time.lock = .unlocked ∧ (tPps 51 {}).time.tod = none := by
  decide +kernel

theorem meets_TimeBaseAndCellEvents : tRun.time.ppsArm = true ∧ ({ tRun with time := { lock := .locked } } : State).time.lock = .locked ∧
    (tPps (-10) { ctrl := 0 }).time.running = true ∧
    ({ tRun with time := { tRun.time with running := true, lock := .locked, todDone := true, tb := 5 * 1000000000 * 2 ^ 32, ctrl := 0x322 } } : State).time.atSecond = true ∧
    ({ tRun with time := { tRun.time with running := true, lock := .locked, todDone := true, tb := 5 * 1000000000 * 2 ^ 32, ctrl := 0x322 } } : State).time.ppsoEnabled = true ∧
    tRun.time.tod = none ∧ (∀ c, c < 24 → tRun.cellTakes c = true) ∧ (tPps 0 {}).cellTakes 24 = true ∧
    ({ tRun with time := { ppsArm := false } } : State).time.running = false ∧
    (SMap.get {} ({ tRun with cells := [(24, { outstanding := true, pending := 255 })] } : State).cells 24).loss = false ∧
    (SMap.get {} ({ tRun with cells := [(24, { outstanding := true, pending := 254 })] } : State).cells 24).pending < 255 ∧
    (SMap.get {} tRun.cells 24).outstanding = false := by decide +kernel
def tTodRef : CmdRef := { fn := 0, id := 0, opcode := 0x30, tag := 0 }
theorem meets_TimeSetTimeout : ({ tRun with time := { tod := some { ref := some tTodRef, value := 0, result := 0 } } } : State).time.tod =
    some { ref := some tTodRef, value := 0, result := 0 } := by decide +kernel

theorem meets_KioskBarAccesses : tRun.barReached = true ∧ tRun.coreRuns = true ∧
    ({ tRun with power := { tRun.power with cur := .sleep } } : State).barReached = true ∧ BarOp.supported .swap 4 0x3FFFC = false ∧
    BarOp.supported .cas 8 0x3FFF8 = false ∧ tRun.kiosk.writes = [] ∧ SMap.get false tRun.kiosk.bad 32767 = false ∧
    (0x3FFF8#18).toNat % 8 = 0 ∧ (0x3FFF8#18).toNat / 8 = 32767 ∧ (0x3FFFC#18).toNat % 8 ≠ 0 := by decide +kernel
def tKlink (ver : Nat) (win : BitVec 32) : State :=
  { tRun.setLink 7 { phy := { st := .up, ver := ver } } with kiosk := { win := [(7, win)] } }
/-- A window over the last 256 words that allows every operation, and one over all words that allows none. -/
theorem meets_KioskRequests : (tKlink 0 0).linkLive 7 = true ∧ ((tKlink 0 0).link 7).phy.ver = 0 ∧ (tKlink 2 0xF87F00#32).linkLive 7 = true ∧
    ((tKlink 2 0xF87F00#32).link 7).phy.ver ≠ 0 ∧ bit 0xF87F00#32 23 = true ∧ Kwin.covers 0xF87F00#32 32767 = true ∧
    Kwin.covers 0xF87F00#32 32512 = true ∧ Kwin.covers 0xF87F00#32 32511 = false ∧ (∀ o, o < 4 → Kwin.allows 0xF87F00#32 (kopOf o) = true) ∧
    (∀ o, o < 4 → Kwin.allows 0x8F0000#32 (kopOf o) = false) ∧ (tKlink 2 0xF87F00#32).kiosk.writes = [] := by decide +kernel

/-! ## Power (spec/14) -/

/-- A request to Sleep by function 0, and the state while it runs. -/
def tPwr (p : Power) : State := { tRun with power := p }
def tReq (p : PState) : PwrReq := { target := p, force := false, id := some 5 }
def tNoVotes : State := tRun.setFunc 0 { tRun.func 0 with vote := 0 }
theorem meets_PowerRequests : tRun.mayWrite (.fn 0) 0x2000 = true ∧ tRun.mayWrite .svc 0x2000 = true ∧ tRun.power.running = none ∧ tRun.power.cur = .run ∧
    fld 0x501#32 0 3 = 1 ∧ fld 0x500#32 0 3 = 0 ∧ (tPwr { domains := 63, cur := .idle }).mayWrite (.fn 0) 0x2000 = true ∧
    pstateOf (fld 0x502#32 0 3) = some .sleep ∧ tNoVotes.mayWrite (.fn 0) 0x2000 = true ∧ tNoVotes.refusal { target := .sleep, force := bit 0x502#32 3, id := some (fld 0x502#32 8 8) } = none ∧
    tNoVotes.refusal (tReq .deepSleep) = none ∧ tNoVotes.refusal (tReq .off) = none ∧ tRun.refusal (tReq .sleep) = some (St.badState, some 0) ∧
    ((tNoVotes.setQ 5 tReady).refusal (tReq .off)) = some (St.badState, none) ∧
    (tPwr { domains := 63, cur := .sleep }).mayWrite (.fn 0) 0x2000 = true ∧
    (tPwr { domains := 63, running := some (tReq .sleep) }).mayWrite (.fn 0) 0x2000 = true ∧ 5 ≤ fld 7#32 0 3 ∧ 5 ≤ fld 5#32 0 3 ∧
    (tPwr { domains := 63, pend := some (tReq .idle) }).power.running = none := by decide +kernel

theorem meets_PowerEntriesAndExits : (tPwr { domains := 63, running := some (tReq .sleep) }).entryReady .sleep = true ∧
    (tPwr { domains := 63, running := some (tReq .deepSleep) }).entryReady .deepSleep = true ∧
    (tPwr { domains := 63, running := some (tReq .off) }).entryReady .off = true ∧
    (tPwr { domains := 0x23, cur := .sleep, exiting := true, running := some { target := .run } }).power.exiting = true ∧
    (tRun.func 0).heldWrites = [] ∧ tRun.host.stalled = [] ∧ bit (0x23#6) 0 = true ∧ tRun.rst.trimValid = true ∧
    (tPwr { cur := .deepSleep, exiting := true, running := some { target := .run } }).power.vrPg = true ∧
    (tPwr { cur := .off, exiting := true, running := some { target := .run } }).power.vrPg = true ∧ tRun.rst.active = none := by
  decide +kernel

theorem meets_WakeSources : (tPwr { cur := .sleep }).power.running = none ∧ tRun.rst.recovery = false ∧
    bit (({ tPwr { cur := .sleep } with links := [(7, { cfg := 0xE9 })] } : State).link 7).cfg 7 = true ∧
    ({ tPwr { cur := .sleep } with links := [(4, { cfg := 0xE9 })] } : State).linkPresent 4 = true ∧
    bit (({ tPwr { cur := .sleep } with links := [(4, { cfg := 0xE9 })] } : State).link 4).cfg 7 = true ∧ (tPwr { cur := .off }).power.running = none ∧
    ({ tPwr { cur := .sleep, wsenseCfg := 0x100 } with nv := {} } : State).senseActs = true ∧
    (tPwr { cur := .sleep, wsenseCfg := 0x100 }).power.senseMv < (0xFFF#12).toNat ∧ (0#12).toNat ≤ (tPwr { cur := .sleep, wsenseCfg := 0x100 }).power.senseMv ∧
    (tPwr { running := some (tReq .sleep) }).power.exiting = false ∧ (tPwr { running := some (tReq .sleep) }).power.pend = none ∧
    tRun.power.cur = .run ∧ tRun.power.running = none := by decide +kernel

theorem meets_VotesPowerDomains : (∀ d ∈ [2, 3, 4], tRun.voted d = true) ∧ tRun.fnReached 15 = true ∧
    (tRun.setFunc 0 { tRun.func 0 with vote := 0 }).voted 2 = false ∧ (tRun.setFunc 0 { tRun.func 0 with vote := 0 }).leadRuns 2 = false ∧
    tRun.votesAct = true ∧ bit tRun.power.domains 4 = true ∧
    (tRun.setLink 7 tUpLink).linkLive 7 = true ∧ ((tRun.setLink 7 tUpLink).updLink 7 fun x => { x with votes := 63 }).voted (linkDomain 7) = true ∧
    (((tRun.setFunc 0 { tRun.func 0 with vote := 0 }).setLink 7 tUpLink).updLink 7 fun x => { x with votes := 0 }).voted (linkDomain 7) = false ∧
    tRun.leadRuns (portDomain .a) = false ∧ (tRun.setLink 7 { tUpLink with idleLead := true }).leadRuns (portDomain .b) = true ∧
    tRun.leads (portDomain .a) = [] ∧ (tRun.setLink 7 { tUpLink with idleLead := true }).leads (portDomain .b) = [.link 7] ∧
    noticedBy 7 false = [4, 5, 6] ∧ noticedBy 7 true = [4, 5, 6, 7] ∧ tRun.linkLive 7 = false ∧
    ((tRun.setLink 7 { tUpLink with idleLead := true }).endLead (.link 7)).voted (portDomain .b) = true ∧
    (((tRun.setFunc 0 { tRun.func 0 with vote := 0 }).setLink 7 { tUpLink with idleLead := true }).endLead (.link 7)).voted (portDomain .b) = false ∧
    (tPwr { domains := 63, cur := .run, running := some { target := .sleep } }).power.entering = true ∧
    (tRun.link 6).phy.st ≠ .up ∧ tRun.power.cur ≠ .idle ∧
    tRun.power.entering = false ∧ tRun.rst.recovery = false ∧ (tPwr { domains := 1 }).coreRuns = true ∧
    bit (tPwr { domains := 1 }).power.domains 5 = false ∧ (tPwr { domains := 1 }).voted 5 = true ∧
    ((tRun.setLink 7 tUpLink).link 7).phy.st = .up ∧ (tPwr { domains := 63, cur := .idle }).datapathQuiet = true := by decide +kernel

theorem meets_RegulatorCommands : (tPwr { cur := .deepSleep, exiting := true, vrPg := false }).power.vrOn = true ∧
    (tPwr { cur := .deepSleep, exiting := true, vrPg := false, vrTries := 1 }).power.vrPg = false ∧
    (tPwr { cur := .deepSleep, exiting := true, vrOn := false, vrTries := 1 }).power.vrOn = false ∧
    tRun.avsMay 850 = true ∧ tRun.avsMay 700 = true ∧ tRun.avsMay 855 = false ∧
    (tPwr { domains := 63, avsPrev := some (750, false) }).power.avsPrev = some (750, false) ∧
    (tPwr { domains := 63, avsPrev := some (750, true), pmbRetry := 2 }).power.avsPrev.isSome = true ∧ tRun.power.avsPrev = none ∧
    tRun.coreRuns = true ∧ tRun.power.alertHoldoff = false ∧ (tPwr { alertHoldoff := true }).power.alertHoldoff = true := by decide +kernel

/-! ## Resets, starts and dumps (spec/15, spec/17, spec/18) -/

theorem meets_ResetSources : tRun.rst.active = none ∧ fld 0x5A01#32 8 8 = 0x5A ∧ tRun.mayWrite .svc 0x210C = true ∧ bit 0x5A01#32 0 = true ∧
    bit 0x5A02#32 0 = false ∧ bit 0x5A02#32 1 = true ∧ tRun.railOn .vdd = true ∧ tRun.railOn .vserh = true ∧
    ({ tRun with fw := { trial := true } } : State).fw.trial = true ∧ tRun.fw.healthOk = false ∧ tRun.rst.control = true ∧ tRun.coreRuns = true ∧
    tRun.rst.recovery = false ∧ tRun.rst.wdogAt = none ∧
    ({ tRun with rst := { tRun.rst with wdogAt := some 0 }, cyc := cyclesPerSecond } : State).cyc ≤ 0 + cyclesPerSecond ∧
    0 + cyclesPerSecond < ({ tRun with rst := { tRun.rst with wdogAt := some 0 }, cyc := cyclesPerSecond + 1 } : State).cyc ∧
    ({ tRun with rst := { tRun.rst with active := some (.system, Cause.pin) } } : State).rst.active = some (.system, Cause.pin) := by decide +kernel

def tRst (r : Reset) : State := { State.reset with rst := r }
theorem meets_TrimLoad : State.reset.rst.trimRun = true ∧ State.reset.rst.active.isSome = true ∧ State.reset.rst.rstN = true ∧
    State.reset.rst.trimValid = false ∧ (tRst { rstN := false }).rst.rstN = false ∧ State.reset.rst.active = some (.por, 0) ∧
    (tRst { trimValid := true, active := some (.system, 31) }).rst.trimValid = true ∧ (tRst { active := some (.core, 8) }).rst.active = some (.core, 8) := by
  decide +kernel

/-- A system reset has ended and the ROM code may start an image. -/
def tRom (dir : List DirRec) (n : Nat) : State := { tRun with rst := { tRun.rst with booted := false, bootcnt := n }, fw := { dir := dir } }
theorem meets_Starts : (tRom [] 3).romReady = true ∧ (tRom [] 3).nv.lc ≠ Lc.scrapped ∧ newestRec (tRom [] 3).fw.dir = none ∧
    (tRom [] 3).imageOk true true 0 = true ∧ (tRom [] 3).rst.bootcnt < 4 ∧ 4 ≤ (tRom [] 4).rst.bootcnt ∧ (tRom [] 4).romReady = true ∧
    newestRec (tRom [⟨Dir.set, 1, 0, 1, 0⟩] 0).fw.dir = some ⟨Dir.set, 1, 0, 1, 0⟩ ∧ (tRom [⟨Dir.set, 1, 0, 1, 0⟩] 0).imageOk true true 1 = true ∧
    newestRec (tRom [⟨Dir.arm, 1, 0, 1, 0⟩] 0).fw.dir = some ⟨Dir.arm, 1, 0, 1, 0⟩ ∧ (tRom [] 0).imageOk false false 0 = false ∧
    (tRom [] 0).imageOk false false 1 = false ∧ tRun.fwRuns = true ∧ tRun.fw.cfgApplied = false ∧ tRun.fw.copyInUse = none ∧
    ({ tRun with fw := { copy1 := { valid := true, seq := 1 } } } : State).fw.copyInUse = some 1 ∧ bit 1#32 0 = true ∧
    ({ tRun with fw := { cfgApplied := true } } : State).fw.startIdx = none ∧
    ({ tRun with fw := { cfgApplied := true, sweepDone := true } } : State).healthy = true ∧
    ({ tRun with fw := { cfgApplied := true, sweepDone := true, trial := true, slot := 1, slotB := { svn := 3, flags := 2 } } } : State).healthy = true ∧
    tRun.rst.rstStateN = true := by decide +kernel
/-- `VOUT_MODE` in the linear format, and in another; a full directory sector. -/
theorem meets_Starts_vout : (tRom [] 3).power.voutRead = false ∧ ((tRom [] 3).readVoutMode 0x14).romReady = true ∧ ((tRom [] 3).readVoutMode 0x14).rst.bootcnt = 3 ∧
    ((tRom [] 3).readVoutMode 0x40).romReady = true ∧ tRun.romReady = false ∧ (0x14#8).toNat < 32 ∧ ¬ (0x40#8).toNat < 32 ∧
    ({ tRun with fw := { cfgApplied := true, sweepDone := true, trial := true, dir := List.replicate 512 ⟨Dir.arm, 1, 0, 1, 0⟩ } } : State).healthy = true ∧
    tRun.fw.dir.length < 512 ∧ tRun.fw.healthOk = false ∧ (List.replicate 512 (⟨Dir.arm, 1, 0, 1, 0⟩ : DirRec)).length = 512 := by decide +kernel
theorem meets_Starts_ready : tRun.host.stalled = [] ∧ (∀ g, (tRun.func g).fenced = [] ∧ (tRun.func g).latched = [] ∧ (tRun.func g).heldWrites = [] ∧ (tRun.func g).aborted = []) ∧
    ({ tRun with rst := { tRun.rst with ctlReturn := true } } : State).coreRuns = true ∧ fld tRun.rst.cause 24 5 ≠ Cause.wdcore ∧
    tRun.rst.booted = true ∧ tRun.rst.ioHeld = false := by
  refine ⟨rfl, fun g => ?_, by decide +kernel⟩
  simp only [State.func, tRun, SMap.get]
  split
  · exact ⟨rfl, rfl, rfl, rfl⟩
  · split <;> exact ⟨rfl, rfl, rfl, rfl⟩

def tDump (e : Errors) : State := { tRun with errs := { e with frozen := true } }
theorem meets_FatalDumps : (tDump {}).errs.frozen = true ∧ (tDump {}).rst.active = none ∧ (tDump {}).errs.dumping = false ∧ (tDump {}).fwRuns = true ∧
    (tDump { dumpBase := 0x1040000001 }).errs.dumpBase % 2 = 1 ∧ (tDump {}).errs.dumpBase % 2 = 0 ∧ (tDump {}).errs.half0 = true ∧
    (tDump { half0 := false }).errs.half1 = true ∧ (tDump { half0 := false, half1 := false }).errs.half1 = false ∧
    (tDump { dumping := true, dumpTo := Dest.host }).errs.dumping = true := by decide +kernel

/-! ## Service port, Warden monitor (spec/17) -/

theorem meets_ServiceRequests : tRun.fw.svcState ≠ 1 ∧ tRun.svcUp true = true ∧ tRun.svcUp false = true ∧ tRun.nv.lc ≠ Lc.scrapped ∧
    tRun.svcUp (aonReg 0xFFFF) = true ∧ lcMayRead tRun.nv.lc 0 = true ∧ svcMayWrite tRun.rst.recovery 4 = false ∧ tRun.rst.active = none ∧
    tRun.rst.recovery = false ∧ ({ tRun with rst := { tRun.rst with recovery := true } } : State).svcUp false = true ∧
    (tBytes 144).length = 144 ∧ (tRun.keyMessage .service (tBytes 144)).1.rst.active = none ∧
    svcCrc 0x01 0 [] ≠ 0 ∧ svcCrc 0x01 0 [] ≠ svcCrc 0x30 0 [] := by decide +kernel

/-- A package header of a kind, image or config store, with a body of the given length, for this device, under no key slot. -/
def tPkg (kind len : Nat) : List Byte :=
  toBytes 512 (packNat [(0, 32, 0x4B50514C), (32, 8, 1), (40, 8, kind), (56, 8, 0xFF), (64, 16, 0x8192), (88, 8, 0xFF), (320, 32, len)])
def tUp (x : Upload) : State := { tRun with fw := { tRun.fw with upload := some x }, nv := { tRun.nv with woritHash := Config.sha384 ((x.header.drop 92).take 97) } }
theorem meets_Packages : tRun.svcUp false = true ∧ tRun.fw.svcState ≠ 1 ∧ (tPkg 1 1).length = 512 ∧ le (tPkg 1 1) 5 1 = 1 ∧ le (tPkg 2 24) 5 1 = 2 ∧
    tRun.rst.recovery = false ∧ (tUp { header := tPkg 1 512 }).fw.upload = some { header := tPkg 1 512 } ∧ (toBytes 4 0).length = 4 ∧
    ofBytes (toBytes 4 0) = 0 ∧ (tBytes 512).length ≤ 512 ∧ 0 + (tBytes 512).length ≤ le (tPkg 1 512) 40 4 ∧ (tBytes 1).length = le (tPkg 1 1) 40 4 ∧
    ({ tRun with fw := { tRun.fw with upload := some { header := tPkg 1 1, erasing := true }, svcState := 1 } } : State).fw.svcState = 1 ∧
    ({ tRun with fw := { tRun.fw with actReset := true } } : State).fw.actReset = true := by decide +kernel

theorem pkgCheck_passes {s : State} {h : List Byte} {body : Option (List Byte)} (h1 : pkgMalformed h = false) (h2 : Pkg.authSlot h = 0xFF)
    (h3 : s.power.pwrfailN = true) (h4 : s.nv.ownerLock = false) (h5 : s.pkgBusy false = false) (h6 : s.pkgWrongDevice h = false)
    (h7 : s.pkgAuthentic h body = true) (h8 : s.pkgForbidden h = false) : s.pkgCheck h false body = (s, St.ok) := by
  simp [State.pkgCheck, firstFail, h1, h2, h3, h4, h5, h6, h7, h8]
theorem tPkg_fits : ∀ k ∈ [1, 2], pkgMalformed (tPkg k 24) = false ∧ Pkg.authSlot (tPkg k 24) = 0xFF ∧ tRun.pkgWrongDevice (tPkg k 24) = false ∧
    tRun.pkgForbidden (tPkg k 24) = false := by decide +kernel
/-- Wherever the signature primitive accepts the header, the checks of `PKG_BEGIN` pass, for an image and for a config store; where the
two primitives accept header and body, so do those of `PKG_END`. -/
theorem meets_PkgCheck (k : Nat) (hk : k ∈ [1, 2]) (b : List Byte)
    (h : Config.ecdsaVerify (((tPkg k 24).drop 92).take 97) ((tPkg k 24).take 192) (((tPkg k 24).drop 192).take 96) = true) :
    (tUp { header := tPkg k 24, body := b }).pkgCheck (tPkg k 24) false none = (tUp { header := tPkg k 24, body := b }, St.ok) ∧
    ((Config.sha384 b).toNat = le (tPkg k 24) 44 48 →
      (tUp { header := tPkg k 24, body := b }).pkgCheck (tPkg k 24) false (some b) = (tUp { header := tPkg k 24, body := b }, St.ok)) := by
  obtain ⟨h1, h2, h3, h4⟩ := tPkg_fits k hk
  refine ⟨pkgCheck_passes h1 h2 rfl rfl rfl h3 ?_ h4, fun hb => pkgCheck_passes h1 h2 rfl rfl rfl h3 ?_ h4⟩
  · simp [State.pkgAuthentic, State.pkgHashOk, h2, h, tUp]
  · simp [State.pkgAuthentic, State.pkgHashOk, h2, h, hb, tUp]

/-- The monitor in a life cycle, at a measured rate. -/
def tWarden (lc : Nat) : State := { tRun with nv := { lc := lc }, fw := { tRun.fw with baud := some 115200 } }
theorem meets_Warden : (tWarden 0).fw.baud.isSome = true ∧ (tWarden 0).rst.active = none ∧ (tWarden 0).rst.ctlReturn = false ∧ (tWarden 3).nv.lc < 4 ∧
    4 ≤ (tWarden 4).nv.lc ∧ (tWarden 0).coreRuns = true ∧ 0xFFFC % 4 = 0 ∧ 0xFFFC + 4 * (none : Option Nat).getD 1 ≤ 65536 ∧
    0xFF00 + 4 * (some 64).getD 1 ≤ 65536 ∧ ((tWarden 0).accessWrite .warden 0x204 7#32).rst.active = none ∧
    ¬ (0x10000 % 4 = 0 ∧ 0x10000 < 65536 ∧ 7 < 2 ^ 32) ∧ 32767 + 1 ≤ wardenWords .kiosk ∧ (tWarden 1).nv.lc ≠ 0 ∧ (tWarden 1).nv.lc ≠ 3 := by
  decide +kernel

/-! ## Host data rings (spec/12), bursts and control words (spec/10) -/

/-- Function 0's data ring 511 has one descriptor, and a queue uses it at the end named. -/
def tData (q : Queue) : State := (tRun.setDring 0 511 { en := true, log2 := 6, pi := 1 }).setQ 5 q
def tWrite : Queue := { tOpen with b := { tOpen.b with wend := .host, rend := .link 0, wring := 511 } }
def tFull : Queue := { tWrite with segs := [], b := { tWrite.b with maxSeg := 0 } }
/-- 64 stored bytes to read. -/
def tReadQ : Queue := { tOpen with wptr := 64, b := { tOpen.b with rring := 511 } }
def tLen (n : Nat) : BitVec 256 := BitVec.ofNat 256 (n * 2 ^ 64)
def tRtv : BitVec 256 := BitVec.ofNat 256 (8 * 2 ^ 64 + 2 ^ 82)
/-- The ring's turn at queue 5, as a descriptor that it serves leaves it. -/
def tTurn (s : State) : State := s.setDring 0 511 { s.dring 0 511 with turn := 5 }
theorem meets_HostData : (tData tWrite).ringServes 0 511 = true ∧ (tData tWrite).ringWriter 0 511 = some 5 ∧ ((tData tWrite).q 5).pair.shadow = false ∧ ((tData tWrite).q 5).st = .opened ∧
    ((tData tWrite).q 5).b.msgMode = false ∧ ((tData tWrite).q 5).b.kerb = false ∧ ((tData tWrite).q 5).wmsg = none ∧
    ((tData tWrite).q 5).descBad (tLen 8) = false ∧ (((tData tWrite).q 5).plan true (tBytes 8)).needEnd ≤ ((tData tWrite).q 5).heldEnd ∧
    (((tData tWrite).q 5).plan true (tBytes 8)).bytes.length = 8 ∧
    (List.range 8).all (fun j => (List.range j).all fun i => ((tData tWrite).q 5).addr i != ((tData tWrite).q 5).addr j) = true ∧
    (tData tFull).ringWriter 0 511 = some 5 ∧ ((tData tFull).q 5).heldEnd < (((tData tFull).q 5).plan true (tBytes 8)).needEnd ∧
    ((tData tFull).q 5).b.maxSeg ≤ ((tData tFull).q 5).segs.length ∧ ((tData tWrite).q 5).descBad tRtv = true ∧
    ((tData tReadQ).ringReaders 0 511 ((tData tReadQ).dring 0 511).turn).filter (fun m => ((tData tReadQ).q m).reads) = [5] ∧
    (tData tReadQ).chooseReader 0 511 80 = (tData tReadQ, some 5) ∧ (tData tWrite).chooseReader 0 511 80 = (tData tWrite, none) ∧ ((tData tReadQ).q 5).reads = true ∧ Desc.len (tLen 0) < ((tData tReadQ).q 5).b.rbytes ∧
    ((tData tReadQ).q 5).b.rbytes ≤ Desc.len (tLen 8) ∧ (((tTurn (tData tReadQ)).take 5 8).map fun e => e.1.payload.length) = some 8 ∧
    (((tTurn (tData tReadQ)).take 5 80).map fun e => e.1.payload.length) = some 64 ∧ Desc.len (tLen 80) / ((tData tReadQ).q 5).b.rbytes * ((tData tReadQ).q 5).b.rbytes = 80 ∧
    (tTurn (tData tReadQ)).badWords ((tTurn (tData tReadQ)).q 5) 0 64 = [] ∧ ((tData tReadQ).dring 0 511).rbuf = none ∧
    (((tData tReadQ).setDring 0 511 { en := true, log2 := 6, pi := 1, rbuf := some (tLen 8, 8) }).dring 0 511).rbuf = some (tLen 8, 8) := by decide +kernel

/-- One stored message of eight zero bytes, complete, at the start of segment 0. -/
def tMsgQ : Queue := { tOpen with wptr := 16, b := { tOpen.b with msgMode := true, rring := 511 } }
def tStored (n : Nat) (rts : Bool) : State → State := fun s =>
  { s with plaza := { s.plaza with mem := SMap.setList 0 [] 0 (StoredHdr.encode { slen := 8, trunc := false, elems := n, rts := rts, msn := 1 }) } }
theorem meets_HostData_message : ((tStored 8 false (tData tMsgQ)).q 5).b.msgMode = true ∧ (tStored 8 false (tData tMsgQ)).ringServes 0 511 = true ∧
    (tStored 8 false (tData tMsgQ)).chooseReader 0 511 8 = (tStored 8 false (tData tMsgQ), some 5) ∧ (tTurn (tStored 8 false (tData tMsgQ))).approach 5 = tTurn (tStored 8 false (tData tMsgQ)) ∧
    (tTurn (tStored 8 false (tData tMsgQ))).fillsNow 5 8 = true ∧ (tTurn (tStored 8 false (tData tMsgQ))).startPinned 5 = tTurn (tStored 8 false (tData tMsgQ)) ∧
    (tTurn (tStored 8 false (tData tMsgQ))).beginKerb 5 = tTurn (tStored 8 false (tData tMsgQ)) ∧ ((tStored 8 false (tData tMsgQ)).q 5).b.rbytes ≤ Desc.len (tLen 8) ∧
    ((tStored 8 false (tData tMsgQ)).q 5).reads = true ∧ (tTurn (tStored 8 false (tData tMsgQ))).bufferReady ((tStored 8 false (tData tMsgQ)).q 5) (Desc.len (tLen 8)) = true ∧
    (tTurn (tStored 8 false (tData tMsgQ))).headBad ((tStored 8 false (tData tMsgQ)).q 5) = [] ∧
    (((tTurn (tStored 8 false (tData tMsgQ))).take 5 8).map fun e => (e.1.payload.length, e.1.last, (tTurn (tStored 8 false (tData tMsgQ))).badWords ((tStored 8 false (tData tMsgQ)).q 5) e.1.lo e.1.len)) =
      some (8, true, []) := by decide +kernel

/-- Link 7 is up; queue 5 takes bursts from it, and another sends to it. Eight bytes in one burst. -/
def tInQ : Queue := { tOpen with b := { tOpen.b with wend := .link 7, rend := .host } }
def tOutQ : Queue := { tOpen with wptr := 64, b := { tOpen.b with wend := .host, rend := .link 7 } }
def tLink7 (lim : Nat) (q : Queue) : State := (tQ 5 q).setLink 7 { phy := { st := .up, ver := 2 }, credits := [(0, { limit := BitVec.ofNat 24 lim, outstanding := lim, txLimit := BitVec.ofNat 24 lim })] }
def tHdr (sealed_ len : Nat) : BitVec 128 := mkHdr [(4, 1, 1), (5, 1, 1), (7, 1, sealed_), (8, 13, 5), (24, 12, len)]
def tBurst (sealed_ len : Nat) : Burst :=
  { hdr := tHdr sealed_ len, payload := tBytes 8, tag := 0, crc := burstCrc (tHdr sealed_ len) (tBytes 8) 0, hdrErr := false, payErr := false }
theorem meets_Bursts : (tLink7 1 tInQ).linkLive 7 = true ∧ hcsOk (tBurst 0 8).hdr = true ∧ hcsOk ((tBurst 0 8).hdr ^^^ 1#128) = false ∧
    (tLink7 1 tInQ).headerBad 7 (tBurst 0 8).hdr = false ∧ (tLink7 1 tInQ).headerBad 7 (tBurst 0 2049).hdr = true ∧ recordsBad (tBurst 0 8) = false ∧
    Bh.qid (tBurst 0 8).hdr = 5 ∧ ((tLink7 1 tInQ).q 5).st ≠ .unbound ∧ ((tLink7 1 tInQ).q 5).b.wend.isLink 7 = true ∧
    (tLink7 1 tInQ).pairOf 5 = 0 ∧ creditCost (Bh.len (tBurst 0 8).hdr) (Bh.sealBit (tBurst 0 8).hdr) = 1 ∧
    Credit.covers (((tLink7 0 tInQ).link 7).credit 0).limit (((tLink7 0 tInQ).link 7).credit 0).rxUsed 1 = false ∧
    Credit.covers (((tLink7 1 tInQ).link 7).credit 0).limit (((tLink7 1 tInQ).link 7).credit 0).rxUsed 1 = true ∧ ((tLink7 1 tInQ).q 5).nak = none ∧
    ((tLink7 1 tInQ).q 5).b.kerb = false ∧ (tBurst 0 8).payload.length = Bh.len (tBurst 0 8).hdr ∧ (tBurst 0 7).payload.length ≠ Bh.len (tBurst 0 7).hdr ∧
    burstCrc (tBurst 0 8).hdr (tBurst 0 8).payload (tBurst 0 8).tag = (tBurst 0 8).crc ∧ (tLink7 1 tInQ).openBurst (tBurst 1 8) = none ∧
    (tLink7 1 tInQ).openBurst (tBurst 0 8) = some (tBytes 8) ∧ ((tLink7 1 tInQ).q 5).b.sealedQ = false ∧ Bh.sealBit (tBurst 0 8).hdr = false ∧
    Bh.kind (tBurst 0 8).hdr = 0 ∧ Bh.first (tBurst 0 8).hdr = true ∧ ((tLink7 1 tInQ).link 7).staged = [] := by decide +kernel
/-- What the receiver has counted; without any, the state is its own image. -/
theorem meets_Bursts_counts : ((tLink7 1 tInQ).countLanes (.link 7) ⟨1, 2, 3⟩).linkLive 7 = true ∧
    (((tLink7 1 tInQ).countLanes (.link 7) ⟨1, 2, 3⟩).link 7).phy.bipe = 3 ∧ (((tLink7 1 tInQ).countLanes (.link 7) ⟨1, 2, 3⟩).link 7).phy.fecc = 1 ∧
    (tLink7 1 tInQ).countLanes (.link 7) ⟨0, 0, 0⟩ = tLink7 1 tInQ := by decide +kernel
def tShort : Queue := { tInQ with segs := [], b := { tInQ.b with maxSeg := 0 } }
def tStage : Staged := { hdr := tHdr 0 8, payload := tBytes 8, cost := 1, stamp := 0 }
theorem meets_Bursts_stored : ((tLink7 1 { tInQ with st := .closing }).q 5).refuses = true ∧ ((tLink7 1 tInQ).q 5).refuses = false ∧ ((tLink7 1 tInQ).q 5).wmsg = none ∧
    (((tLink7 1 tInQ).q 5).plan true (tBytes 8)).needEnd ≤ ((tLink7 1 tInQ).q 5).heldEnd ∧ (((tLink7 1 tInQ).q 5).plan true (tBytes 8)).bytes.length = 8 ∧
    (List.range 8).all (fun j => (List.range j).all fun i => ((tLink7 1 tInQ).q 5).addr i != ((tLink7 1 tInQ).q 5).addr j) = true ∧
    ((tLink7 1 tShort).q 5).heldEnd < (((tLink7 1 tShort).q 5).plan true (tBytes 8)).needEnd ∧
    ((tLink7 1 tShort).q 5).b.maxSeg ≤ ((tLink7 1 tShort).q 5).segs.length ∧ ((tLink7 1 tShort).q 5).refuses = false ∧
    (((tLink7 1 tInQ).updLink 7 fun l => { l with staged := [tStage] }).link 7).staged = [tStage] ∧
    ((tLink7 1 tInQ).updLink 7 fun l => { l with staged := [tStage] }).errs.frozen = false ∧ ((tLink7 1 tInQ).q 5).pair.shadow = false := by
  decide +kernel

/-- A queue to link 7 with data is chosen; a sealed one as well; a mark, a pinned message due at 0, and a credit not yet granted. -/
def tSealedQ : Queue := { tOutQ with b := { tOutQ.b with sealedQ := true }, keys := { bound := true } }
def tMarkOut : Queue := { tOutQ with rptr := 64, marks := tOutQ.marks.set 3 { isSet := true, pos := 0 } }
def tPinOut : Queue := { tOutQ with wptr := 24, b := { tOutQ.b with msgMode := true, pin := true } }
def tPinned : State := tStored 8 true { tLink7 1 tPinOut with time := { tRun.time with lock := .locked } }
/-- A Kerbside queue and a pinned message in the middle, each without credit. -/
def tKerbOut : Queue := { tOutQ with wptr := 16, b := { tOutQ.b with msgMode := true, kerb := true } }
def tPinMid : Queue := { tPinOut with rmsg := some { start := 0, msn := 1 } }
theorem meets_BurstsSent_none : ((tLink7 0 tOutQ).pinnedRunning 7) = none ∧ ((tLink7 0 tOutQ).pickClass 7 true).isNone = true ∧
    ((tLink7 0 tPinMid).pinnedRunning 7).isSome = true ∧ ((tLink7 0 tPinMid).choose 7).isNone = true ∧
    (tStored 8 false (tLink7 0 tKerbOut)).pinnedRunning 7 = none ∧ ((tStored 8 false (tLink7 0 tKerbOut)).choose 7).isNone = true := by decide +kernel
theorem meets_Inband : (∀ x ∈ ((tLink7 1 tInQ).link 7).staged, Bh.qid x.hdr ≠ 5) ∧ ((tLink7 1 tInQ).q 6).st = .unbound ∧
    (((tLink7 1 tInQ).updLink 7 fun l => { l with staged := [tStage] }).link 7).staged = [] ++ tStage :: [] ∧ Bh.qid tStage.hdr = 5 := by
  refine ⟨?_, ?_, ?_, ?_⟩ <;> decide +kernel
theorem meets_BurstsSent : (tLink7 0 tOutQ).linkLive 7 = true ∧ ((tLink7 0 tOutQ).choose 7).isNone = true ∧
    ((tLink7 1 tOutQ).choose 7).map (fun c => (c.n, c.before.headBad (c.before.q c.n), ((c.after.spend 7 c.n c.ob.cost).q c.n).b.sealedQ)) = some (5, [], false) ∧
    ((tLink7 1 tSealedQ).choose 7).map (fun c => (c.n, c.before.headBad (c.before.q c.n), ((c.after.spend 7 c.n c.ob.cost).q c.n).b.sealedQ,
      ((c.after.spend 7 c.n c.ob.cost).q c.n).keys.outCnt)) = some (5, [], true, 0) ∧
    (((List.range 32).map fun i => (((tLink7 0 tInQ).link 7).rrGrant + i) % 32).find? fun k =>
      (tLink7 0 tInQ).eligible 7 k && decide (0 < (tLink7 0 tInQ).grantRoom 7 k)) = some 0 ∧
    (tLink7 0 tInQ).statusTurn 7 0 = [5] ∧ ((tLink7 1 tMarkOut).q 5).b.rend.isLink 7 = true ∧
    (((tLink7 1 tMarkOut).q 5).markAt 3).isSet = true ∧ ((tLink7 1 tMarkOut).q 5).rewindStatus 3 = St.ok ∧
    ((tLink7 1 tInQ).q 5).b.rend.isLink 7 = false ∧ ((tLink7 1 tInQ).q 5).st ≠ .closing ∧ (((tLink7 1 tInQ).q 5).markAt 3).auto = false ∧
    ((tLink7 1 tInQ).q 5).chained = false ∧ ((tLink7 1 tOpen).q 5).b.rend.isLink 7 = false ∧ ((tLink7 1 tOpen).q 5).b.wend.isLink 7 = false ∧
    wordBad (toBytes 8 0x100) = true := by decide +kernel
theorem meets_BurstsSent_first : ((tLink7 1 tSealedQ).choose 7).map (fun c => Bh.first c.ob.burst.hdr) = some true := by decide +kernel
theorem meets_Pinned : tPinned.pinsDue 7 = [] ++ (5, tPinned.rtAt (tPinned.q 5) 0) :: [] ∧ (tLink7 1 tOutQ).pinsDue 7 = [] ∧ (tPinned.q 5).b.pin = true ∧ (tPinned.q 5).b.rend.isLink 7 = true ∧ (tPinned.q 5).reads = true ∧
    (tPinned.q 5).rmsg = none ∧ tPinned.time.lock.releases = true ∧ ((tPinned.head (tPinned.q 5)).map fun h => h.pos) = some 0 ∧
    tPinned.rtAt (tPinned.q 5) 0 ≤ tPinned.tbNs + 400 ∧ tPinned.judgeHead 5 = tPinned ∧ tPinned.linkLive 7 = true ∧
    ((tPinned.head (tPinned.q 5)).map fun h => tPinned.pinDue 5 h) = some true ∧ tPinned.pinBlocked 7 5 (tPinned.rtAt (tPinned.q 5) 0) = false ∧
    (tPinned.ready 7 5).isSome = true ∧ ((tPinned.head (tPinned.q 5)).map fun h => ((tPinned.beginPinned 5 64 h).ready 7 5).isSome) = some true := by
  decide +kernel

/-! ## Ring Road (spec/11) -/

theorem xorStream_length (key : BitVec 256) (iv : List Byte) : ∀ (i : Nat) (bs : List Byte), (xorStream key iv i bs).length = bs.length
  | _, [] => rfl
  | i, _ :: bs => by simp [xorStream, xorStream_length key iv (i + 1) bs]
theorem xorStream_twice (key : BitVec 256) (iv : List Byte) : ∀ (i : Nat) (bs : List Byte), xorStream key iv i (xorStream key iv i bs) = bs
  | _, [] => rfl
  | i, b :: bs => by simp [xorStream, xorStream_twice key iv (i + 1) bs]

/-- A frame of station 1 for station `dst`, or for all where that is 8, sealed under epoch 0 of the ring-control key or of group 0's ring session, both of parent 0. -/
def tKey (keysel : Nat) : BitVec 256 := if keysel = 1 then ringControlKey 0 0 else ringSessionKey 0 0 0
def tFhdr (kind dst keysel pos len : Nat) : Nat := frameHdr kind 1 (dst % 8) (decide (8 ≤ dst)) len 5 0 keysel pos 0
def tFrame (kind dst keysel pos : Nat) (bs : List Byte) : Frame :=
  let h := tFhdr kind dst keysel pos bs.length
  let c := gcmSeal (tKey keysel) (frameIv 0 1 0 keysel kind) (toBytes 32 h) bs
  stampFrame { hdr := BitVec.ofNat 256 h, payload := c.1, tag := c.2, crc := 0, errored := false } 0 0
/-- The same with another tag. -/
def tFrameBad (kind dst keysel pos : Nat) (bs : List Byte) : Frame :=
  let h := tFhdr kind dst keysel pos bs.length
  let c := gcmSeal (tKey keysel) (frameIv 0 1 0 keysel kind) (toBytes 32 h) bs
  stampFrame { hdr := BitVec.ofNat 256 h, payload := c.1, tag := c.2 + 1, crc := 0, errored := false } 0 0
def tStamped (kind dst keysel pos len : Nat) : BitVec 256 :=
  BitVec.ofNat 256 (bareHdr (BitVec.ofNat 256 (tFhdr kind dst keysel pos len)) + crc8 (bareHdr (BitVec.ofNat 256 (tFhdr kind dst keysel pos len))) 0 248 * 2 ^ 248)

/-- What a header must be for the frame around it to pass its checks and open. -/
def tFits (kind dst keysel pos len : Nat) : Bool :=
  let h := tStamped kind dst keysel pos len
  Fr.hcs h == crc8 h.toNat 0 248 && len == Fr.len h && frameLegal h && Fr.kind h == kind && Fr.nonce h == 0 && Fr.src h == 1 && Fr.epoch h == 0 &&
    Fr.keysel h == keysel && Fr.dst h == dst % 8 && Fr.qid h == 5 && Fr.pos h == pos && Fr.bcast h == decide (8 ≤ dst) && Fr.seq h == 0 && Fr.ack h == 0 &&
    toBytes 32 (bareHdr h) == toBytes 32 (tFhdr kind dst keysel pos len)

/-- Both sides are up; station 0 has the ring-control key, group 0 its ring session. -/
def tRing (q : Queue) : State :=
  { (tQ 5 q).setGroup 0 { rsBound := true } with
    ring := { cfg := 0x30, nokey := false, hopsE := [(1, 1)], hopsW := [(1, 2)], east := { phy := { st := .up } }, west := { phy := { st := .up } } } }

theorem tRing_group (q : Queue) : ((tRing q).group 0).rsGone = [] ∧ ((tRing q).group 0).rsBound = true ∧ ((tRing q).group 0).rsRevoked = false ∧ ((tRing q).group 0).rsEpoch = 0 ∧
    ((tRing q).group 0).rsParent = 0 ∧ ((tRing q).group 0).rsPrev = none := ⟨rfl, rfl, rfl, rfl, rfl, rfl⟩
theorem tRing_key (q : Queue) : (tRing q).ring.nokey = false ∧ (tRing q).ring.rcEpoch = 0 ∧ (tRing q).ring.rcParent = 0 ∧ (tRing q).ring.rcPrev = none :=
  ⟨rfl, rfl, rfl, rfl⟩
theorem tFrame_hdr (kind dst keysel pos : Nat) (bs : List Byte) : (tFrame kind dst keysel pos bs).hdr = tStamped kind dst keysel pos bs.length := by
  simp [tFrame, stampFrame, tStamped]
theorem tFrameBad_hdr (kind dst keysel pos : Nat) (bs : List Byte) : (tFrameBad kind dst keysel pos bs).hdr = tStamped kind dst keysel pos bs.length := by
  simp [tFrameBad, stampFrame, tStamped]

theorem tFrame_body (kind dst keysel pos : Nat) (bs : List Byte) :
    (tFrame kind dst keysel pos bs).payload = xorStream (tKey keysel) (frameIv 0 1 0 keysel kind) 0 bs := by simp [tFrame, stampFrame, gcmSeal]
theorem tFrameBad_body (kind dst keysel pos : Nat) (bs : List Byte) :
    (tFrameBad kind dst keysel pos bs).payload = xorStream (tKey keysel) (frameIv 0 1 0 keysel kind) 0 bs := by simp [tFrameBad, stampFrame, gcmSeal]
theorem tFrame_tag (kind dst keysel pos : Nat) (bs : List Byte) : (tFrame kind dst keysel pos bs).tag =
    Config.gcmTag (tKey keysel) (frameIv 0 1 0 keysel kind) (toBytes 32 (tFhdr kind dst keysel pos bs.length))
      (xorStream (tKey keysel) (frameIv 0 1 0 keysel kind) 0 bs) := by simp [tFrame, stampFrame, gcmSeal]
theorem tFrameBad_tag (kind dst keysel pos : Nat) (bs : List Byte) : (tFrameBad kind dst keysel pos bs).tag =
    Config.gcmTag (tKey keysel) (frameIv 0 1 0 keysel kind) (toBytes 32 (tFhdr kind dst keysel pos bs.length))
      (xorStream (tKey keysel) (frameIv 0 1 0 keysel kind) 0 bs) + 1 := by simp [tFrameBad, stampFrame, gcmSeal]

theorem tFrame_good {kind dst keysel pos : Nat} {bs : List Byte} (h : tFits kind dst keysel pos bs.length = true) :
    frameGood (tFrame kind dst keysel pos bs) = true ∧ frameLegal (tFrame kind dst keysel pos bs).hdr = true := by
  simp only [tFits, Bool.and_eq_true, beq_iff_eq] at h
  obtain ⟨⟨⟨⟨⟨⟨⟨⟨⟨⟨⟨⟨⟨⟨h1, h2⟩, h3⟩, h4⟩, h5⟩, h6⟩, h7⟩, h8⟩, h9⟩, h10⟩, h11⟩, h12⟩, h13⟩, h14⟩, h15⟩ := h
  have e : (tFrame kind dst keysel pos bs).payload.length = bs.length := by simp [tFrame_body, xorStream_length]
  have e2 : (tFrame kind dst keysel pos bs).crc = frameCrc (tFrame kind dst keysel pos bs).hdr (tFrame kind dst keysel pos bs).payload (tFrame kind dst keysel pos bs).tag := rfl
  have e3 : (tFrame kind dst keysel pos bs).errored = false := rfl
  rw [frameGood, e, e2, e3, tFrame_hdr]
  exact ⟨by simp [h1, ← h2], h3⟩

theorem tFrameBad_good {kind dst keysel pos : Nat} {bs : List Byte} (h : tFits kind dst keysel pos bs.length = true) :
    frameGood (tFrameBad kind dst keysel pos bs) = true := by
  simp only [tFits, Bool.and_eq_true, beq_iff_eq] at h
  obtain ⟨⟨⟨⟨⟨⟨⟨⟨⟨⟨⟨⟨⟨⟨h1, h2⟩, h3⟩, h4⟩, h5⟩, h6⟩, h7⟩, h8⟩, h9⟩, h10⟩, h11⟩, h12⟩, h13⟩, h14⟩, h15⟩ := h
  have e : (tFrameBad kind dst keysel pos bs).payload.length = bs.length := by simp [tFrameBad_body, xorStream_length]
  have e2 : (tFrameBad kind dst keysel pos bs).crc = frameCrc (tFrameBad kind dst keysel pos bs).hdr (tFrameBad kind dst keysel pos bs).payload (tFrameBad kind dst keysel pos bs).tag := rfl
  have e3 : (tFrameBad kind dst keysel pos bs).errored = false := rfl
  rw [frameGood, e, e2, e3, tFrameBad_hdr]
  simp [h1, ← h2]

theorem open_one {f : Frame} {k : BitVec 256} {iv aad bs : List Byte} {e : Nat} (he : e = Fr.epoch f.hdr)
    (hiv : frameIv (Fr.nonce f.hdr) (Fr.src f.hdr) (Fr.epoch f.hdr) (Fr.keysel f.hdr) (Fr.kind f.hdr) = iv) (ha : toBytes 32 (bareHdr f.hdr) = aad)
    (hp : f.payload = xorStream k iv 0 bs) :
    (f.tag = Config.gcmTag k iv aad f.payload → tryKeys f [(e, k)] = .plain bs) ∧
    (f.tag = Config.gcmTag k iv aad f.payload + 1 → tryKeys f [(e, k)] = .badTag) := by
  subst he
  constructor
  · intro h
    simp [tryKeys, gcmOpen, hiv, ha, h, hp, xorStream_twice]
  · intro h
    simp [tryKeys, gcmOpen, hiv, ha, h, hp]

theorem tFrame_opens {kind dst keysel pos : Nat} {bs : List Byte} (q : Queue) (hk : keysel = 0 ∨ keysel = 1) (h : tFits kind dst keysel pos bs.length = true) :
    (tRing q).openFrame (tFrame kind dst keysel pos bs) = .plain bs ∧ (tRing q).openFrame (tFrameBad kind dst keysel pos bs) = .badTag := by
  simp only [tFits, Bool.and_eq_true, beq_iff_eq] at h
  obtain ⟨⟨⟨⟨⟨⟨⟨⟨⟨⟨⟨⟨⟨⟨h1, h2⟩, h3⟩, h4⟩, h5⟩, h6⟩, h7⟩, h8⟩, h9⟩, h10⟩, h11⟩, h12⟩, h13⟩, h14⟩, h15⟩ := h
  obtain ⟨g0, g1, g2, g3, g4, g5⟩ := tRing_group q
  obtain ⟨r1, r2, r3, r4⟩ := tRing_key q
  have hA := (open_one (f := tFrame kind dst keysel pos bs) (k := tKey keysel) (iv := frameIv 0 1 0 keysel kind)
    (aad := toBytes 32 (tFhdr kind dst keysel pos bs.length)) (bs := bs) (e := 0) (by rw [tFrame_hdr, h7])
    (by rw [tFrame_hdr, h4, h5, h6, h7, h8]) (by rw [tFrame_hdr, h15]) (tFrame_body ..)).1 (by rw [tFrame_tag, tFrame_body])
  have hB := (open_one (f := tFrameBad kind dst keysel pos bs) (k := tKey keysel) (iv := frameIv 0 1 0 keysel kind)
    (aad := toBytes 32 (tFhdr kind dst keysel pos bs.length)) (bs := bs) (e := 0) (by rw [tFrameBad_hdr, h7])
    (by rw [tFrameBad_hdr, h4, h5, h6, h7, h8]) (by rw [tFrameBad_hdr, h15]) (tFrameBad_body ..)).2 (by rw [tFrameBad_tag, tFrameBad_body])
  have k1 : tKey 1 = ringControlKey 0 0 := if_pos rfl
  have k0 : tKey 0 = ringSessionKey 0 0 0 := if_neg (by decide)
  have z : (0 : BitVec 16).toNat % 256 = 0 := by decide
  have none_ : ∀ f, Fr.keysel f.hdr = 1 → (tRing q).openFrame f = tryKeys f [(0, ringControlKey 0 0)] := by
    intro f h
    unfold State.openFrame
    simp only [h, if_true, r1, r2, r3, r4, z, Bool.false_eq_true, if_false, List.append_nil]
  have some_ : ∀ f, Fr.qid f.hdr = 5 → Fr.keysel f.hdr = 0 → (tRing q).openFrame f = tryKeys f [(0, ringSessionKey 0 0 0)] := by
    intro f e h
    unfold State.openFrame
    simp only [h, e, show 5 / 512 = 0 from rfl, g0, g1, g2, g3, g4, g5, z, Bool.not_false, Bool.and_true, Bool.false_eq_true, if_false,
      if_true, List.append_nil, Nat.zero_ne_one, List.contains_nil]
  rcases hk with rfl | rfl
  · rw [k0] at hA hB
    exact ⟨(some_ _ (by rw [tFrame_hdr, h10]) (by rw [tFrame_hdr, h8])).trans hA,
      (some_ _ (by rw [tFrameBad_hdr, h10]) (by rw [tFrameBad_hdr, h8])).trans hB⟩
  · rw [k1] at hA hB
    exact ⟨(none_ _ (by rw [tFrame_hdr, h8])).trans hA, (none_ _ (by rw [tFrameBad_hdr, h8])).trans hB⟩

/-- An ACK frame for this station, one for station 3, DATA, SYNC, CTRL and a Kiosk frame. -/
def tAck : List Byte := ctrlPayload 2 []
theorem tFits_all : tFits 0 0 0 0 8 = true ∧ tFits 1 0 1 0 64 = true ∧ tFits 2 0 1 0 16 = true ∧ tFits 3 0 1 0 24 = true := by decide +kernel
theorem tFits_ack : tFits 2 0 1 0 tAck.length = true ∧ tFits 2 3 1 0 tAck.length = true ∧ tFits 2 8 1 0 tAck.length = true := by decide +kernel
def tRingEast (x : RingSide) : State := { tRing tOpen with ring := { (tRing tOpen).ring with east := { x with phy := { st := .up } } } }
def tRingWest (x : RingSide) : State := { tRing tOpen with ring := { (tRing tOpen).ring with west := { x with phy := { st := .up } } } }
def tBulk : Frame := { hdr := 0, payload := tBytes 2000, tag := 0, crc := 0, errored := false }

theorem meets_RingFrames_counts : ((tRing tOpen).countLanes (.side .east) ⟨1, 2, 3⟩).sideLive .east = true ∧
    (((tRing tOpen).countLanes (.side .east) ⟨1, 2, 3⟩).side .east).phy.bipe = 3 ∧
    (tRing tOpen).countLanes (.side .east) ⟨0, 0, 0⟩ = tRing tOpen := by decide +kernel
theorem meets_RingFrames : (tRing tOpen).sideLive .east = true ∧ (frameGood (tFrame 2 0 1 0 tAck) && frameLegal (tFrame 2 0 1 0 tAck).hdr) = true ∧
    (frameGood (tFrame 2 3 1 0 tAck) && frameLegal (tFrame 2 3 1 0 tAck).hdr) = true ∧
    (frameGood (tFrame 2 8 1 0 tAck) && frameLegal (tFrame 2 8 1 0 tAck).hdr) = true ∧ (tRing tOpen).openFrame (tFrameBad 2 8 1 0 tAck) = .badTag ∧ (tRing tOpen).openFrame (tFrameBad 2 0 1 0 tAck) = .badTag ∧
    frameGood (tFrameBad 2 0 1 0 tAck) = true :=
  ⟨by decide +kernel, by rw [(tFrame_good tFits_ack.1).1, (tFrame_good tFits_ack.1).2]; rfl,
    by rw [(tFrame_good tFits_ack.2.1).1, (tFrame_good tFits_ack.2.1).2]; rfl,
    by rw [(tFrame_good tFits_ack.2.2).1, (tFrame_good tFits_ack.2.2).2]; rfl, (tFrame_opens tOpen (.inr rfl) tFits_ack.2.2).2, (tFrame_opens tOpen (.inr rfl) tFits_ack.1).2, tFrameBad_good tFits_ack.1⟩
theorem meets_RingFrames_order :
    (BitVec.ofNat 16 (Fr.seq (tFrame 2 0 1 0 tAck).hdr) - ((tRingEast { rxSeq := 0xFFFF }).side .east).rxSeq).toNat = 1 ∧
    (BitVec.ofNat 16 (Fr.seq (tFrame 2 0 1 0 tAck).hdr) - ((tRingEast { rxSeq := 0x8001 }).side .east).rxSeq).toNat = 2 ^ 15 - 1 ∧
    (BitVec.ofNat 16 (Fr.seq (tFrame 2 0 1 0 tAck).hdr) - ((tRingEast { rxSeq := 0x8000 }).side .east).rxSeq).toNat = 2 ^ 15 ∧
    (BitVec.ofNat 16 (Fr.seq (tFrame 2 0 1 0 tAck).hdr) - ((tRing tOpen).side .east).rxSeq).toNat = 0 ∧
    ((tRingEast { lastResend := 1 }).side .east).lastResend ≠ 0 ∧ (tRingEast { lastResend := 1 }).cyc < ((tRingEast { lastResend := 1 }).side .east).lastResend - 1 + 1250 ∧
    (tRing tOpen).passes (tFrame 2 0 1 0 tAck).hdr = false ∧ (tRing tOpen).passes (tFrame 2 3 1 0 tAck).hdr = true ∧
    (tRing tOpen).transitRoom .west (tFrame 2 3 1 0 tAck) = true ∧
    (tRingWest { transit := [tBulk, tBulk, tBulk, tBulk, tBulk, tBulk, tBulk, tBulk] }).transitRoom .west (tFrame 2 3 1 0 tAck) = false ∧
    ((tRing tOpen).side .west).room (tFrame 2 3 1 0 tAck) = true ∧ ((tRing tOpen).side .west).sinceOwn < 3 ∧ (tRing tOpen).sideLive .west = true ∧
    (∀ e ∈ (tRing tOpen).queues, e.2.chain.wait = none) ∧ Fr.src (tFrame 2 3 1 0 tAck).hdr ≠ (tRing tOpen).station ∧
    Fr.src (tFrame 2 3 1 0 tAck).hdr = ({ tRing tOpen with ring := { (tRing tOpen).ring with cfg := 0x31 } } : State).station ∧
    Fr.kind (tFrame 2 0 1 0 tAck).hdr ≠ 0 ∧ Fr.bcast (tFrame 2 0 1 0 tAck).hdr = false ∧ Fr.bcast (tFrameBad 2 8 1 0 tAck).hdr = true ∧
    (tRing tOpen).passes (tFrameBad 2 8 1 0 tAck).hdr = false ∧ Fr.src (tFrameBad 2 8 1 0 tAck).hdr ≠ (tRing tOpen).station ∧
    ((tRing tOpen).hops .east (Fr.src (tFrameBad 2 8 1 0 tAck).hdr)).getD 0 < 7 := by decide +kernel

/-- A member of a chain of two, here the tail: its writer is the ring. -/
def tTail : Queue := { tOpen with b := { tOpen.b with wend := .ring, rend := .host, wring := 0 }, chain := { joined := true, pos := 1, nsta := 2, stations := [1, 0] } }
/-- What every clause of `RingFramesActByTheirKind` asks of a frame and its payload, for any payload of the kind's length. -/
theorem meets_RingFrames_kinds (q : Queue) (kind keysel : Nat) (bs : List Byte)
    (hk : (kind, keysel, bs.length) ∈ [(0, 0, 8), (1, 1, 64), (2, 1, 16), (3, 1, 24)]) :
    frameGood (tFrame kind 0 keysel 0 bs) = true ∧ frameLegal (tFrame kind 0 keysel 0 bs).hdr = true ∧
    (tRing q).openFrame (tFrame kind 0 keysel 0 bs) = .plain bs ∧ Fr.kind (tFrame kind 0 keysel 0 bs).hdr = kind ∧
    Fr.src (tFrame kind 0 keysel 0 bs).hdr = 1 ∧ Fr.qid (tFrame kind 0 keysel 0 bs).hdr = 5 ∧ Fr.pos (tFrame kind 0 keysel 0 bs).hdr = 0 ∧
    (tRing q).passes (tFrame kind 0 keysel 0 bs).hdr = false ∧ BitVec.ofNat 16 (Fr.seq (tFrame kind 0 keysel 0 bs).hdr) = ((tRing q).side .east).rxSeq := by
  have hf : tFits kind 0 keysel 0 bs.length = true := by
    simp only [List.mem_cons, Prod.mk.injEq, List.not_mem_nil, or_false] at hk
    rcases hk with ⟨rfl, rfl, e⟩ | ⟨rfl, rfl, e⟩ | ⟨rfl, rfl, e⟩ | ⟨rfl, rfl, e⟩ <;> rw [e]
    exacts [tFits_all.1, tFits_all.2.1, tFits_all.2.2.1, tFits_all.2.2.2]
  have hs : keysel = 0 ∨ keysel = 1 := by
    simp only [List.mem_cons, Prod.mk.injEq, List.not_mem_nil, or_false] at hk
    rcases hk with ⟨_, h, _⟩ | ⟨_, h, _⟩ | ⟨_, h, _⟩ | ⟨_, h, _⟩ <;> simp [h]
  have h' := hf
  simp only [tFits, Bool.and_eq_true, beq_iff_eq] at h'
  obtain ⟨⟨⟨⟨⟨⟨⟨⟨⟨⟨⟨⟨⟨⟨h1, h2⟩, h3⟩, h4⟩, h5⟩, h6⟩, h7⟩, h8⟩, h9⟩, h10⟩, h11⟩, h12⟩, h13⟩, h14⟩, h15⟩ := h'
  refine ⟨(tFrame_good hf).1, (tFrame_good hf).2, (tFrame_opens q hs hf).1, ?_⟩
  rw [tFrame_hdr, h4, h6, h10, h11, h13]
  refine ⟨rfl, rfl, rfl, rfl, ?_, rfl⟩
  rw [State.passes, h9, h12]
  show (!false && (0 != fld 0x30#32 0 3)) = false
  decide

def tSyncBs (valid : Nat) : List Byte := toBytes 64 (packNat [(0, 13, 5), (13, 1, valid), (14, 2, 0), (128, 40, 8)])
def tOp (op : Nat) (args : List (Nat × Nat × Nat)) : List Byte := ctrlPayload op args
theorem meets_RingActs_data : ((tRing tOpen).q 5).chain.joined = false ∧ ((tRing tTail).q 5).chain.joined = true ∧ (0 : Nat) ≠ ((tRing { tTail with wptr := 8 }).q 5).committed % 2 ^ 40 ∧
    0 = ((tRing tTail).q 5).committed % 2 ^ 40 ∧ ((tRing tTail).q 5).st = .opened ∧ ((tRing tTail).q 5).b.kerb = false ∧
    ((tRing tTail).q 5).b.msgMode = false ∧ ((tRing tTail).q 5).pair.paired = false ∧ ((tRing tTail).q 5).wptr + (tBytes 8).length ≤ ((tRing tTail).q 5).heldEnd ∧
    (List.range 8).all (fun j => (List.range j).all fun i => ((tRing tTail).q 5).addr i != ((tRing tTail).q 5).addr j) = true ∧
    (tSyncBs 0).length = 64 ∧ le (tSyncBs 0) 0 64 / 2 ^ 13 % 2 = 0 ∧ le (tSyncBs 1) 0 64 / 2 ^ 13 % 2 = 1 ∧ le (tSyncBs 1) 0 64 % 2 ^ 13 = 5 ∧
    1 ∈ ((tRing tTail).q 5).chain.stations ∧ ((tRing tTail).q 5).chain.headWait = [] ∧ ((tRing tTail).q 5).pair.failWatch = false := by decide +kernel
/-- A REVOKE of station 1 that goes on, over a live west side and over one that is down; SYNC of a station that is lost. -/
theorem meets_RingActs_goesOn (bs : List Byte) (h : bs.length = 16) :
    (Fr.bcast (tFrame 2 8 1 0 bs).hdr && Fr.src (tFrame 2 8 1 0 bs).hdr != (tRing tOpen).station &&
      decide (((tRing tOpen).hops .east (Fr.src (tFrame 2 8 1 0 bs).hdr)).getD 0 < 7)) = true ∧
    (Fr.bcast (tFrame 2 0 1 0 bs).hdr && Fr.src (tFrame 2 0 1 0 bs).hdr != (tRing tOpen).station &&
      decide (((tRing tOpen).hops .east (Fr.src (tFrame 2 0 1 0 bs).hdr)).getD 0 < 7)) = false ∧
    Fr.kind (tFrame 2 8 1 0 bs).hdr = 2 ∧ (tRing tOpen).passes (tFrame 2 8 1 0 bs).hdr = false ∧
    frameGood (tFrame 2 8 1 0 bs) = true ∧ frameLegal (tFrame 2 8 1 0 bs).hdr = true ∧ (tRing tOpen).openFrame (tFrame 2 8 1 0 bs) = .plain bs := by
  have h8 : tFits 2 8 1 0 bs.length = true := by rw [h]; decide +kernel
  refine ⟨?_, ?_, ?_, ?_, (tFrame_good h8).1, (tFrame_good h8).2, (tFrame_opens tOpen (.inr rfl) h8).1⟩ <;> rw [tFrame_hdr, h] <;> decide +kernel
theorem meets_RingActs_lost : (1, tOp 9 []) ∉ ((tRing tOpen).side .east).repeats ∧ le (tOp 9 []) 0 1 = 9 ∧ (tOp 9 []).length = 16 ∧
    (tRing tOpen).sideLive .west = true ∧ ({ tRing tOpen with ring := { (tRing tOpen).ring with west := {} } } : State).sideLive .west = false ∧
    1 ∈ ((tRing { tTail with chain := { tTail.chain with lost := [1] } }).q 5).chain.lost ∧ 1 ∉ ((tRing tTail).q 5).chain.lost := by decide +kernel
def tHello (st hops : Nat) : List Byte := tOp 1 [(1, 1, st), (2, 1, hops), (8, 8, 7)]
/-- A station waiting for its east neighbour's CHAIN_JOIN, one waiting for the other tail's PAIR_JOIN. -/
def tHeadQ : Queue := { tOpen with b := { tOpen.b with wend := .host, rend := .ring }
                                   chain := { pos := 0, nsta := 2, stations := [0, 1], wait := some { ref := tTodRef, east := true } } }
def tPairQ : Queue := { tOpen with pair := { peer := 1, tmo := 50, wait := some tTodRef } }
def tChainJoin : List Byte := ctrlPayload 4 ([(2, 2, 5), (4, 1, 1), (5, 1, 2)] ++ joinFields tHeadQ)
def tPairJoin : List Byte := ctrlPayload 8 ([(2, 2, 5), (4, 1, 1)] ++ joinFields tPairQ)
theorem meets_RingActs_ctrl : le (tHello 1 0) 0 1 = 1 ∧ le (tHello 1 0) 1 1 % 8 ≠ (tRing tOpen).station ∧ ((tRing tOpen).side .east).facing = none ∧ le (tHello 1 2) 2 1 ≠ 0 ∧
    le (tHello 0 0) 1 1 % 8 = (tRing tOpen).station ∧ le (tHello 0 0) 8 8 ≠ (tRing tOpen).nv.devid.toNat % 2 ^ 64 ∧
    le (tOp 1 []) 8 8 = (tRing tOpen).nv.devid.toNat % 2 ^ 64 ∧ le (tOp 2 []) 0 1 = 2 ∧ le (tOp 3 []) 0 1 = 3 ∧
    (1, tOp 4 []) ∈ ((tRingEast { repeats := [(1, tOp 4 [])] }).side .east).repeats ∧ (1, tOp 4 []) ∉ ((tRing tOpen).side .east).repeats ∧
    ((tRing tOpen).q 5).chain.wait = none ∧ le tChainJoin 0 1 = 4 ∧ le tChainJoin 2 2 % 2 ^ 13 = 5 ∧ ((tRing tHeadQ).q 5).member .east = some 1 ∧
    (tRing tHeadQ).ring.joins = [] ∧ ((tRing tHeadQ).q 5).chainMatches 5 1 tChainJoin = true ∧
    ((tRing tHeadQ).q 5).chainMatches 5 1 (tOp 4 [(2, 2, 5)]) = false ∧ le (tOp 4 [(2, 2, 5)]) 2 2 % 2 ^ 13 = 5 ∧
    le (tOp 5 [(2, 2, 5)]) 0 1 = 5 ∧ le (tOp 6 [(2, 2, 5)]) 2 2 % 2 ^ 13 = 5 ∧ le (tOp 7 [(2, 2, 5)]) 0 1 = 7 ∧ le tPairJoin 0 1 = 8 ∧
    ((tRing tOpen).q 5).pair.wait = none ∧ ((tRing tPairQ).q 5).pair.wait = some tTodRef ∧ ((tRing tPairQ).q 5).pair.peer = 1 ∧
    ((tRing tPairQ).q 5).pair.shadow = false ∧ ((tRing tPairQ).q 5).pairMatches 5 0 tPairJoin = true ∧
    ((tRing tPairQ).q 5).pairMatches 5 0 (tOp 8 [(2, 2, 5)]) = false ∧ le (tOp 9 []) 0 1 = 9 ∧ 1 ≠ (tRing tOpen).station ∧
    le (tOp 10 [(2, 2, 5)]) 0 1 = 10 ∧ ((tRing tTail).q 5).chained = true ∧ 1 ∈ ((tRing tTail).q 5).chain.stations ∧ ((tRing tOpen).q 5).chained = false := by
  decide +kernel
/-- Kiosk payloads: not a request, a request that no window permits, and one that the ring's window permits. -/
def tKiosk (kind : Nat) : List Byte := toBytes 24 (packNat [(0, 8, 0x4B), (8, 4, kind)])
def tKring (q : Queue) (w : BitVec 32) : State := { tRing q with kiosk := { winRing := w } }
theorem meets_RingActs_kiosk : ofBytes (tKiosk 5) / 2 ^ 8 % 2 ^ 8 ≠ 4 ∧ ofBytes (tKiosk 4) / 2 ^ 8 % 2 ^ 8 = 4 ∧
    Kwin.permits (tKring tOpen 0).kiosk.winRing (kopOf (ofBytes (tKiosk 4) / 2 ^ 16 % 2 ^ 2)) (ofBytes (tKiosk 4) / 2 ^ 32 % 2 ^ 15) = false ∧
    Kwin.permits (tKring tOpen 0xFF0000#32).kiosk.winRing (kopOf (ofBytes (tKiosk 4) / 2 ^ 16 % 2 ^ 2)) (ofBytes (tKiosk 4) / 2 ^ 32 % 2 ^ 15) = true ∧
    ((tRing tOpen).controlFrame 3 1 false (tKiosk 5)).isSome = true ∧ (tKiosk 4).length = 24 ∧
    (match ((tKring tOpen 0xFF0000#32).kioskAccess .ring .read 0 0).1 with
      | .value _ => true
      | _ => false) = true := by decide +kernel

theorem meets_RingTimers : ((tRing tOpen).controlFrame 2 0 true (ctrlPayload 1 [])).isSome = true ∧
    ((tRing tOpen).controlFrame 2 0 true (ctrlPayload 1 [])).map (fun e => ((tRing tOpen).side .east).room e.1) = some true ∧
    ((tRing tOpen).side .east).ctrlq = [] ∧ ((tRing tOpen).side .east).transit = [] ∧ ((tRing tOpen).side .east).phy.st = .up ∧
    ((tRing tOpen).side .east).helloSeen = false ∧ ((tRingEast { helloSeen := true, owesAck := true }).side .east).helloSeen = true ∧
    ((tRingEast { owesAck := true }).side .east).owesAck = true ∧ ((tRing tOpen).side .east).owesAck = false ∧ (tRing tOpen).sideUpNow .east = true ∧
    ({ tRing tTail with ring := { (tRing tTail).ring with west := {} } } : State).sideUpNow .west = false ∧
    ({ tRing tTail with ring := { (tRing tTail).ring with west := {} } } : State).hopQueues .west = [(5, 1)] ∧
    ({ tRing { tTail with pair := { paired := true, peer := 2 } } with ring := { (tRing tTail).ring with west := {} } } : State).hopQueues .west = [(5, 1)] ∧
    1 ≠ (tRing tTail).station ∧ (tRing tTail).sharedWith 1 = [5] ∧ (tRing tTail).sharedWith 2 = [] ∧ (tRing tTail).route 1 = some .east ∧
    (((tRing tTail).grantUp 5).controlFrame 1 1 false (toBytes 64 (((tRing tTail).grantUp 5).syncEntry 5))).map (fun e => ((tRing tTail).side .east).room e.1) = some true := by
  decide +kernel
/-- A head with 64 bytes to send on, and a tail with commands, marks and a partner. -/
def tSends : Queue := { tHeadQ with wptr := 64, chain := { joined := true, pos := 0, nsta := 2, stations := [0, 1], ffLimit := 1 } }
def tCmds : Queue := { tTail with chain := { tTail.chain with cmds := [{ code := 1, pos := 8 }], marks := [{ code := 3, pos := 0 }] } }
def tTwin (sh : Bool) : Queue := { tOpen with pair := { paired := true, shadow := sh, peer := 1, tmo := 50, failWatch := sh, rpointSeen := true, fit := true } }
theorem meets_RingMembers : ((tRing tCmds).q 5).chain.cmds = [{ code := 1, pos := 8 }] ∧ ((tRing tCmds).q 5).committed < 8 ∧
    ((tRing { tCmds with wptr := 8 }).q 5).reached { code := 1, pos := 8 } = true ∧ ((tRing tCmds).q 5).chain.marks = [{ code := 3, pos := 0 }] ∧
    0 ≤ ((tRing tCmds).q 5).committed ∧ ((tRing tCmds).q 5).member .east = none ∧
    ((tRing { tSends with chain := { tSends.chain with marks := [{ code := 3, pos := 0 }] } }).q 5).member .east = some 1 ∧ (tRing tOpen).dataTurn ≠ some 5 ∧
    (tRing tSends).dataTurn = some 5 ∧ (tRing tSends).ownTurn ((tRing tSends).dataOut 5) = true ∧
    (tRing tSends).badWords ((tRing tSends).q 5) (((tRing tSends).q 5).storedPos ((tRing tSends).q 5).chain.sendPos) ((tRing tSends).q 5).ffLen = [] ∧
    ((tRing (tTwin true)).q 5).pair.shadow = true ∧ ((tRing (tTwin true)).q 5).pair.failWatch = true ∧ ((tRing (tTwin false)).q 5).pair.shadow = false ∧
    ((tRing { tTwin true with st := .held }).q 5).st = .held ∧ ((tRing (tTwin true)).q 5).pair.failoverWait = [] ∧
    ((tRing tHeadQ).q 5).chain.wait = some { ref := tTodRef, east := true } ∧ ((tRing tPairQ).q 5).pair.wait = some tTodRef ∧
    ((tRing { tTail with chain := { tTail.chain with cmds := [{ code := 4, pos := 0 }] } }).q 5).chain.cmds = [{ code := 4, pos := 0 }] := by decide +kernel
/-- A TEARDOWN at a queue in no chain, at a READY member, and at an OPEN member of which station 2 is not heard. -/
def tDown (c : Chain) (q : Queue) : Queue := { q with chain := { c with cmds := [{ code := 4, pos := 0 }] } }
theorem meets_RingMembers_teardown : ((tRing (tDown {} tOpen)).q 5).chained = false ∧ ((tRing (tDown {} tOpen)).q 5).reached { code := 4, pos := 0 } = true ∧
    ((tRing (tDown tTail.chain { tTail with st := .ready })).q 5).chained = true ∧ ((tRing (tDown tTail.chain { tTail with st := .ready })).q 5).st = .ready ∧
    ((tRing (tDown { tTail.chain with stations := [2, 1, 0] } tTail)).q 5).chained = true ∧
    ((tRing (tDown { tTail.chain with stations := [2, 1, 0] } tTail)).q 5).st ≠ .ready ∧
    (([2, 1, 0] : List Nat).filter fun t => t != (tRing tTail).station && !(tRing tTail).heard t).getLast? = some 2 := by decide +kernel
/-- Marks at the tail: on a mark kept by MARK AUTO, inside the open message, and at or before its start. -/
def tMarks (pos start : Nat) : Queue :=
  { tTail with b := { tTail.b with msgMode := true }, wptr := 32, wmsg := some { start := start, msn := 1 }
               chain := { tTail.chain with marks := [{ code := 3, pos := pos }] } }
theorem meets_RingMembers_marks : ((tRing (tMarks 8 0)).q 5).role ≠ some .head ∧ ((tRing tSends).q 5).role = some .head ∧
    (({ tMarks 8 0 with marks := tOpen.marks.set 3 { isSet := true, auto := true } } : Queue).markAt 3).auto = true ∧
    ((tMarks 8 0).markAt 3).auto = false ∧ (tMarks 8 0).st ≠ .closing ∧ 8 ≤ (tMarks 8 0).committed ∧ (tMarks 8 0).member .east = none ∧
    (tMarks 8 0).b.msgMode = true ∧ 0 < (tMarks 8 0).storedPos 8 ∧ (tMarks 8 16).storedPos 8 ≤ 16 := by decide +kernel

/-! ## Chains, pairs, keys (spec/11, spec/16) -/

def tChainCmd (op pos nsta : Nat) : Block512 := tCmd 0x40 [(128, 13, 5), (144, 2, op), (146, 2, pos), (148, 3, nsta)]
def tHeadReady : Queue := { tReady with b := { tOpen.b with wend := .host, rend := .ring } }
def tJoined (p : List Byte) (op : Nat) (q : Queue) : State := { tRing q with ring := { (tRing q).ring with joins := [{ op := op, station := 1, payload := p }] } }
theorem meets_ChainSetup : (tRing tHeadReady).Accepts 0 0x40 (tChainCmd 0 0 2) ∧ (tRing tHeadReady).Accepts 0 0x40 (tChainCmd 0 0 5) ∧
    ((tRing tHeadReady).fetched 0 (tChainCmd 0 0 2)).chainStatus 0 (tChainCmd 0 0 2) = St.ok ∧
    ((tRing tHeadReady).fetched 0 (tChainCmd 0 0 5)).chainStatus 0 (tChainCmd 0 0 5) ≠ St.ok ∧ (tRing tHeadReady).ring.joins = [] ∧
    ((tRing tHeadReady).chainStations 0 2)[1]? = some 1 ∧ (tJoined tChainJoin 4 tHeadReady).Accepts 0 0x40 (tChainCmd 0 0 2) ∧
    ((tJoined tChainJoin 4 tHeadReady).fetched 0 (tChainCmd 0 0 2)).chainStatus 0 (tChainCmd 0 0 2) = St.ok ∧ joinQid tChainJoin = 5 ∧
    (({ (tJoined tChainJoin 4 tHeadReady).q 5 with chain := { pos := 0, nsta := 2, stations := [0, 1], wait := some { ref := tTodRef, east := true } } } : Queue).chainMatches 5 1 tChainJoin) = true ∧
    (tRing { tHeadReady with chain := { tSends.chain with ffLimit := 0 } }).Accepts 0 0x40 (tChainCmd 1 0 2) ∧
    ((tRing { tHeadReady with chain := { tSends.chain with ffLimit := 0 } }).fetched 0 (tChainCmd 1 0 2)).chainStatus 0 (tChainCmd 1 0 2) = St.ok :=
  ⟨accepts_of (by decide +kernel), accepts_of (by decide +kernel), by decide +kernel, by decide +kernel, by decide +kernel, by decide +kernel,
    accepts_of (by decide +kernel), by decide +kernel, by decide +kernel, by decide +kernel, accepts_of (by decide +kernel), by decide +kernel⟩
def tPairCmd (op role : Nat) : Block512 := tCmd 0x41 [(128, 13, 5), (144, 2, op), (146, 1, role), (148, 3, 1)]
theorem meets_PairSetup : (tRing tOpen).Accepts 0 0x41 (tPairCmd 0 0) ∧ (tRing tOpen).Accepts 0 0x41 (tPairCmd 2 0) ∧
    ((tRing tOpen).fetched 0 (tPairCmd 0 0)).pairStatus 0 (tPairCmd 0 0) = St.ok ∧ ((tRing tOpen).fetched 0 (tPairCmd 2 0)).pairStatus 0 (tPairCmd 2 0) ≠ St.ok ∧
    (tJoined tPairJoin 8 tOpen).Accepts 0 0x41 (tPairCmd 0 0) ∧ ((tJoined tPairJoin 8 tOpen).fetched 0 (tPairCmd 0 0)).pairStatus 0 (tPairCmd 0 0) = St.ok ∧
    joinQid tPairJoin = 5 ∧ (({ (tJoined tPairJoin 8 tOpen).q 5 with pair := { peer := 1, tmo := 50 } } : Queue).pairMatches 5 0 tPairJoin) = true ∧
    (tRing (tTwin true)).Accepts 0 0x41 (tPairCmd 1 0) ∧ ((tRing (tTwin true)).fetched 0 (tPairCmd 1 0)).pairStatus 0 (tPairCmd 1 0) = St.ok :=
  ⟨accepts_of (by decide +kernel), accepts_of (by decide +kernel), by decide +kernel, by decide +kernel, accepts_of (by decide +kernel), by decide +kernel,
    by decide +kernel, by decide +kernel, accepts_of (by decide +kernel), by decide +kernel⟩
def tFailCmd (force : Nat) : Block512 := tCmd 0x42 [(128, 13, 5), (144, 1, force)]
theorem meets_Failover : (∀ f, f < 2 → acceptsB (tRing (tTwin true)) 0 0x42 (tFailCmd f) = true ∧ acceptsB (tRing (tTwin false)) 0 0x42 (tFailCmd f) = true ∧
      acceptsB (tRing tOpen) 0 0x42 (tFailCmd f) = true ∧
      ((tRing (tTwin true)).fetched 0 (tFailCmd f)).failoverStatus 0 (tFailCmd f) = St.ok ∧
      ((tRing (tTwin false)).fetched 0 (tFailCmd f)).failoverStatus 0 (tFailCmd f) = St.ok ∧
      ((tRing tOpen).fetched 0 (tFailCmd f)).failoverStatus 0 (tFailCmd f) ≠ St.ok ∧ bit (tFailCmd f) 144 = (f == 1)) ∧
    ((tRing (tTwin false)).q 5).pair.out = false ∧ ((tRing (tTwin true)).q 5).st ≠ .held := by decide +kernel

def tRekey (scope g epoch : Nat) : Block512 := tCmd 0x50 [(128, 13, 5), (144, 2, scope), (148, 4, g), (160, 16, epoch)]
def tSealQ : Queue := { tOpen with b := { tOpen.b with sealedQ := true } }
/-- Parent slots for groups 0 and 15 and for ring control, with their tags. -/
def tParent (scope : Nat) (i : Nat) : Slot := { typ := 1, scope := scope, tag := Config.slotTag 0 ({ typ := 1, scope := scope } : Slot).bits i }
def tKeyed : State := { tQ 5 tSealQ with nv := { slots := [(0, tParent 0 0), (1, tParent 15 1), (63, tParent 16 63)] } }
theorem meets_Rekey : acceptsB tKeyed 0 0x50 (tRekey 0 0 1) = true ∧ acceptsB tKeyed 0 0x50 (tRekey 1 15 1) = true ∧ acceptsB tKeyed 0 0x50 (tRekey 2 0 0xFFFF) = true ∧
    (tKeyed.fetched 0 (tRekey 0 0 1)).rekeyStatus 0 (tRekey 0 0 1) = St.ok ∧ (tKeyed.fetched 0 (tRekey 1 15 1)).rekeyStatus 0 (tRekey 1 15 1) = St.ok ∧
    (tKeyed.fetched 0 (tRekey 2 0 0xFFFF)).rekeyStatus 0 (tRekey 2 0 0xFFFF) = St.ok ∧ (tKeyed.fetched 0 (tRekey 3 0 1)).rekeyStatus 0 (tRekey 3 0 1) ≠ St.ok ∧
    tKeyed.parentSlot 0 = some 0 ∧ tKeyed.parentSlot 15 = some 1 ∧ tKeyed.parentSlot 0x10 = some 63 ∧ (tQ 5 tSealQ).parentSlot 0 = none ∧
    (tKeyed.bindKeys 0 5 0 1 0).cacheUsed ≤ 256 ∧ (tKeyed.q 5).st ≠ .held ∧ tKeyed.groupQueues 15 = [] ∧
    256 < (({ tKeyed with queues := (List.range 256).map fun i => (i, { tSealQ with keys := { bound := true } }) } : State).bindKeys 2 0 0 1 0).cacheUsed := by
  decide +kernel
theorem meets_Rekey_tags : tKeyed.tagOk 0 = true ∧ tKeyed.tagOk 1 = true ∧ tKeyed.tagOk 63 = true := by
  have h : tKeyed.slot 0 = tParent 0 0 ∧ tKeyed.slot 1 = tParent 15 1 ∧ tKeyed.slot 63 = tParent 16 63 ∧ tKeyed.nv.deviceKey = 0 := ⟨rfl, rfl, rfl, rfl⟩
  obtain ⟨a, b, c, e⟩ := h
  refine ⟨?_, ?_, ?_⟩ <;> simp [State.tagOk, a, b, c, e, tParent, Slot.bits]
theorem meets_KeyQueryAndRelease : acceptsB tRun 0 0x53 (tCmd 0x53 [(128, 64, 64)]) = true ∧ (tRun.func 0).resFail = false ∧
    fld (tCmd 0x53 [(128, 64, 64)]) 128 64 % 64 = 0 ∧ fld (tCmd 0x53 [(128, 64, 65)]) 128 64 % 64 ≠ 0 ∧ acceptsB tRun 0 0x54 (tCmd 0x54 [(128, 4, 15)]) = true ∧
    fld (tCmd 0x54 [(128, 4, 15)]) 132 380 = 0 ∧ tRun.groupQueues 15 = [] ∧ tRun.plaza.releases = [] := by decide +kernel

/-! ### Update messages -/

theorem ofBytes_toBytes : ∀ (k v : Nat), v < 256 ^ k → ofBytes (toBytes k v) = v
  | 0, v, h => by simp at h; simp [toBytes, ofBytes, h]
  | k + 1, v, h => by
    have h1 : v / 256 < 256 ^ k := by rw [Nat.div_lt_iff_lt_mul (by decide)]; rw [Nat.pow_succ] at h; exact h
    rw [toBytes, ofBytes, ofBytes_toBytes k (v / 256) h1]
    simp only [BitVec.toNat_ofNat]
    omega
theorem toBytes_length : ∀ (k v : Nat), (toBytes k v).length = k
  | 0, _ => rfl
  | k + 1, v => by rw [toBytes, List.length_cons, toBytes_length k]

/-- The first 112 bytes of a message under an HMAC, and the message with it. -/
def tMsgHead (op authSlot slot typ scope arg : Nat) : List Byte :=
  toBytes 112 (packNat [(0, 32, 0x554B514C), (32, 8, 1), (40, 8, op), (48, 8, 1), (56, 8, authSlot), (192, 32, 1), (224, 8, slot), (232, 8, typ), (240, 8, scope), (256, 16, arg)])
def tMsg (key : BitVec 256) (h : List Byte) : List Byte := h ++ toBytes 32 (Config.hmacSha256 key h).toNat
theorem tMsg_mac (s : State) (a : Authority) (h : List Byte) (hl : h.length = 112) (hs : Msg.auth h = 1) (ht : Msg.auth (tMsg (s.macKey a) h) = Msg.auth h) :
    s.authentic (tMsg (s.macKey a) h) a = true := by
  have e1 : (tMsg (s.macKey a) h).take 112 = h := by simp [tMsg, ← hl]
  have e2 : le (tMsg (s.macKey a) h) 112 32 = (Config.hmacSha256 (s.macKey a) h).toNat := by
    have : (tMsg (s.macKey a) h).drop 112 = toBytes 32 (Config.hmacSha256 (s.macKey a) h).toNat := by simp [tMsg, ← hl]
    rw [le, this, List.take_of_length_le (by rw [toBytes_length]), ofBytes_toBytes]
    exact (Config.hmacSha256 (s.macKey a) h).isLt
  rw [State.authentic, ht, hs, e1, e2]
  simp

/-- A device in a life-cycle state, with an owner's HMAC key in slot 7 and a parent of group 3 in slot 9. -/
def tOwned (lc : Nat) : State := { tRun with nv := { lc := lc, slots := [(7, { typ := 3, scope := 0xFF, tag := Config.slotTag 0 ({ typ := 3, scope := 0xFF } : Slot).bits 7 }), (9, tParent 3 9)] } }
def tInstall : List Byte := tMsgHead 0x01 7 12 1 4 0
def tErase : List Byte := tMsgHead 0x02 7 9 1 3 0
def tLcSet (to_ : Nat) : List Byte := tMsgHead 0x10 7 0 0 0 to_
def tOwnerLock : List Byte := tMsgHead 0x11 7 0 0 0 1
/-- The checks before the MAC, and the permission, for a message of head h in a path. -/
def tPasses (lc : Nat) (path : MsgPath) (h : List Byte) : Bool :=
  let s := tOwned lc
  let m := tMsg 0 h
  firstFail [(msgMalformed m, St.badMessage), (!path.allows m, St.notPermitted), (!s.power.pwrfailN, St.lowPower), (le m 8 16 != s.nv.devid.toNat, St.wrongDevice)] == St.ok &&
    s.authority m == some (.owner 0) && !(s.nv.ctr == 4095) && !(decide (Msg.ctr m ≤ s.nv.ctr) || decide (s.nv.ctr + 16 < Msg.ctr m)) && s.permitted m (.owner 0) &&
    Msg.auth m == Msg.auth h && Msg.auth h == 1 && h.length == 112
theorem meets_Messages : tPasses 2 (.keyUpdate 0) tInstall = true ∧ tPasses 2 (.keyUpdate 0) tErase = true ∧ tPasses 1 (.lcSubmit 0) (tLcSet 2) = true ∧
    tPasses 2 (.lcSubmit 0) (tLcSet 3) = true ∧ tPasses 2 (.lcSubmit 0) (tLcSet 4) = true ∧ tPasses 2 (.lcSubmit 0) tOwnerLock = true ∧
    acceptsB (tOwned 2) 0 0x51 (tCmd 0x51 [(192, 16, 144)]) = true ∧ acceptsB (tOwned 2) 0 0x52 (tCmd 0x52 [(192, 16, 144)]) = true ∧
    ((tOwned 2).slot 12).typ ≠ 1 ∧ (tOwned 2).authority (tMsg 0 (tMsgHead 0x11 8 0 0 0 1)) = none ∧ msgMalformed (tBytes 144) = true := by decide +kernel
theorem meets_Messages_mac {lc : Nat} {path : MsgPath} {h : List Byte} (hp : tPasses lc path h = true) : (tOwned lc).authentic (tMsg 0 h) (.owner 0) = true := by
  simp only [tPasses, Bool.and_eq_true, beq_iff_eq] at hp
  exact tMsg_mac (tOwned lc) (.owner 0) h hp.2 hp.1.2 hp.1.1.2
end Sys2Proof.Tests
end

section
/-!
The time-base latches (R166, R476) and `IDENT` (R2): what a read of `TB_NOW_LO` leaves in the reader's latch, in the other
latches and in the rest of the state.
-/
namespace Sys2Proof.Machine
open Sys2Proof

/-! ## The latched words -/

@[simp] theorem State.timeRegValue_out (s : State) (o : List Out) (k off : Nat) :
    ({ s with out := o } : State).timeRegValue k off = s.timeRegValue k off := rfl

theorem State.timeRegValue_nowHi (s : State) (k : Nat) : s.timeRegValue k 0x214 = (SMap.get (0, 0) s.time.latches k).1 := rfl

theorem State.timeRegValue_nowFrac (s : State) (k : Nat) : s.timeRegValue k 0x218 = (SMap.get (0, 0) s.time.latches k).2 := rfl

@[simp] theorem State.latchTb_latches (s : State) (acc : Accessor) :
    (s.latchTb acc).time.latches = SMap.set (0, 0) s.time.latches (accessorNum acc) (s.tbNs / 2 ^ 32, s.tbFrac) := rfl

@[simp] theorem TimeBase.cleared_latches (t : TimeBase) : t.cleared.latches = [] := rfl

/-- Only the words at `TB_NOW_HI` and `TB_NOW_FRAC` come from a latch, and `latchTb` changes no latch but the reader's. -/
theorem State.timeRegValue_latchTb_other (s : State) (acc : Accessor) {k : Nat} (hk : k ≠ accessorNum acc) (off : Nat) :
    (s.latchTb acc).timeRegValue k off = s.timeRegValue k off := by
  have hlatch : SMap.get (0, 0) (s.latchTb acc).time.latches k = SMap.get (0, 0) s.time.latches k := by
    rw [latchTb_latches, SMap.get_set_other _ _ _ hk.symm]
  unfold State.timeRegValue
  rw [hlatch]
  rfl

/-! ## A read of `TB_NOW_LO` while CORE runs -/

theorem State.not_sleep_of_coreRuns {s : State} (h : s.coreRuns = true) : s.power.cur ≠ .sleep := by
  intro hsleep
  simp [State.coreRuns, hsleep] at h

/-- A read that reaches CORE loads the latch and may answer on the output; a function's answer is the low word. -/
theorem State.tbNowLo_eq_latchTb {s : State} {acc : Accessor} (hrun : s.coreRuns = true)
    (hreach : ∀ g, acc = .fn g → s.fnReached g.val = true) :
    ∃ o, s.tbNowLo acc = { s.latchTb acc with out := o } ∧ ∀ g, acc = .fn g → o = .readData (s.tbNs % 2 ^ 32) :: s.out := by
  cases acc with
  | fn g =>
    refine ⟨_, ?_, fun _ _ => rfl⟩
    simp [State.tbNowLo, hreach g rfl, State.not_sleep_of_coreRuns hrun, hrun, State.emit, State.latchTb]
  | svc => exact ⟨s.out, by simp [State.tbNowLo, hrun, State.latchTb], nofun⟩
  | warden => exact ⟨s.out, by simp [State.tbNowLo, hrun, State.latchTb], nofun⟩

theorem State.keeps_latchTb_out (s : State) (acc : Accessor) (o : List Out) :
    s.keeps { s.latchTb acc with out := o } [.time, .out] := by
  intro p hp
  cases p with
  | time => simp at hp
  | out => simp at hp
  | _ => rfl

/-! ## `IDENT` -/

theorem State.regValue_ident (s : State) (g k : Nat) : s.regValue g k 0 = ident := by
  simp [State.regValue, vfSees]

/-- Settles O29: the read is `latchTb` with an answer on the output, and the map of latches is written at the reader's
number only. -/
theorem readingTheTimeLatchesIt : Obligations.ReadingTheTimeLatchesIt := by
  unfold Obligations.ReadingTheTimeLatchesIt
  refine ⟨fun acc s hrun hreach => ?_, fun g k s => ⟨s.regValue_ident g k, ?_, ?_⟩⟩
  · obtain ⟨o, hread, hanswer⟩ := State.tbNowLo_eq_latchTb hrun hreach
    refine ⟨{ s.latchTb acc with out := o }, congrArg Host.Outcome.next hread, ?_, ?_, hanswer, fun k hk off => ?_, rfl,
      s.keeps_latchTb_out acc o⟩
    · simp [State.timeRegValue_nowHi]
    · simp [State.timeRegValue_nowFrac]
    · simp [State.timeRegValue_latchTb_other s acc hk off]
  · simp [State.timeRegValue_nowHi]
  · simp [State.timeRegValue_nowFrac]

end Sys2Proof.Machine
end

section
/-!
SUPPORT. The command that a step runs, and the statement about it.
-/
namespace Sys2Proof.Machine

/-- A waiting command is taken off the queue before it runs: it runs in the state that holds only the rest. -/
theorem step_of_pending_cons {s : State} {c : Instr} {rest : List Instr} (hfront : s.pending = c :: rest) :
    step s = exec c { s with pending := rest } := by
  unfold step
  rw [hfront]

/-- Settles O1: the command put at the front is the waiting one, and taking it off leaves the same state with the rest. -/
theorem stepRunsTheFrontCommand : Obligations.StepRunsTheFrontCommand := by
  unfold Obligations.StepRunsTheFrontCommand
  intro c rest s
  have hfront : ({ s with pending := c :: rest } : State).pending = c :: rest := rfl
  exact step_of_pending_cons hfront

end Sys2Proof.Machine
end

section
/-!
SUPPORT. What every command keeps, whatever it does: the queue of waiting commands, the invariant, and what is never taken back.
-/
namespace Sys2Proof.Machine

/-- The mask that names every part. -/
def allParts : Nat := 2 ^ 25 - 1

/-- Whatever parts a command may change, they are among all of them. -/
theorem Within.all {M : Nat} {o : Host.Outcome State Fault Refusal} {s : State} (hM : M ||| allParts = allParts)
    (h : ∃ t, o = .next t ∧ Within M s t) : ∃ t, o = .next t ∧ Within allParts s t := by
  obtain ⟨t, ho, hw⟩ := h
  exact ⟨t, ho, hw.mono hM⟩

/-- Every command answers a next state that `Within` ties to the one before, each by the lemma of its own meaning. -/
theorem exec_within (c : Instr) (s : State) : ∃ t, exec c s = .next t ∧ Within allParts s t := by
  cases c with
  | hello fn d => exact Within.all (by decide) (execHello_within fn d s)
  | dringSet fn d => exact Within.all (by decide) (execDringSet_within fn d s)
  | queueBind fn d => exact Within.all (by decide) (execQueueBind_within fn d s)
  | queueOpen fn d => exact Within.all (by decide) (execQueueOpen_within fn d s)
  | queueClose fn d => exact Within.all (by decide) (execQueueClose_within fn d s)
  | queueDiscard fn d => exact Within.all (by decide) (execQueueDiscard_within fn d s)
  | queueReset fn d => exact Within.all (by decide) (execQueueReset_within fn d s)
  | queueRelease fn d => exact Within.all (by decide) (execQueueRelease_within fn d s)
  | queryQueue fn d => exact Within.all (by decide) (execQueryQueue_within fn d s)
  | groupSet fn d => exact Within.all (by decide) (execGroupSet_within fn d s)
  | flagSet fn d => exact Within.all (by decide) (execFlagSet_within fn d s)
  | mark fn d => exact Within.all (by decide) (execMark_within fn d s)
  | rewind fn d => exact Within.all (by decide) (execRewind_within fn d s)
  | releaseMark fn d => exact Within.all (by decide) (execReleaseMark_within fn d s)
  | timeSet fn d => exact Within.all (by decide) (execTimeSet_within fn d s)
  | pinSet fn d => exact Within.all (by decide) (execPinSet_within fn d s)
  | policySet fn d => exact Within.all (by decide) (execPolicySet_within fn d s)
  | chainSetup fn d => exact Within.all (by decide) (execChainSetup_within fn d s)
  | pairSetup fn d => exact Within.all (by decide) (execPairSetup_within fn d s)
  | failover fn d => exact Within.all (by decide) (execFailover_within fn d s)
  | rekey fn d => exact Within.all (by decide) (execRekey_within fn d s)
  | keyUpdate fn d msg => exact Within.all (by decide) (execKeyUpdate_within fn d msg s)
  | lcSubmit fn d msg => exact Within.all (by decide) (execLcSubmit_within fn d msg s)
  | keyQuery fn d => exact Within.all (by decide) (execKeyQuery_within fn d s)
  | tenantRelease fn d => exact Within.all (by decide) (execTenantRelease_within fn d s)
  | rewindTakesEffect q => exact Within.all (by decide) (execRewindTakesEffect_within q s)
  | cmdPi fn v => exact Within.all (by decide) (execCmdPi_within fn v s)
  | cplCi fn v => exact Within.all (by decide) (execCplCi_within fn v s)
  | evtCi fn v => exact Within.all (by decide) (execEvtCi_within fn v s)
  | dringPi fn ring v => exact Within.all (by decide) (execDringPi_within fn ring v s)
  | hringEnable fn v => exact Within.all (by decide) (execHringEnable_within fn v s)
  | hringDisable fn v => exact Within.all (by decide) (execHringDisable_within fn v s)
  | baseLowWordWrite fn reg v => exact Within.all (by decide) (execBaseLowWordWrite_within fn reg v s)
  | baseHighWordWrite fn reg v => exact Within.all (by decide) (execBaseHighWordWrite_within fn reg v s)
  | tbNowLoRead acc => exact Within.all (by decide) (execTbNowLoRead_within acc s)
  | pwrReqRun acc v => exact Within.all (by decide) (execPwrReqRun_within acc v s)
  | pwrReqIdle acc v => exact Within.all (by decide) (execPwrReqIdle_within acc v s)
  | pwrReqSleep acc v => exact Within.all (by decide) (execPwrReqSleep_within acc v s)
  | pwrReqDeepSleep acc v => exact Within.all (by decide) (execPwrReqDeepSleep_within acc v s)
  | pwrReqOff acc v => exact Within.all (by decide) (execPwrReqOff_within acc v s)
  | pwrvoteWrite fn v => exact Within.all (by decide) (execPwrvoteWrite_within fn v s)
  | rstctlSys acc v => exact Within.all (by decide) (execRstctlSys_within acc v s)
  | rstctlCore acc v => exact Within.all (by decide) (execRstctlCore_within acc v s)
  | iorelWrite v => exact Within.all (by decide) (execIorelWrite_within v s)
  | maintWipe v => exact Within.all (by decide) (execMaintWipe_within v s)
  | maintBist v => exact Within.all (by decide) (execMaintBist_within v s)
  | maintKsweep v => exact Within.all (by decide) (execMaintKsweep_within v s)
  | linkEnable n v => exact Within.all (by decide) (execLinkEnable_within n v s)
  | linkDisable n v => exact Within.all (by decide) (execLinkDisable_within n v s)
  | linkRst n v => exact Within.all (by decide) (execLinkRst_within n v s)
  | portSplitWrite p v => exact Within.all (by decide) (execPortSplitWrite_within p v s)
  | ringSideEnable v => exact Within.all (by decide) (execRingSideEnable_within v s)
  | ringSideDisable v => exact Within.all (by decide) (execRingSideDisable_within v s)
  | ringInsert v => exact Within.all (by decide) (execRingInsert_within v s)
  | ringSideRst v => exact Within.all (by decide) (execRingSideRst_within v s)
  | flagmapWrite n v => exact Within.all (by decide) (execFlagmapWrite_within n v s)
  | errlogPop v => exact Within.all (by decide) (execErrlogPop_within v s)
  | ppsEnWrite v => exact Within.all (by decide) (execPpsEnWrite_within v s)
  | registerWrite acc off be v => exact Within.all (by decide) (execRegisterWrite_within acc off be v s)
  | kioskBarRead off wide => exact Within.all (by decide) (execKioskBarRead_within off wide s)
  | kioskBarWrite off wide v => exact Within.all (by decide) (execKioskBarWrite_within off wide v s)
  | kioskFetchadd off v => exact Within.all (by decide) (execKioskFetchadd_within off v s)
  | kioskSwap off v => exact Within.all (by decide) (execKioskSwap_within off v s)
  | hostBlockReset cause => exact Within.all (by decide) (execHostBlockReset_within cause s)
  | perstNRise => exact Within.all (by decide) (execPerstNRise_within s)
  | pcieConfigReady => exact Within.all (by decide) (execPcieConfigReady_within s)
  | flr fn => exact Within.all (by decide) (execFlr_within fn s)
  | vfEnableChange enable numVfs => exact Within.all (by decide) (execVfEnableChange_within enable numVfs s)
  | hostDmaFailure fn kind ring addr => exact Within.all (by decide) (execHostDmaFailure_within fn kind ring addr s)
  | hostWriteDescriptor fn ring desc data => exact Within.all (by decide) (execHostWriteDescriptor_within fn ring desc data s)
  | hostReadDescriptor fn ring desc => exact Within.all (by decide) (execHostReadDescriptor_within fn ring desc s)
  | dringFlushTimeout fn ring => exact Within.all (by decide) (execDringFlushTimeout_within fn ring s)
  | msixHoldoffEnd fn event => exact Within.all (by decide) (execMsixHoldoffEnd_within fn event s)
  | burstReceive n b => exact Within.all (by decide) (execBurstReceive_within n b s)
  | stagedBurstCommit n => exact Within.all (by decide) (execStagedBurstCommit_within n s)
  | burstTransmit n => exact Within.all (by decide) (execBurstTransmit_within n s)
  | credit n group kerb limit => exact Within.all (by decide) (execCredit_within n group kerb limit s)
  | creditGrant n => exact Within.all (by decide) (execCreditGrant_within n s)
  | creditRefresh n => exact Within.all (by decide) (execCreditRefresh_within n s)
  | statusRefresh n => exact Within.all (by decide) (execStatusRefresh_within n s)
  | timeWordTimer => exact Within.all (by decide) (execTimeWordTimer_within s)
  | inbandMark n q m => exact Within.all (by decide) (execInbandMark_within n q m s)
  | inbandRewind n q m => exact Within.all (by decide) (execInbandRewind_within n q m s)
  | inbandReleaseMark n q m => exact Within.all (by decide) (execInbandReleaseMark_within n q m s)
  | kioskReq n op tag addr data => exact Within.all (by decide) (execKioskReq_within n op tag addr data s)
  | powerVote n vote => exact Within.all (by decide) (execPowerVote_within n vote s)
  | sleepReq n vote => exact Within.all (by decide) (execSleepReq_within n vote s)
  | idleNoticeLeadEnd p => exact Within.all (by decide) (execIdleNoticeLeadEnd_within p s)
  | controlWordDiscard n bytes => exact Within.all (by decide) (execControlWordDiscard_within n bytes s)
  | trainingStart p => exact Within.all (by decide) (execTrainingStart_within p s)
  | trainingBlock p lane block => exact Within.all (by decide) (execTrainingBlock_within p lane block s)
  | trainingPhaseAdvance p => exact Within.all (by decide) (execTrainingPhaseAdvance_within p s)
  | linkUp p => exact Within.all (by decide) (execLinkUp_within p s)
  | trainingTimeout p => exact Within.all (by decide) (execTrainingTimeout_within p s)
  | markerLockTimeout p => exact Within.all (by decide) (execMarkerLockTimeout_within p s)
  | trainingRetry n => exact Within.all (by decide) (execTrainingRetry_within n s)
  | trainingSignalLoss p => exact Within.all (by decide) (execTrainingSignalLoss_within p s)
  | linkDown p cause => exact Within.all (by decide) (execLinkDown_within p cause s)
  | ringDataFrame side f => exact Within.all (by decide) (execRingDataFrame_within side f s)
  | syncFrame side f => exact Within.all (by decide) (execSyncFrame_within side f s)
  | ringHello side f => exact Within.all (by decide) (execRingHello_within side f s)
  | ack side f => exact Within.all (by decide) (execAck_within side f s)
  | resend side f => exact Within.all (by decide) (execResend_within side f s)
  | chainJoin side f => exact Within.all (by decide) (execChainJoin_within side f s)
  | chainCmd side f => exact Within.all (by decide) (execChainCmd_within side f s)
  | chainCmdApply q => exact Within.all (by decide) (execChainCmdApply_within q s)
  | ffMark side f => exact Within.all (by decide) (execFfMark_within side f s)
  | ffMarkApply q => exact Within.all (by decide) (execFfMarkApply_within q s)
  | ffRewind side f => exact Within.all (by decide) (execFfRewind_within side f s)
  | pairJoin side f => exact Within.all (by decide) (execPairJoin_within side f s)
  | revoke side f => exact Within.all (by decide) (execRevoke_within side f s)
  | gone side f => exact Within.all (by decide) (execGone_within side f s)
  | kioskFrame side f => exact Within.all (by decide) (execKioskFrame_within side f s)
  | ringFrameTransit side f => exact Within.all (by decide) (execRingFrameTransit_within side f s)
  | fallForwardSend q => exact Within.all (by decide) (execFallForwardSend_within q s)
  | helloTimer => exact Within.all (by decide) (execHelloTimer_within s)
  | ringMapExpiry station => exact Within.all (by decide) (execRingMapExpiry_within station s)
  | ringHelloMissing side => exact Within.all (by decide) (execRingHelloMissing_within side s)
  | ringAckTimer side => exact Within.all (by decide) (execRingAckTimer_within side s)
  | ringResendTimeout side => exact Within.all (by decide) (execRingResendTimeout_within side s)
  | syncTimer peer => exact Within.all (by decide) (execSyncTimer_within peer s)
  | sideDownTimeout side => exact Within.all (by decide) (execSideDownTimeout_within side s)
  | hopPauseTimeout side => exact Within.all (by decide) (execHopPauseTimeout_within side s)
  | syncTimeout q => exact Within.all (by decide) (execSyncTimeout_within q s)
  | pairFailNLow => exact Within.all (by decide) (execPairFailNLow_within s)
  | pairFailSyncTimeout q => exact Within.all (by decide) (execPairFailSyncTimeout_within q s)
  | chainSetupTimeout q => exact Within.all (by decide) (execChainSetupTimeout_within q s)
  | pairSetupTimeout q => exact Within.all (by decide) (execPairSetupTimeout_within q s)
  | ppsEdge => exact Within.all (by decide) (execPpsEdge_within s)
  | ppsLossTimeout => exact Within.all (by decide) (execPpsLossTimeout_within s)
  | phaseTermEnd => exact Within.all (by decide) (execPhaseTermEnd_within s)
  | ppsOutRise => exact Within.all (by decide) (execPpsOutRise_within s)
  | ppsOutFall => exact Within.all (by decide) (execPpsOutFall_within s)
  | timeSetEdgeTimeout => exact Within.all (by decide) (execTimeSetEdgeTimeout_within s)
  | pinReserve n => exact Within.all (by decide) (execPinReserve_within n s)
  | pinRelease q => exact Within.all (by decide) (execPinRelease_within q s)
  | pinLateIntervalEnd q => exact Within.all (by decide) (execPinLateIntervalEnd_within q s)
  | epochGraceEnd scope target => exact Within.all (by decide) (execEpochGraceEnd_within scope target s)
  | sweepVisit q => exact Within.all (by decide) (execSweepVisit_within q s)
  | flagEventIntervalEnd q => exact Within.all (by decide) (execFlagEventIntervalEnd_within q s)
  | adaptationVisit q => exact Within.all (by decide) (execAdaptationVisit_within q s)
  | kbDropIntervalEnd q => exact Within.all (by decide) (execKbDropIntervalEnd_within q s)
  | segmentGrant q => exact Within.all (by decide) (execSegmentGrant_within q s)
  | segmentRequestRetry q => exact Within.all (by decide) (execSegmentRequestRetry_within q s)
  | segmentZeroed seg => exact Within.all (by decide) (execSegmentZeroed_within seg s)
  | scrubRead quarter found => exact Within.all (by decide) (execScrubRead_within quarter found s)
  | maintActivityEnd quarter failing => exact Within.all (by decide) (execMaintActivityEnd_within quarter failing s)
  | quarterRest quarter => exact Within.all (by decide) (execQuarterRest_within quarter s)
  | quarterWake quarter => exact Within.all (by decide) (execQuarterWake_within quarter s)
  | busyNRelease => exact Within.all (by decide) (execBusyNRelease_within s)
  | crosswalkEvent cell => exact Within.all (by decide) (execCrosswalkEvent_within cell s)
  | pwrPendingStart => exact Within.all (by decide) (execPwrPendingStart_within s)
  | sleepEntry => exact Within.all (by decide) (execSleepEntry_within s)
  | deepSleepEntry nonce => exact Within.all (by decide) (execDeepSleepEntry_within nonce s)
  | offEntry => exact Within.all (by decide) (execOffEntry_within s)
  | sleepExit => exact Within.all (by decide) (execSleepExit_within s)
  | deepSleepExit depotOk droop rows ecc ctxDroop =>
    exact Within.all (by decide) (execDeepSleepExit_within depotOk droop rows ecc ctxDroop s)
  | offExit => exact Within.all (by decide) (execOffExit_within s)
  | wakeN => exact Within.all (by decide) (execWakeN_within s)
  | svcAddressMatch => exact Within.all (by decide) (execSvcAddressMatch_within s)
  | laneSignalDetect n => exact Within.all (by decide) (execLaneSignalDetect_within n s)
  | pcieWake => exact Within.all (by decide) (execPcieWake_within s)
  | wakeSense mv => exact Within.all (by decide) (execWakeSense_within mv s)
  | domainPowerUp d => exact Within.all (by decide) (execDomainPowerUp_within d s)
  | wakeVoteRelease n => exact Within.all (by decide) (execWakeVoteRelease_within n s)
  | idleClockGate => exact Within.all (by decide) (execIdleClockGate_within s)
  | playoutUngate => exact Within.all (by decide) (execPlayoutUngate_within s)
  | vrPgTimeout => exact Within.all (by decide) (execVrPgTimeout_within s)
  | vrRetry => exact Within.all (by decide) (execVrRetry_within s)
  | avsStep mv raiseNeeded => exact Within.all (by decide) (execAvsStep_within mv raiseNeeded s)
  | avsAck => exact Within.all (by decide) (execAvsAck_within s)
  | avsAckTimeout => exact Within.all (by decide) (execAvsAckTimeout_within s)
  | pmbusStretchTimeout => exact Within.all (by decide) (execPmbusStretchTimeout_within s)
  | pmbAlertN statusWord => exact Within.all (by decide) (execPmbAlertN_within statusWord s)
  | brownOut => exact Within.all (by decide) (execBrownOut_within s)
  | pwrfailNFall => exact Within.all (by decide) (execPwrfailNFall_within s)
  | por refclk => exact Within.all (by decide) (execPor_within refclk s)
  | rstNAssert ns => exact Within.all (by decide) (execRstNAssert_within ns s)
  | rstNRelease => exact Within.all (by decide) (execRstNRelease_within s)
  | refclkLoss => exact Within.all (by decide) (execRefclkLoss_within s)
  | resetComplete => exact Within.all (by decide) (execResetComplete_within s)
  | supplyMonitorTrip r => exact Within.all (by decide) (execSupplyMonitorTrip_within r s)
  | watchdogExpiry => exact Within.all (by decide) (execWatchdogExpiry_within s)
  | fwcoreRequest => exact Within.all (by decide) (execFwcoreRequest_within s)
  | trialTimeout => exact Within.all (by decide) (execTrialTimeout_within s)
  | trimLoadDone crcOk degraded kioskDegraded =>
    exact Within.all (by decide) (execTrimLoadDone_within crcOk degraded kioskDegraded s)
  | trimRetry => exact Within.all (by decide) (execTrimRetry_within s)
  | bootStart aOk bOk dir => exact Within.all (by decide) (execBootStart_within aOk bOk dir s)
  | configStoreApply => exact Within.all (by decide) (execConfigStoreApply_within s)
  | firmwareReady => exact Within.all (by decide) (execFirmwareReady_within s)
  | healthOk => exact Within.all (by decide) (execHealthOk_within s)
  | controlPlaneReturn => exact Within.all (by decide) (execControlPlaneReturn_within s)
  | dumpStart l1OrL0 busMaster => exact Within.all (by decide) (execDumpStart_within l1OrL0 busMaster s)
  | dumpComplete => exact Within.all (by decide) (execDumpComplete_within s)
  | dumpStartTimeout => exact Within.all (by decide) (execDumpStartTimeout_within s)
  | dumpOverrun => exact Within.all (by decide) (execDumpOverrun_within s)
  | info tag payload => exact Within.all (by decide) (execInfo_within tag payload s)
  | regRead tag payload => exact Within.all (by decide) (execRegRead_within tag payload s)
  | regWrite tag payload => exact Within.all (by decide) (execRegWrite_within tag payload s)
  | keyMsg tag payload => exact Within.all (by decide) (execKeyMsg_within tag payload s)
  | pkgBegin tag payload => exact Within.all (by decide) (execPkgBegin_within tag payload s)
  | pkgEraseDone r => exact Within.all (by decide) (execPkgEraseDone_within r s)
  | pkgData tag payload r => exact Within.all (by decide) (execPkgData_within tag payload r s)
  | pkgEnd tag payload r => exact Within.all (by decide) (execPkgEnd_within tag payload r s)
  | pkgActivateReset => exact Within.all (by decide) (execPkgActivateReset_within s)
  | pkgAbort tag payload => exact Within.all (by decide) (execPkgAbort_within tag payload s)
  | pkgUploadTimeout => exact Within.all (by decide) (execPkgUploadTimeout_within s)
  | bootClear tag payload => exact Within.all (by decide) (execBootClear_within tag payload s)
  | confirm tag payload => exact Within.all (by decide) (execConfirm_within tag payload s)
  | wardenAutobaud baud => exact Within.all (by decide) (execWardenAutobaud_within baud s)
  | id => exact Within.all (by decide) (execId_within s)
  | stat => exact Within.all (by decide) (execStat_within s)
  | err n => exact Within.all (by decide) (execErr_within n s)
  | cnt => exact Within.all (by decide) (execCnt_within s)
  | rd off n => exact Within.all (by decide) (execRd_within off n s)
  | wr off v => exact Within.all (by decide) (execWr_within off v s)
  | mem m addr n => exact Within.all (by decide) (execMem_within m addr n s)
  | memw m addr v => exact Within.all (by decide) (execMemw_within m addr v s)
  | reset => exact Within.all (by decide) (execReset_within s)
  | bootclr => exact Within.all (by decide) (execBootclr_within s)
  | dataModeStart p => exact Within.all (by decide) (execDataModeStart_within p s)
  | eqWindowEnd p met => exact Within.all (by decide) (execEqWindowEnd_within p met s)
  | blockResetComplete p => exact Within.all (by decide) (execBlockResetComplete_within p s)
  | flrComplete fn => exact Within.all (by decide) (execFlrComplete_within fn s)
  | vrPgRise => exact Within.all (by decide) (execVrPgRise_within s)
  | pcieL0Reached => exact Within.all (by decide) (execPcieL0Reached_within s)
  | vrAlertHoldoffEnd alertLow statusWord => exact Within.all (by decide) (execVrAlertHoldoffEnd_within alertLow statusWord s)
/-- Settles O3: what `Within` says of every command includes that it keeps the queue. -/
theorem everyCommandAnswersAndKeepsTheQueue : Obligations.EveryCommandAnswersAndKeepsTheQueue := by
  unfold Obligations.EveryCommandAnswersAndKeepsTheQueue
  intro c s
  obtain ⟨t, hnext, hw⟩ := exec_within c s
  exact ⟨t, hnext, hw.pending⟩
end Sys2Proof.Machine
end

section
/-!
SUPPORT. A host command that the sequencer accepts, by the effect of its opcode, and the commands that refuse a queue outside the
function's group (R29).
-/
namespace Sys2Proof.Machine

/-! ## From the command to its effect -/

@[simp] theorem State.nextRef_fn (s : State) (g : Nat) (d : Block512) : (s.nextRef g d).fn = g := rfl

/-- What an opcode's command does once its header has passed (Table HI-8). -/
def HasEffect (op : Nat) (effect : State → CmdRef → Block512 → State) : Prop :=
  ∀ (s : State) (r : CmdRef) d m, s.hostEffect { r with opcode := op } d m = effect s { r with opcode := op } d

theorem hasEffect_queueBind : HasEffect 0x10 State.doQueueBind := fun _ _ _ _ => rfl
theorem hasEffect_queueOpen : HasEffect 0x11 State.doQueueOpen := fun _ _ _ _ => rfl
theorem hasEffect_queueClose : HasEffect 0x12 State.doQueueClose := fun _ _ _ _ => rfl
theorem hasEffect_queueDiscard : HasEffect 0x13 State.doQueueDiscard := fun _ _ _ _ => rfl
theorem hasEffect_queueReset : HasEffect 0x14 State.doQueueReset := fun _ _ _ _ => rfl
theorem hasEffect_queueRelease : HasEffect 0x15 State.doQueueRelease := fun _ _ _ _ => rfl
theorem hasEffect_queryQueue : HasEffect 0x16 State.doQueryQueue := fun _ _ _ _ => rfl
theorem hasEffect_groupSet : HasEffect 0x17 State.doGroupSet := fun _ _ _ _ => rfl
theorem hasEffect_flagSet : HasEffect 0x20 State.doFlagSet := fun _ _ _ _ => rfl
theorem hasEffect_mark : HasEffect 0x28 State.doMark := fun _ _ _ _ => rfl
theorem hasEffect_rewind : HasEffect 0x29 State.doRewind := fun _ _ _ _ => rfl
theorem hasEffect_releaseMark : HasEffect 0x2A State.doReleaseMark := fun _ _ _ _ => rfl
theorem hasEffect_pinSet : HasEffect 0x31 State.doPinSet := fun _ _ _ _ => rfl
theorem hasEffect_policySet : HasEffect 0x38 State.doPolicySet := fun _ _ _ _ => rfl
theorem hasEffect_chainSetup : HasEffect 0x40 State.doChainSetup := fun _ _ _ _ => rfl
theorem hasEffect_pairSetup : HasEffect 0x41 State.doPairSetup := fun _ _ _ _ => rfl
theorem hasEffect_failover : HasEffect 0x42 State.doFailover := fun _ _ _ _ => rfl

/-- An accepted command has its opcode's effect on the state in which it has been fetched. -/
theorem exec_of_accepts {c : Instr} {g : Fin 16} {op : Nat} {d : Block512} {s : State} (hc : hostOf c = some (g, op, d))
    (h : s.Accepts g.val op d) {effect : State → CmdRef → Block512 → State} (he : HasEffect op effect) :
    exec c s = .next (effect (s.fetched g.val d) (s.nextRef g.val d) d) := by
  have href : ({ s.nextRef g.val d with opcode := op } : CmdRef) = s.nextRef g.val d := by
    rw [← h.opcode]
    rfl
  exact accepts_effect hc h fun m => by rw [he, href]

/-! ## Refusal of another group's queue -/

theorem actsAs_of_lt {g : Nat} (h : g < 16) : actsAs g = g := if_neg (Nat.ne_of_lt h)

theorem owns_eq_false {g : Fin 16} {n : Nat} (hvf : g ≠ 0) (hother : n / 512 ≠ g.val) : owns g.val n = false := by
  have hvf' : g.val ≠ 0 := fun h => hvf (Fin.ext h)
  simp [owns, ownerOf, actsAs_of_lt g.isLt, hvf', hother.symm]

/-- The ownership check comes first: it decides whatever the later checks would say. -/
theorem firstFail_notOwner {fn n : Nat} (h : owns fn n = false) (l : List (Bool × Nat)) :
    firstFail ((!owns fn n, St.notOwner) :: l) = St.notOwner := by
  simp [firstFail, h]

/-- A command whose checks begin with ownership ends there. -/
theorem ite_notOwner {α : Type} {fn n : Nat} (h : owns fn n = false) (l : List (Bool × Nat)) (refuse : Nat → α) (act : α) :
    (if firstFail ((!owns fn n, St.notOwner) :: l) ≠ St.ok then refuse (firstFail ((!owns fn n, St.notOwner) :: l)) else act) =
      refuse St.notOwner := by
  rw [firstFail_notOwner h]
  rfl

/-- A command's effect where the function does not own the queue: NOT_OWNER, and nothing else. -/
def RefusesOthers (effect : State → CmdRef → Block512 → State) : Prop :=
  ∀ s r d, owns r.fn (qidOf d) = false → effect s r d = s.complete r St.notOwner

theorem doQueueBind_refusesOthers : RefusesOthers State.doQueueBind := fun s r _ h => ite_notOwner h _ (s.complete r) _
theorem doQueueClose_refusesOthers : RefusesOthers State.doQueueClose := fun s r _ h => ite_notOwner h _ (s.complete r) _
theorem doQueueDiscard_refusesOthers : RefusesOthers State.doQueueDiscard := fun s r _ h => ite_notOwner h _ (s.complete r) _
theorem doQueueReset_refusesOthers : RefusesOthers State.doQueueReset := fun s r _ h => ite_notOwner h _ (s.complete r) _
theorem doQueueRelease_refusesOthers : RefusesOthers State.doQueueRelease := fun s r _ h => ite_notOwner h _ (s.complete r) _
theorem doQueryQueue_refusesOthers : RefusesOthers State.doQueryQueue := fun s r _ h => ite_notOwner h _ (s.complete r) _
theorem doFlagSet_refusesOthers : RefusesOthers State.doFlagSet := fun s r _ h => ite_notOwner h _ (s.complete r) _
theorem doMark_refusesOthers : RefusesOthers State.doMark := fun s r _ h => ite_notOwner h _ (s.complete r) _
theorem doReleaseMark_refusesOthers : RefusesOthers State.doReleaseMark := fun s r _ h => ite_notOwner h _ (s.complete r) _
theorem doPinSet_refusesOthers : RefusesOthers State.doPinSet := fun s r _ h => ite_notOwner h _ (s.complete r) _
theorem doPolicySet_refusesOthers : RefusesOthers State.doPolicySet := fun s r _ h => ite_notOwner h _ (s.complete r) _
theorem doChainSetup_refusesOthers : RefusesOthers State.doChainSetup := fun s r _ h => ite_notOwner h _ (s.complete r) _
theorem doPairSetup_refusesOthers : RefusesOthers State.doPairSetup := fun s r _ h => ite_notOwner h _ (s.complete r) _
theorem doFailover_refusesOthers : RefusesOthers State.doFailover := fun s r _ h => ite_notOwner h _ (s.complete r) _

theorem doQueueOpen_refusesOthers : RefusesOthers State.doQueueOpen := by
  intro s r d h
  unfold State.doQueueOpen
  dsimp only
  rw [firstFail_notOwner h]
  rfl

theorem doRewind_refusesOthers : RefusesOthers State.doRewind := by
  intro s r d h
  have hfail : ∀ l, firstFail (s.markChecks r.fn (qidOf d) false ++ l) = St.notOwner := fun _ => firstFail_notOwner h _
  unfold State.doRewind
  dsimp only
  rw [hfail]
  rfl

/-- Table HI-8's commands that name a queue, but for REKEY. -/
theorem exists_effect_refusesOthers {op : Nat}
    (hop : op ∈ [0x10, 0x11, 0x12, 0x13, 0x14, 0x15, 0x16, 0x20, 0x28, 0x29, 0x2A, 0x31, 0x38, 0x40, 0x41, 0x42]) :
    ∃ effect, HasEffect op effect ∧ RefusesOthers effect := by
  simp only [List.mem_cons, List.not_mem_nil, or_false] at hop
  rcases hop with rfl | rfl | rfl | rfl | rfl | rfl | rfl | rfl | rfl | rfl | rfl | rfl | rfl | rfl | rfl | rfl
  · exact ⟨_, hasEffect_queueBind, doQueueBind_refusesOthers⟩
  · exact ⟨_, hasEffect_queueOpen, doQueueOpen_refusesOthers⟩
  · exact ⟨_, hasEffect_queueClose, doQueueClose_refusesOthers⟩
  · exact ⟨_, hasEffect_queueDiscard, doQueueDiscard_refusesOthers⟩
  · exact ⟨_, hasEffect_queueReset, doQueueReset_refusesOthers⟩
  · exact ⟨_, hasEffect_queueRelease, doQueueRelease_refusesOthers⟩
  · exact ⟨_, hasEffect_queryQueue, doQueryQueue_refusesOthers⟩
  · exact ⟨_, hasEffect_flagSet, doFlagSet_refusesOthers⟩
  · exact ⟨_, hasEffect_mark, doMark_refusesOthers⟩
  · exact ⟨_, hasEffect_rewind, doRewind_refusesOthers⟩
  · exact ⟨_, hasEffect_releaseMark, doReleaseMark_refusesOthers⟩
  · exact ⟨_, hasEffect_pinSet, doPinSet_refusesOthers⟩
  · exact ⟨_, hasEffect_policySet, doPolicySet_refusesOthers⟩
  · exact ⟨_, hasEffect_chainSetup, doChainSetup_refusesOthers⟩
  · exact ⟨_, hasEffect_pairSetup, doPairSetup_refusesOthers⟩
  · exact ⟨_, hasEffect_failover, doFailover_refusesOthers⟩

/-- Settles O18: the function does not own the queue, and each of these opcodes has an effect that checks that first. -/
theorem vfMayNotCommandAnotherGroupsQueue : Obligations.VfMayNotCommandAnotherGroupsQueue := by
  unfold Obligations.VfMayNotCommandAnotherGroupsQueue
  intro c g op d s hc h hop hvf hother
  obtain ⟨effect, he, hrefuses⟩ := exists_effect_refusesOthers hop
  rw [exec_of_accepts hc h he, hrefuses _ _ _ (owns_eq_false hvf hother)]
  rfl

end Sys2Proof.Machine
end

section
/-!
SUPPORT. What an evaluation of the flags (R96) and a segment request (R39, R40) do to a queue.
-/
namespace Sys2Proof.Machine

/-! ## Reading a queue back -/

@[simp] theorem State.q_updQ (s : State) (n m : Nat) (f : Queue → Queue) :
    (s.updQ n f).q m = if n = m then f (s.q n) else s.q m := s.q_setQ n m (f (s.q n))

/-- An operation whose mask leaves the queues out leaves every queue as it is. -/
theorem State.q_of_within {M : Nat} {s t : State} (h : Within M s t) (hM : M.testBit 0 = false) (n : Nat) : t.q n = s.q n := by
  have hqueues : t.queues = s.queues := h.same .queues hM
  unfold State.q
  rw [hqueues]

/-! ## Evaluating the flags -/

@[simp] theorem postFlagChange_q (s : State) (n : Nat) (bounce : Bool) (m : Nat) : (s.postFlagChange n bounce).q m = s.q m :=
  State.q_of_within (State.postFlagChange_within n bounce (Within.refl _ s) (Nat.or_self _)) (by decide) m

@[simp] theorem sendStatus_q (s : State) (n m : Nat) : (s.sendStatus n).q m = s.q m :=
  State.q_of_within (State.sendStatus_within n (Within.refl _ s) (Nat.or_self _)) (by decide) m

/-- A queue's context without what an evaluation of its flags writes. -/
def Queue.offFlags (q : Queue) : Queue := { q with fst := {}, xoff := false }

theorem flagEvent_offFlags (s : State) (n diff : Nat) : ((s.flagEvent n diff).q n).offFlags = (s.q n).offFlags := by
  unfold State.flagEvent
  dsimp only
  split
  · rfl
  · split
    · simp [Queue.offFlags]
    · simp [Queue.offFlags]

theorem evalFlags_offFlags (s : State) (n : Nat) : ((s.evalFlags n).q n).offFlags = (s.q n).offFlags := by
  unfold State.evalFlags
  split
  · rfl
  · dsimp only
    rw [flagEvent_offFlags]
    split <;> simp [Queue.offFlags]

theorem Queue.field_of_offFlags {q x : Queue} (h : q.offFlags = x.offFlags) {α : Type} (p : Queue → α)
    (hp : ∀ q, p q.offFlags = p q := by intro q; rfl) : p q = p x := by
  rw [← hp, h, hp]

/-- What an evaluation does not write reads the same after it. -/
theorem evalFlags_field (s : State) (n : Nat) {α : Type} (p : Queue → α) (hp : ∀ q, p q.offFlags = p q := by intro q; rfl) :
    p ((s.evalFlags n).q n) = p (s.q n) := Queue.field_of_offFlags (evalFlags_offFlags s n) p hp

theorem evalFlags_other (s : State) {n m : Nat} (h : m ≠ n) : (s.evalFlags n).q m = s.q m := (onQ_evalFlags n s).other m h

@[simp] theorem evalFlags_plaza (s : State) (n : Nat) : (s.evalFlags n).plaza = s.plaza :=
  (State.evalFlags_within n (Within.refl _ s) (Nat.or_self _)).same .plaza (by decide)

@[simp] theorem evalFlags_links (s : State) (n : Nat) : (s.evalFlags n).links = s.links :=
  (State.evalFlags_within n (Within.refl _ s) (Nat.or_self _)).same .links (by decide)

/-! ## Segments -/

@[simp] theorem takeSeg_q (s : State) (n seg m : Nat) :
    (s.takeSeg n seg).q m = if n = m then { s.q n with segs := (s.q n).segs ++ [seg] } else s.q m :=
  s.q_updQ n m fun q => { q with segs := q.segs ++ [seg] }

theorem takeSeg_plaza (s : State) (n seg : Nat) :
    (s.takeSeg n seg).plaza = { s.plaza with owner := SMap.set 0 s.plaza.owner seg (n + 1) } := rfl

@[simp] theorem denySeg_plaza (s : State) (n : Nat) : (s.denySeg n).plaza = s.plaza := rfl

theorem denySeg_q (s : State) (n : Nat) : (s.denySeg n).q n = { s.q n with
    segDenied := true, segDeny := if (s.q n).segDenied then (s.q n).segDeny else inc32 (s.q n).segDeny } := by
  unfold State.denySeg
  rw [State.q_updQ, if_pos rfl]
  split
  · rename_i h
    rw [← h]
  · rfl

theorem denySeg_other (s : State) {n m : Nat} (h : m ≠ n) : (s.denySeg n).q m = s.q m := by
  simp [State.denySeg, h.symm]

/-- The request has its answer: none is outstanding. -/
def State.answered (s : State) (n : Nat) : State := s.setQ n { s.q n with segReq := false }

/-- A granted request: the segment joins the queue. -/
theorem segmentResult_grant {s : State} {n seg : Nat} (hreq : (s.q n).segReq = true) (hroom : 0 < (s.answered n).grantable n)
    (hseg : s.plaza.pickSeg (s.q n).b.affinity = some seg) :
    s.segmentResult n = (((s.answered n).updQ n fun q => { q with segDenied := false }).takeSeg n seg).evalFlags n := by
  have hgiven : (if 0 < (s.answered n).grantable n then (s.answered n).plaza.pickSeg (s.q n).b.affinity else none) =
      some seg := by
    rw [if_pos hroom]
    exact hseg
  unfold State.answered at hgiven ⊢
  unfold State.segmentResult
  dsimp only
  rw [if_pos hreq, hgiven]

/-- A denied request: it counts. -/
theorem segmentResult_deny {s : State} {n : Nat} (hreq : (s.q n).segReq = true) (hroom : (s.answered n).grantable n = 0) :
    s.segmentResult n = ((s.answered n).denySeg n).evalFlags n := by
  have hgiven : (if 0 < (s.answered n).grantable n then (s.answered n).plaza.pickSeg (s.q n).b.affinity else none) = none :=
    if_neg (by omega)
  unfold State.answered at hgiven ⊢
  unfold State.segmentResult
  dsimp only
  rw [if_pos hreq, hgiven]

theorem answered_other (s : State) {n m : Nat} (h : m ≠ n) : (s.answered n).q m = s.q m := by
  simp [State.answered, h.symm]

theorem answered_q (s : State) (n : Nat) : (s.answered n).q n = { s.q n with segReq := false } := by
  simp [State.answered]

theorem segmentGrant_joins {s : State} {q : Fin 8192} {seg : Nat} (hreq : (s.q q.val).segReq = true)
    (hroom : 0 < (s.answered q.val).grantable q.val) (hseg : s.plaza.pickSeg (s.q q.val).b.affinity = some seg) :
    ∃ t, exec (.segmentGrant q) s = .next t ∧
      (t.q q.val).offFlags = ({ s.q q.val with
        segReq := false, segDenied := false, segs := (s.q q.val).segs ++ [seg] } : Queue).offFlags ∧
      t.plaza = { s.plaza with owner := SMap.set 0 s.plaza.owner seg (q.val + 1) } ∧ ∀ m, m ≠ q.val → t.q m = s.q m := by
  refine ⟨_, congrArg Host.Outcome.next (segmentResult_grant hreq hroom hseg), ?_, ?_, fun m hm => ?_⟩
  · rw [evalFlags_offFlags]
    simp [answered_q]
  · rw [evalFlags_plaza]
    rfl
  · rw [evalFlags_other _ hm]
    simp [hm.symm, answered_other _ hm]

theorem segmentGrant_denies {s : State} {q : Fin 8192} (hreq : (s.q q.val).segReq = true)
    (hroom : (s.answered q.val).grantable q.val = 0) :
    ∃ t, exec (.segmentGrant q) s = .next t ∧
      (t.q q.val).offFlags = ({ s.q q.val with
        segReq := false, segDenied := true
        segDeny := if (s.q q.val).segDenied then (s.q q.val).segDeny else inc32 (s.q q.val).segDeny } : Queue).offFlags ∧
      t.plaza = s.plaza ∧ ∀ m, m ≠ q.val → t.q m = s.q m := by
  refine ⟨_, congrArg Host.Outcome.next (segmentResult_deny hreq hroom), ?_, ?_, fun m hm => ?_⟩
  · rw [evalFlags_offFlags, denySeg_q, answered_q]
  · rw [evalFlags_plaza]
    rfl
  · rw [evalFlags_other _ hm, denySeg_other _ hm, answered_other _ hm]

theorem segmentGrant_idle {s : State} {q : Fin 8192} (h : (s.q q.val).segReq = false) : exec (.segmentGrant q) s = .next s := by
  have hid : s.segmentResult q.val = s := by simp [State.segmentResult, h]
  exact congrArg Host.Outcome.next hid

/-- A refused queue asks again where a write waits for room or its last segment is full; nothing else does. -/
theorem segmentRequestRetry_eq (s : State) (q : Fin 8192) :
    exec (.segmentRequestRetry q) s = .next (
      if (s.q q.val).segDenied = true ∧ ((s.q q.val).needRoom = true ∨ (s.q q.val).heldEnd ≤ (s.q q.val).wptr)
      then s.setQ q.val { s.q q.val with segReq := true } else s) := by
  show execSegmentRequestRetry q s = _
  unfold execSegmentRequestRetry
  simp only [Bool.and_eq_true, Bool.or_eq_true, decide_eq_true_eq]

/-- Settles O26: a request has one answer, by what is grantable, and a retry repeats it under its condition alone. -/
theorem segmentsAreGrantedOrDenied : Obligations.SegmentsAreGrantedOrDenied := by
  unfold Obligations.SegmentsAreGrantedOrDenied
  intro q s n
  refine ⟨fun hreq hroom seg hseg => ?granted, fun hreq hroom => ?denied, segmentGrant_idle, fun hden hwait => ?again,
    fun hquiet => ?quiet⟩
  case granted =>
    obtain ⟨t, hnext, hq, hplaza, hother⟩ := segmentGrant_joins hreq hroom hseg
    refine ⟨t, hnext, Queue.field_of_offFlags hq Queue.segs, Queue.field_of_offFlags hq Queue.segReq,
      Queue.field_of_offFlags hq Queue.segDenied, ?_, fun k hk => ?_, ?_,
      Queue.field_of_offFlags hq Queue.wptr, Queue.field_of_offFlags hq Queue.rptr, hother⟩
    · rw [hplaza]
      exact SMap.get_set_same 0 s.plaza.owner seg (n + 1)
    · rw [hplaza]
      exact SMap.get_set_other 0 s.plaza.owner (n + 1) hk.symm
    · rw [hplaza]
  case denied =>
    obtain ⟨t, hnext, hq, hplaza, hother⟩ := segmentGrant_denies hreq hroom
    exact ⟨t, hnext, Queue.field_of_offFlags hq Queue.segs, Queue.field_of_offFlags hq Queue.segReq,
      Queue.field_of_offFlags hq Queue.segDenied, Queue.field_of_offFlags hq Queue.segDeny, hplaza, hother⟩
  case again => rw [segmentRequestRetry_eq, if_pos ⟨hden, hwait⟩]
  case quiet =>
    rw [segmentRequestRetry_eq, if_neg]
    rintro ⟨hden, hwait⟩
    rcases hquiet with hfalse | ⟨hroom, hlt⟩
    · exact absurd (hden.symm.trans hfalse) (by decide)
    · rcases hwait with hneed | hend
      · exact absurd (hneed.symm.trans hroom) (by decide)
      · exact absurd hlt (Nat.not_lt.mpr hend)

end Sys2Proof.Machine
end

section
/-!
SUPPORT. What the queue commands (R50, Tables QU-3, QU-5) do to their queue once their checks pass, and the rest they leave alone.
-/
namespace Sys2Proof.Machine

/-! ## What the shared operations leave alone -/

@[simp] theorem fetched_links (s : State) (g : Nat) (d : Block512) : (s.fetched g d).links = s.links := rfl

theorem State.link_of_links {s t : State} (h : t.links = s.links) (l : Nat) : t.link l = s.link l := by
  unfold State.link
  rw [h]

@[simp] theorem abortWriteEnd_q (s : State) (n m : Nat) : (s.abortWriteEnd n).q m = s.q m :=
  State.q_of_within (State.abortWriteEnd_within n (Within.refl _ s) (Nat.or_self _)) (by decide) m

@[simp] theorem abortReadEnd_q (s : State) (n m : Nat) : (s.abortReadEnd n).q m = s.q m :=
  State.q_of_within (State.abortReadEnd_within n (Within.refl _ s) (Nat.or_self _)) (by decide) m

@[simp] theorem completeAll_q (s : State) (rs : List CmdRef) (status m : Nat) : (s.completeAll rs status).q m = s.q m :=
  State.q_of_within (State.completeAll_within rs status (Within.refl _ s) (Nat.or_self _)) (by decide) m

theorem realign_other (s : State) (n pos : Nat) {m : Nat} (h : m ≠ n) : (s.realign n pos).q m = s.q m := by
  simp [State.realign, h.symm]

/-- A command's position changes nothing of a chain member but its chain. -/
theorem realign_kerb (s : State) (n pos : Nat) : ((s.realign n pos).q n).kerb = (s.q n).kerb := by
  unfold State.realign
  rw [State.q_updQ, if_pos rfl]
  split <;> rfl

@[simp] theorem Kerb.restart_policy (k : Kerb) (now cyc : Nat) : (k.restart now cyc).policy = k.policy := rfl
@[simp] theorem Kerb.restart_nsoj (k : Kerb) (now cyc : Nat) : (k.restart now cyc).nsoj = 0 := rfl

/-! ## The checks -/

theorem Queue.atHead_of_not_chained {q : Queue} (h : q.chained = false) : q.atHead = true := by
  simp [Queue.atHead, h]

/-- The checks that closing, discarding and resetting a queue share pass for a bound queue of the function in no chain. -/
theorem headChecks_pass {fn n : Nat} {q : Queue} (hown : owns fn n = true) (hst : q.st ≠ .unbound) (hch : q.chained = false) :
    firstFail [(!owns fn n, St.notOwner), (q.st == .unbound, St.badState), (!q.atHead, St.notHead)] = St.ok := by
  simp [firstFail, hown, hst, Queue.atHead_of_not_chained hch]

/-! ## QUEUE_BIND -/

/-- The context that a QUEUE_BIND writes (R53). -/
def State.freshQueue (s : State) (d : Block512) : Queue :=
  { st := .ready, b := bindingOf s d, kerb := Kerb.restart {} s.mcount s.cyc }

/-- The state in which a queue has its binding but no segment yet. -/
def State.contextBound (s : State) (d : Block512) : State :=
  (s.wakeQuarters (bindingOf s d).affinity).setQ (qidOf d) (s.freshQueue d)

/-- The state in which a QUEUE_BIND completes. -/
def State.bound (s : State) (d : Block512) : State :=
  ((s.contextBound d).takeSegs (qidOf d) (bindingOf s d).affinity (bindingOf s d).rsvSeg).evalFlags (qidOf d)

theorem doQueueBind_ok {s : State} {r : CmdRef} {d : Block512} (h : s.bindStatus r.fn d = St.ok) :
    s.doQueueBind r d = (s.bound d).complete r St.ok := if_neg (not_not_intro h)

@[simp] theorem bindStatus_fetched (s : State) (g : Nat) (d : Block512) (fn : Nat) :
    (s.fetched g d).bindStatus fn d = s.bindStatus fn d := rfl

@[simp] theorem bindingOf_fetched (s : State) (g : Nat) (d : Block512) : bindingOf (s.fetched g d) d = bindingOf s d := rfl

theorem bound_onQ (s : State) (d : Block512) : OnQ (qidOf d) (s.contextBound d) (s.bound d) :=
  (onQ_takeSegs _ _ _ _).trans (onQ_evalFlags _ _)

theorem contextBound_q (s : State) (d : Block512) : (s.contextBound d).q (qidOf d) = s.freshQueue d := by
  simp [State.contextBound]

theorem contextBound_other (s : State) (d : Block512) {m : Nat} (h : m ≠ qidOf d) : (s.contextBound d).q m = s.q m := by
  simp only [State.contextBound, State.q_setQ, if_neg h.symm]
  rfl

theorem bound_field (s : State) (d : Block512) {α : Type} (p : Queue → α) (hp : ∀ q, p q.core = p q := by intro q; rfl) :
    p ((s.bound d).q (qidOf d)) = p (s.freshQueue d) := by
  rw [(bound_onQ s d).field p hp, contextBound_q]

theorem bound_other (s : State) (d : Block512) {m : Nat} (h : m ≠ qidOf d) : (s.bound d).q m = s.q m := by
  rw [(bound_onQ s d).other m h, contextBound_other s d h]

theorem bound_links (s : State) (d : Block512) : (s.bound d).links = s.links := by
  unfold State.bound
  rw [evalFlags_links]
  exact (State.takeSegs_within _ _ _ (Within.refl _ (s.contextBound d)) (Nat.or_self _)).same .links (by decide)

/-! ## QUEUE_OPEN -/

/-- The queue in OPEN, its flags not yet evaluated. -/
def State.opening (s : State) (n : Nat) : State := s.updQ n fun q => { q.spoilInterval with st := .opened }

theorem opening_q (s : State) (n : Nat) : (s.opening n).q n = { (s.q n).spoilInterval with st := .opened } := by
  simp [State.opening]

theorem opening_other (s : State) {n m : Nat} (h : m ≠ n) : (s.opening n).q m = s.q m := by
  simp [State.opening, h.symm]

/-- A queue whose link ends are up opens, and is not held (R67). -/
theorem openQueue_of_up {s : State} {n : Nat} (hup : ∀ l ∈ (s.q n).endLinks, (s.link l).phy.st = .up) :
    s.openQueue n = (s.opening n).evalFlags n := by
  have hends : (((s.opening n).evalFlags n).q n).endLinks = (s.q n).endLinks := by
    rw [evalFlags_field _ n Queue.endLinks, opening_q]
    rfl
  have hlink : ∀ l, ((s.opening n).evalFlags n).link l = s.link l := State.link_of_links (evalFlags_links _ n)
  have hnone : ¬ (((s.opening n).evalFlags n).q n).endLinks.any
      (fun l => (((s.opening n).evalFlags n).link l).phy.st != .up) = true := by
    rw [hends, List.any_eq_true]
    rintro ⟨l, hl, hdown⟩
    rw [hlink, hup l hl] at hdown
    exact absurd hdown (by decide)
  exact if_neg hnone

theorem opened_field (s : State) (n : Nat) {α : Type} (p : Queue → α) (hp : ∀ q, p q.offFlags = p q := by intro q; rfl) :
    p (((s.opening n).evalFlags n).q n) = p { (s.q n) with st := .opened } := by
  rw [evalFlags_field _ n p hp, opening_q, ← hp]
  exact hp { s.q n with st := .opened }

theorem opened_other (s : State) {n m : Nat} (h : m ≠ n) : ((s.opening n).evalFlags n).q m = s.q m := by
  rw [evalFlags_other _ h, opening_other s h]

theorem doQueueOpen_opens {s : State} {r : CmdRef} {d : Block512} (hown : owns r.fn (qidOf d) = true)
    (hst : (s.q (qidOf d)).st = .ready ∨ (s.q (qidOf d)).st = .closed) (hring : (s.q (qidOf d)).hasRingEnd = false)
    (hch : (s.q (qidOf d)).chained = false) (hkeys : s.keysBound (qidOf d) = true) :
    s.doQueueOpen r d = (s.openQueue (qidOf d)).complete r St.ok := by
  unfold State.doQueueOpen
  rcases hst with hst | hst <;>
    simp [firstFail, hown, hst, Queue.atHead_of_not_chained hch, hring, hch, hkeys]

/-! ## QUEUE_CLOSE -/

/-- A CLOSING queue stays so, or its drain ends in CLOSED (R63). -/
theorem tryClose_st {s : State} {n : Nat} (h : (s.q n).st = .closing) :
    ((s.tryClose n).q n).st = .closing ∨ ((s.tryClose n).q n).st = .closed := by
  unfold State.tryClose
  dsimp only
  split
  · right
    rw [completeAll_q, abortReadEnd_q, (onQ_release n _).field Queue.st, State.q_setQ, if_pos rfl]
  · exact .inl h

theorem closeQueue_st (s : State) (n : Nat) :
    ((s.closeQueue n).q n).st = .closing ∨ ((s.closeQueue n).q n).st = .closed := by
  unfold State.closeQueue
  dsimp only
  rw [evalFlags_field _ n Queue.st]
  exact tryClose_st (by simp)

theorem doQueueClose_opened {s : State} {r : CmdRef} {d : Block512} (hown : owns r.fn (qidOf d) = true)
    (hch : (s.q (qidOf d)).chained = false) (hst : (s.q (qidOf d)).st = .opened) :
    s.doQueueClose r d = (s.updQ (qidOf d) fun q => { q with closes := q.closes ++ [r] }).closeQueue (qidOf d) := by
  unfold State.doQueueClose
  dsimp only
  rw [headChecks_pass hown (by simp [hst]) hch]
  simp [hst, hch]

/-- A queue with nothing to drain closes at once, and nothing changes. -/
theorem doQueueClose_idle {s : State} {r : CmdRef} {d : Block512} (hown : owns r.fn (qidOf d) = true)
    (hch : (s.q (qidOf d)).chained = false) (hst : (s.q (qidOf d)).st = .ready ∨ (s.q (qidOf d)).st = .closed) :
    s.doQueueClose r d = s.complete r St.ok := by
  unfold State.doQueueClose
  dsimp only
  rcases hst with hst | hst <;>
  · rw [headChecks_pass hown (by simp [hst]) hch]
    simp [hst]

/-! ## QUEUE_DISCARD and QUEUE_RESET -/

/-- The state in which a QUEUE_DISCARD of a queue in no chain completes. -/
def State.discarded (s : State) (n : Nat) : State := (s.discardAny n).realign n (s.q n).ffPos

/-- The state in which a QUEUE_RESET of a queue in no chain completes. -/
def State.wasReset (s : State) (n : Nat) : State := (s.resetQueue n).realign n (s.q n).ffPos

theorem doQueueDiscard_completes {s : State} {r : CmdRef} {d : Block512} (hown : owns r.fn (qidOf d) = true)
    (hch : (s.q (qidOf d)).chained = false) (hst : (s.q (qidOf d)).st ≠ .unbound) :
    s.doQueueDiscard r d = (s.discarded (qidOf d)).complete r St.ok := by
  unfold State.doQueueDiscard
  dsimp only
  rw [headChecks_pass hown hst hch, hch]
  rfl

theorem doQueueReset_completes {s : State} {r : CmdRef} {d : Block512} (hown : owns r.fn (qidOf d) = true)
    (hch : (s.q (qidOf d)).chained = false) (hst : (s.q (qidOf d)).st ≠ .unbound) :
    s.doQueueReset r d = (s.wasReset (qidOf d)).complete r St.ok := by
  unfold State.doQueueReset
  dsimp only
  rw [headChecks_pass hown hst hch, hch]
  rfl

theorem discarded_within (s : State) (n : Nat) : Within 28312769 s (s.discarded n) :=
  State.realign_within n _ (State.discardAny_within n (Within.refl _ s) (Nat.or_self _)) (by decide)

theorem discardAny_active {s : State} {n : Nat} (hst : (s.q n).st = .opened ∨ (s.q n).st = .closing ∨ (s.q n).st = .held) :
    s.discardAny n = s.discard n := by
  unfold State.discardAny
  rcases hst with hst | hst | hst <;> rw [hst]

theorem discardAny_idle {s : State} {n : Nat} (hst : (s.q n).st = .ready ∨ (s.q n).st = .closed) :
    s.discardAny n = s.discardIdle n := by
  unfold State.discardAny
  rcases hst with hst | hst <;> rw [hst]

/-- Of a queue that holds no data, a discard restarts the predictor and the measurement (R103, R203). -/
theorem discardIdle_q (s : State) (n : Nat) : ((s.discardIdle n).q n).offFlags =
    ({ s.q n with kerb := (s.q n).kerb.restart s.mcount s.cyc } : Queue).offFlags := by
  have hends : Within 25165952 s ((s.abortWriteEnd n).abortReadEnd n) :=
    State.abortReadEnd_within n (State.abortWriteEnd_within n (Within.refl _ s) (Nat.or_self _)) (Nat.or_self _)
  have hcyc : ((s.abortWriteEnd n).abortReadEnd n).cyc = s.cyc := hends.same .cyc (by decide)
  have htime : ((s.abortWriteEnd n).abortReadEnd n).time = s.time := hends.same .time (by decide)
  unfold State.discardIdle
  dsimp only
  rw [evalFlags_offFlags, State.q_updQ, if_pos rfl, abortReadEnd_q, abortWriteEnd_q, hcyc, State.mcount, htime]
  rfl

theorem discardIdle_other (s : State) (n : Nat) {m : Nat} (h : m ≠ n) : (s.discardIdle n).q m = s.q m := by
  unfold State.discardIdle
  dsimp only
  rw [evalFlags_other _ h, State.q_updQ, if_neg h.symm, abortReadEnd_q, abortWriteEnd_q]

theorem discarded_active {s : State} {n : Nat} (hst : (s.q n).st = .opened ∨ (s.q n).st = .closing ∨ (s.q n).st = .held) :
    ((s.discarded n).q n).st = .closed ∧ ((s.discarded n).q n).rptr = ((s.discarded n).q n).wptr ∧
      ((s.discarded n).q n).wmsg = none ∧ ((s.discarded n).q n).rmsg = none := by
  obtain ⟨kst, krptr, kwptr, kwmsg, krmsg, -⟩ := realign_q (s.discard n) n (s.q n).ffPos
  obtain ⟨hclosed, hptr, hwmsg, hrmsg⟩ := discard_q s n
  rw [State.discarded, discardAny_active hst]
  exact ⟨kst.trans hclosed, krptr.trans (hptr.trans kwptr.symm), kwmsg.trans hwmsg, krmsg.trans hrmsg⟩

theorem discarded_idle {s : State} {n : Nat} (hst : (s.q n).st = .ready ∨ (s.q n).st = .closed) :
    ((s.discarded n).q n).st = (s.q n).st ∧ ((s.discarded n).q n).rptr = (s.q n).rptr ∧
      ((s.discarded n).q n).wptr = (s.q n).wptr ∧ ((s.discarded n).q n).kerb = (s.q n).kerb.restart s.mcount s.cyc ∧
      ∀ m, m ≠ n → (s.discarded n).q m = s.q m := by
  obtain ⟨kst, krptr, kwptr, -⟩ := realign_q (s.discardIdle n) n (s.q n).ffPos
  have hq := discardIdle_q s n
  rw [State.discarded, discardAny_idle hst]
  exact ⟨kst.trans (Queue.field_of_offFlags hq Queue.st), krptr.trans (Queue.field_of_offFlags hq Queue.rptr),
    kwptr.trans (Queue.field_of_offFlags hq Queue.wptr), (realign_kerb _ n _).trans (Queue.field_of_offFlags hq Queue.kerb),
    fun m hm => (realign_other _ n _ hm).trans (discardIdle_other s n hm)⟩

theorem wasReset_q (s : State) (n : Nat) :
    ((s.wasReset n).q n).st = .ready ∧ ((s.wasReset n).q n).rptr = ((s.wasReset n).q n).wptr ∧
      ((s.wasReset n).q n).truncCnt = 0 ∧ ((s.wasReset n).q n).refusedCnt = 0 ∧ ((s.wasReset n).q n).msnW = 0 ∧
      ((s.wasReset n).q n).msnR = 0 := by
  obtain ⟨kst, krptr, kwptr, -, -, ktrunc, krefused, kmsnW, kmsnR⟩ := realign_q (s.resetQueue n) n (s.q n).ffPos
  obtain ⟨hready, hptr, htrunc, hrefused, hmsnW, hmsnR⟩ := reset_q s n
  exact ⟨kst.trans hready, krptr.trans (hptr.trans kwptr.symm), ktrunc.trans htrunc, krefused.trans hrefused,
    kmsnW.trans hmsnW, kmsnR.trans hmsnR⟩

/-! ## QUEUE_RELEASE -/

theorem doQueueRelease_completes {s : State} {r : CmdRef} {d : Block512} (hown : owns r.fn (qidOf d) = true)
    (hch : (s.q (qidOf d)).chained = false) (hst : (s.q (qidOf d)).st = .ready ∨ (s.q (qidOf d)).st = .closed) :
    s.doQueueRelease r d = (s.unbind (qidOf d)).complete r St.ok := by
  unfold State.doQueueRelease
  rcases hst with hst | hst <;> simp [firstFail, hown, hst, hch]

/-- A release clears the context; what follows, segments and final status entries, is about no queue. -/
theorem unbind_q (s : State) (n m : Nat) : (s.unbind n).q m = (s.setQ n {}).q m := by
  have hsends : ∀ (l : List Nat) (bytes : Nat → List Byte) (t : State),
      (l.foldl (fun t l => t.sendWord l (bytes l)) t).q m = t.q m := fun l bytes t =>
    State.q_of_within
      (Within.foldl (fun t l => State.sendWord_within l (bytes l) (Within.refl _ t) (Nat.or_self _)) l (Within.refl _ t))
      (by decide) m
  unfold State.unbind
  dsimp only
  rw [hsends]
  exact State.q_of_within (State.returnSegs_within true _ (Within.refl _ _) (Nat.or_self _)) (by decide) m

theorem unbind_links (s : State) (n : Nat) : (s.unbind n).links = s.links :=
  (State.unbind_within n (Within.refl _ s) (Nat.or_self _)).same .links (by decide)

/-! ## From the command to the state in which it completes -/

section
variable {g : Fin 16} {d : Block512} {s : State}

theorem exec_queueBind (h : s.Accepts g.val 0x10 d) (hst : s.bindStatus g.val d = St.ok) :
    exec (.queueBind g d) s = .next (s.endsWith g.val d ((s.fetched g.val d).bound d) St.ok) := by
  rw [exec_of_accepts rfl h hasEffect_queueBind, doQueueBind_ok hst]
  rfl

theorem exec_queueOpen (h : s.Accepts g.val 0x11 d) (hown : owns g.val (qidOf d) = true)
    (hst : (s.q (qidOf d)).st = .ready ∨ (s.q (qidOf d)).st = .closed) (hring : (s.q (qidOf d)).hasRingEnd = false)
    (hch : (s.q (qidOf d)).chained = false) (hkeys : s.keysBound (qidOf d) = true)
    (hup : ∀ l ∈ (s.q (qidOf d)).endLinks, (s.link l).phy.st = .up) :
    exec (.queueOpen g d) s =
      .next (s.endsWith g.val d (((s.fetched g.val d).opening (qidOf d)).evalFlags (qidOf d)) St.ok) := by
  rw [exec_of_accepts rfl h hasEffect_queueOpen,
    doQueueOpen_opens (s := s.fetched g.val d) hown hst hring hch hkeys, openQueue_of_up (s := s.fetched g.val d) hup]
  rfl

theorem exec_queueClose_opened (h : s.Accepts g.val 0x12 d) (hown : owns g.val (qidOf d) = true)
    (hch : (s.q (qidOf d)).chained = false) (hst : (s.q (qidOf d)).st = .opened) :
    exec (.queueClose g d) s = .next (((s.fetched g.val d).updQ (qidOf d)
      fun q => { q with closes := q.closes ++ [s.nextRef g.val d] }).closeQueue (qidOf d)) := by
  rw [exec_of_accepts rfl h hasEffect_queueClose,
    doQueueClose_opened (s := s.fetched g.val d) hown hch hst]

theorem exec_queueClose_idle (h : s.Accepts g.val 0x12 d) (hown : owns g.val (qidOf d) = true)
    (hch : (s.q (qidOf d)).chained = false) (hst : (s.q (qidOf d)).st = .ready ∨ (s.q (qidOf d)).st = .closed) :
    exec (.queueClose g d) s = .next (s.endsWith g.val d (s.fetched g.val d) St.ok) := by
  rw [exec_of_accepts rfl h hasEffect_queueClose,
    doQueueClose_idle (s := s.fetched g.val d) hown hch hst]
  rfl

theorem exec_queueDiscard (h : s.Accepts g.val 0x13 d) (hown : owns g.val (qidOf d) = true)
    (hch : (s.q (qidOf d)).chained = false) (hst : (s.q (qidOf d)).st ≠ .unbound) :
    exec (.queueDiscard g d) s = .next (s.endsWith g.val d ((s.fetched g.val d).discarded (qidOf d)) St.ok) := by
  rw [exec_of_accepts rfl h hasEffect_queueDiscard,
    doQueueDiscard_completes (s := s.fetched g.val d) hown hch hst]
  rfl

theorem exec_queueReset (h : s.Accepts g.val 0x14 d) (hown : owns g.val (qidOf d) = true)
    (hch : (s.q (qidOf d)).chained = false) (hst : (s.q (qidOf d)).st ≠ .unbound) :
    exec (.queueReset g d) s = .next (s.endsWith g.val d ((s.fetched g.val d).wasReset (qidOf d)) St.ok) := by
  rw [exec_of_accepts rfl h hasEffect_queueReset,
    doQueueReset_completes (s := s.fetched g.val d) hown hch hst]
  rfl

theorem exec_queueRelease (h : s.Accepts g.val 0x15 d) (hown : owns g.val (qidOf d) = true)
    (hch : (s.q (qidOf d)).chained = false) (hst : (s.q (qidOf d)).st = .ready ∨ (s.q (qidOf d)).st = .closed) :
    exec (.queueRelease g d) s = .next (s.endsWith g.val d ((s.fetched g.val d).unbind (qidOf d)) St.ok) := by
  rw [exec_of_accepts rfl h hasEffect_queueRelease,
    doQueueRelease_completes (s := s.fetched g.val d) hown hch hst]
  rfl

end

/-! ## The statement -/

/-- Settles O20: each command's checks pass under its clause's conditions, and what the state in which it completes holds is
said by the lemmas of its effect. -/
theorem queueCommandsMoveTheState : Obligations.QueueCommandsMoveTheState := by
  unfold Obligations.QueueCommandsMoveTheState
  intro g d s n
  have hfetched : ∀ m, (s.fetched g.val d).q m = s.q m := fun _ => rfl
  refine ⟨fun h hst => ?bind, fun h hown hst hring hch hkeys hup => ?opens, fun h hown hch hst => ?close,
    exec_queueClose_idle, fun h hown hch hst => ?discard, fun h hown hch _ hst => ?discardIdle,
    fun h hown hch hst => ?reset, fun h hown hch hst => ?release⟩
  case bind =>
    exact ⟨_, exec_queueBind h hst, bound_field _ d Queue.st, bound_field _ d Queue.b, bound_field _ d Queue.wptr,
      bound_field _ d Queue.rptr, bound_field _ d Queue.fcfg, fun m hm => bound_other _ d hm, bound_links _ d⟩
  case opens =>
    exact ⟨_, exec_queueOpen h hown hst hring hch hkeys hup, opened_field _ n Queue.st, opened_field _ n Queue.b,
      opened_field _ n Queue.wptr, opened_field _ n Queue.rptr, fun m hm => opened_other _ hm, evalFlags_plaza _ n⟩
  case close => exact ⟨_, exec_queueClose_opened h hown hch hst, closeQueue_st _ n⟩
  case discard =>
    have hbound : (s.q n).st ≠ .unbound := by rcases hst with h | h | h <;> rw [h] <;> decide
    have hw := discarded_within (s.fetched g.val d) n
    obtain ⟨hclosed, hptr, hwmsg, hrmsg⟩ := discarded_active (s := s.fetched g.val d) hst
    exact ⟨_, exec_queueDiscard h hown hch hbound, hclosed, hptr, hwmsg, hrmsg, hw.same .links (by decide),
      hw.same .kiosk (by decide)⟩
  case discardIdle =>
    have hbound : (s.q n).st ≠ .unbound := by rcases hst with h | h <;> rw [h] <;> decide
    obtain ⟨hkeepst, hrptr, hwptr, hkerb, hother⟩ := discarded_idle (s := s.fetched g.val d) hst
    refine ⟨_, exec_queueDiscard h hown hch hbound, hkeepst, hrptr, hwptr, ?_, ?_, hother⟩ <;> rw [hkerb]
    · exact Kerb.restart_policy _ _ _
    · exact Kerb.restart_nsoj _ _ _
  case reset => exact ⟨_, exec_queueReset h hown hch hst, wasReset_q _ n⟩
  case release =>
    refine ⟨_, exec_queueRelease h hown hch hst, ?_, fun m hm => ?_, unbind_links _ n⟩
    · rw [unbind_q, State.q_setQ, if_pos rfl]
    · rw [unbind_q, State.q_setQ, if_neg hm.symm, hfetched]

end Sys2Proof.Machine
end

section
/-!
SUPPORT. What the settings commands (R57, R58, R110, R185, R208) store once their checks pass, and the rest they leave alone.
-/
namespace Sys2Proof.Machine

/-! ## Result blocks (R312) -/

theorem resultOk_of_aligned {g a : Nat} (hg : g < 16) (ha : a % 64 = 0) (s : State) (d : Block512) :
    resultOk (s.nextRef g d) a = true := by
  simp [resultOk, ha, startupFn, Nat.ne_of_lt hg]

@[simp] theorem resultOk_zero (r : CmdRef) : resultOk r 0 = true := by simp [resultOk]

@[simp] theorem completeResult_zero (s : State) (r : CmdRef) (block status : Nat) :
    s.completeResult r 0 block status = s.complete r status := rfl

theorem completeResult_block (s : State) (r : CmdRef) {a : Nat} (ha : a ≠ 0) (block status : Nat) :
    s.completeResult r a block status = s.writeResult r a block status := if_neg ha

/-! ## QUERY_QUEUE and GROUP_SET -/

theorem doQueryQueue_reports {s : State} {r : CmdRef} {d : Block512} (hown : owns r.fn (qidOf d) = true)
    (ha : fld d 192 64 ≠ 0) (hok : resultOk r (fld d 192 64) = true) :
    s.doQueryQueue r d = s.writeResult r (fld d 192 64) (s.queryBlock (qidOf d)) St.ok := by
  unfold State.doQueryQueue
  simp [firstFail, hown, ha, hok, completeResult_block]

theorem doGroupSet_stores {s : State} {r : CmdRef} {d : Block512} (hfn : actsAs r.fn = 0) (hrsv : fld d 160 16 ≤ 32768)
    (hmax : fld d 176 16 ≤ 32768) (hheld : s.groupRsv (fld d 128 4) ≤ fld d 160 16) :
    s.doGroupSet r d = (s.setGroup (fld d 128 4)
      { s.group (fld d 128 4) with gqRsv := fld d 160 16, gqMax := fld d 176 16 }).complete r St.ok := by
  unfold State.doGroupSet
  simp [firstFail, hfn, Nat.not_lt.mpr hrsv, Nat.not_lt.mpr hmax, Nat.not_lt.mpr hheld]

/-! ## FLAG_SET -/

/-- The settings in the queue's context, each flag that they newly enable at 0 (R99). -/
def State.flagCfgStored (s : State) (n : Nat) (c : FlagCfg) : State :=
  (s.setQ n { s.q n with fcfg := c }).updQ n fun x =>
    { x with fst := { x.fst with levels := startLevels (s.q n).fst.levels (s.q n).fcfg.enable c.enable } }

/-- The flags at the levels that the settings give. -/
def State.flagCfgJudged (s : State) (n : Nat) (c : FlagCfg) : State :=
  (s.flagCfgStored n c).updQ n fun x => { x with fst := { x.fst with levels := (s.flagCfgStored n c).evalLevels n } }

/-- The state in which a FLAG_SET completes: a change of the levels has been reported. -/
def State.flagsSet (s : State) (n : Nat) (c : FlagCfg) : State :=
  if (s.q n).fst.levels ≠ (s.flagCfgStored n c).evalLevels n then
    ((s.flagCfgJudged n c).sendStatus n).flagEvent n ((s.q n).fst.levels ^^^ (s.flagCfgStored n c).evalLevels n)
  else s.flagCfgJudged n c

theorem doFlagSet_stores {s : State} {r : CmdRef} {d : Block512} (hown : owns r.fn (qidOf d) = true)
    (hst : (s.q (qidOf d)).st ≠ .unbound) (ha : fld d 448 64 = 0)
    (hfafLead : (flagCfgOf d).enable / 4 % 2 = 1 → 100 ≤ (flagCfgOf d).fafLead ∧ (flagCfgOf d).fafLead ≤ 1000000)
    (hfaeLead : (flagCfgOf d).enable / 8 % 2 = 1 → 100 ≤ (flagCfgOf d).faeLead ∧ (flagCfgOf d).faeLead ≤ 1000000)
    (haf : (flagCfgOf d).enable % 2 = 1 → (flagCfgOf d).afHys ≤ (flagCfgOf d).afSet)
    (hfaf : (flagCfgOf d).enable / 4 % 2 = 1 → (flagCfgOf d).fafHys ≤ (flagCfgOf d).fafSet)
    (hunit : (flagCfgOf d).afUnit = true → (s.q (qidOf d)).hasRingEnd = true) :
    s.doFlagSet r d = (s.flagsSet (qidOf d) (flagCfgOf d)).complete r St.ok := by
  have hlead : ∀ x, 100 ≤ x ∧ x ≤ 1000000 → leadBad x = false := fun x ⟨hlo, hhi⟩ => by
    simp [leadBad, Nat.not_lt.mpr hlo, Nat.not_lt.mpr hhi]
  have h2 : ((flagCfgOf d).enable / 2 ^ 2 % 2 == 1 && leadBad (flagCfgOf d).fafLead) = false := by
    rw [Bool.and_eq_false_imp, beq_iff_eq]
    exact fun h => hlead _ (hfafLead h)
  have h3 : ((flagCfgOf d).enable / 2 ^ 3 % 2 == 1 && leadBad (flagCfgOf d).faeLead) = false := by
    rw [Bool.and_eq_false_imp, beq_iff_eq]
    exact fun h => hlead _ (hfaeLead h)
  have h0 : ((flagCfgOf d).enable / 2 ^ 0 % 2 == 1 && decide ((flagCfgOf d).afSet < (flagCfgOf d).afHys)) = false := by
    rw [Bool.and_eq_false_imp, beq_iff_eq, Nat.pow_zero, Nat.div_one]
    exact fun h => decide_eq_false (Nat.not_lt.mpr (haf h))
  have h4 : ((flagCfgOf d).enable / 2 ^ 2 % 2 == 1 && decide ((flagCfgOf d).fafSet < (flagCfgOf d).fafHys)) = false := by
    rw [Bool.and_eq_false_imp, beq_iff_eq]
    exact fun h => decide_eq_false (Nat.not_lt.mpr (hfaf h))
  have h5 : ((flagCfgOf d).afUnit && !(s.q (qidOf d)).hasRingEnd) = false := by
    rw [Bool.and_eq_false_imp]
    exact fun h => by rw [hunit h]; rfl
  unfold State.doFlagSet
  dsimp only
  rw [h2, h3, h0, h4, h5, ha, resultOk_zero, hown, beq_eq_false_iff_ne.mpr hst]
  rfl

theorem flagCfgJudged_offFlags (s : State) (n : Nat) (c : FlagCfg) :
    ((s.flagCfgJudged n c).q n).offFlags = ({ s.q n with fcfg := c } : Queue).offFlags := by
  simp [State.flagCfgJudged, State.flagCfgStored, Queue.offFlags]

theorem flagCfgJudged_other (s : State) {n m : Nat} (c : FlagCfg) (h : m ≠ n) : (s.flagCfgJudged n c).q m = s.q m := by
  simp [State.flagCfgJudged, State.flagCfgStored, h.symm]

theorem flagCfgJudged_within (s : State) (n : Nat) (c : FlagCfg) : Within 1 s (s.flagCfgJudged n c) :=
  State.updQ_within n _ (State.updQ_within n _ (State.setQ_within n _ (Within.refl _ s) (Nat.or_self _)) (Nat.or_self _))
    (Nat.or_self _)

theorem flagsSet_offFlags (s : State) (n : Nat) (c : FlagCfg) :
    ((s.flagsSet n c).q n).offFlags = ({ s.q n with fcfg := c } : Queue).offFlags := by
  unfold State.flagsSet
  split
  · rw [flagEvent_offFlags, sendStatus_q, flagCfgJudged_offFlags]
  · exact flagCfgJudged_offFlags s n c

theorem flagsSet_other (s : State) {n m : Nat} (c : FlagCfg) (h : m ≠ n) : (s.flagsSet n c).q m = s.q m := by
  unfold State.flagsSet
  split
  · rw [(onQ_flagEvent n _ _).other m h, sendStatus_q, flagCfgJudged_other s c h]
  · exact flagCfgJudged_other s c h

/-- A FLAG_SET changes the queue, and what its STATUS words and events go out by. -/
theorem flagsSet_within (s : State) (n : Nat) (c : FlagCfg) : Within 16777345 s (s.flagsSet n c) := by
  have hjudged : Within 16777345 s (s.flagCfgJudged n c) := (flagCfgJudged_within s n c).mono (by decide)
  exact Within.ite (State.flagEvent_within n _ (State.sendStatus_within n hjudged (by decide)) (by decide)) hjudged

/-! ## POLICY_SET -/

/-- A KERBSIDE queue's context under a new policy: its static settings and a measurement that starts anew (R204, R209). -/
def Queue.withPolicy (q : Queue) (p : Policy) (now cyc : Nat) : Queue :=
  let q := { q with kerb := { q.kerb with policy := p } }.applyStatic
  { q with kerb := q.kerb.restart now cyc }

/-- The state in which a POLICY_SET with `OP` = 0 completes. -/
def State.policySet (s : State) (n : Nat) (p : Policy) : State :=
  (s.setQ n ((s.q n).withPolicy p s.mcount s.cyc)).evalFlags n

theorem doPolicySet_stores {s : State} {r : CmdRef} {d : Block512} (hown : owns r.fn (qidOf d) = true)
    (hst : (s.q (qidOf d)).st ≠ .unbound) (hkerb : (s.q (qidOf d)).b.kerb = true) (hop : fld d 144 2 = 0)
    (hclr : bit d 146 = false) (ha : fld d 448 64 = 0) (hgood : policyBad (s.q (qidOf d)) (policyOf d) = false) :
    s.doPolicySet r d = (s.policySet (qidOf d) (policyOf d)).complete r St.ok := by
  unfold State.doPolicySet
  dsimp only
  rw [hop, hclr, ha, hgood, hown, hkerb, beq_eq_false_iff_ne.mpr hst, resultOk_zero]
  rfl

theorem policySet_offFlags (s : State) (n : Nat) (p : Policy) :
    ((s.policySet n p).q n).offFlags = ((s.q n).withPolicy p s.mcount s.cyc).offFlags := by
  rw [State.policySet, evalFlags_offFlags, State.q_setQ, if_pos rfl]

theorem policySet_other (s : State) {n m : Nat} (p : Policy) (h : m ≠ n) : (s.policySet n p).q m = s.q m := by
  rw [State.policySet, evalFlags_other _ h, State.q_setQ, if_neg h.symm]

/-! ## PIN_SET -/

theorem doPinSet_stores {s : State} {r : CmdRef} {d : Block512} (hown : owns r.fn (qidOf d) = true)
    (hst : (s.q (qidOf d)).st ≠ .unbound) (hpin : (s.q (qidOf d)).b.pin = true) (hoff : fld d 160 32 ≤ 1000000000)
    (hhor : fld d 192 32 = 0) (hkept : (s.q (qidOf d)).pin.horizon = 1000000000) (ha : fld d 256 64 = 0) :
    s.doPinSet r d = (s.setQ (qidOf d) { s.q (qidOf d) with pin := { (s.q (qidOf d)).pin with
      stamped := bit d 144, release := bit d 145, offset := fld d 160 32 } }).complete r St.ok := by
  unfold State.doPinSet
  simp [firstFail, hown, hst, hpin, Nat.not_lt.mpr hoff, hhor, hkept, ha]

/-! ## The statement -/

/-- A fetch and a FLAG_SET change no more than the queue, the function's registers, the fetch itself and what goes out. -/
theorem flagsSet_fetched_keeps (s : State) (g n : Nat) (d : Block512) (c : FlagCfg) :
    s.keeps ((s.fetched g d).flagsSet n c) [.queues, .funcs, .cmdSerial, .host, .out] := by
  have hw : Within 16778113 s ((s.fetched g d).flagsSet n c) :=
    ((fetched_within s g d).mono (by decide)).step (flagsSet_within _ n c) (by decide)
  refine keeps_of hw _ fun p hp => ?_
  revert hp
  cases p <;> decide

/-- Settles O21: each command's checks pass under its clause's conditions, and its effect stores the body's fields. -/
theorem settingsCommandsStoreTheirBody : Obligations.SettingsCommandsStoreTheirBody := by
  unfold Obligations.SettingsCommandsStoreTheirBody
  intro g d s n
  let f := s.fetched g.val d
  refine ⟨fun h hown ha hal => ?query, fun h hg hrsv hmax hheld => ?group,
    fun h hown hst ha => ?flag, fun h hown hst hpin hoff hhor hkept ha => ?pin,
    fun h hown hst hkerb hop hclr ha hgood => ?policy⟩
  case query =>
    rw [exec_of_accepts rfl h hasEffect_queryQueue,
      doQueryQueue_reports (s := f) hown ha (resultOk_of_aligned g.isLt hal s d)]
  case group =>
    have hfn : actsAs (s.nextRef g.val d).fn = 0 := by rw [hg]; rfl
    rw [exec_of_accepts rfl h hasEffect_groupSet,
      doGroupSet_stores (s := f) hfn hrsv hmax hheld]
    rfl
  case flag =>
    intro c hfafLead hfaeLead haf hfaf hunit
    rw [exec_of_accepts rfl h hasEffect_flagSet,
      doFlagSet_stores (s := f) hown hst ha hfafLead hfaeLead haf hfaf hunit]
    have hq := flagsSet_offFlags f n c
    exact ⟨f.flagsSet n c, rfl, Queue.field_of_offFlags hq Queue.fcfg, Queue.field_of_offFlags hq Queue.st,
      Queue.field_of_offFlags hq Queue.wptr, Queue.field_of_offFlags hq Queue.rptr, fun m hm => flagsSet_other f c hm,
      flagsSet_fetched_keeps s g n d c⟩
  case pin =>
    rw [exec_of_accepts rfl h hasEffect_pinSet,
      doPinSet_stores (s := f) hown hst hpin hoff hhor hkept ha]
    rfl
  case policy =>
    rw [exec_of_accepts rfl h hasEffect_policySet,
      doPolicySet_stores (s := f) hown hst hkerb hop hclr ha hgood]
    have hk := Queue.field_of_offFlags (policySet_offFlags f n (policyOf d)) Queue.kerb
    refine ⟨f.policySet n (policyOf d), rfl, ?_, ?_, ?_, ?_, ?_, fun m hm => policySet_other f _ hm⟩ <;> rw [hk] <;> rfl

end Sys2Proof.Machine
end

section
/-!
SUPPORT. What the time base does at its events (R86, R164, R171, R172, R174), and the source half of an event cell at an event
(R82, R83).
-/
namespace Sys2Proof.Machine

/-! ## A report that is not fatal -/

/-- Only a fatal error freezes the datapath (R462): another one changes no more than the errors, and what its mirrored events go
out by. -/
theorem raise_within_of_not_fatal (s : State) {code : Nat} (owner : Option Nat) (a b c : Nat)
    (hcode : fatalCodes.contains code = false) : Within 18874496 s (s.raise code owner a b c) := by
  have hpost : ∀ {t : State} (g : Nat) (ev : Event), Within 18874496 s t → Within 18874496 s (t.post g ev) :=
    fun g ev ht => State.post_within g ev ht (by decide)
  have hrecord : ∀ e cls, Within 18874496 s _ := fun e cls => (s.record_within e cls).mono (by decide)
  unfold State.raise
  simp only [hcode, Bool.false_eq_true, if_false]
  cases owner with
  | none => exact hpost 0 _ (hrecord _ _)
  | some g => exact Within.ite (hpost 0 _ (hrecord _ _)) (hpost g _ (hpost 0 _ (hrecord _ _)))

/-! ## `PPS_IN` (R86, R171) -/

theorem ppsEdge_of_armed {s : State} (harm : s.time.ppsArm = true) :
    s.ppsEdge = { s with time := { s.time with ppsArm := false } } := if_pos harm

theorem ppsEdge_of_stopped {s : State} (harm : s.time.ppsArm = false) (hrun : s.time.running = false) : s.ppsEdge = s := by
  simp [State.ppsEdge, harm, hrun]

theorem setLock_time_of_ne {s : State} {l : Lock} (h : s.time.lock ≠ l) (e : Int) :
    (s.setLock l e).time = ({ s.time with lock := l } : TimeBase).gatePps := by
  have htimes : ∀ u : State, u.sendTimes.time = u.time := fun u =>
    (State.sendTimes_within (Within.refl _ u) (Nat.or_self _)).same .time (by decide)
  have hpost : ∀ (u : State) g ev, (u.post g ev).time = u.time := fun u g ev =>
    (State.post_within g ev (Within.refl _ u) (Nat.or_self _)).same .time (by decide)
  unfold State.setLock
  dsimp only
  rw [if_neg h, htimes, hpost]

/-- `PPSO_MODE` lets LOCKED and HOLDOVER drive `PPS_OUT` alike (Table PL-1). -/
theorem ppsoEnabled_holdover {x : TimeBase} (hlock : x.lock = .locked) :
    ({ x with lock := .holdover, p := 0 } : TimeBase).ppsoEnabled = x.ppsoEnabled := by
  unfold TimeBase.ppsoEnabled
  rw [hlock]
  rfl

/-- The state in which a lost pulse has moved the lock state, before the error is raised. -/
def State.toHoldover (s : State) : State := ({ s with time := { s.time with p := 0 } }).setLock .holdover 0

theorem ppsLoss_of_locked {s : State} (hlock : s.time.lock = .locked) :
    s.ppsLoss = s.toHoldover.raise 0x101 none 0 0 0 := if_pos hlock

theorem ppsLoss_of_not_locked {s : State} (hlock : s.time.lock ≠ .locked) : s.ppsLoss = s := if_neg hlock

theorem toHoldover_time {s : State} (hlock : s.time.lock = .locked) : s.toHoldover.time =
    { s.time with lock := .holdover, p := 0, ppsOut := s.time.ppsOut && s.time.ppsoEnabled } := by
  have hne : s.time.lock ≠ .holdover := by rw [hlock]; decide
  have hlocked := setLock_time_of_ne (s := { s with time := { s.time with p := 0 } }) hne 0
  rw [State.toHoldover, hlocked, TimeBase.gatePps, ppsoEnabled_holdover hlock]

theorem toHoldover_within (s : State) : Within 16793728 s s.toHoldover := by
  have hp : Within 16793728 s { s with time := { s.time with p := 0 } } := by
    with_reducible apply Within.build
    all_goals first
      | with_reducible apply Within.refl | with_reducible exact Or.inl rfl | exact Or.inr (by decide)
  exact State.setLock_within _ _ hp (Nat.or_self _)

/-- Locked, a lost pulse leaves the time base in HOLDOVER, and its report is one more. -/
theorem ppsLoss_holds_over {s : State} (hlock : s.time.lock = .locked) :
    s.ppsLoss.time = { s.time with lock := .holdover, p := 0, ppsOut := s.time.ppsOut && s.time.ppsoEnabled } ∧
      s.ppsLoss.errs.seq = (s.errs.seq + 1) % 2 ^ 32 ∧ s.keeps s.ppsLoss [.funcs, .time, .errs, .out] := by
  have hraise := raise_within_of_not_fatal s.toHoldover none 0 0 0 (code := 0x101) (by decide)
  have herrs : s.toHoldover.errs = s.errs := (toHoldover_within s).same .errs (by decide)
  have hw : Within 18890880 s (s.toHoldover.raise 0x101 none 0 0 0) :=
    ((toHoldover_within s).mono (by decide)).step hraise (by decide)
  rw [ppsLoss_of_locked hlock]
  refine ⟨(hraise.same .time (by decide)).trans (toHoldover_time hlock), ?_, keeps_of hw _ fun p hp => ?_⟩
  · rw [raise_seq, herrs]
  · revert hp
    cases p <;> decide

/-! ## `PPS_OUT` and TIME_SET (R172, R174) -/

theorem execPpsOutRise_at_second {s : State} (hrun : s.time.running = true) (hen : s.time.ppsoEnabled = true)
    (hsec : s.time.atSecond = true) : execPpsOutRise s = .next { s with time := { s.time with ppsOut := true } } := by
  simp [execPpsOutRise, hrun, hen, hsec]

theorem endTod_of_none {s : State} (h : s.time.tod = none) (status : Nat) : s.endTod status = s := by
  simp [State.endTod, h]

theorem endTod_of_command {s : State} {w : TodWait} {r : CmdRef} (h : s.time.tod = some w) (href : w.ref = some r) (status : Nat) :
    s.endTod status = ({ s with time := { s.time with tod := none } } : State).complete r status := by
  simp [State.endTod, h, href]

/-! ## Event cells (R82, R83, R86) -/

/-- A cell of the map with a new content. -/
def State.putCell (s : State) (c : Nat) (x : EventCell) : State := { s with cells := SMap.set {} s.cells c x }

theorem putCell_within (s : State) (c : Nat) (x : EventCell) : Within 65536 s (s.putCell c x) := by
  unfold State.putCell
  with_reducible apply Within.build
  all_goals first
    | with_reducible apply Within.refl | with_reducible exact Or.inl rfl | exact Or.inr (by decide)

/-- The PPS cell's source half takes no event while its reset waits for the edge that ends it (R86). -/
theorem not_armed_of_cellTakes {s : State} {c : Nat} (h : s.cellTakes c = true) : (c = 0x18 && s.time.ppsArm) = false := by
  rw [Bool.and_eq_false_imp, decide_eq_true_eq]
  rintro rfl
  have hlive : s.cellLive 0x18 = true := (Bool.and_eq_true_iff.mp h).2
  have hready : (0x18 != 0x18 || !s.time.ppsArm) = true := (Bool.and_eq_true_iff.mp hlive).2
  simpa using hready

theorem cellEvent_of_armed {s : State} (harm : s.time.ppsArm = true) :
    s.cellEvent 24 = { s with time := { s.time with ppsArm := false } } := by
  simp [State.cellEvent, harm]

section
variable {s : State} {c : Nat} (h : s.cellTakes c = true)
include h

/-! Once the source half takes an event, the cell's own state alone decides what becomes of it. -/

theorem cellEvent_of_idle (ho : (SMap.get {} s.cells c).outstanding = false) :
    s.cellEvent c = s.putCell c { SMap.get {} s.cells c with
      toggle := !(SMap.get {} s.cells c).toggle, outstanding := true, count := 1 } := by
  simp [State.cellEvent, not_armed_of_cellTakes h, h, ho, State.putCell]

theorem cellEvent_of_room (ho : (SMap.get {} s.cells c).outstanding = true) (hp : (SMap.get {} s.cells c).pending < 255) :
    s.cellEvent c = s.putCell c { SMap.get {} s.cells c with pending := (SMap.get {} s.cells c).pending + 1 } := by
  simp [State.cellEvent, not_armed_of_cellTakes h, h, ho, hp, State.putCell]

theorem cellEvent_of_lossy (ho : (SMap.get {} s.cells c).outstanding = true) (hp : 255 ≤ (SMap.get {} s.cells c).pending)
    (hl : (SMap.get {} s.cells c).loss = true) : s.cellEvent c = s := by
  simp [State.cellEvent, not_armed_of_cellTakes h, h, ho, Nat.not_lt.mpr hp, hl]

theorem cellEvent_of_full (ho : (SMap.get {} s.cells c).outstanding = true) (hp : 255 ≤ (SMap.get {} s.cells c).pending)
    (hl : (SMap.get {} s.cells c).loss = false) :
    s.cellEvent c = (s.putCell c { SMap.get {} s.cells c with loss := true }).raise 0x701 none c 0 0 := by
  simp [State.cellEvent, not_armed_of_cellTakes h, h, ho, Nat.not_lt.mpr hp, hl, State.putCell]

/-- Beyond 255 the cell alone shows the loss, and CROSS_PULSE_SAT is one more report. -/
theorem cellEvent_loses (ho : (SMap.get {} s.cells c).outstanding = true) (hp : 255 ≤ (SMap.get {} s.cells c).pending)
    (hl : (SMap.get {} s.cells c).loss = false) :
    SMap.get {} (s.cellEvent c).cells c = { SMap.get {} s.cells c with loss := true } ∧
      (∀ k, k ≠ c → SMap.get {} (s.cellEvent c).cells k = SMap.get {} s.cells k) ∧
      (s.cellEvent c).errs.seq = (s.errs.seq + 1) % 2 ^ 32 ∧ s.keeps (s.cellEvent c) [.cells, .funcs, .errs, .out] := by
  rw [cellEvent_of_full h ho hp hl]
  have hraise := raise_within_of_not_fatal (s.putCell c { SMap.get {} s.cells c with loss := true }) none c 0 0
    (code := 0x701) (by decide)
  have hcells := hraise.same .cells (by decide)
  have hw := ((putCell_within s c { SMap.get {} s.cells c with loss := true }).mono (W := 18940032) (by decide)).step hraise
    (by decide)
  refine ⟨?_, fun k hk => ?_, raise_seq _ _ _ _ _ _, keeps_of hw _ fun p hp => ?_⟩
  · rw [hcells, State.putCell, SMap.get_set_same]
  · rw [hcells, State.putCell, SMap.get_set_other _ _ _ hk.symm]
  · revert hp
    cases p <;> decide

end

/-! ## The statement -/

/-- Settles O38: each event has one lemma above for each state that the statement names, and two of them raise an error that is
not fatal. -/
theorem timeBaseAndCellEvents : Obligations.TimeBaseAndCellEvents := by
  unfold Obligations.TimeBaseAndCellEvents
  intro s
  have hnext : ∀ {t u : State}, t = u → (.next t : Host.Outcome State Fault Refusal) = .next u := congrArg _
  refine ⟨fun harm => hnext (ppsEdge_of_armed harm), fun hlock => ⟨s.ppsLoss, rfl, ppsLoss_holds_over hlock⟩,
    fun hlock => hnext (ppsLoss_of_not_locked hlock), rfl, execPpsOutRise_at_second, rfl,
    fun htod => hnext (endTod_of_none htod _), fun w r htod href => hnext (endTod_of_command htod href _),
    fun harm => hnext (cellEvent_of_armed harm), fun harm hrun => hnext (ppsEdge_of_stopped harm hrun), fun c htakes => ?cell⟩
  case cell =>
    exact ⟨fun ho => hnext (cellEvent_of_idle htakes ho), fun ho hp => hnext (cellEvent_of_room htakes ho hp),
      fun ho hp hl => hnext (cellEvent_of_lossy htakes ho hp hl),
      fun ho hp hl => ⟨s.cellEvent c.val, rfl, cellEvent_loses htakes ho hp hl⟩⟩

end Sys2Proof.Machine
end

section
/-!
SUPPORT. What a sweep visit (R100) and the timers of a queue's reporting intervals (R119, R182, R198) and key epochs (R257) do.
-/
namespace Sys2Proof.Machine

/-! ## An evaluation of the flags leaves the predictor as it is (R96) -/

/-- The flag state without what an evaluation of the flags writes. -/
def FlagState.predictor (f : FlagState) : FlagState := { f with levels := 0, window := none }

theorem flagEvent_predictor (s : State) (n diff : Nat) :
    ((s.flagEvent n diff).q n).fst.predictor = (s.q n).fst.predictor := by
  unfold State.flagEvent
  dsimp only
  split
  · rfl
  · split <;> simp [FlagState.predictor]

theorem evalFlags_predictor (s : State) (n : Nat) : ((s.evalFlags n).q n).fst.predictor = (s.q n).fst.predictor := by
  unfold State.evalFlags
  split
  · rfl
  · dsimp only
    rw [flagEvent_predictor]
    split <;> simp [FlagState.predictor]

/-- What the predictor holds reads the same after an evaluation. -/
theorem evalFlags_fst (s : State) (n : Nat) {α : Type} (p : FlagState → α) (hp : ∀ f, p f.predictor = p f := by intro f; rfl) :
    p ((s.evalFlags n).q n).fst = p (s.q n).fst := by
  rw [← hp, evalFlags_predictor, hp]

/-! ## A sweep visit (R100) -/

/-- On a valid interval both rates move by the shift, toward the change of their fill. -/
theorem FlagState.sweep_of_valid {f : FlagState} (h : f.intervalValid = true) (alpha : Nat) (sfill efill : Int) :
    (f.sweep alpha sfill efill).rs = f.rs + ((sfill - f.sfillPrev) * 65536 - f.rs) >>> (alpha + 1) ∧
      (f.sweep alpha sfill efill).re = f.re + ((efill - f.efillPrev) * 65536 - f.re) >>> (alpha + 1) ∧
      (f.sweep alpha sfill efill).nsamp = if f.nsamp < 16 then f.nsamp + 1 else f.nsamp := by
  simp [FlagState.sweep, h, Int.shiftRight_eq_div_pow]

theorem FlagState.sweep_of_not_valid {f : FlagState} (h : f.intervalValid = false) (alpha : Nat) (sfill efill : Int) :
    (f.sweep alpha sfill efill).rs = f.rs ∧ (f.sweep alpha sfill efill).re = f.re ∧
      (f.sweep alpha sfill efill).nsamp = f.nsamp := by
  simp [FlagState.sweep, h]

/-- The flag state at the end of an interval, which is valid only where the queue counts (R101). -/
def Queue.intervalEnd (q : Queue) : FlagState := { q.fst with intervalValid := q.fst.intervalValid && q.counting }

/-- The queue's context after the steps of R100, before its flags are evaluated. -/
def State.sweptQueue (s : State) (n : Nat) : Queue :=
  { s.q n with fst := { (s.q n).intervalEnd.sweep (s.q n).fcfg.alpha (s.q n).csfill (s.cefill (s.q n)) with
    intervalValid := (s.q n).counting } }

theorem sweepVisit_of_stopped {s : State} (h : s.coreRuns = false) (n : Nat) : s.sweepVisit n = s := by
  simp [State.sweepVisit, h]

theorem sweepVisit_of_unbound {s : State} {n : Nat} (h : (s.q n).st = .unbound) : s.sweepVisit n = s := by
  simp [State.sweepVisit, h]

theorem sweepVisit_of_bound {s : State} {n : Nat} (hst : (s.q n).st ≠ .unbound) (hrun : s.coreRuns = true) :
    s.sweepVisit n = (s.setQ n (s.sweptQueue n)).evalFlags n := by
  simp [State.sweepVisit, hst, hrun, State.sweptQueue, Queue.intervalEnd]

theorem swept_fst (s : State) (n : Nat) {α : Type} (p : FlagState → α) (hp : ∀ f, p f.predictor = p f := by intro f; rfl) :
    p (((s.setQ n (s.sweptQueue n)).evalFlags n).q n).fst = p (s.sweptQueue n).fst := by
  rw [evalFlags_fst _ n p hp, State.q_setQ, if_pos rfl]

theorem swept_field (s : State) (n : Nat) {α : Type} (p : Queue → α) (hp : ∀ q, p q.offFlags = p q := by intro q; rfl) :
    p (((s.setQ n (s.sweptQueue n)).evalFlags n).q n) = p (s.q n) := by
  rw [evalFlags_field _ n p hp, State.q_setQ, if_pos rfl, ← hp, ← hp (s.q n)]
  rfl

theorem swept_other (s : State) {n m : Nat} (h : m ≠ n) : ((s.setQ n (s.sweptQueue n)).evalFlags n).q m = s.q m := by
  rw [evalFlags_other _ h, State.q_setQ, if_neg h.symm]

theorem swept_within (s : State) (n : Nat) : Within 16777345 s ((s.setQ n (s.sweptQueue n)).evalFlags n) :=
  State.evalFlags_within n (State.setQ_within n _ (Within.refl _ s) (by decide)) (Nat.or_self _)

theorem storeError_of_runs {s : State} (h : s.coreRuns = true) (n store granule : Nat) :
    s.storeError n store granule = s.raise 0x604 none (packNat [(0, 1, store), (5, 3, granule)]) n 0 := if_pos h

theorem storeError_of_stopped {s : State} (h : s.coreRuns = false) (n store granule : Nat) :
    s.storeError n store granule = s := by
  simp [State.storeError, h]

/-- Argument A of CTX_UE (Table ER-1). -/
theorem ctxUe_arg {store : Nat} (h : store < 2) (g : Fin 8) : packNat [(0, 1, store), (5, 3, g.val)] = store + 32 * g.val := by
  simp only [packNat]
  omega

/-- Settles O23: the visit writes the queue's predictor by the steps of R100, and the evaluation of the flags that follows
leaves it as it is. -/
theorem sweepVisitMovesTheRates : Obligations.SweepVisitMovesTheRates := by
  unfold Obligations.SweepVisitMovesTheRates
  intro q s
  have hnext : ∀ {t u : State}, t = u → (.next t : Host.Outcome State Fault Refusal) = .next u := congrArg _
  refine ⟨fun hrun g => ⟨hnext ?_, hnext ?_⟩, fun hstop found => hnext ?_, fun hst => hnext (sweepVisit_of_unbound hst),
    fun hst hrun => ⟨_, hnext (sweepVisit_of_bound hst hrun), swept_fst s _ FlagState.sfillPrev, swept_fst s _ FlagState.efillPrev,
      fun hvalid => ?valid, fun hvalid => ?notValid, ?cold, swept_field s _ Queue.wptr, swept_field s _ Queue.rptr,
      swept_field s _ Queue.st, fun m hm => swept_other s hm, keeps_of (swept_within s _) _ fun p hp => ?kept⟩⟩
  · rw [← Nat.zero_add (32 * g.val), ← ctxUe_arg (by decide)]
    exact storeError_of_runs hrun _ _ _
  · rw [← ctxUe_arg (by decide)]
    exact storeError_of_runs hrun _ _ _
  · cases found with
    | clean => exact sweepVisit_of_stopped hstop _
    | context granule => exact storeError_of_stopped hstop _ _ _
    | flagState granule => exact storeError_of_stopped hstop _ _ _
  case valid =>
    rw [swept_fst s _ FlagState.rs, swept_fst s _ FlagState.re, swept_fst s _ FlagState.nsamp]
    exact FlagState.sweep_of_valid hvalid _ _ _
  case notValid =>
    rw [swept_fst s _ FlagState.rs, swept_fst s _ FlagState.re, swept_fst s _ FlagState.nsamp]
    exact FlagState.sweep_of_not_valid hvalid _ _ _
  case cold =>
    rw [swept_fst s _ FlagState.cold, swept_fst s _ FlagState.nsamp]
    rfl
  case kept =>
    revert hp
    cases p <;> decide

/-! ## The reporting intervals -/

theorem flagIntervalEnd_of_none {s : State} {n : Nat} (h : (s.q n).fst.window = none) : s.flagIntervalEnd n = s := by
  simp [State.flagIntervalEnd, h]

theorem flagIntervalEnd_of_unchanged {s : State} {n : Nat} {w : FlagWindow} (h : (s.q n).fst.window = some w)
    (hc : w.changed = 0) :
    s.flagIntervalEnd n = s.setQ n { s.q n with fst := { (s.q n).fst with window := none } } := by
  simp [State.flagIntervalEnd, h, hc]

theorem flagIntervalEnd_of_changed {s : State} {n : Nat} {w : FlagWindow} (h : (s.q n).fst.window = some w)
    (hc : w.changed ≠ 0) : s.flagIntervalEnd n =
      (s.setQ n { s.q n with fst := { (s.q n).fst with window := some {} } }).postFlagChange n (w.returned != 0) := by
  simp [State.flagIntervalEnd, h, hc]

theorem boolBit_placed (b : Bool) (lo : Nat) : (if b then 1 else 0) % 2 ^ 1 * 2 ^ lo = if b then 2 ^ lo else 0 := by
  cases b <;> simp

/-- The body of a FLAG_CHANGE (Table HI-11). -/
theorem flagChange_body {n : Nat} (hn : n < 8192) (levels : Nat) (cold bounce : Bool) (sfill efill : Nat) :
    packNat [(0, 13, n), (13, 6, levels), (19, 1, if cold then 1 else 0), (20, 1, if bounce then 1 else 0), (32, 24, sfill),
        (64, 32, efill)] =
      n + 2 ^ 13 * (levels % 64) + (if cold then 2 ^ 19 else 0) + (if bounce then 2 ^ 20 else 0) + 2 ^ 32 * (sfill % 2 ^ 24) +
        2 ^ 64 * (efill % 2 ^ 32) := by
  simp only [packNat, boolBit_placed]
  omega

theorem Queue.csfill_withFst (q : Queue) (f : FlagState) : ({ q with fst := f } : Queue).csfill = q.csfill := rfl

theorem msgsFrom_withFst (s : State) (n : Nat) (x q : Queue) (f : FlagState) (fuel pos : Nat) :
    (s.setQ n x).msgsFrom { q with fst := f } fuel pos = s.msgsFrom q fuel pos := by
  induction fuel generalizing pos with
  | zero => rfl
  | succ fuel ih =>
    unfold State.msgsFrom
    dsimp only
    rw [ih]
    rfl

/-- Stored messages lie in the Plaza, so that the element fill reads the same with another flag state. -/
theorem cefill_withFst (s : State) (n : Nat) (x q : Queue) (f : FlagState) :
    (s.setQ n x).cefill { q with fst := f } = s.cefill q := by
  unfold State.cefill State.efill State.unread
  rw [msgsFrom_withFst]
  rfl

/-- An opened event interval changes nothing that a FLAG_CHANGE reports. -/
theorem postFlagChange_windowed (s : State) {n : Nat} (hn : n < 8192) (w : Option FlagWindow) (bounce : Bool) :
    (s.setQ n { s.q n with fst := { (s.q n).fst with window := w } }).postFlagChange n bounce =
      (s.setQ n { s.q n with fst := { (s.q n).fst with window := w } }).post (n / 512)
        { code := 0x001
          body := n + 2 ^ 13 * ((s.q n).fst.levels % 64) + (if (s.q n).fst.cold then 2 ^ 19 else 0) +
            (if bounce then 2 ^ 20 else 0) + 2 ^ 32 * ((s.q n).csfill % 2 ^ 24) + 2 ^ 64 * (s.cefill (s.q n) % 2 ^ 32) } := by
  unfold State.postFlagChange
  dsimp only
  rw [State.q_setQ, if_pos rfl, flagChange_body hn, Queue.csfill_withFst, cefill_withFst, ownerOf]

/-- The body of a KB_DROP (Table HI-11): the counts saturate at 16 bits. -/
theorem kbDrop_body {n : Nat} (hn : n < 8192) (msn : Word32) (tail head age : Nat) :
    packNat [(0, 13, n), (32, 32, msn.toNat), (64, 16, min 0xFFFF tail), (80, 16, min 0xFFFF head), (96, 16, min 0xFFFF age)] =
      n + 2 ^ 32 * msn.toNat + 2 ^ 64 * min 0xFFFF tail + 2 ^ 80 * min 0xFFFF head + 2 ^ 96 * min 0xFFFF age := by
  simp only [packNat]
  omega

theorem kbDropIntervalEnd_of_none {s : State} {q : Fin 8192} (h : (s.q q.val).kerb.window = none) :
    exec (.kbDropIntervalEnd q) s = .next s := by
  show execKbDropIntervalEnd q s = _
  simp [execKbDropIntervalEnd, h]

theorem kbDropIntervalEnd_of_window {s : State} {q : Fin 8192} {w : DropWindow} (h : (s.q q.val).kerb.window = some w) :
    exec (.kbDropIntervalEnd q) s =
      .next ((s.setQ q.val { s.q q.val with kerb := { (s.q q.val).kerb with window := none } }).post (q.val / 512)
        { code := 0x005
          body := q.val + 2 ^ 32 * w.msn.toNat + 2 ^ 64 * min 0xFFFF w.tail + 2 ^ 80 * min 0xFFFF w.head +
            2 ^ 96 * min 0xFFFF w.age }) := by
  show execKbDropIntervalEnd q s = _
  rw [execKbDropIntervalEnd, h]
  dsimp only
  rw [kbDrop_body q.isLt]
  rfl

/-- The body of a PIN_LATE (Table HI-11): the count saturates at 16 bits. -/
theorem pinLate_body {n : Nat} (hn : n < 8192) (msn : Word32) (count worst : Nat) :
    packNat [(0, 13, n), (32, 32, msn.toNat), (64, 16, min 0xFFFF count), (96, 32, worst)] =
      n + 2 ^ 32 * msn.toNat + 2 ^ 64 * min 0xFFFF count + 2 ^ 96 * (worst % 2 ^ 32) := by
  simp only [packNat]
  omega

theorem pinLateIntervalEnd_of_none {s : State} {q : Fin 8192} (h : (s.q q.val).pin.window = none) :
    exec (.pinLateIntervalEnd q) s = .next s := by
  show execPinLateIntervalEnd q s = _
  simp [execPinLateIntervalEnd, h]

theorem pinLateIntervalEnd_of_window {s : State} {q : Fin 8192} {w : LateWindow} (h : (s.q q.val).pin.window = some w) :
    exec (.pinLateIntervalEnd q) s =
      .next ((s.setQ q.val { s.q q.val with pin := { (s.q q.val).pin with window := none } }).post (q.val / 512)
        { code := 0x006
          body := q.val + 2 ^ 32 * w.msn.toNat + 2 ^ 64 * min 0xFFFF w.count + 2 ^ 96 * (w.worst % 2 ^ 32) }) := by
  show execPinLateIntervalEnd q s = _
  rw [execPinLateIntervalEnd, h]
  dsimp only
  rw [pinLate_body q.isLt]
  rfl

theorem graceEnd_group {n : Nat} (hn : n < 16) (s : State) :
    s.graceEnd 1 n = s.setGroup n { s.group n with rsPrev := none } := if_pos hn

/-- Settles O24: each timer has one lemma above for each state of its window, and the fields of each event fit their places. -/
theorem intervalTimersReport : Obligations.IntervalTimersReport := by
  unfold Obligations.IntervalTimersReport
  intro q s
  have hnext : ∀ {t u : State}, t = u → (.next t : Host.Outcome State Fault Refusal) = .next u := congrArg _
  refine ⟨fun h => hnext (flagIntervalEnd_of_none h), fun w h hc => hnext (flagIntervalEnd_of_unchanged h hc),
    fun w h hc => hnext ?changed, kbDropIntervalEnd_of_none, fun w h => kbDropIntervalEnd_of_window h,
    pinLateIntervalEnd_of_none, fun w h => pinLateIntervalEnd_of_window h, rfl, fun hn => hnext (graceEnd_group hn s), rfl⟩
  case changed =>
    rw [flagIntervalEnd_of_changed h hc, postFlagChange_windowed s q.isLt]
    simp only [bne_iff_ne]

end Sys2Proof.Machine
end

section
/-!
SUPPORT. What a write of a register of CORE stores while CORE runs (R323, R470), and what a write of `TB_CTRL` does to the lock
state (R171, Table PL-4).
-/
namespace Sys2Proof.Machine

/-! ## From a write to its register -/

theorem coreWrite_of_runs {s : State} (hrun : s.coreRuns = true) (off : Nat) (v : Word32) (effect : State) :
    s.coreWrite off v effect = effect := by
  simp [State.coreWrite, State.not_sleep_of_coreRuns hrun, hrun]

/-- The aligned offsets of CORE's part of the register map that a VF does not see. -/
def coreOnly (off : Nat) : Bool := !vfSees off && !hostReg off && !aonReg off && off % 4 == 0

/-- An accessor that may write a register that a VF does not see has function 0's view (R299, R478). -/
theorem viewOf_of_mayWrite {s : State} {acc : Accessor} {off : Nat} (hw : s.mayWrite acc off = true)
    (hvf : vfSees off = false) : viewOf acc = 0 := by
  cases acc with
  | fn g =>
    simp only [State.mayWrite, hvf, Bool.or_false, Bool.and_eq_true, beq_iff_eq] at hw
    exact hw.2
  | svc => rfl
  | warden => rfl

/-- A write of the whole word by an accessor that may make it reaches its register. -/
theorem exec_registerWrite_core {s : State} (hrun : s.coreRuns = true) {acc : Accessor} {off : BitVec 16}
    (hw : s.mayWrite acc off.toNat = true) (hcore : coreOnly off.toNat = true) (v : Word32) :
    exec (.registerWrite acc off 0xF#4 v) s = .next (s.writeCoreReg off.toNat v) := by
  simp only [coreOnly, Bool.and_eq_true, Bool.not_eq_true', beq_iff_eq] at hcore
  obtain ⟨⟨⟨hvf, hhost⟩, haon⟩, halign⟩ := hcore
  show execRegisterWrite acc off 0xF#4 v s = _
  simp [execRegisterWrite, State.accessWrite, hw, hrun, State.writeReg, viewOf_of_mayWrite hw hvf, halign, hhost, haon]

/-! ## The lock state at a write of `TB_CTRL` (R171) -/

@[simp] theorem setLock_time_lock (s : State) (l : Lock) (e : Int) : (s.setLock l e).time.lock = l := by
  rcases setLock_time s l e with h | h
  · rw [h]
  · rw [h, TimeBase.gatePps_lock]

/-- A move of the lock state leaves the time and the setup registers as they are. -/
theorem setLock_time_field (s : State) (l : Lock) (e : Int) {α : Type} (p : TimeBase → α)
    (hlock : ∀ t : TimeBase, p { t with lock := l } = p t := by intro t; rfl)
    (hgate : ∀ t : TimeBase, p t.gatePps = p t := by intro t; rfl) : p (s.setLock l e).time = p s.time := by
  rcases setLock_time s l e with h | h
  · rw [h, hlock]
  · rw [h, hgate, hlock]

/-- The lock state after a write of `PPS_EN` (Table PL-4). -/
def lockAfterPpsEn (en : Bool) (l : Lock) : Lock :=
  if en then (if l = .freerun then .unlocked else l) else if l = .locked ∨ l = .holdover then .freerun else l

/-- The state with the fields of `TB_CTRL` stored, before the lock state moves. -/
def State.ctrlStored (s : State) (v : Word32) : State :=
  { s with time := ({ s.time with ctrl := v &&& 0x1FFF#32 } : TimeBase).gatePps }

/-- The state without the phase term, which is 0 in FREERUN (spec/07, at Table PL-4). -/
def State.phaseCleared (s : State) : State := { s with time := { s.time with p := 0 } }

theorem writeTbCtrl_eq (s : State) (v : Word32) : s.writeTbCtrl v =
    if bit v 0 then (if s.time.lock = .freerun then (s.ctrlStored v).setLock .unlocked 0 else s.ctrlStored v)
    else if s.time.lock = .locked ∨ s.time.lock = .holdover then (s.ctrlStored v).phaseCleared.setLock .freerun 0
    else s.ctrlStored v := rfl

theorem writeTbCtrl_time_lock (s : State) (v : Word32) :
    (s.writeTbCtrl v).time.lock = lockAfterPpsEn (bit v 0) s.time.lock := by
  have hstored : (s.ctrlStored v).time.lock = s.time.lock := rfl
  rw [writeTbCtrl_eq, lockAfterPpsEn]
  split
  · split
    · exact setLock_time_lock _ _ _
    · exact hstored
  · split
    · exact setLock_time_lock _ _ _
    · exact hstored

/-- Beside the lock state, a write of `TB_CTRL` touches the register, the phase term and `PPS_OUT`. -/
theorem writeTbCtrl_time_field (s : State) (v : Word32) {α : Type} (p : TimeBase → α)
    (hlock : ∀ (t : TimeBase) (l : Lock), p { t with lock := l } = p t := by intro t l; rfl)
    (hphase : ∀ (t : TimeBase) (x : Int), p { t with p := x } = p t := by intro t x; rfl)
    (hgate : ∀ t : TimeBase, p t.gatePps = p t := by intro t; rfl) :
    p (s.writeTbCtrl v).time = p { s.time with ctrl := v &&& 0x1FFF#32 } := by
  have hset : ∀ (u : State) (l : Lock), p (u.setLock l 0).time = p u.time := fun u l =>
    setLock_time_field u l 0 p (fun t => hlock t l) hgate
  have hstored : p (s.ctrlStored v).time = p { s.time with ctrl := v &&& 0x1FFF#32 } := hgate _
  rw [writeTbCtrl_eq]
  split
  · split
    · exact (hset _ _).trans hstored
    · exact hstored
  · split
    · exact (hset _ _).trans ((hphase _ _).trans hstored)
    · exact hstored

theorem writeTbCtrl_keeps (s : State) (v : Word32) : s.keeps (s.writeTbCtrl v) [.time, .funcs, .out] :=
  keeps_of (State.writeTbCtrl_within v (Within.refl _ s) (Nat.or_self _)) _ fun p hp => by
    revert hp
    cases p <;> decide

/-! ## The statement -/

/-- Settles O27: while CORE runs each write reaches its register, and the lock state moves by `PPS_EN` alone. -/
theorem coreRegisterWrites : Obligations.CoreRegisterWrites := by
  unfold Obligations.CoreRegisterWrites
  intro s hrun
  have hcore : ∀ off v (effect : State), (.next (s.coreWrite off v effect) : Host.Outcome State Fault Refusal) = .next effect :=
    fun off v effect => congrArg _ (coreWrite_of_runs hrun off v effect)
  have herrlog : ∀ v, exec (.errlogPop v) s = .next (s.writeErrlog v) := fun v => hcore _ v _
  refine ⟨fun n v => hcore _ v _, fun v hpop => ?pop, fun v hpop => ?noPop, fun v => ⟨s.writeTbCtrl v, hcore _ v _,
    writeTbCtrl_time_field s v TimeBase.ctrl, writeTbCtrl_time_field s v TimeBase.tb, writeTbCtrl_time_field s v TimeBase.f,
    writeTbCtrl_keeps s v, writeTbCtrl_time_lock s v⟩, fun acc v hw => exec_registerWrite_core hrun hw (by decide) v,
    fun acc v hw => exec_registerWrite_core hrun hw (by decide) v, fun acc v hw => exec_registerWrite_core hrun hw (by decide) v⟩
  case pop => rw [herrlog, State.writeErrlog, if_pos hpop]
  case noPop => rw [herrlog, State.writeErrlog, hpop, if_neg Bool.false_ne_true]

end Sys2Proof.Machine
end

section
/-!
SUPPORT. What MARK, REWIND and RELEASE_MARK (R144, R148, R149, R152) do to their queue once their checks pass, and a waiting
REWIND when it takes effect.
-/
namespace Sys2Proof.Machine

/-! ## Marks of one queue -/

/-- A body's `MARK` field names one of the four marks. -/
theorem markField_lt (d : Block512) : fld d 144 2 < 4 := Nat.mod_lt _ (by decide)

/-- Freeing segments and evaluating the flags leave what `OnQ` keeps. -/
theorem onQ_release_evalFlags (s : State) (n : Nat) : OnQ n s ((s.release n).evalFlags n) :=
  (onQ_release n s).trans (onQ_evalFlags n _)

/-- The mark that is placed at a pointer, its settings kept (R144, R147). -/
def Queue.placedMark (q : Queue) (m : Nat) (atWrite : Bool) : Mark :=
  { q.markAt m with isSet := true, pos := (q.markPos atWrite).1, next := (q.markPos atWrite).2, c := 0, waiting := false }

theorem placeMark_onQ (s : State) (n m : Nat) (atWrite : Bool) :
    OnQ n (s.setQ n ((s.q n).setMark m ((s.q n).placedMark m atWrite))) (s.placeMark n m atWrite) :=
  onQ_release_evalFlags _ n

theorem placeMark_markAt (s : State) {n m : Nat} (hm : m < 4) (atWrite : Bool) (k : Nat) :
    ((s.placeMark n m atWrite).q n).markAt k = if k = m then (s.q n).placedMark m atWrite else (s.q n).markAt k := by
  rw [onQ_markAt (placeMark_onQ s n m atWrite), State.q_setQ, if_pos rfl, markAt_set _ _ _ _ hm]

theorem placeMark_other (s : State) {n k : Nat} (m : Nat) (atWrite : Bool) (hk : k ≠ n) :
    (s.placeMark n m atWrite).q k = s.q k := by
  rw [(placeMark_onQ s n m atWrite).other k hk, State.q_setQ, if_neg hk.symm]

/-- The queue once a mark is unset, before what it alone retained is freed. -/
def Queue.unmarked (q : Queue) (m : Nat) : Queue := (q.setMark m (q.markAt m).released).spoilInterval

/-- A queue that is not CLOSING cannot close when a mark goes. -/
theorem releaseMark_onQ {s : State} {n : Nat} (hst : (s.q n).st ≠ .closing) (m : Nat) :
    OnQ n (s.setQ n ((s.q n).unmarked m)) (s.releaseMark n m) := by
  have hrel := onQ_release n (s.setQ n ((s.q n).unmarked m))
  have hopen : (((s.setQ n ((s.q n).unmarked m)).release n).q n).st ≠ .closing := by
    rw [hrel.field Queue.st, State.q_setQ, if_pos rfl]
    exact hst
  have hdef : s.releaseMark n m = (((s.setQ n ((s.q n).unmarked m)).release n).tryClose n).evalFlags n := rfl
  rw [hdef, tryClose_id _ _ hopen]
  exact hrel.trans (onQ_evalFlags n _)

theorem releaseMark_markAt {s : State} {n m : Nat} (hst : (s.q n).st ≠ .closing) (hm : m < 4) (k : Nat) :
    ((s.releaseMark n m).q n).markAt k = if k = m then ((s.q n).markAt m).released else (s.q n).markAt k := by
  rw [onQ_markAt (releaseMark_onQ hst m), State.q_setQ, if_pos rfl]
  exact markAt_set _ _ _ _ hm

theorem releaseMark_rptr {s : State} {n : Nat} (hst : (s.q n).st ≠ .closing) (m : Nat) :
    ((s.releaseMark n m).q n).rptr = (s.q n).rptr := by
  rw [(releaseMark_onQ hst m).field Queue.rptr, State.q_setQ, if_pos rfl]
  rfl

/-! ## A REWIND that takes effect -/

/-- A queue that is not CLOSING cannot close when its read pointer moves back. -/
theorem rewindTo_tryClose {s : State} {n : Nat} (hst : (s.q n).st ≠ .closing) (t : Nat) :
    (s.rewindTo n t).tryClose n = s.rewindTo n t := by
  obtain ⟨-, -, -, hkept, -⟩ := rewind_q s n t
  exact tryClose_id _ _ fun h => hst (hkept.symm.trans h)

/-- A command's REWIND completes once the read pointer has moved. -/
theorem applyRewind_of_command {s : State} {n : Nat} (hst : (s.q n).st ≠ .closing) {w : RewindWait} {r : CmdRef}
    (href : w.ref = some r) : s.applyRewind n w =
      (s.rewindTo n w.target).completeResult r w.result ((s.rewindTo n w.target).markBlock n) St.ok := by
  unfold State.applyRewind
  rw [rewindTo_tryClose hst, href]

theorem applyRewind_of_inband {s : State} {n : Nat} (hst : (s.q n).st ≠ .closing) {w : RewindWait} (href : w.ref = none) :
    s.applyRewind n w = s.rewindTo n w.target := by
  unfold State.applyRewind
  rw [rewindTo_tryClose hst, href]

theorem startRewind_at_once {s : State} {n : Nat} (h : (s.q n).rmsg = none) (w : RewindWait) :
    s.startRewind n w = s.applyRewind n w := by
  simp [State.startRewind, Queue.atBoundary, h]

theorem startRewind_waits {s : State} {n : Nat} (h : (s.q n).rmsg ≠ none) (w : RewindWait) :
    s.startRewind n w = s.setQ n { s.q n with rewinds := (s.q n).rewinds ++ [w] } := by
  simp [State.startRewind, Queue.atBoundary, h, State.updQ_eq]

/-- The oldest waiting REWIND takes effect where no message is being read (R149). -/
theorem rewindNow_first {s : State} {n : Nat} {w : RewindWait} {rest : List RewindWait} (hw : (s.q n).rewinds = w :: rest)
    (hmsg : (s.q n).rmsg = none) : s.rewindNow n = (s.setQ n { s.q n with rewinds := rest }).applyRewind n w := by
  unfold State.rewindNow
  dsimp only
  rw [hw]
  exact if_pos (by simp [Queue.atBoundary, hmsg])

/-! ## The commands' checks (Table RT-3) -/

section
variable {s : State} {r : CmdRef} {d : Block512}

/-- The checks that the mark commands share pass for a bound queue of the function in no chain. -/
theorem firstFail_markChecks (hown : owns r.fn (qidOf d) = true) (hst : (s.q (qidOf d)).st ≠ .unbound)
    (hch : (s.q (qidOf d)).chained = false) (l : List (Bool × Nat)) :
    firstFail (s.markChecks r.fn (qidOf d) false ++ l) = firstFail l := by
  simp [State.markChecks, firstFail, hown, hst, hch]

/-- The mark's settings in the queue, all of them cleared. -/
def State.markCleared (s : State) (n m : Nat) : State :=
  s.setQ n ((s.q n).setMark m { (s.q n).markAt m with auto := false, evictable := false, trail := 0 })

theorem doMark_places (hown : owns r.fn (qidOf d) = true) (hst : (s.q (qidOf d)).st ≠ .unbound)
    (hch : (s.q (qidOf d)).chained = false) (ha : fld d 192 64 = 0) (hat : bit d 146 = false) (hauto : bit d 147 = false)
    (hev : bit d 148 = false) : s.doMark r d =
      ((s.markCleared (qidOf d) (fld d 144 2)).placeMark (qidOf d) (fld d 144 2) false).complete r St.ok := by
  unfold State.doMark
  dsimp only
  rw [hat, hauto, hev, ha, resultOk_zero, firstFail_markChecks hown hst hch]
  rfl

theorem doRewind_judged (hown : owns r.fn (qidOf d) = true) (hst : (s.q (qidOf d)).st ≠ .unbound)
    (hch : (s.q (qidOf d)).chained = false) (ha : fld d 192 64 = 0) : s.doRewind r d =
      if (s.q (qidOf d)).rewindStatus (fld d 144 2) ≠ St.ok then s.complete r ((s.q (qidOf d)).rewindStatus (fld d 144 2))
      else s.startRewind (qidOf d) { mark := Fin.ofNat 4 (fld d 144 2), target := ((s.q (qidOf d)).markAt (fld d 144 2)).pos
                                     ref := some r, result := 0 } := by
  unfold State.doRewind
  dsimp only
  rw [ha, resultOk_zero, firstFail_markChecks hown hst hch]
  rfl

theorem rewindStatus_of_unset {q : Queue} {m : Nat} (h : (q.markAt m).isSet = false) : q.rewindStatus m = St.markUnset := by
  simp [Queue.rewindStatus, h]

theorem rewindStatus_of_behind {q : Queue} {m : Nat} (hset : (q.markAt m).isSet = true)
    (hbehind : (q.markAt m).behind q.rptr = true) : q.rewindStatus m = St.ok := by
  simp [Queue.rewindStatus, hset, hbehind]

theorem doRewind_unset (hown : owns r.fn (qidOf d) = true) (hst : (s.q (qidOf d)).st ≠ .unbound)
    (hch : (s.q (qidOf d)).chained = false) (ha : fld d 192 64 = 0)
    (hset : ((s.q (qidOf d)).markAt (fld d 144 2)).isSet = false) : s.doRewind r d = s.complete r St.markUnset := by
  rw [doRewind_judged hown hst hch ha, rewindStatus_of_unset hset]
  rfl

theorem doRewind_starts (hown : owns r.fn (qidOf d) = true) (hst : (s.q (qidOf d)).st ≠ .unbound)
    (hch : (s.q (qidOf d)).chained = false) (ha : fld d 192 64 = 0)
    (hset : ((s.q (qidOf d)).markAt (fld d 144 2)).isSet = true)
    (hbehind : ((s.q (qidOf d)).markAt (fld d 144 2)).behind (s.q (qidOf d)).rptr = true) : s.doRewind r d =
      s.startRewind (qidOf d) { mark := Fin.ofNat 4 (fld d 144 2), target := ((s.q (qidOf d)).markAt (fld d 144 2)).pos
                                ref := some r, result := 0 } := by
  rw [doRewind_judged hown hst hch ha, rewindStatus_of_behind hset hbehind]
  rfl

theorem doReleaseMark_completes (hown : owns r.fn (qidOf d) = true) (hst : (s.q (qidOf d)).st ≠ .unbound)
    (hch : (s.q (qidOf d)).chained = false) (ha : fld d 192 64 = 0) : s.doReleaseMark r d =
      (if ((s.q (qidOf d)).markAt (fld d 144 2)).isSet then s.releaseMark (qidOf d) (fld d 144 2) else s).complete r St.ok := by
  unfold State.doReleaseMark
  dsimp only
  rw [ha, resultOk_zero, firstFail_markChecks hown hst hch]
  rfl

end

theorem markCleared_q (s : State) (n m : Nat) : (s.markCleared n m).q n =
    (s.q n).setMark m { (s.q n).markAt m with auto := false, evictable := false, trail := 0 } := by
  rw [State.markCleared, State.q_setQ, if_pos rfl]

theorem markCleared_other (s : State) {n k : Nat} (m : Nat) (hk : k ≠ n) : (s.markCleared n m).q k = s.q k := by
  rw [State.markCleared, State.q_setQ, if_neg hk.symm]

/-- The mark of a MARK at the read pointer lies at the read point, and is not automatic (R144). -/
theorem markCleared_placeMark_markAt (s : State) {n m : Nat} (hm : m < 4) :
    (((s.markCleared n m).placeMark n m false).q n).markAt m =
      { isSet := true, pos := if (s.q n).b.msgMode then (s.q n).msgPos else (s.q n).rptr } := by
  rw [placeMark_markAt _ hm, if_pos rfl, markCleared_q, Queue.placedMark, markAt_set _ _ _ _ hm, if_pos rfl]
  rfl

theorem markCleared_placeMark_otherMark (s : State) {n m k : Nat} (hm : m < 4) (hk : k ≠ m) :
    (((s.markCleared n m).placeMark n m false).q n).markAt k = (s.q n).markAt k := by
  rw [placeMark_markAt _ hm, if_neg hk, markCleared_q, markAt_set _ _ _ _ hm, if_neg hk]

/-! ## The statement -/

/-- Settles O22: each command's checks pass under its clause's conditions, and what its effect leaves of the queue's marks and
pointers is said by the lemmas of that effect. -/
theorem marksRewindAndRelease : Obligations.MarksRewindAndRelease := by
  unfold Obligations.MarksRewindAndRelease
  intro g d s n m
  let f := s.fetched g.val d
  have hm : m < 4 := markField_lt d
  refine ⟨fun h hown hst hch ha hat hauto hev => ?mark, fun h hown hst hch ha hset => ?unset,
    fun h hown hst hch ha hset hbehind => ⟨fun hmsg hopen => ?now, fun hmsg => ?wait⟩,
    fun h hown hst hch ha hset => ?released, fun h hown hst hch ha hset hopen => ?release,
    fun q w rest hw hmsg hopen href => ?waiting⟩
  case mark =>
    have hplaced := markCleared_placeMark_markAt f (n := n) hm
    rw [exec_of_accepts rfl h hasEffect_mark, doMark_places (s := f) hown hst hch ha hat hauto hev]
    exact ⟨_, rfl, congrArg Mark.isSet hplaced, congrArg Mark.pos hplaced, congrArg Mark.auto hplaced,
      fun k hk => markCleared_placeMark_otherMark f hm hk,
      fun k hk => (placeMark_other _ m false hk).trans (markCleared_other f m hk)⟩
  case unset =>
    rw [exec_of_accepts rfl h hasEffect_rewind, doRewind_unset (s := f) hown hst hch ha hset]
    rfl
  case now =>
    obtain ⟨hrptr, hrsub, hwptr, -, -⟩ := rewind_q f n ((s.q n).markAt m).pos
    rw [exec_of_accepts rfl h hasEffect_rewind, doRewind_starts (s := f) hown hst hch ha hset hbehind,
      startRewind_at_once (s := f) hmsg, applyRewind_of_command (s := f) hopen rfl]
    exact ⟨_, rfl, hrptr, hrsub, hwptr⟩
  case wait =>
    rw [exec_of_accepts rfl h hasEffect_rewind, doRewind_starts (s := f) hown hst hch ha hset hbehind,
      startRewind_waits (s := f) hmsg]
    rfl
  case released =>
    have hid : (if ((f.q n).markAt m).isSet then f.releaseMark n m else f) = f := if_neg (Bool.eq_false_iff.mp hset)
    rw [exec_of_accepts rfl h hasEffect_releaseMark, doReleaseMark_completes (s := f) hown hst hch ha, hid]
    rfl
  case release =>
    have hgone : (if ((f.q n).markAt m).isSet then f.releaseMark n m else f) = f.releaseMark n m := if_pos hset
    rw [exec_of_accepts rfl h hasEffect_releaseMark, doReleaseMark_completes (s := f) hown hst hch ha, hgone]
    refine ⟨_, rfl, ?_, releaseMark_rptr (s := f) hopen m, fun k hk => ?_⟩
    · rw [releaseMark_markAt (s := f) hopen hm, if_pos rfl]
      rfl
    · rw [releaseMark_markAt (s := f) hopen hm, if_neg hk]
      rfl
  case waiting =>
    let u := s.setQ q.val { s.q q.val with rewinds := rest }
    have huq : u.q q.val = { s.q q.val with rewinds := rest } := by rw [State.q_setQ, if_pos rfl]
    have huopen : (u.q q.val).st ≠ .closing := by rw [huq]; exact hopen
    obtain ⟨hrptr, -, -, -, hrest⟩ := rewind_q u q.val w.target
    have heq : s.rewindNow q.val = u.rewindTo q.val w.target := by
      rw [rewindNow_first hw hmsg, applyRewind_of_inband huopen href]
    exact ⟨_, congrArg Host.Outcome.next heq, hrptr, hrest.trans (congrArg Queue.rewinds huq)⟩

end Sys2Proof.Machine
end

section
/-!
SUPPORT. The burst that a link sends (R243, R248, R256), the control words that go out and come in (R117, R145, R146, R244 to
R250, R255), and the reservation and release of pinned messages (R180, R181).
-/
namespace Sys2Proof.Machine

/-! ## Frames from masks -/

def Part.all : List Part :=
  [.queues, .groups, .links, .portCfg, .portPol, .portPolstat, .ring, .funcs, .host, .cmdSerial, .plaza, .mem, .kiosk, .words,
    .time, .flagmap, .cells, .power, .rst, .nv, .fw, .errs, .cyc, .free, .out]

theorem Part.mem_all (p : Part) : p ∈ Part.all := by cases p <;> decide

/-- A frame is read off an operation's mask, part by part. -/
theorem keeps_of_mask {M : Nat} {s t : State} (h : Within M s t) {l : List Part}
    (hl : ∀ p ∈ Part.all, p ∉ l → M.testBit p.idx = false) : s.keeps t l :=
  keeps_of h l fun p hp => hl p (Part.mem_all p) hp

/-! ## Links and words -/

@[simp] theorem State.link_updLink (s : State) (n m : Nat) (f : Link → Link) :
    (s.updLink n f).link m = if n = m then f (s.link n) else s.link m := s.link_setLink n m (f (s.link n))

/-- Whether a link is live rests on its training state, which bookkeeping leaves alone. -/
theorem linkLive_updLink {s : State} {n : Nat} {f : Link → Link} (hf : (f (s.link n)).phy = (s.link n).phy) (m : Nat) :
    (s.updLink n f).linkLive m = s.linkLive m := by
  have hphy : ((s.updLink n f).link m).phy = (s.link m).phy := by
    rw [State.link_updLink]
    split
    · next h => rw [hf, h]
    · rfl
  unfold State.linkLive
  rw [hphy]
  rfl

theorem sendWord_of_live {s : State} {n : Fin 8} (h : s.linkLive n.val = true) (bytes : List Byte) :
    s.sendWord n.val bytes = s.emit (.word n bytes) := by
  unfold State.sendWord
  rw [dif_pos n.isLt, if_pos h]

theorem linkLive_sendWord (s : State) (n : Nat) (bytes : List Byte) (m : Nat) :
    (s.sendWord n bytes).linkLive m = s.linkLive m := by
  have hw := State.sendWord_within n bytes (Within.refl _ s) (Nat.or_self _)
  have hlinks : (s.sendWord n bytes).links = s.links := hw.same .links (by decide)
  have herrs : (s.sendWord n bytes).errs = s.errs := hw.same .errs (by decide)
  unfold State.linkLive
  rw [State.link_of_links hlinks, herrs]

/-- What has gone out stays so when a word is sent. -/
theorem mem_out_sendWord {s : State} {o : Out} (h : o ∈ s.out) (n : Nat) (bytes : List Byte) :
    o ∈ (s.sendWord n bytes).out := by
  unfold State.sendWord
  split
  · split
    · exact List.mem_cons_of_mem _ h
    · exact h
  · exact h

section
variable {α : Type} (dest : α → Nat) (bytes : α → List Byte)

theorem mem_out_foldl_sendWord (l : List α) {s : State} {o : Out} (h : o ∈ s.out) :
    o ∈ (l.foldl (fun s a => s.sendWord (dest a) (bytes a)) s).out := by
  induction l generalizing s with
  | nil => exact h
  | cons a l ih => exact ih (mem_out_sendWord h _ _)

/-- Of several words sent one after the other, each whose link is live goes out. -/
theorem word_mem_out_foldl_sendWord {l : List α} {s : State} {a : α} {n : Fin 8} (ha : a ∈ l) (hdest : dest a = n.val)
    (hlive : s.linkLive n.val = true) : Out.word n (bytes a) ∈ (l.foldl (fun s a => s.sendWord (dest a) (bytes a)) s).out := by
  induction l generalizing s with
  | nil => exact absurd ha List.not_mem_nil
  | cons b l ih =>
    rcases List.mem_cons.mp ha with rfl | hrest
    · refine mem_out_foldl_sendWord dest bytes l ?_
      show Out.word n (bytes a) ∈ (s.sendWord (dest a) (bytes a)).out
      rw [hdest, sendWord_of_live hlive]
      exact List.mem_cons_self
    · exact ih hrest ((linkLive_sendWord s _ _ _).trans hlive)

end

/-! ## Credits (R243 to R246) -/

@[simp] theorem Link.credit_setCredit_same (l : Link) (k : Nat) (c : Credit) : (l.setCredit k c).credit k = c :=
  SMap.get_set_same _ _ _ _

@[simp] theorem State.link_updCredit (s : State) (n k : Nat) (f : Credit → Credit) :
    (s.updCredit n k f).link n = (s.link n).setCredit k (f ((s.link n).credit k)) := by
  rw [State.updCredit, State.link_updLink, if_pos rfl]

/-- A pair's LIMIT raised by all it may be raised by. -/
def State.raised (s : State) (n k : Nat) : State :=
  s.updCredit n k fun c =>
    { c with limit := c.limit + BitVec.ofNat 24 (s.grantRoom n k), outstanding := c.outstanding + s.grantRoom n k }

/-- The pair's LIMIT raised, and the turn moved on. -/
def State.turnGranted (s : State) (n k : Nat) : State := (s.raised n k).updLink n fun l => { l with rrGrant := (k + 1) % 32 }

theorem turnGranted_link (s : State) (n k : Nat) :
    (s.turnGranted n k).link n = { (s.raised n k).link n with rrGrant := (k + 1) % 32 } := by
  rw [State.turnGranted, State.link_updLink, if_pos rfl]

theorem raised_credit (s : State) (n k : Nat) : ((s.raised n k).link n).credit k =
    { (s.link n).credit k with
      limit := ((s.link n).credit k).limit + BitVec.ofNat 24 (s.grantRoom n k)
      outstanding := ((s.link n).credit k).outstanding + s.grantRoom n k } := by
  rw [State.raised, State.link_updCredit, Link.credit_setCredit_same]

theorem turnGranted_credit (s : State) (n k : Nat) :
    ((s.turnGranted n k).link n).credit k = ((s.raised n k).link n).credit k := by
  rw [turnGranted_link]
  rfl

theorem linkLive_turnGranted (s : State) (n k m : Nat) : (s.turnGranted n k).linkLive m = s.linkLive m :=
  (linkLive_updLink (by rfl) m).trans (linkLive_updLink (by rfl) m)

theorem grant_of_live {s : State} {n : Fin 8} (h : s.linkLive n.val = true) (k : Nat) : s.grant n.val k =
    (s.turnGranted n.val k).emit (.word n (creditWord k (((s.turnGranted n.val k).link n.val).credit k).limit)) := by
  rw [turnGranted_credit]
  exact sendWord_of_live ((linkLive_turnGranted s n.val k n.val).trans h) _

theorem grantTurn_of_find {s : State} {n k : Nat} (h : (((List.range 32).map fun i => ((s.link n).rrGrant + i) % 32).find?
    fun k => s.eligible n k && decide (0 < s.grantRoom n k)) = some k) : s.grantTurn n = s.grant n k := by
  unfold State.grantTurn
  rw [h]

theorem credit_stores {s : State} {n : Fin 8} (hlive : s.linkLive n.val = true) (g : Fin 16) (kerb : Bool) (limit : BitVec 24) :
    ∃ t, exec (.credit n g kerb limit) s = .next t ∧ ((t.link n.val).credit (pairKey g.val kerb)).txLimit = limit ∧
      s.keeps t [.links] := by
  let t := s.updCredit n.val (pairKey g.val kerb) fun c => { c with txLimit := limit }
  have hw : Within 4 s t := State.updCredit_within _ _ _ (Within.refl _ s) (Nat.or_self _)
  refine ⟨t, congrArg Host.Outcome.next (if_pos hlive), ?_, keeps_of_mask hw (by decide)⟩
  rw [State.link_updCredit, Link.credit_setCredit_same]

/-- A grant raises the pair whose turn it is, tells its new LIMIT and moves the turn on. -/
theorem creditGrant_raises {s : State} {n : Fin 8} (hlive : s.linkLive n.val = true) {k : Nat}
    (hk : (((List.range 32).map fun i => ((s.link n.val).rrGrant + i) % 32).find?
      fun k => s.eligible n.val k && decide (0 < s.grantRoom n.val k)) = some k) :
    ∃ t, exec (.creditGrant n) s = .next t ∧
      ((t.link n.val).credit k).limit = ((s.link n.val).credit k).limit + BitVec.ofNat 24 (s.grantRoom n.val k) ∧
      ((t.link n.val).credit k).outstanding = ((s.link n.val).credit k).outstanding + s.grantRoom n.val k ∧
      (t.link n.val).rrGrant = (k + 1) % 32 ∧ t.out = .word n (creditWord k ((t.link n.val).credit k).limit) :: s.out ∧
      s.keeps t [.links, .out] := by
  have hnext : exec (.creditGrant n) s = .next (s.grant n.val k) :=
    congrArg Host.Outcome.next ((if_pos hlive).trans (grantTurn_of_find hk))
  have hw : Within 16777220 s (s.grant n.val k) := State.grant_within _ _ (Within.refl _ s) (Nat.or_self _)
  have hsent := grant_of_live hlive k
  have hlink : (s.grant n.val k).link n.val = (s.turnGranted n.val k).link n.val := by
    rw [hsent]
    rfl
  have hcredit := (turnGranted_credit s n.val k).trans (raised_credit s n.val k)
  refine ⟨_, hnext, ?_, ?_, ?_, ?_, keeps_of_mask hw (by decide)⟩
  · rw [hlink, hcredit]
  · rw [hlink, hcredit]
  · rw [hlink, turnGranted_link]
  · rw [hlink, hsent]
    rfl

/-- The 10 µs refresh tells every pair's LIMIT that is not 0. -/
theorem creditRefresh_tells {s : State} {n : Fin 8} (hlive : s.linkLive n.val = true) :
    ∃ t, exec (.creditRefresh n) s = .next t ∧ s.keeps t [.out] ∧
      ∀ e ∈ (s.link n.val).credits, e.2.limit ≠ 0 → Out.word n (creditWord e.1 e.2.limit) ∈ t.out := by
  obtain ⟨t, hnext, hw⟩ := execCreditRefresh_within n s
  refine ⟨t, hnext, keeps_of_mask hw (by decide), fun e he hlimit => ?_⟩
  obtain rfl := Host.Outcome.next.inj hnext
  have hdest : (fun _ : Nat × Credit => n.val) e = n.val := rfl
  refine word_mem_out_foldl_sendWord _ (fun e : Nat × Credit => creditWord e.1 e.2.limit) ?_ hdest hlive
  rw [List.mem_filter, bne_iff_ne.mpr hlimit]
  exact ⟨he, rfl⟩

/-! ## STATUS and TIME (R117, R250, R255) -/

theorem statusRefresh_of_turn {s : State} {n : Fin 8} (hlive : s.linkLive n.val = true) {ns : List Nat} (hne : ns ≠ [])
    (h : s.statusTurn n.val (s.link n.val).rrStatus = ns) : s.statusRefresh n.val =
      (s.updLink n.val fun x => { x with rrStatus := ns.getLast?.getD 0 + 1 }).emit
        (.word n (statusWord (ns.map fun i => s.statusEntry i))) := by
  have hkept : (s.updLink n.val fun x => { x with rrStatus := ns.getLast?.getD 0 + 1 }).linkLive n.val = true :=
    (linkLive_updLink (by rfl) _).trans hlive
  unfold State.statusRefresh
  rw [h, ← sendWord_of_live hkept]
  split
  · exact absurd rfl hne
  · rfl

theorem statusRefresh_tells {s : State} {n : Fin 8} (hlive : s.linkLive n.val = true) {ns : List Nat} (hne : ns ≠ [])
    (h : s.statusTurn n.val (s.link n.val).rrStatus = ns) :
    ∃ t, exec (.statusRefresh n) s = .next t ∧ t.out = .word n (statusWord (ns.map fun i => s.statusEntry i)) :: s.out ∧
      s.keeps t [.links, .out] := by
  have hw : Within 16777220 s (s.statusRefresh n.val) := State.statusRefresh_within _ (Within.refl _ s) (Nat.or_self _)
  refine ⟨s.statusRefresh n.val, rfl, ?_, keeps_of_mask hw (by decide)⟩
  rw [statusRefresh_of_turn hlive hne h]
  rfl

theorem timeWordTimer_tells {s : State} {n : Fin 8} (hlive : s.linkLive n.val = true) :
    ∃ t, exec .timeWordTimer s = .next t ∧ s.keeps t [.out] ∧ Out.word n s.timeWord ∈ t.out := by
  obtain ⟨t, hnext, hw⟩ := execTimeWordTimer_within s
  refine ⟨t, hnext, keeps_of_mask hw (by decide), ?_⟩
  obtain rfl := Host.Outcome.next.inj hnext
  exact word_mem_out_foldl_sendWord (fun l => l) (fun _ => s.timeWord) (List.mem_range.mpr n.isLt) rfl hlive

/-! ## In-band marks and discarded words (R145, R146, R249) -/

/-- With no burst of the queue in staging the mark waits behind none. -/
theorem markBehind_of_none {n : Nat} (m : Nat) {l : List Staged} (h : ∀ x ∈ l, Bh.qid x.hdr ≠ n) :
    markBehind n m l = none := by
  induction l with
  | nil => rfl
  | cons x l ih =>
    have hx : (Bh.qid x.hdr == n) = false := beq_eq_false_iff_ne.mpr (h x List.mem_cons_self)
    simp [markBehind, ih fun y hy => h y (List.mem_cons_of_mem _ hy), hx]

/-- The mark joins the last burst of the queue in staging. -/
theorem markBehind_of_last {n : Nat} (m : Nat) (pre : List Staged) {x : Staged} {post : List Staged} (hx : Bh.qid x.hdr = n)
    (hpost : ∀ y ∈ post, Bh.qid y.hdr ≠ n) :
    markBehind n m (pre ++ x :: post) = some (pre ++ { x with marks := x.marks ++ [m] } :: post) := by
  induction pre with
  | nil => simp [markBehind, markBehind_of_none m hpost, hx]
  | cons y pre ih => simp [markBehind, ih]

section
variable {s : State} {l n m : Nat}

theorem inbandMark_at_read (hst : (s.q n).st ≠ .unbound) (hr : (s.q n).b.rend.isLink l = true) :
    s.inbandMark l n m = s.placeMark n m false := by
  simp [State.inbandMark, hst, hr]

theorem inbandRelease_at_read (hst : (s.q n).st ≠ .unbound) (hr : (s.q n).b.rend.isLink l = true)
    (hset : ((s.q n).markAt m).isSet = true) : s.inbandRelease l n m = s.releaseMark n m := by
  simp [State.inbandRelease, hst, hr, hset]

theorem inbandRewind_at_read (hst : (s.q n).st ≠ .unbound) (hr : (s.q n).b.rend.isLink l = true)
    (hok : (s.q n).rewindStatus m = St.ok) :
    s.inbandRewind l n m = s.startRewind n { mark := Fin.ofNat 4 m, target := ((s.q n).markAt m).pos } := by
  simp [State.inbandRewind, hst, hr, hok]

/-- At the write end the mark acts where no burst of the queue waits in staging. -/
theorem inbandMark_at_write (hst : (s.q n).st ≠ .unbound) (hr : (s.q n).b.rend.isLink l = false)
    (hw : (s.q n).b.wend.isLink l = true) (hopen : (s.q n).st ≠ .closing) (hauto : ((s.q n).markAt m).auto = false)
    (hnone : markBehind n m (s.link l).staged = none) : s.inbandMark l n m = s.writeMark n m := by
  simp [State.inbandMark, hst, hr, hw, hopen, hauto, hnone]

/-- Else it goes with the burst that it waits behind. -/
theorem inbandMark_staged (hst : (s.q n).st ≠ .unbound) (hr : (s.q n).b.rend.isLink l = false)
    (hw : (s.q n).b.wend.isLink l = true) (hopen : (s.q n).st ≠ .closing) (hauto : ((s.q n).markAt m).auto = false)
    {staged : List Staged} (hsome : markBehind n m (s.link l).staged = some staged) :
    s.inbandMark l n m = s.updLink l fun x => { x with staged := staged } := by
  simp [State.inbandMark, hst, hr, hw, hopen, hauto, hsome]

theorem writeMark_of_not_chained (hch : (s.q n).chained = false) : s.writeMark n m = s.placeMark n m true := by
  simp [State.writeMark, hch]

/-- The queue is UNBOUND, or neither of its ends is the link. -/
def Queue.offLink (q : Queue) (l : Nat) : Prop := q.st = .unbound ∨ (q.b.rend.isLink l = false ∧ q.b.wend.isLink l = false)

theorem inbandMark_rejects (h : (s.q n).offLink l) : s.inbandMark l n m = s.rejectInband l n 0 := by
  rcases h with hst | ⟨hr, hw⟩
  · simp [State.inbandMark, hst]
  · simp [State.inbandMark, hr, hw]

theorem inbandRewind_rejects (h : (s.q n).offLink l) : s.inbandRewind l n m = s.rejectInband l n 1 := by
  rcases h with hst | ⟨hr, -⟩
  · simp [State.inbandRewind, hst]
  · simp [State.inbandRewind, hr]

theorem inbandRelease_rejects (h : (s.q n).offLink l) : s.inbandRelease l n m = s.rejectInband l n 2 := by
  rcases h with hst | ⟨hr, -⟩
  · simp [State.inbandRelease, hst]
  · simp [State.inbandRelease, hr]

end

/-- A refused operation counts and is reported, and nothing else comes of it (R146). -/
theorem rejectInband_counts (s : State) (l n op : Nat) :
    ((s.rejectInband l n op).q n).inbandRej = inc32 (s.q n).inbandRej ∧
      (s.rejectInband l n op).errs.seq = (s.errs.seq + 1) % 2 ^ 32 ∧
      s.keeps (s.rejectInband l n op) [.queues, .funcs, .errs, .out] := by
  let u := s.updQ n fun q => { q with inbandRej := inc32 q.inbandRej }
  have hraise : Within 18874496 u (s.rejectInband l n op) :=
    raise_within_of_not_fatal u (some (ownerOf n)) n (packNat [(0, 2, op), (8, 4, l)]) 0 (code := 0x004) (by decide)
  have hw : Within 18874497 s (s.rejectInband l n op) :=
    ((State.updQ_within n _ (Within.refl 1 s) (Nat.or_self _)).mono (by decide)).step hraise (by decide)
  refine ⟨?_, raise_seq _ _ _ _ _ _, keeps_of_mask hw (by decide)⟩
  rw [State.q_of_within hraise (by decide), State.q_updQ, if_pos rfl]

theorem controlWordDiscard_counts {s : State} {n : Fin 8} (hlive : s.linkLive n.val = true) (bs : List Byte)
    (hbad : wordBad bs = true) : ∃ t, exec (.controlWordDiscard n bs) s = .next t ∧
      (t.link n.val).cwe = inc32 (s.link n.val).cwe ∧ s.keeps t [.links] := by
  let t := s.updLink n.val fun l => { l with cwe := inc32 l.cwe }
  have hw : Within 4 s t := State.updLink_within _ _ (Within.refl _ s) (Nat.or_self _)
  have hcond : (s.linkLive n.val && wordBad bs) = true := by rw [hlive, hbad]; rfl
  refine ⟨t, congrArg Host.Outcome.next (if_pos hcond), ?_, keeps_of_mask hw (by decide)⟩
  rw [State.link_updLink, if_pos rfl]

/-! ## The burst (R243, R248, R256) -/

section
variable {s : State} {l : Fin 8}

theorem transmit_of_choice {c : Choice} (hlive : s.linkLive l.val = true) (h : s.choose l.val = some c) :
    s.transmit l = c.before.sendBurst l c.n c.ob c.after := by
  simp [State.transmit, hlive, h]

theorem transmit_waits (hlive : s.linkLive l.val = true) (h : s.choose l.val = none)
    (hbusy : (s.pinnedRunning l.val).isSome = true ∨ (s.pickClass l.val true).isSome = true) : s.transmit l = s := by
  rcases hbusy with hbusy | hbusy <;> simp [State.transmit, hlive, h, Option.isSome_iff_ne_none.mp hbusy]

theorem transmit_ages (hlive : s.linkLive l.val = true) (h : s.choose l.val = none) (hpin : s.pinnedRunning l.val = none)
    (hkerb : s.pickClass l.val true = none) : s.transmit l = s.ageLink l.val := by
  simp [State.transmit, hlive, h, hpin, hkerb]

end

theorem sendBurst_of_headers_good {s : State} {n : Nat} (h : s.headBad (s.q n) = []) (l : Fin 8) (ob : OutBurst) (t : State) :
    s.sendBurst l n ob t =
      ((((((t.spend l.val n ob.cost).crossTx l.val (burstUnit ob.burst)).emit (.burst l ob.burst)).countSealedOut n
        (Bh.first ob.burst.hdr)).dropSentHead n).afterRead n) := by
  unfold State.sendBurst
  rw [h]

theorem countSealedOut_of_plain {s : State} {n : Nat} {first : Bool} (h : (s.q n).b.sealedQ = false ∨ first = false) :
    s.countSealedOut n first = s := by
  rcases h with h | h <;> simp [State.countSealedOut, h]

theorem sealCount_of_below {cnt : Nat} (hsoon : cnt ≠ 2 ^ 31) (hlast : cnt ≠ 2 ^ 32) (s : State) (n dir : Nat) :
    s.sealCount n cnt dir = s := by
  unfold State.sealCount
  rw [if_neg hsoon, if_neg hlast]

theorem countSealedOut_of_sealed {s : State} {n : Nat} (hseal : (s.q n).b.sealedQ = true)
    (hsoon : (s.q n).keys.outCnt + 1 ≠ 2 ^ 31) (hlast : (s.q n).keys.outCnt + 1 ≠ 2 ^ 32) :
    s.countSealedOut n true = s.updQ n fun q => { q with keys := { q.keys with outCnt := q.keys.outCnt + 1 } } := by
  unfold State.countSealedOut
  dsimp only
  rw [hseal, sealCount_of_below hsoon hlast]
  rfl

/-! ## Pinned messages (R180, R181) -/

theorem mem_pinsDue {s : State} {l q t : Nat} : (q, t) ∈ s.pinsDue l ↔
    s.time.lock.releases = true ∧ ∃ x h, (q, x) ∈ s.queues ∧ x.b.pin = true ∧ x.b.rend.isLink l = true ∧ x.reads = true ∧
      x.rmsg = none ∧ s.head x = some h ∧ s.rtAt x h.pos = t ∧ t ≤ s.tbNs + 400 := by
  unfold State.pinsDue
  split
  · next hrel =>
    rw [List.mem_filterMap]
    constructor
    · rintro ⟨⟨k, x⟩, hmem, hsome⟩
      dsimp only at hsome
      split at hsome
      · next hwaits =>
        simp only [Bool.and_eq_true, Option.isNone_iff_eq_none] at hwaits
        obtain ⟨⟨⟨hpin, hlink⟩, hreads⟩, hmsg⟩ := hwaits
        split at hsome
        · next h hhead =>
          split at hsome
          · next hdue =>
            obtain ⟨rfl, rfl⟩ := Prod.mk.inj (Option.some.inj hsome)
            exact ⟨hrel, x, h, hmem, hpin, hlink, hreads, hmsg, hhead, rfl, hdue⟩
          · exact absurd hsome nofun
        · exact absurd hsome nofun
      · exact absurd hsome nofun
    · rintro ⟨-, x, h, hmem, hpin, hlink, hreads, hmsg, hhead, rfl, hdue⟩
      exact ⟨(q, x), hmem, by simp [hpin, hlink, hreads, hmsg, hhead, hdue]⟩
  · next hrel => simp [hrel]

/-- The earlier of the best message so far and the next one. -/
def earlier (best : Option (Nat × Nat)) (e : Nat × Nat) : Option (Nat × Nat) :=
  match best with
  | some b => if e.2 < b.2 then some e else best
  | none => some e

/-- The message due first, the one listed first on a tie. -/
def firstDue (l : List (Nat × Nat)) : Option (Nat × Nat) := l.foldl earlier none

/-- What is due later than `t` leaves a best that is due later than `t`. -/
theorem foldl_earlier_later {t : Nat} {l : List (Nat × Nat)} (h : ∀ e ∈ l, t < e.2) {best : Option (Nat × Nat)}
    (hbest : ∀ b ∈ best, t < b.2) : ∀ b ∈ l.foldl earlier best, t < b.2 := by
  induction l generalizing best with
  | nil => exact hbest
  | cons e l ih =>
    refine ih (fun x hx => h x (List.mem_cons_of_mem _ hx)) fun b hb => ?_
    have he := h e List.mem_cons_self
    unfold earlier at hb
    split at hb
    · split at hb
      · exact Option.mem_some.mp hb ▸ he
      · exact hbest b hb
    · exact Option.mem_some.mp hb ▸ he

/-- Nothing that is due as late or later takes the place of the best. -/
theorem foldl_earlier_kept {b : Nat × Nat} {l : List (Nat × Nat)} (h : ∀ e ∈ l, b.2 ≤ e.2) :
    l.foldl earlier (some b) = some b := by
  induction l with
  | nil => rfl
  | cons e l ih =>
    have hkept : earlier (some b) e = some b := if_neg (Nat.not_lt.mpr (h e List.mem_cons_self))
    rw [List.foldl_cons, hkept]
    exact ih fun x hx => h x (List.mem_cons_of_mem _ hx)

theorem firstDue_of_first {pre post : List (Nat × Nat)} {b : Nat × Nat} (hpre : ∀ e ∈ pre, b.2 < e.2)
    (hpost : ∀ e ∈ post, b.2 ≤ e.2) : firstDue (pre ++ b :: post) = some b := by
  have hlater : ∀ x ∈ pre.foldl earlier none, b.2 < x.2 := foldl_earlier_later hpre nofun
  have htaken : earlier (pre.foldl earlier none) b = some b := by
    unfold earlier
    split
    · next x hx => exact if_pos (hlater x hx)
    · rfl
  rw [firstDue, List.foldl_append, List.foldl_cons, htaken]
  exact foldl_earlier_kept hpost

/-- The link is reserved for the message due first. -/
theorem pinReserve_of_first {s : State} {l : Nat} {b : Nat × Nat} (h : firstDue (s.pinsDue l) = some b) :
    s.pinReserve l = s.updLink l fun x => { x with reserved := some b.1 } := by
  unfold State.pinReserve
  dsimp only
  split
  · next heq => rw [← Option.some.inj (heq.symm.trans h)]
  · next heq => exact absurd (heq.symm.trans h) nofun

theorem pinReserve_of_none {s : State} {l : Nat} (h : s.pinsDue l = []) : s.pinReserve l = s := by
  unfold State.pinReserve
  rw [h]
  rfl

/-- The FIRST burst of a message whose time has come goes out with its counts, and ends the reservation. -/
theorem pinRelease_sends {s : State} {n : Nat} {l : Fin 8} {h : Head} {b b' : OutBurst} {t t' : State}
    (hpin : (s.q n).b.pin = true) (hend : (s.q n).b.rend = .link l) (hreads : (s.q n).reads = true) (hmsg : (s.q n).rmsg = none)
    (hjudged : s.judgeHead n = s) (hhead : s.head (s.q n) = some h) (hlive : s.linkLive l.val = true) (hdue : s.pinDue n h = true)
    (hfree : s.pinBlocked l.val n (s.rtAt (s.q n) h.pos) = false) (hready : s.ready l.val n = some (b, t))
    (hbegun : (s.beginPinned n 64 h).ready l.val n = some (b', t')) :
    s.pinRelease n = ((s.beginPinned n 64 h).updLink l.val fun x => { x with reserved := none }).sendBurst l n b'
      (t'.updLink l.val fun x => { x with reserved := none }) := by
  have hbegins : ((s.q n).b.pin && (s.q n).reads && (s.q n).rmsg.isNone && s.linkLive l.val && s.pinDue n h &&
      !s.pinBlocked l.val n (s.rtAt (s.q n) h.pos)) = true := by
    simp [hpin, hreads, hmsg, hlive, hdue, hfree]
  unfold State.pinRelease
  dsimp only
  rw [hjudged, hend, hhead]
  dsimp only
  rw [if_pos hbegins, hready]
  dsimp only
  rw [hbegun]

/-! ## The statement -/

/-- Settles O55: on a live link each command acts by the lemmas above, one for each case that its clause names. -/
theorem burstsAreSentAndWordsAct : Obligations.BurstsAreSentAndWordsAct := by
  unfold Obligations.BurstsAreSentAndWordsAct
  intro s n
  have hnext : ∀ {t u : State}, t = u → (.next t : Host.Outcome State Fault Refusal) = .next u := congrArg _
  refine ⟨fun hlive => ?_, fun q h b t b' t' hpin hend hreads hmsg hjudged hhead hlive hdue hfree hready hbegun =>
    hnext (pinRelease_sends hpin hend hreads hmsg hjudged hhead hlive hdue hfree hready hbegun)⟩
  have hacts : ∀ {t u : State}, t = u →
      (.next (if s.linkLive n.val then t else s) : Host.Outcome State Fault Refusal) = .next u :=
    fun h => hnext ((if_pos hlive).trans h)
  refine ⟨fun hnone => ⟨fun hbusy => hnext (transmit_waits hlive hnone hbusy),
      fun hpin hkerb => hnext (transmit_ages hlive hnone hpin hkerb)⟩,
    fun c hc hgood => ?burst, credit_stores hlive, fun k => creditGrant_raises hlive,
    fun m ms => statusRefresh_tells hlive (List.cons_ne_nil m ms), creditRefresh_tells hlive, timeWordTimer_tells hlive,
    fun q m hst => ⟨fun hr => ⟨?readMark, fun hset => ?readRelease, fun hok => ?readRewind⟩,
      fun hr hw hopen hauto => ⟨fun hnone => ⟨?writeMark, writeMark_of_not_chained⟩,
        fun pre x post hstaged hx hpost => ?stagedMark⟩⟩,
    fun q m hoff c hc => ?reject, controlWordDiscard_counts hlive, fun q t => mem_pinsDue,
    fun pre q t post hsplit hpre hpost => ?reserve, fun hnone => hacts (pinReserve_of_none hnone)⟩
  case burst =>
    have hsent := (transmit_of_choice hlive hc).trans (sendBurst_of_headers_good hgood n c.ob c.after)
    intro v
    refine ⟨fun hplain => hnext ?_, fun hseal hfirst hsoon hlast => hnext ?_⟩
    · rw [hsent, countSealedOut_of_plain hplain]
    · rw [hsent, hfirst, countSealedOut_of_sealed hseal hsoon hlast]
  case readMark => exact hacts (inbandMark_at_read hst hr)
  case readRelease => exact hacts (inbandRelease_at_read hst hr hset)
  case readRewind =>
    refine hacts ((inbandRewind_at_read hst hr hok).trans ?_)
    rw [Fin.ofNat_val_eq_self]
  case writeMark => exact hacts (inbandMark_at_write hst hr hw hopen hauto (markBehind_of_none _ hnone))
  case stagedMark =>
    have hbehind : markBehind q.val m.val (s.link n.val).staged = _ := hstaged ▸ markBehind_of_last m.val pre hx hpost
    exact hacts (inbandMark_staged hst hr hw hopen hauto hbehind)
  case reject =>
    simp only [List.mem_cons, List.not_mem_nil, or_false] at hc
    rcases hc with rfl | rfl | rfl
    · exact ⟨_, hacts (inbandMark_rejects hoff), rejectInband_counts s _ _ _⟩
    · exact ⟨_, hacts (inbandRewind_rejects hoff), rejectInband_counts s _ _ _⟩
    · exact ⟨_, hacts (inbandRelease_rejects hoff), rejectInband_counts s _ _ _⟩
  case reserve =>
    have hfirst : firstDue (s.pinsDue n.val) = some (q, t) := hsplit ▸ firstDue_of_first hpre hpost
    exact hacts (pinReserve_of_first hfirst)

end Sys2Proof.Machine
end

section
/-!
SUPPORT. What HELLO (R311), DRING_SET (R316) and TIME_SET (R173, R174) do once their header has passed.
-/
namespace Sys2Proof.Machine

/-! ## HELLO (R311) -/

theorem takeEffect_hello (s : State) {r : CmdRef} {d : Block512} (hop : Hdr.opcode d = 0x01) (hr : r.opcode = 0x01) :
    s.takeEffect r d none = s.doHello r d := by
  have hok : s.headerStatus r d = St.ok := by
    unfold State.headerStatus
    rw [hop]
    rfl
  unfold State.takeEffect State.hostEffect
  rw [hok, hr]
  rfl

/-- A HELLO needs no agreed version: its header passes under any. -/
theorem exec_hello {g : Fin 16} {d : Block512} {s : State} (h : s.Takes g.val 0x01 d) :
    exec (.hello g d) s = .next ((s.fetched g.val d).doHello (s.nextRef g.val d) d) := by
  show (.next (s.hostCommand g.val 0x01 d none) : Host.Outcome State Fault Refusal) = _
  rw [takes_fetch h, takeEffect_hello _ h.opcode h.opcode]

/-- INFO of a HELLO: the version's low byte, `VER_MAP` and the function. -/
theorem helloInfo_eq (v : Nat) {fn : Nat} (hfn : fn < 16) : helloInfo v fn = v % 256 + 256 * 7 + 65536 * fn := by
  simp only [helloInfo, versionsMap, packNat]
  omega

theorem bestVersion_lt {map v : Nat} (h : bestVersion map = some v) : v < 256 := by
  unfold bestVersion at h
  split_ifs at h <;> cases h <;> decide

/-- A command in flight agrees its version on the ring. -/
theorem doHello_agrees (s : State) {g : Nat} {d : Block512} (hg : g < 16) {v : Nat} (hv : bestVersion (fld d 128 3) = some v) :
    (s.fetched g d).doHello (s.nextRef g d) d =
      ((s.fetched g d).updFunc g fun f => { f with verSet := true, ver := v }).completeInfo (s.nextRef g d) St.ok
        (v + 256 * 7 + 65536 * g) := by
  have hflight : ((s.fetched g d).func g).inflight.contains (s.nextRef g d) = true := by simp [fetched_func]
  unfold State.doHello
  rw [hv]
  dsimp only
  rw [State.nextRef_fn, State.updFunc_eq, if_pos hflight, helloInfo_eq v hg, Nat.mod_eq_of_lt (bestVersion_lt hv)]
  rfl

theorem doHello_refuses (s : State) {g : Nat} {d : Block512} (hg : g < 16) (hnone : bestVersion (fld d 128 3) = none) :
    (s.fetched g d).doHello (s.nextRef g d) d = (s.fetched g d).completeInfo (s.nextRef g d) St.badVersion
      ((s.func g).ver % 256 + 256 * 7 + 65536 * g) := by
  unfold State.doHello
  rw [hnone]
  dsimp only
  rw [State.nextRef_fn, helloInfo_eq _ hg, fetched_func]

/-! ## DRING_SET (R316) -/

theorem hasEffect_dringSet : HasEffect 0x02 State.doDringSet := fun _ _ _ _ => rfl

@[simp] theorem State.dring_setDring_same (s : State) (g r : Nat) (x : DRing) : (s.setDring g r x).dring g r = x := by
  simp [State.dring, State.setDring, State.updFunc_eq]

theorem State.func_setDring_other (s : State) {g h : Nat} (r : Nat) (x : DRing) (hh : h ≠ g) :
    (s.setDring g r x).func h = s.func h := by
  simp [State.setDring, State.updFunc_eq, hh.symm]

theorem State.dring_fetched (s : State) (g : Nat) (d : Block512) (r : Nat) : (s.fetched g d).dring g r = s.dring g r := by
  simp [State.dring, fetched_func]

/-- Without a host end there is no queue that HOST_RESET clears from. -/
theorem clearHostReset_of_noHostEnd {s : State} {g : Nat} (h : s.noHostEnd g) : s.clearHostReset g = s := by
  have hnone : (s.groupQueues g).filter (fun e => e.2.hostEnd && s.ringsReady g e.2) = [] := by
    rw [List.filter_eq_nil_iff]
    intro e he
    simp [h e he]
  unfold State.clearHostReset
  rw [hnone]
  rfl

/-- The ring that a DRING_SET with `EN` = 1 describes (Table HI-12). -/
def dringOf (d : Block512) : DRing :=
  { en := true, log2 := fld d 145 5, vecEn := bit d 150, vec := fld d 152 6, flush := fld d 160 16, base := fld d 192 64 }

/-- Enabling a ring passes where its size is in range, its base aligned, and the ring not enabled yet. -/
theorem dringStatus_enable {s : State} {g : Nat} {d : Block512} (hen : bit d 144 = true) (hlo : 6 ≤ fld d 145 5)
    (hhi : fld d 145 5 ≤ 16) (hal : fld d 192 64 % 4096 = 0) (hoff : (s.dring g (fld d 128 9)).en = false) :
    s.dringStatus g d = St.ok := by
  simp [State.dringStatus, firstFail, ringLogOk, hen, hlo, hhi, hal, hoff]

theorem doDringSet_enables {s : State} {r : CmdRef} {d : Block512} (hfn : r.fn < 16) (hst : s.dringStatus r.fn d = St.ok)
    (hen : bit d 144 = true) (hhost : s.noHostEnd r.fn) :
    s.doDringSet r d = (s.setDring r.fn (fld d 128 9) (dringOf d)).complete r St.ok := by
  have hclear := clearHostReset_of_noHostEnd (s := s.setDring r.fn (fld d 128 9) (dringOf d)) hhost
  unfold State.doDringSet
  dsimp only
  rw [actsAs_of_lt hfn, hst, hen, if_neg (by decide), if_pos rfl]
  exact congrArg (·.complete r St.ok) hclear

theorem fetched_setDring_keeps (s : State) (g n : Nat) (d : Block512) (x : DRing) :
    s.keeps ((s.fetched g d).setDring g n x) [.funcs, .cmdSerial, .host] :=
  have hw : Within 896 s ((s.fetched g d).setDring g n x) := State.setDring_within g n x (fetched_within s g d) (by decide)
  keeps_of_mask hw (by decide)

/-! ## TIME_SET (R173, R174) -/

theorem hasEffect_timeSet : HasEffect 0x30 State.doTimeSet := fun _ _ _ _ => rfl

@[simp] theorem complete_time (s : State) (r : CmdRef) (status : Nat) : (s.complete r status).time = s.time :=
  (State.complete_within r status (Within.refl _ s) (Nat.or_self _)).same .time (by decide)

@[simp] theorem rejudgeAll_time (s : State) : s.rejudgeAll.time = s.time :=
  (State.rejudgeAll_within (Within.refl _ s) (Nat.or_self _)).same .time (by decide)

/-- No TIME_SET waits any longer, whatever its completion. -/
theorem endTod_time (s : State) (status : Nat) : (s.endTod status).time = { s.time with tod := none } := by
  unfold State.endTod
  split
  next h => rw [← h]
  next w h =>
    dsimp only
    split
    · exact complete_time _ _ _
    · rfl

/-- The checks of TIME_SET for function 0, with no result block asked for and no edge to wait for. -/
theorem timeStatus_ok {s : State} {r : CmdRef} {d : Block512} (hfn : r.fn = 0) (ha : fld d 256 64 = 0) (hop : fld d 128 4 < 4)
    (hnow : fld d 128 4 ≠ 0)
    (hfreq : fld d 128 4 = 2 → -200000 ≤ signed 32 (fld d 160 32) ∧ signed 32 (fld d 160 32) ≤ 200000) :
    s.timeStatus r d = St.ok := by
  have hrange : (fld d 128 4 == 2 && (decide (signed 32 (fld d 160 32) < -200000) || decide (200000 < signed 32 (fld d 160 32))))
      = false := by
    rw [Bool.and_eq_false_imp, beq_iff_eq]
    intro h
    obtain ⟨hlo, hhi⟩ := hfreq h
    simp [Int.not_lt.mpr hlo, Int.not_lt.mpr hhi]
  unfold State.timeStatus
  dsimp only
  rw [hrange, ha, resultOk_zero, decide_eq_false (Nat.not_le.mpr hop), beq_eq_false_iff_ne.mpr hnow, hfn]
  rfl

/-- The time base with a time of day set now. -/
def TimeBase.setNow (t : TimeBase) (ns : Nat) : TimeBase :=
  { t with tb := ns * 2 ^ 32, todDone := true, stepped := false, good := 0, p := if t.lockAfterNow = .freerun then 0 else t.p }

/-- The state in which a TIME_SET with `OP` = 1 completes; a waiting one has been superseded. -/
def State.timeSetNow (s : State) (ns : Nat) : State :=
  (({ s.endTod St.superseded with time := (s.endTod St.superseded).time.setNow ns } : State).setLock
    (s.endTod St.superseded).time.lockAfterNow 0).rejudgeAll

theorem doTimeSet_now {s : State} {r : CmdRef} {d : Block512} (hok : s.timeStatus r d = St.ok) (ha : fld d 256 64 = 0)
    (hop : fld d 128 4 = 1) : s.doTimeSet r d = (s.timeSetNow (fld d 192 64)).complete r St.ok := by
  unfold State.doTimeSet
  dsimp only
  rw [hok, ha, hop]
  rfl

theorem doTimeSet_frequency {s : State} {r : CmdRef} {d : Block512} (hok : s.timeStatus r d = St.ok) (ha : fld d 256 64 = 0)
    (hop : fld d 128 4 = 2) : s.doTimeSet r d =
      ({ s with time := { s.time with f := signed 32 (fld d 160 32) } } : State).complete r St.ok := by
  unfold State.doTimeSet
  dsimp only
  rw [hok, ha, hop]
  rfl

theorem doTimeSet_reads {s : State} {r : CmdRef} {d : Block512} (hok : s.timeStatus r d = St.ok) (ha : fld d 256 64 = 0)
    (hop : fld d 128 4 = 3) : s.doTimeSet r d = s.complete r St.ok := by
  unfold State.doTimeSet
  dsimp only
  rw [hok, ha, hop]
  rfl

/-- Beside the lock state and `PPS_OUT`, a time of day set now leaves the time base as `setNow` says. -/
theorem timeSetNow_time_field (s : State) (ns : Nat) {α : Type} (p : TimeBase → α)
    (hlock : ∀ (t : TimeBase) (l : Lock), p { t with lock := l } = p t := by intro t l; rfl)
    (hgate : ∀ t : TimeBase, p t.gatePps = p t := by intro t; rfl) :
    p (s.timeSetNow ns).time = p (({ s.time with tod := none } : TimeBase).setNow ns) := by
  rw [State.timeSetNow, rejudgeAll_time, setLock_time_field _ _ _ p (fun t => hlock t _) hgate, endTod_time]

theorem timeSetNow_lock (s : State) (ns : Nat) : (s.timeSetNow ns).time.lock = s.time.lockAfterNow := by
  rw [State.timeSetNow, rejudgeAll_time, setLock_time_lock, endTod_time]
  rfl

theorem timeSetNow_tb (s : State) (ns : Nat) : (s.timeSetNow ns).time.tb = ns * 2 ^ 32 := timeSetNow_time_field s ns TimeBase.tb

theorem timeSetNow_tbNs (s : State) (ns : Nat) : (s.timeSetNow ns).tbNs = ns := by
  rw [State.tbNs, timeSetNow_tb, Nat.mul_div_cancel _ (by decide)]

theorem timeSetNow_tbFrac (s : State) (ns : Nat) : (s.timeSetNow ns).tbFrac = 0 := by
  rw [State.tbFrac, timeSetNow_tb, Nat.mul_mod_left]

theorem fetched_withTime_keeps (s : State) (g : Nat) (d : Block512) (x : TimeBase) :
    s.keeps { s.fetched g d with time := x } [.funcs, .cmdSerial, .host, .time] := by
  intro p hp
  cases p with
  | funcs | cmdSerial | host | time => simp at hp
  | _ => rfl

/-! ## The statement -/

/-- Settles O19: each command's checks pass under its clause's conditions, and its effect is said by the lemmas above. -/
theorem helloDringSetAndTimeSet : Obligations.HelloDringSetAndTimeSet := by
  unfold Obligations.HelloDringSetAndTimeSet
  have hnext : ∀ {t u : State}, t = u → (.next t : Host.Outcome State Fault Refusal) = .next u := congrArg _
  refine ⟨fun g d s h => ⟨fun v hv => ?agrees, fun hnone => ?refuses⟩,
    fun g d s h hen hlo hhi hal hoff hhost => ?ring, fun d s h ha => ?time⟩
  case agrees => exact (exec_hello h).trans (hnext (doHello_agrees s g.isLt hv))
  case refuses => exact (exec_hello h).trans (hnext (doHello_refuses s g.isLt (by rw [hnone]; rfl)))
  case ring =>
    have hst := dringStatus_enable (s := s.fetched g.val d) hen hlo hhi hal (s.dring_fetched g.val d _ ▸ hoff)
    exact ⟨_, (exec_of_accepts rfl h hasEffect_dringSet).trans (hnext (doDringSet_enables g.isLt hst hen hhost)),
      State.dring_setDring_same _ _ _ _,
      fun k hk => (State.func_setDring_other _ _ _ hk).trans (fetched_func_other s _ _ d hk), fetched_setDring_keeps s _ _ d _⟩
  case time =>
    have hexec : exec (.timeSet 0 d) s = .next ((s.fetched 0 d).doTimeSet (s.nextRef 0 d) d) :=
      exec_of_accepts (g := 0) rfl h hasEffect_timeSet
    have hok : ∀ {op}, fld d 128 4 = op → op < 4 → op ≠ 0 →
        (op = 2 → -200000 ≤ signed 32 (fld d 160 32) ∧ signed 32 (fld d 160 32) ≤ 200000) →
        (s.fetched 0 d).timeStatus (s.nextRef 0 d) d = St.ok := by
      rintro _ rfl hop hnow hfreq
      exact timeStatus_ok rfl ha hop hnow hfreq
    refine ⟨fun hop => ?now, fun hop hlo hhi => ?frequency, fun hop => ?reads⟩
    case now =>
      exact ⟨_, hexec.trans (hnext (doTimeSet_now (hok hop (by decide) (by decide) nofun) ha hop)), timeSetNow_tbNs _ _,
        timeSetNow_tbFrac _ _, timeSetNow_time_field _ _ TimeBase.todDone, timeSetNow_time_field _ _ TimeBase.f,
        timeSetNow_lock _ _⟩
    case frequency =>
      exact ⟨_, hexec.trans (hnext (doTimeSet_frequency (hok hop (by decide) (by decide) fun _ => ⟨hlo, hhi⟩) ha hop)), rfl,
        fetched_withTime_keeps s 0 d _⟩
    case reads => exact hexec.trans (hnext (doTimeSet_reads (hok hop (by decide) (by decide) nofun) ha hop))

end Sys2Proof.Machine
end

section
/-!
SUPPORT. What an edge of `PPS_IN` delivered to a running time base does (R168, R170): the phase error it measures, and the
discipline by the lock state.
-/
namespace Sys2Proof.Machine

/-! ## The phase error (R170) -/

/-- Within half a second, the distance from the nearest whole second is the one phase error that the stamp has. -/
theorem phaseOf_eq {stamp e : Int} (hlo : -500000000 < e) (hhi : e ≤ 500000000) (h : (stamp - e) % 1000000000 = 0) :
    phaseOf stamp = e := by
  unfold phaseOf
  dsimp only
  split <;> omega

/-- The time base stepped back by a phase error. -/
@[simp] theorem TimeBase.shift_neg_tb (t : TimeBase) (e : Int) : (t.shift (-e)).tb = unsigned 96 (t.tb - e * 2 ^ 32) := by
  have hstep : (t.tb : Int) + -e * 4294967296 = t.tb - e * 2 ^ 32 := by ring
  rw [TimeBase.shift, hstep]

/-! ## A move of the lock state that may happen -/

section
variable (c : Prop) [Decidable c] (s : State) (l : Lock) (e : Int)

theorem ite_setLock_time_lock : (if c then s.setLock l e else s).time.lock = if c then l else s.time.lock := by
  split
  · exact setLock_time_lock s l e
  · rfl

theorem ite_setLock_time_field {α : Type} (p : TimeBase → α)
    (hlock : ∀ t : TimeBase, p { t with lock := l } = p t := by intro t; rfl)
    (hgate : ∀ t : TimeBase, p t.gatePps = p t := by intro t; rfl) :
    p (if c then s.setLock l e else s).time = p s.time := by
  split
  · exact setLock_time_field s l e p hlock hgate
  · rfl

end

@[simp] theorem raise_time (s : State) (code : Nat) (owner : Option Nat) (a b c : Nat) :
    (s.raise code owner a b c).time = s.time :=
  (State.raise_within code owner a b c (Within.refl _ s) (Nat.or_self _)).same .time (by decide)

/-! ## An edge in UNLOCKED (R170) -/

/-- The frequency term after an edge in UNLOCKED: it moves only where the edge before it stepped the time base. -/
def TimeBase.unlockedF (t : TimeBase) (e : Int) : Int := if t.stepped then clampI (t.f + e) (-200000) 200000 else t.f

/-- The time base after a large phase error in UNLOCKED: stepped. -/
def TimeBase.jumped (t : TimeBase) (e : Int) : TimeBase :=
  ({ t with f := t.unlockedF e, stepped := true, good := 0 } : TimeBase).shift (-e)

/-- The time base after a small phase error in UNLOCKED: steered. -/
def TimeBase.steered (t : TimeBase) (e : Int) : TimeBase :=
  { t with f := t.unlockedF e, stepped := false, good := t.good + 1, p := e }

theorem edgeUnlocked_of_large {s : State} {e : Int} (h : 50 < e.natAbs) :
    s.edgeUnlocked e = ({ s with time := s.time.jumped e } : State).rejudgeAll := by
  unfold State.edgeUnlocked
  simp only [decide_eq_true h, if_true]
  rfl

theorem edgeUnlocked_of_small {s : State} {e : Int} (h : e.natAbs ≤ 50) :
    s.edgeUnlocked e = if 1 ≤ s.time.good ∧ s.time.todDone = true
      then ({ s with time := s.time.steered e } : State).setLock .locked e else { s with time := s.time.steered e } := by
  unfold State.edgeUnlocked
  simp only [decide_eq_false (Nat.not_lt.mpr h), Bool.false_eq_true, if_false, Bool.and_eq_true, decide_eq_true_eq,
    Nat.reduceLeDiff]
  rfl

/-! ## An edge in LOCKED or HOLDOVER (R170) -/

/-- The time base after a phase error beyond 1,000 ns that does not unlock. -/
def TimeBase.rejected (t : TimeBase) : TimeBase := { t with rej := t.rej + 1, ppsRej := inc8 t.ppsRej }

/-- The time base stepped by the fourth such error in a row, before the lock state moves. -/
def TimeBase.restarted (t : TimeBase) (e : Int) : TimeBase :=
  ({ t.rejected with stepped := true, good := 0, rej := 0 } : TimeBase).shift (-e)

/-- The time base after a phase error within 1,000 ns: its frequency and phase disciplined. -/
def TimeBase.disciplined (t : TimeBase) (e : Int) : TimeBase :=
  { t with rej := 0, f := clampI (t.f + e / 4) (-200000) 200000, p := e, good := if e.natAbs ≤ 50 then t.good + 1 else 0 }

theorem edgeLocked_of_rejected {s : State} {e : Int} (h : 1000 < e.natAbs) (hrej : s.time.rej ≠ 3) :
    s.edgeLocked e = { s with time := s.time.rejected } := by
  have hgo : s.time.rej + 1 ≠ 4 := by omega
  unfold State.edgeLocked
  dsimp only
  rw [if_pos h, if_neg hgo]
  rfl

theorem edgeLocked_of_fourth {s : State} {e : Int} (h : 1000 < e.natAbs) (hrej : s.time.rej = 3) :
    s.edgeLocked e = ((({ s with time := s.time.restarted e } : State).setLock .unlocked e).raise 0x102 none 0
      (unsigned 32 e) 0).rejudgeAll := by
  have hstop : s.time.rej + 1 = 4 := by omega
  unfold State.edgeLocked
  dsimp only
  rw [if_pos h, if_pos hstop]
  rfl

theorem edgeLocked_of_accepted {s : State} {e : Int} (h : e.natAbs ≤ 1000) :
    s.edgeLocked e = if s.time.lock = .holdover ∧ 2 ≤ (s.time.disciplined e).good
      then ({ s with time := s.time.disciplined e } : State).setLock .locked e
      else { s with time := s.time.disciplined e } := by
  unfold State.edgeLocked
  dsimp only
  rw [if_neg (Nat.not_lt.mpr h)]
  rfl

/-- Two good edges in a row, of which this is one. -/
theorem two_le_disciplined_good (t : TimeBase) (e : Int) : 2 ≤ (t.disciplined e).good ↔ e.natAbs ≤ 50 ∧ 1 ≤ t.good := by
  simp only [TimeBase.disciplined]
  split <;> omega

/-- Beside the lock state and `PPS_OUT`, the fourth error in a row leaves the time base as `restarted` says. -/
theorem edgeLocked_of_fourth_time_field {s : State} {e : Int} (h : 1000 < e.natAbs) (hrej : s.time.rej = 3) {α : Type}
    (p : TimeBase → α) (hlock : ∀ t : TimeBase, p { t with lock := .unlocked } = p t := by intro t; rfl)
    (hgate : ∀ t : TimeBase, p t.gatePps = p t := by intro t; rfl) :
    p (s.edgeLocked e).time = p (s.time.restarted e) := by
  rw [edgeLocked_of_fourth h hrej, rejudgeAll_time, raise_time, setLock_time_field _ _ _ p hlock hgate]

theorem edgeLocked_of_fourth_time_lock {s : State} {e : Int} (h : 1000 < e.natAbs) (hrej : s.time.rej = 3) :
    (s.edgeLocked e).time.lock = .unlocked := by
  rw [edgeLocked_of_fourth h hrej, rejudgeAll_time, raise_time, setLock_time_lock]

/-! ## From the edge to its effect -/

/-- The state with the edge's stamp and phase error recorded (R168). -/
def State.stamped (s : State) (e : Int) : State :=
  { s with time := { s.time with stamp := unsigned 64 (s.tbNs - 10 - s.time.ppsiComp), e := e, phaseErr := e } }

/-- The time base set to a waiting time of day, as far past it as the edge lies back: 10 ns and `PPSI_COMP` (R168, R170). -/
def TimeBase.setAtEdge (t : TimeBase) (ns : Nat) : TimeBase :=
  { t with tb := unsigned 96 ((ns + 10 + t.ppsiComp) * 2 ^ 32), todDone := true, stepped := true, good := 0, tod := none }

/-- The state after the edge that a time of day waited for, before a waiting command completes (R170). -/
def State.setAtEdge (s : State) (ns : Nat) (e : Int) : State :=
  (({ s with time := s.time.setAtEdge ns } : State).setLock .unlocked e).rejudgeAll

theorem setAtEdge_time_field (s : State) (ns : Nat) (e : Int) {α : Type} (p : TimeBase → α)
    (hlock : ∀ t : TimeBase, p { t with lock := .unlocked } = p t := by intro t; rfl)
    (hgate : ∀ t : TimeBase, p t.gatePps = p t := by intro t; rfl) :
    p (s.setAtEdge ns e).time = p (s.time.setAtEdge ns) := by
  rw [State.setAtEdge, rejudgeAll_time, setLock_time_field _ _ _ p hlock hgate]

theorem setAtEdge_time_lock (s : State) (ns : Nat) (e : Int) : (s.setAtEdge ns e).time.lock = .unlocked := by
  rw [State.setAtEdge, rejudgeAll_time, setLock_time_lock]

/-- An edge delivered to a running time base with `PPS_EN` = 1, at a phase error. -/
structure State.Follows (s : State) (e : Int) : Prop where
  unarmed : s.time.ppsArm = false
  running : s.time.running = true
  enabled : s.time.ppsEn = true
  phase : phaseOf (s.tbNs - 10 - s.time.ppsiComp) = e

theorem ite_not_of_true {α : Type} {b : Bool} (h : b = true) (x y : α) : (if (!b) = true then x else y) = y := by
  rw [h]
  rfl

section
variable {s : State} {e : Int} (h : s.Follows e)
include h

theorem ppsEdge_of_tod {w : TodWait} (htod : s.time.tod = some w) (href : w.ref = none) :
    s.ppsEdge = (s.stamped e).setAtEdge w.value e := by
  obtain ⟨harm, hrun, hen, rfl⟩ := h
  refine (if_neg (ne_true_of_eq_false harm)).trans ((ite_not_of_true hrun _ _).trans ((ite_not_of_true hen _ _).trans ?_))
  split
  next v hv =>
    obtain rfl : v = w := Option.some.inj (hv.symm.trans htod)
    split
    next r hr => exact absurd (hr.symm.trans href) nofun
    next => rfl
  next hv => exact absurd (hv.symm.trans htod) nofun

theorem ppsEdge_of_unlocked (htod : s.time.tod = none) (hlock : s.time.lock = .unlocked) :
    s.ppsEdge = (s.stamped e).edgeUnlocked e := by
  obtain ⟨harm, hrun, hen, rfl⟩ := h
  refine (if_neg (ne_true_of_eq_false harm)).trans ((ite_not_of_true hrun _ _).trans ((ite_not_of_true hen _ _).trans ?_))
  split
  next v hv => exact absurd (hv.symm.trans htod) nofun
  next =>
    split
    next hl => exact absurd (hl.symm.trans hlock) nofun
    next hl => exact absurd (hl.symm.trans hlock) nofun
    next => rfl
    next => rfl

theorem ppsEdge_of_following (htod : s.time.tod = none) (hlock : s.time.lock = .locked ∨ s.time.lock = .holdover) :
    s.ppsEdge = (s.stamped e).edgeLocked e := by
  obtain ⟨harm, hrun, hen, rfl⟩ := h
  refine (if_neg (ne_true_of_eq_false harm)).trans ((ite_not_of_true hrun _ _).trans ((ite_not_of_true hen _ _).trans ?_))
  split
  next v hv => exact absurd (hv.symm.trans htod) nofun
  next =>
    split
    next => rfl
    next => rfl
    next hl => exact absurd (hlock.imp hl.symm.trans hl.symm.trans) (by decide)
    next hl => exact absurd (hlock.imp hl.symm.trans hl.symm.trans) (by decide)

end

/-! ## The statement -/

/-- Settles O37: a followed edge takes one of three ways, by the waiting time of day and the lock state, and each way changes the
time base as the lemmas above say. -/
theorem timeBaseFollowsThePulse : Obligations.TimeBaseFollowsThePulse := by
  unfold Obligations.TimeBaseFollowsThePulse
  intro e s harm hrun hen hlo hhi hphase x
  have hfollows : s.Follows e := ⟨harm, hrun, hen, phaseOf_eq hlo hhi hphase⟩
  refine ⟨fun w htod href => ?tod, fun htod hlock hlarge => ?jump, fun htod hlock hsmall => ?steer,
    fun htod hlock hnear => ?discipline, fun htod hlock hfar => ?reject⟩
  case tod =>
    refine ⟨s.ppsEdge, rfl, ?_⟩
    rw [ppsEdge_of_tod hfollows htod href]
    exact ⟨setAtEdge_time_field _ _ _ TimeBase.tb, setAtEdge_time_field _ _ _ TimeBase.todDone,
      setAtEdge_time_field _ _ _ TimeBase.stepped, setAtEdge_time_field _ _ _ TimeBase.good,
      setAtEdge_time_field _ _ _ TimeBase.tod, setAtEdge_time_lock _ _ _, setAtEdge_time_field _ _ _ TimeBase.e⟩
  case jump =>
    refine ⟨s.ppsEdge, rfl, ?_⟩
    rw [ppsEdge_of_unlocked hfollows htod hlock, edgeUnlocked_of_large hlarge, rejudgeAll_time]
    exact ⟨TimeBase.shift_neg_tb _ _, rfl, rfl, rfl, rfl, hlock, rfl⟩
  case steer =>
    refine ⟨s.ppsEdge, rfl, ?_⟩
    rw [ppsEdge_of_unlocked hfollows htod hlock, edgeUnlocked_of_small hsmall]
    refine ⟨ite_setLock_time_field _ _ _ _ TimeBase.tb, ite_setLock_time_field _ _ _ _ TimeBase.stepped,
      ite_setLock_time_field _ _ _ _ TimeBase.good, ite_setLock_time_field _ _ _ _ TimeBase.p,
      ite_setLock_time_field _ _ _ _ TimeBase.f, (ite_setLock_time_lock _ _ _ _).trans ?_⟩
    exact congrArg (fun l => if 1 ≤ x.good ∧ x.todDone = true then Lock.locked else l) hlock
  case discipline =>
    refine ⟨s.ppsEdge, rfl, ?_⟩
    rw [ppsEdge_of_following hfollows htod hlock, edgeLocked_of_accepted hnear]
    refine ⟨ite_setLock_time_field _ _ _ _ TimeBase.tb, ite_setLock_time_field _ _ _ _ TimeBase.rej,
      ite_setLock_time_field _ _ _ _ TimeBase.p, ite_setLock_time_field _ _ _ _ TimeBase.f,
      ite_setLock_time_field _ _ _ _ TimeBase.good, (ite_setLock_time_lock _ _ _ _).trans ?_⟩
    simp only [two_le_disciplined_good]
    rfl
  case reject =>
    refine ⟨s.ppsEdge, rfl, ?_⟩
    rw [ppsEdge_of_following hfollows htod hlock]
    by_cases hrej : x.rej = 3
    · have hfield := @edgeLocked_of_fourth_time_field (s.stamped e) e hfar hrej
      exact ⟨hfield TimeBase.ppsRej, hfield TimeBase.f, fun h => absurd hrej h, fun _ => ⟨hfield TimeBase.rej,
        edgeLocked_of_fourth_time_lock hfar hrej, hfield TimeBase.stepped, hfield TimeBase.good,
        (hfield TimeBase.tb).trans (TimeBase.shift_neg_tb _ _)⟩⟩
    · rw [edgeLocked_of_rejected (s := s.stamped e) hfar hrej]
      exact ⟨rfl, rfl, fun _ => ⟨rfl, rfl, rfl⟩, fun h => absurd h hrej⟩

end Sys2Proof.Machine
end

section
/-!
SUPPORT. What a visit of the adaptation loop (R192, R201 to R203) does: the rates it forms, the step it takes or leaves, and the
evaluation of the flags that follows a new threshold.
-/
namespace Sys2Proof.Machine

/-! ## The step of R201 -/

section
variable {p : Policy} {sojAvg : Nat}

/-- Above the band: tighten. -/
theorem adaptStep_above (h : 1000 * p.target + 1000 * p.target / 8 < sojAvg) (hbounds : p.afMin ≤ p.afMax) (af pace : Nat) :
    (adaptStep p sojAvg af pace).1 = min p.afMax (max p.afMin (af - af / 8)) ∧
      (p.paceMax ≠ 0 → (adaptStep p sojAvg af pace).2 = min p.paceMax (pace + max 1 (pace / 8))) := by
  have hclamp : p.afMin ≤ min p.afMax (max p.afMin (af - af / 8)) := le_min hbounds (le_max_left _ _)
  simp +contextual [adaptStep, h, hclamp]

/-- Below the band: relax. -/
theorem adaptStep_below (h : sojAvg < 1000 * p.target - 1000 * p.target / 4) (af pace : Nat) :
    (adaptStep p sojAvg af pace).1 = max p.afMin (min p.afMax (af + max 1 (af / 32))) ∧
      (p.paceMax ≠ 0 → (adaptStep p sojAvg af pace).2 = max p.paceMin (pace - max 1 (pace / 32))) := by
  have habove : ¬ 1000 * p.target + 1000 * p.target / 8 < sojAvg := by omega
  simp +contextual [adaptStep, h, habove]

theorem adaptStep_inside (hlow : 1000 * p.target - 1000 * p.target / 4 ≤ sojAvg)
    (hhigh : sojAvg ≤ 1000 * p.target + 1000 * p.target / 8) (af pace : Nat) : adaptStep p sojAvg af pace = (af, pace) := by
  simp [adaptStep, hlow.not_gt, hhigh.not_gt]

end

/-! ## A queue's context after a visit -/

/-- Whether a visit steps: `ADAPT` is set, the queue is not frozen, and a sample is new (R201, R203). -/
def Kerb.steps (k : Kerb) : Bool := k.policy.adapt && decide (32 ≤ k.nsoj) && k.sampled

/-- The threshold and the pace after a visit, stepped or not. -/
def Kerb.adapted (k : Kerb) (af : Nat) : Nat × Nat :=
  if k.steps then adaptStep k.policy k.sojAvg af k.paceNow else (af, k.paceNow)

/-- The queue's context after a visit, before its flags are evaluated. -/
def Queue.visited (q : Queue) (now cyc : Nat) : Queue :=
  { q with
    kerb := (q.kerb.formRates now).setPace (q.kerb.adapted q.fcfg.afSet).2 cyc
    fcfg := { q.fcfg with afSet := (q.kerb.adapted q.fcfg.afSet).1 } }

theorem Kerb.adapted_of_steps {k : Kerb} (hadapt : k.policy.adapt = true) (hsoj : 32 ≤ k.nsoj) (hsampled : k.sampled = true)
    (af : Nat) : k.adapted af = adaptStep k.policy k.sojAvg af k.paceNow := by
  simp [Kerb.adapted, Kerb.steps, hadapt, hsoj, hsampled]

theorem Kerb.adapted_of_rests {k : Kerb} (h : k.policy.adapt = false ∨ k.nsoj < 32 ∨ k.sampled = false) (af : Nat) :
    k.adapted af = (af, k.paceNow) := by
  have hrests : k.steps = false := by
    rcases h with h | h | h <;> simp [Kerb.steps, h]
  simp [Kerb.adapted, hrests]

theorem Kerb.setPace_paceNow (k : Kerb) (pace cyc : Nat) : (k.setPace pace cyc).paceNow = pace := by
  unfold Kerb.setPace
  split
  next h => exact h.symm
  next => rfl

/-- A new pace changes the bucket and `PACE_NOW` alone. -/
theorem Kerb.setPace_field (k : Kerb) (pace cyc : Nat) {α : Type} (p : Kerb → α)
    (hp : ∀ k tokens tokensAt paceNow, p { k with tokens, tokensAt, paceNow } = p k := by intros; rfl) :
    p (k.setPace pace cyc) = p k := by
  unfold Kerb.setPace
  split
  · rfl
  · exact hp _ _ _ _

/-! ## The state after a visit -/

/-- The sequencer makes a visit: the queue is a bound KERBSIDE queue, the loop and CORE run, and time has passed since the last
visit (R201, R206). -/
structure State.Visits (s : State) (n : Nat) : Prop where
  bound : (s.q n).st ≠ .unbound
  kerb : (s.q n).b.kerb = true
  control : s.rst.control = true
  runs : s.coreRuns = true
  later : (s.q n).kerb.lastVisit < s.mcount

theorem adaptVisit_of_visits {s : State} {n : Nat} (h : s.Visits n) :
    s.adaptVisit n = if ((s.q n).kerb.adapted (s.q n).fcfg.afSet).1 = (s.q n).fcfg.afSet
      then s.setQ n ((s.q n).visited s.mcount s.cyc) else (s.setQ n ((s.q n).visited s.mcount s.cyc)).evalFlags n := by
  obtain ⟨hbound, hkerb, hcontrol, hruns, hlater⟩ := h
  simp only [State.adaptVisit, hbound, hkerb, hcontrol, hruns, hlater.not_ge, decide_false, Bool.not_true, Bool.or_false,
    Bool.false_eq_true, ↓reduceIte]
  rw [← Kerb.steps, Queue.visited, Kerb.adapted]
  cases (s.q n).kerb.steps with
  | true => rfl
  | false =>
    have hpace : ((s.q n).kerb.formRates s.mcount).setPace (s.q n).kerb.paceNow s.cyc = (s.q n).kerb.formRates s.mcount :=
      if_pos rfl
    simp [hpace]

theorem adaptVisit_field {s : State} {n : Nat} (h : s.Visits n) {α : Type} (p : Queue → α)
    (hp : ∀ q, p q.offFlags = p q := by intro q; rfl) :
    p ((s.adaptVisit n).q n) = p ((s.q n).visited s.mcount s.cyc) := by
  rw [adaptVisit_of_visits h]
  split
  · rw [State.q_setQ, if_pos rfl]
  · rw [evalFlags_field _ n p hp, State.q_setQ, if_pos rfl]

theorem adaptVisit_other {s : State} {n m : Nat} (h : s.Visits n) (hm : m ≠ n) : (s.adaptVisit n).q m = s.q m := by
  rw [adaptVisit_of_visits h]
  split
  · rw [State.q_setQ, if_neg hm.symm]
  · rw [evalFlags_other _ hm, State.q_setQ, if_neg hm.symm]

/-- What a visit measures does not depend on whether it steps. -/
theorem adaptVisit_kerb {s : State} {n : Nat} (h : s.Visits n) {α : Type} (p : Kerb → α)
    (hp : ∀ k tokens tokensAt paceNow, p { k with tokens, tokensAt, paceNow } = p k := by intros; rfl) :
    p ((s.adaptVisit n).q n).kerb = p ((s.q n).kerb.formRates s.mcount) := by
  rw [adaptVisit_field h Queue.kerb]
  exact Kerb.setPace_field _ _ _ p hp

theorem adaptVisit_afSet {s : State} {n : Nat} (h : s.Visits n) :
    ((s.adaptVisit n).q n).fcfg.afSet = ((s.q n).kerb.adapted (s.q n).fcfg.afSet).1 := by
  rw [adaptVisit_field h Queue.fcfg]
  rfl

theorem adaptVisit_paceNow {s : State} {n : Nat} (h : s.Visits n) :
    ((s.adaptVisit n).q n).kerb.paceNow = ((s.q n).kerb.adapted (s.q n).fcfg.afSet).2 := by
  rw [adaptVisit_field h Queue.kerb]
  exact Kerb.setPace_paceNow _ _ _

/-! ## The statement -/

/-- Settles O25: the visit forms the rates whether or not it steps, and the threshold and the pace after it are those of R201's
step where the visit steps and the old ones where it does not. -/
theorem adaptationFollowsTheSojournTime : Obligations.AdaptationFollowsTheSojournTime := by
  unfold Obligations.AdaptationFollowsTheSojournTime
  intro q s hbound hkerb hcontrol hruns hlater k p af
  have h : s.Visits q.val := ⟨hbound, hkerb, hcontrol, hruns, hlater⟩
  refine ⟨s.adaptVisit q.val, rfl, adaptVisit_kerb h Kerb.arrRate, adaptVisit_kerb h Kerb.depRate,
    adaptVisit_kerb h Kerb.dropPer, adaptVisit_kerb h Kerb.lastVisit, adaptVisit_kerb h Kerb.arrBytes,
    adaptVisit_kerb h Kerb.depBytes, adaptVisit_kerb h Kerb.drops, fun hadapt hsoj hsampled hbounds => ?steps, fun hrests => ?rests,
    fun m hm => adaptVisit_other h hm,
    keeps_of_mask (State.adaptVisit_within q.val (Within.refl _ s) (Nat.or_self _)) (by decide)⟩
  case steps =>
    rw [adaptVisit_afSet h, adaptVisit_paceNow h, Kerb.adapted_of_steps hadapt hsoj hsampled]
    refine ⟨fun habove => adaptStep_above habove hbounds _ _, fun hbelow => adaptStep_below hbelow _ _, fun hlow hhigh => ?_⟩
    rw [adaptStep_inside hlow hhigh]
    exact ⟨rfl, rfl⟩
  case rests =>
    rw [adaptVisit_afSet h, adaptVisit_paceNow h, Kerb.adapted_of_rests hrests]
    exact ⟨rfl, rfl⟩

end Sys2Proof.Machine
end

section
/-!
SUPPORT. The training state of a link or ring side: what reads back after a write of it, what an attempt that begins makes of it
(R223, R226), and what leaves it alone.
-/
namespace Sys2Proof.Machine

/-! ## Reading back -/

@[simp] theorem State.side_updSide_same (s : State) (d : Side) (f : RingSide → RingSide) :
    (s.updSide d f).side d = f (s.side d) := by
  rw [State.updSide, State.side_setSide, if_pos rfl]

@[simp] theorem State.phy_setPhy_same (s : State) (p : Phy) (x : PhyState) : (s.setPhy p x).phy p = x := by
  cases p with
  | link n => exact congrArg Link.phy ((s.link_updLink _ _ _).trans (if_pos rfl))
  | side d => exact congrArg RingSide.phy (s.side_updSide_same d _)

@[simp] theorem State.phy_updPhy_same (s : State) (p : Phy) (f : PhyState → PhyState) : (s.updPhy p f).phy p = f (s.phy p) :=
  s.phy_setPhy_same p _

theorem State.link_setPhy_cfg (s : State) (n : Fin 8) (x : PhyState) :
    ((s.setPhy (.link n) x).link n.val).cfg = (s.link n.val).cfg := by
  rw [State.setPhy, State.link_updLink, if_pos rfl]

/-- The settings of a side are no part of its training state. -/
@[simp] theorem State.readTrainCfg_setPhy (s : State) (p : Phy) (x : PhyState) :
    (s.setPhy p x).readTrainCfg p = s.readTrainCfg p := by
  cases p with
  | link n =>
    simp only [State.readTrainCfg, State.link_setPhy_cfg]
  | side d => rfl

@[simp] theorem State.readTrainCfg_updPhy (s : State) (p : Phy) (f : PhyState → PhyState) :
    (s.updPhy p f).readTrainCfg p = s.readTrainCfg p := s.readTrainCfg_setPhy p _

@[simp] theorem State.phyPowered_setPhy (s : State) (p : Phy) (x : PhyState) : (s.setPhy p x).phyPowered p = s.phyPowered p := by
  have hpower : (s.setPhy p x).power = s.power := (State.setPhy_within p x (Within.refl _ s) (Nat.or_self _)).same .power (by decide)
  rw [State.phyPowered, hpower, ← State.phyPowered]

@[simp] theorem State.phyEn_setPhy (s : State) (p : Phy) (x : PhyState) : (s.setPhy p x).phyEn p = s.phyEn p := by
  cases p with
  | link n =>
    have hpresent : (s.setPhy (.link n) x).linkPresent n.val = s.linkPresent n.val := rfl
    simp only [State.phyEn, Link.en, State.link_setPhy_cfg, hpresent]
  | side d => cases d <;> rfl

/-- What changes neither the links nor the ring leaves every training state alone. -/
theorem State.phy_of_within {M : Nat} {s t : State} (h : Within M s t) (hM : M.testBit 2 = false ∧ M.testBit 6 = false) (p : Phy) :
    t.phy p = s.phy p := by
  obtain ⟨hlinks, hring⟩ := hM
  cases p with
  | link n => exact congrArg Link.phy (State.link_of_links (h.same .links hlinks) n.val)
  | side d =>
    have hkept : t.ring = s.ring := h.same .ring hring
    cases d with
    | east => exact congrArg (fun r => r.east.phy) hkept
    | west => exact congrArg (fun r => r.west.phy) hkept

theorem State.readTrainCfg_of_within {M : Nat} {s t : State} (h : Within M s t) (hM : M.testBit 2 = false) (p : Phy) :
    t.readTrainCfg p = s.readTrainCfg p := by
  cases p with
  | link n => simp only [State.readTrainCfg, State.link_of_links (h.same .links hM) n.val]
  | side d => rfl

/-! ## An attempt that begins (R223, R226) -/

/-- With a legal lane mode an attempt begins in the state it is begun in. -/
theorem beginAttempt_of_legal {s : State} {p : Phy} (h : (s.readTrainCfg p).illegal = false) (st : LState) :
    s.beginAttempt p st = s.updPhy p fun x => x.begin_ (s.readTrainCfg p) st :=
  if_neg (ne_true_of_eq_false h)

theorem beginAttempt_phy {s : State} {p : Phy} (h : (s.readTrainCfg p).illegal = false) (st : LState) :
    (s.beginAttempt p st).phy p = (s.phy p).begin_ (s.readTrainCfg p) st := by
  rw [beginAttempt_of_legal h, State.phy_updPhy_same]

theorem updPhy_keeps (s : State) (p : Phy) (f : PhyState → PhyState) : s.keeps (s.updPhy p f) [.links, .ring] :=
  keeps_of_mask (State.updPhy_within p f (Within.refl _ s) (Nat.or_self _)) (by decide)

theorem beginAttempt_keeps {s : State} {p : Phy} (h : (s.readTrainCfg p).illegal = false) (st : LState) :
    s.keeps (s.beginAttempt p st) [.links, .ring] := by
  rw [beginAttempt_of_legal h]
  exact updPhy_keeps s p _

/-! ## The ring above the training state -/

/-- Every ring side keeps its training state. -/
def State.SidesKept (s t : State) : Prop := ∀ e, (t.side e).phy = (s.side e).phy

theorem State.SidesKept.trans {s t u : State} (h : s.SidesKept t) (k : t.SidesKept u) : s.SidesKept u :=
  fun e => (k e).trans (h e)

theorem State.SidesKept.foldl {α : Type} {s t : State} {f : State → α → State} (hf : ∀ (t : State) a, t.SidesKept (f t a))
    (l : List α) (h : s.SidesKept t) : s.SidesKept (l.foldl f t) := by
  induction l generalizing t with
  | nil => exact h
  | cons a l ih => exact ih (h.trans (hf t a))

/-- What may follow keeps them too. -/
theorem State.SidesKept.ite {s t u : State} {c : Prop} [Decidable c] (h : s.SidesKept t) (k : t.SidesKept u) :
    s.SidesKept (if c then u else t) := by
  split
  · exact h.trans k
  · exact h

theorem setSide_sidesKept {s : State} {d : Side} {x : RingSide} (h : x.phy = (s.side d).phy) : s.SidesKept (s.setSide d x) := by
  intro e
  rw [State.side_setSide]
  split
  · next he => rw [h, he]
  · rfl

theorem sidesKept_of_ring {s t : State} (h : t.ring = s.ring) : s.SidesKept t := by
  intro e
  cases e with
  | east => exact congrArg (fun r => r.east.phy) h
  | west => exact congrArg (fun r => r.west.phy) h

theorem launch_sidesKept (s : State) (d : Side) (f : Frame) (ctrl : Option (Nat × List Byte)) :
    s.SidesKept (s.launch d f ctrl) :=
  (setSide_sidesKept (by rfl)).trans ((setSide_sidesKept (by rfl)).trans (sidesKept_of_ring rfl))

theorem pump_sidesKept (d : Side) (fuel : Nat) (s : State) : s.SidesKept (s.pump d fuel) := by
  induction fuel generalizing s with
  | zero => exact fun _ => rfl
  | succ fuel ih =>
    unfold State.pump
    dsimp only
    split
    · exact fun _ => rfl
    · split
      · split
        · exact (setSide_sidesKept (by rfl)).trans ((launch_sidesKept _ _ _ _).trans (ih _))
        · exact fun _ => rfl
      · split
        · split
          · exact (setSide_sidesKept (by rfl)).trans ((launch_sidesKept _ _ _ _).trans (ih _))
          · exact fun _ => rfl
        · exact fun _ => rfl

theorem pushFrame_sidesKept (s : State) (d : Side) (f : Frame) (ctrl : Option (Nat × List Byte)) :
    s.SidesKept (s.pushFrame d f ctrl) := by
  unfold State.pushFrame
  split
  · exact fun _ => rfl
  · exact (setSide_sidesKept (by rfl)).trans (pump_sidesKept _ _ _)

theorem controlFrame_sidesKept {s t : State} {kind dst : Nat} {bcast : Bool} {payload : List Byte} {f : Frame}
    (h : s.controlFrame kind dst bcast payload = some (f, t)) : s.SidesKept t := by
  unfold State.controlFrame at h
  split at h
  · cases h
  · cases h
    intro e
    cases e <;> rfl

theorem sendCtrlOn_sidesKept (s : State) (d : Side) (dst : Nat) (payload : List Byte) (keep : Bool) :
    s.SidesKept (s.sendCtrlOn d dst payload keep) := by
  unfold State.sendCtrlOn
  split
  · exact fun _ => rfl
  · next hframe => exact (controlFrame_sidesKept hframe).trans (pushFrame_sidesKept _ _ _ _)

theorem sideUp_sidesKept (s : State) (d : Side) : s.SidesKept (s.sideUp d) := by
  unfold State.sideUp
  refine State.SidesKept.ite (State.SidesKept.foldl (fun t op => ?again) _ (setSide_sidesKept (by rfl)))
    (State.SidesKept.foldl (fun t e => ?resume) _ fun _ => rfl)
  case resume => exact sidesKept_of_ring rfl
  case again =>
    obtain ⟨dst, payload⟩ := op
    dsimp only
    split
    · split
      · next hframe => exact (controlFrame_sidesKept hframe).trans (pushFrame_sidesKept _ _ _ _)
      · exact fun _ => rfl
    · exact sendCtrlOn_sidesKept _ _ _ _ _

end Sys2Proof.Machine
end

section
/-!
SUPPORT. What a write of `LINKn_CFG` or `PORTx_CFG` does (R212, R226, R229, R474).
-/
namespace Sys2Proof.Machine

/-! ## The written fields -/

/-- The RW fields of `LINKn_CFG` lie in its low byte. -/
theorem fld_low_byte (v : Word32) {lo w : Nat} (h : lo + w ≤ 8) : fld (v &&& 0xFF#32) lo w = fld v lo w := by
  have hmask : (v &&& 0xFF#32).toNat = v.toNat % 2 ^ 8 := Nat.and_two_pow_sub_one_eq_mod v.toNat 8
  refine Nat.eq_of_testBit_eq fun i => ?_
  simp only [fld, hmask, Nat.testBit_mod_two_pow, Nat.testBit_div_two_pow]
  by_cases hi : i < w
  · have hlow : i + lo < 8 := by omega
    simp [hi, hlow]
  · simp [hi]

theorem bit_low_byte (v : Word32) {i : Nat} (h : i < 8) : bit (v &&& 0xFF#32) i = bit v i := by
  rw [bit, fld_low_byte v h, ← bit]

/-! ## Changes of one link -/

/-- A state differs from another in one link, which a function gives, and in the other parts that a mask names. -/
structure OnLink (M n : Nat) (f : Link → Link) (s t : State) : Prop where
  here : t.link n = f (s.link n)
  other : ∀ m, m ≠ n → t.link m = s.link m
  within : Within M s t

theorem OnLink.refl (M n : Nat) (s : State) : OnLink M n id s s := ⟨rfl, fun _ _ => rfl, Within.refl M s⟩

theorem OnLink.trans {M n : Nat} {e f g : Link → Link} {s t u : State} (h : OnLink M n f s t) (k : OnLink M n g t u)
    (he : ∀ l, g (f l) = e l := by intro l; rfl) : OnLink M n e s u :=
  ⟨k.here.trans ((congrArg g h.here).trans (he _)), fun m hm => (k.other m hm).trans (h.other m hm),
    h.within.step k.within (Nat.or_self M)⟩

theorem OnLink.mono {M W n : Nat} {f : Link → Link} {s t : State} (h : OnLink M n f s t) (hM : M ||| W = W) : OnLink W n f s t :=
  ⟨h.here, h.other, h.within.mono hM⟩

theorem onLink_updLink (s : State) (n : Nat) (f : Link → Link) : OnLink 4 n f s (s.updLink n f) where
  here := (s.link_updLink n n f).trans (if_pos rfl)
  other m hm := (s.link_updLink n m f).trans (if_neg hm.symm)
  within := State.updLink_within n f (Within.refl 4 s) (Nat.or_self 4)

/-- A link with its training state changed. -/
def Link.onPhy (f : PhyState → PhyState) (l : Link) : Link := { l with phy := f l.phy }

theorem onLink_updPhy (s : State) (n : Fin 8) (f : PhyState → PhyState) :
    OnLink 4 n.val (Link.onPhy f) s (s.updPhy (.link n) f) := onLink_updLink s n.val _

theorem onLink_setPhy (s : State) (n : Fin 8) (x : PhyState) :
    OnLink 4 n.val (Link.onPhy fun _ => x) s (s.setPhy (.link n) x) := onLink_updLink s n.val _

/-! ## A side that stops (R212, R229) -/

/-- The training state of a side whose transmitters are idle. -/
def PhyState.stopped (st : LState) (x : PhyState) : PhyState :=
  { x with
    st := st, lanes := [], done := false, eqGood := 0, dataMode := false, cfgWait := false, txIdle := true,
    count := 0, frame := 0 }

theorem phyStop_of_not_up {s : State} {p : Phy} (h : (s.phy p).st ≠ .up) (st : LState) :
    s.phyStop p st = s.updPhy p (PhyState.stopped st) := by
  unfold State.phyStop State.phyLeave
  rw [if_neg h]
  rfl

/-- A link after a block reset: counters and Crosswalks cleared. -/
def Link.blockReset (l : Link) : Link :=
  { l with
    phy := { st := .reset }, hcse := 0, rxrej := 0, crce := 0, seale := 0, cwe := 0, naks := 0, rx := {}, tx := {} }

theorem onLink_phyReset {s : State} {n : Fin 8} (h : (s.phy (.link n)).st ≠ .up) :
    OnLink 65540 n.val Link.blockReset s (s.phyReset (.link n)) := by
  have hcells : ∀ t : State, OnLink 65540 n.val id t (t.resetCells (phyCells (.link n))) := fun t =>
    ⟨rfl, fun _ _ => rfl, (State.resetCells_within _ (Within.refl _ t) (Nat.or_self _)).mono (by decide)⟩
  have hstopped : OnLink 4 n.val (Link.onPhy fun _ => { st := .reset }) s
      ((s.updPhy (.link n) (PhyState.stopped .reset)).setPhy (.link n) { st := .reset }) :=
    (onLink_updPhy s n _).trans (onLink_setPhy _ n _)
  unfold State.phyReset
  rw [phyStop_of_not_up h]
  refine OnLink.trans (OnLink.mono (OnLink.trans (e := Link.blockReset) hstopped (onLink_updLink _ n.val _) ?_) (by decide))
    (hcells _)
  exact fun l => rfl

/-! ## A write of `LINKn_CFG` -/

/-- The RW fields stored in the register, and the errors of the last attempt ready to be raised again (R213, R224). -/
def Link.stored (v : Word32) (l : Link) : Link :=
  { l with cfg := v &&& 0xFF#32, phy := { l.phy with raised := 0, cfgRaised := false } }

/-- The state with the RW fields stored, before the side is enabled or stopped. -/
def State.linkStored (s : State) (n : Fin 8) (v : Word32) : State :=
  (s.updLink n.val fun l => { l with cfg := v &&& 0xFF#32 }).updPhy (.link n) fun x => { x with raised := 0, cfgRaised := false }

theorem onLink_linkStored (s : State) (n : Fin 8) (v : Word32) : OnLink 4 n.val (Link.stored v) s (s.linkStored n v) :=
  OnLink.trans (onLink_updLink s n.val _) (onLink_updPhy _ n _)

/-- The state after the write, but for what `RST` does. -/
def State.linkEnWritten (s : State) (n : Fin 8) (v : Word32) : State :=
  (s.updLink n.val fun l => { l with cfg := v &&& 0xFF#32 }).phyWriteEn (.link n)

theorem linkEnWritten_eq (s : State) (n : Fin 8) (v : Word32) : s.linkEnWritten n v =
    let t := s.linkStored n v
    if t.phyEn (.link n) then t.phyEnable (.link n)
    else if (t.phy (.link n)).st = .disabled || (t.phy (.link n)).st = .reset then t
    else t.phyStop (.link n) .disabled := rfl

section
variable {s : State} {n : Fin 8} {v : Word32}

theorem linkStored_phy_st : ((s.linkStored n v).phy (.link n)).st = (s.link n.val).phy.st :=
  congrArg (fun l => l.phy.st) (onLink_linkStored s n v).here

theorem linkStored_phyEn : (s.linkStored n v).phyEn (.link n) = (bit v 0 && s.linkPresent n.val) := by
  have hcfg : ((s.linkStored n v).link n.val).cfg = v &&& 0xFF#32 := congrArg Link.cfg (onLink_linkStored s n v).here
  have hpresent : (s.linkStored n v).linkPresent n.val = s.linkPresent n.val := rfl
  rw [State.phyEn, hpresent, Link.en, hcfg, bit_low_byte v (by decide)]

/-- The settings that the register now names. -/
def trainCfgOf (v : Word32) : TrainCfg :=
  { nrz := bit v 1, fec := fld v 2 2, txRev := bit v 4, autoPol := bit v 5, verMax := bit v 6 }

theorem linkStored_readTrainCfg : (s.linkStored n v).readTrainCfg (.link n) = trainCfgOf v := by
  have hcfg : ((s.linkStored n v).link n.val).cfg = v &&& 0xFF#32 := congrArg Link.cfg (onLink_linkStored s n v).here
  simp [State.readTrainCfg, hcfg, trainCfgOf, bit_low_byte, fld_low_byte]

theorem trainCfgOf_legal (hfec : fld v 2 2 ≠ 3) (hnone : fld v 2 2 = 0 → bit v 1 = true) :
    (trainCfgOf v).illegal = false := by
  by_cases h0 : fld v 2 2 = 0
  · simp [TrainCfg.illegal, trainCfgOf, h0, hnone h0]
  · simp [TrainCfg.illegal, trainCfgOf, h0, hfec]

theorem writeLinkCfg_of_no_rst (hrst : bit v 8 = false) : s.writeLinkCfg n v = s.linkEnWritten n v :=
  if_neg (ne_true_of_eq_false hrst)

theorem writeLinkCfg_of_rst (hrst : bit v 8 = true) : s.writeLinkCfg n v = (s.linkEnWritten n v).phyReset (.link n) :=
  if_pos hrst

/-- `EN` set on a disabled link starts an attempt at SIGDET (R223, R226). -/
theorem onLink_linkEnWritten_enable (hen : bit v 0 = true) (hpresent : s.linkPresent n.val = true)
    (hst : (s.link n.val).phy.st = .disabled) (hpower : s.phyPowered (.link n) = true) (hlegal : (trainCfgOf v).illegal = false) :
    OnLink 4 n.val (Link.onPhy (·.begin_ (trainCfgOf v) .sigdet) ∘ Link.stored v) s (s.linkEnWritten n v) := by
  have hpower' : (s.linkStored n v).phyPowered (.link n) = true := hpower
  have hbegin : s.linkEnWritten n v = (s.linkStored n v).beginAttempt (.link n) .sigdet := by
    rw [linkEnWritten_eq]
    simp [linkStored_phyEn, hen, hpresent, State.phyEnable, linkStored_phy_st, hst, hpower']
  rw [hbegin, beginAttempt_of_legal (by rwa [linkStored_readTrainCfg]), linkStored_readTrainCfg]
  exact (onLink_linkStored s n v).trans (onLink_updPhy _ n _)

/-- An enabled link that is not disabled goes on as it was. -/
theorem linkEnWritten_on (hon : (bit v 0 && s.linkPresent n.val) = true) (hst : (s.link n.val).phy.st ≠ .disabled) :
    s.linkEnWritten n v = s.linkStored n v := by
  rw [linkEnWritten_eq]
  simp [linkStored_phyEn, hon, State.phyEnable, linkStored_phy_st, hst]

/-- A link that is not enabled, or that its port's split does not provide, is stopped, unless a reset holds it (R212). -/
theorem onLink_linkEnWritten_off (hoff : (bit v 0 && s.linkPresent n.val) = false) (hup : (s.link n.val).phy.st ≠ .up) :
    ∃ f : PhyState → PhyState, OnLink 4 n.val (Link.onPhy f ∘ Link.stored v) s (s.linkEnWritten n v) ∧
      (f ((s.link n.val).stored v).phy).st = if (s.link n.val).phy.st = .reset then .reset else .disabled := by
  have hkept : OnLink 4 n.val (Link.onPhy id ∘ Link.stored v) s (s.linkStored n v) :=
    (onLink_linkStored s n v).trans (OnLink.refl 4 n.val _)
  rw [linkEnWritten_eq]
  by_cases hreset : (s.link n.val).phy.st = .reset
  · refine ⟨id, ?_, hreset.trans (if_pos hreset).symm⟩
    simpa [linkStored_phyEn, hoff, linkStored_phy_st, hreset] using hkept
  · by_cases hst : (s.link n.val).phy.st = .disabled
    · refine ⟨id, ?_, hst.trans (if_neg hreset).symm⟩
      simpa [linkStored_phyEn, hoff, linkStored_phy_st, hst] using hkept
    · have hstop := phyStop_of_not_up (s := s.linkStored n v) (p := .link n) (by rwa [linkStored_phy_st]) .disabled
      refine ⟨PhyState.stopped .disabled, ?_, (if_neg hreset).symm⟩
      simpa [linkStored_phyEn, hoff, linkStored_phy_st, hst, hreset, hstop] using
        (onLink_linkStored s n v).trans (onLink_updPhy _ n _)

/-- `RST` on a link that is neither UP nor disabled (R229). -/
theorem onLink_writeLinkCfg_rst (hrst : bit v 8 = true) (hup : (s.link n.val).phy.st ≠ .up)
    (hst : (s.link n.val).phy.st ≠ .disabled) :
    OnLink 65540 n.val (Link.blockReset ∘ Link.stored v) s (s.writeLinkCfg n v) := by
  rw [writeLinkCfg_of_rst hrst]
  cases hon : (bit v 0 && s.linkPresent n.val) with
  | true =>
    rw [linkEnWritten_on hon hst]
    exact ((onLink_linkStored s n v).mono (by decide)).trans (onLink_phyReset (by rwa [linkStored_phy_st]))
  | false =>
    obtain ⟨f, hoff, hf⟩ := onLink_linkEnWritten_off hon hup
    have hphy : ((s.linkEnWritten n v).phy (.link n)).st = if (s.link n.val).phy.st = .reset then .reset else .disabled :=
      (congrArg (fun l => l.phy.st) hoff.here).trans hf
    refine (hoff.mono (by decide)).trans (onLink_phyReset ?_)
    rw [hphy]
    split <;> decide

end

/-! ## A write of `PORTx_CFG` (R212) -/

section
variable {s : State} {port : Nat} {v : Word32}

/-- Whether a link of the port is enabled. -/
theorem portBusy_iff : ((List.range 4).any fun k => (s.link (4 * port + k)).en) = true ↔
    ∃ j, j < 4 ∧ (s.link (4 * port + j)).en = true := by
  simp only [List.any_eq_true, List.mem_range]

/-- Without link ends no queue loses an end. -/
theorem markRemoved_of_no_link_ends (h : ∀ e ∈ s.queues, e.2.endLinks = []) : s.markRemoved port = s := by
  have hnone : (s.queues.filter fun e => e.2.st != .unbound &&
      (e.2.endLinks.any fun l => portOf l == port && !s.linkPresent l)) = [] := by
    refine List.filter_eq_nil_iff.mpr fun e he => ?_
    simp [h e he]
  unfold State.markRemoved
  rw [hnone]
  rfl

theorem writePortCfg_takes (hsplit : fld v 0 2 ≠ 3) (hidle : ∀ j, j < 4 → (s.link (4 * port + j)).en = false)
    (hends : ∀ e ∈ s.queues, e.2.endLinks = []) :
    s.writePortCfg port v = { s with portCfg := SMap.set 0 s.portCfg port (v &&& 3#32) } := by
  have hbusy : ((List.range 4).any fun k => (s.link (4 * port + k)).en) = false := by
    rw [Bool.eq_false_iff]
    intro h
    obtain ⟨j, hj, hen⟩ := portBusy_iff.mp h
    exact absurd (hen.symm.trans (hidle j hj)) (by decide)
  unfold State.writePortCfg
  simp only [hsplit, hbusy, decide_false, Bool.or_false, Bool.false_eq_true, if_false]
  exact markRemoved_of_no_link_ends hends

theorem writePortCfg_refuses (h : fld v 0 2 = 3 ∨ ∃ j, j < 4 ∧ (s.link (4 * port + j)).en = true) :
    s.writePortCfg port v = s.raise 0x201 none (4 * port) 1 v.toNat := by
  refine if_pos (Bool.or_eq_true_iff.mpr ?_)
  exact h.imp decide_eq_true portBusy_iff.mpr

end

/-! ## The statement -/

/-- No other link changes, and no part of the state that the mask leaves out. -/
theorem OnLink.frame {M n : Nat} {f : Link → Link} {s t : State} (h : OnLink M n f s t) {l : List Part}
    (hl : ∀ p ∈ Part.all, p ∉ l → M.testBit p.idx = false) : (∀ m, m ≠ n → t.link m = s.link m) ∧ s.keeps t l :=
  ⟨h.other, keeps_of_mask h.within hl⟩

/-- Settles O32: each write gives its link as a function of the link before, and changes no other. -/
theorem linkSettings : Obligations.LinkSettings := by
  unfold Obligations.LinkSettings
  intro n v s hrun
  have hcore : ∀ off (effect : State), (.next (s.coreWrite off v effect) : Host.Outcome State Fault Refusal) = .next effect :=
    fun off effect => congrArg _ (coreWrite_of_runs hrun off v effect)
  refine ⟨fun hen hrst hpresent hst hpower hfec hnone => ?enable, fun hen hrst hup hreset => ?disable,
    fun hrst _ hup hst => ?reset, fun p => ?takes, fun p => ?refuses⟩
  case enable =>
    have h := onLink_linkEnWritten_enable hen hpresent hst hpower (trainCfgOf_legal hfec hnone)
    refine ⟨_, (hcore _ _).trans (congrArg _ (writeLinkCfg_of_no_rst hrst)), ?_, ?_, ?_, h.frame (by decide)⟩
    all_goals
      rw [h.here]
      rfl
  case disable =>
    have hoff : (bit v 0 && s.linkPresent n.val) = false := by rw [hen, Bool.false_and]
    obtain ⟨f, h, hf⟩ := onLink_linkEnWritten_off hoff hup
    refine ⟨_, (hcore _ _).trans (congrArg _ (writeLinkCfg_of_no_rst hrst)), ?_, ?_, h.frame (by decide)⟩
    · rw [h.here]
      exact hf.trans (if_neg hreset)
    · rw [h.here]
      rfl
  case reset =>
    have h := onLink_writeLinkCfg_rst hrst hup hst
    refine ⟨_, hcore _ _, ?_, ?_, ?_, ?_, ?_, ?_, h.frame (by decide)⟩
    all_goals
      rw [h.here]
      rfl
  case takes =>
    intro k hsplit hidle hends
    exact (hcore _ _).trans (congrArg _ (writePortCfg_takes hsplit hidle hends))
  case refuses =>
    intro k hbad
    have hkept : Within 18874496 s (s.raise 0x201 none (4 * k) 1 v.toNat) :=
      raise_within_of_not_fatal s none (4 * k) 1 v.toNat (by decide)
    exact ⟨_, (hcore _ _).trans (congrArg _ (writePortCfg_refuses hbad)), hkept.same .portCfg (by decide),
      raise_seq _ _ _ _ _ _⟩

end Sys2Proof.Machine
end

section
/-!
SUPPORT. How training passes its phases (R222, R223, R225): the step from one phase to the next, the windows of EQ, a side that
comes UP, and the end of a block reset (R229).
-/
namespace Sys2Proof.Machine

/-! ## The phases of an attempt (R222, R223) -/

/-- The phase that follows one (Table BP-6). -/
def nextPhase : LState → LState
  | .lock => .eq
  | .eq => .caps
  | _ => .ready

/-- The training state at the beginning of the next phase; READY has 64 frames to send. -/
def PhyState.advanced (x : PhyState) : PhyState :=
  { x with
    st := nextPhase x.st, done := false, eqGood := 0, count := if x.st = .caps then 64 else x.count,
    frame := if x.st = .caps then 0 else x.frame }

theorem advance_of_mayAdvance {s : State} {p : Phy} (h : s.mayAdvance p = true) (hwait : (s.phy p).cfgWait = false)
    (hst : (s.phy p).st = .lock ∨ (s.phy p).st = .eq ∨ (s.phy p).st = .caps) :
    s.advance p = s.updPhy p PhyState.advanced := by
  rcases hst with hst | hst | hst <;>
    simp [State.advance, h, hwait, hst, State.updPhy, PhyState.advanced, nextPhase]

/-! ## A window of EQ (R223) -/

/-- The windows in a row that have met the criterion after one more. -/
def eqCount (x : PhyState) (met : Bool) : Nat := if met then min 4 (x.eqGood + 1) else 0

/-- The state after a window, before the receivers steer the partner's transmitters. -/
def State.windowCounted (s : State) (p : Phy) (met : Bool) : State :=
  s.updPhy p fun x => { x with
    eqGood := eqCount x met, done := x.done || decide ((if x.cfg.fec = 0 then 4 else 1) ≤ eqCount x met) }

theorem eqWindow_of_eq {s : State} {p : Phy} (h : (s.phy p).st = .eq) (met : Bool) :
    s.eqWindow p met = if met then s.windowCounted p met
      else (List.range ((s.windowCounted p met).phyLanes p)).foldl (fun s k => s.steer p k) (s.windowCounted p met) :=
  if_pos h

/-- The criterion is met with FEC in one window, without FEC in the fourth of a row. -/
theorem eqCount_reaches (x : PhyState) (met : Bool) :
    decide ((if x.cfg.fec = 0 then 4 else 1) ≤ eqCount x met) = (met && (x.cfg.fec != 0 || decide (3 ≤ x.eqGood))) := by
  cases met with
  | false =>
    simp only [eqCount, Bool.false_eq_true, if_false, Bool.false_and, decide_eq_false_iff_not]
    split <;> omega
  | true =>
    by_cases hfec : x.cfg.fec = 0
    · simp [eqCount, hfec]
    · simp [eqCount, hfec]

/-- Steering writes what the lanes request, and nothing else of the training state. -/
theorem steer_phy (s : State) (p : Phy) (lane : Nat) {α : Type} (g : PhyState → α)
    (hg : ∀ x lanes, g { x with lanes } = g x := by intros; rfl) : g ((s.steer p lane).phy p) = g (s.phy p) := by
  have hdrawn : ∀ t : State, t.drawn.phy p = t.phy p := fun t => by
    cases p with
    | link n => rfl
    | side d => cases d <;> rfl
  unfold State.steer
  dsimp only
  split
  · rw [hdrawn, State.phy_setPhy_same]
    exact hg _ _
  · rfl

theorem foldl_steer_phy (p : Phy) {α : Type} (g : PhyState → α) (hg : ∀ x lanes, g { x with lanes } = g x := by intros; rfl)
    (l : List Nat) (s : State) : g ((l.foldl (fun s k => s.steer p k) s).phy p) = g (s.phy p) := by
  induction l generalizing s with
  | nil => rfl
  | cons k l ih => exact (ih _).trans (steer_phy s p k g hg)

theorem eqWindow_phy {s : State} {p : Phy} (h : (s.phy p).st = .eq) (met : Bool) {α : Type} (g : PhyState → α)
    (hg : ∀ x lanes, g { x with lanes } = g x := by intros; rfl) :
    g ((s.eqWindow p met).phy p) = g ((s.windowCounted p met).phy p) := by
  rw [eqWindow_of_eq h]
  split
  · rfl
  · exact foldl_steer_phy p g hg _ _

theorem eqWindow_met_keeps {s : State} {p : Phy} (h : (s.phy p).st = .eq) : s.keeps (s.eqWindow p true) [.links, .ring] := by
  rw [eqWindow_of_eq h, if_pos rfl]
  exact updPhy_keeps s p _

/-! ## Up (R223) -/

/-- Of the training state, coming UP changes the phase, the failure causes and data mode alone (R223 step 7). -/
theorem phyUp_phy (s : State) (p : Phy) :
    (s.phyUp p).phy p = { s.phy p with st := .up, fail := 0, raised := 0, dataMode := false } := by
  have hpost : ∀ (t : State) g ev, (t.post g ev).phy p = t.phy p := fun t g ev =>
    State.phy_of_within (State.post_within g ev (Within.refl _ t) (Nat.or_self _)) (by decide) p
  have hset := s.phy_updPhy_same p fun x => { x with st := .up, fail := 0, raised := 0, dataMode := false }
  cases p with
  | link n =>
    have hsend : ∀ (t : State) bytes, ((t.sendWord n.val bytes).unholdLink n.val).link n.val = t.link n.val := fun t bytes =>
      State.link_of_links (((State.sendWord_within _ _ (Within.refl 28312769 t) (by decide)).step
        (State.unholdLink_within _ (Within.refl _ _) (Nat.or_self _)) (Nat.or_self _)).same .links (by decide)) n.val
    refine (congrArg Link.phy (hsend _ _)).trans ((congrArg Link.phy ((State.link_updLink _ _ _ _).trans (if_pos rfl))).trans ?_)
    exact (hpost _ _ _).trans hset
  | side d =>
    refine (sideUp_sidesKept _ d d).trans ((congrArg RingSide.phy (State.side_updSide_same _ _ _)).trans ?_)
    exact (hpost _ _ _).trans hset

/-! ## A block reset that ends (R229) -/

section
variable {s : State} {p : Phy} (hst : (s.phy p).st = .reset)
include hst

theorem phyResetDone_of_reset :
    s.phyResetDone p = (s.updPhy p fun x => { x with st := .disabled }).phyEnable p := if_pos hst

theorem phyResetDone_stays (hoff : s.phyEn p = false ∨ s.phyPowered p = false) :
    s.phyResetDone p = s.updPhy p fun x => { x with st := .disabled } := by
  rw [phyResetDone_of_reset hst]
  rcases hoff with hoff | hoff <;> simp [State.phyEnable, State.updPhy, hoff]

theorem phyResetDone_trains (hen : s.phyEn p = true) (hpower : s.phyPowered p = true) :
    s.phyResetDone p = (s.updPhy p fun x => { x with st := .disabled }).beginAttempt p .sigdet := by
  rw [phyResetDone_of_reset hst]
  simp [State.phyEnable, State.updPhy, hen, hpower]

end

/-- Settles O34: what each command of training leaves of the side's training state. -/
theorem trainingPassesItsPhases : Obligations.TrainingPassesItsPhases := by
  unfold Obligations.TrainingPassesItsPhases
  intro p s
  refine ⟨fun hpower hen hst hlegal => ?start, fun met hst => ?window, fun hmay hwait hst => ?advance, fun hst => ?dataMode,
    fun hst hdata => ?up, fun hst => ?reset⟩
  case start =>
    have hnext : exec (.trainingStart p) s = .next (s.beginAttempt p .lock) :=
      congrArg _ (if_pos (by simp [hpower, hen, hst]))
    refine ⟨_, hnext, ?_⟩
    rw [beginAttempt_phy hlegal]
    exact ⟨rfl, rfl, rfl, rfl, rfl, beginAttempt_keeps hlegal _⟩
  case window =>
    have hcounted := s.phy_updPhy_same p fun x => { x with
      eqGood := eqCount x met, done := x.done || decide ((if x.cfg.fec = 0 then 4 else 1) ≤ eqCount x met) }
    refine ⟨s.eqWindow p met, rfl, (eqWindow_phy hst met PhyState.st).trans ((congrArg PhyState.st hcounted).trans hst),
      (eqWindow_phy hst met PhyState.done).trans ((congrArg PhyState.done hcounted).trans ?_), fun hmet => ?_, fun hmet => ?_,
      keeps_of_mask (State.eqWindow_within p met (Within.refl _ s) (Nat.or_self _)) (by decide)⟩
    · exact congrArg ((s.phy p).done || ·) (eqCount_reaches (s.phy p) met)
    · subst hmet
      exact (eqWindow_phy hst false PhyState.eqGood).trans (congrArg PhyState.eqGood hcounted)
    · subst hmet
      exact eqWindow_met_keeps hst
  case advance =>
    refine ⟨s.advance p, rfl, ?_⟩
    rw [advance_of_mayAdvance hmay hwait hst, State.phy_updPhy_same]
    exact ⟨rfl, rfl, rfl, updPhy_keeps s p _⟩
  case dataMode =>
    have hnext : exec (.dataModeStart p) s = .next (s.updPhy p fun x => { x with dataMode := true, count := 0 }) :=
      congrArg _ (if_pos (by simp [hst]))
    refine ⟨_, hnext, ?_⟩
    rw [State.phy_updPhy_same]
    exact ⟨rfl, hst, updPhy_keeps s p _⟩
  case up =>
    have hnext : exec (.linkUp p) s = .next (s.phyUp p) := congrArg _ (if_pos (by simp [hst, hdata]))
    have hw := State.phyUp_within p (Within.refl _ s) (Nat.or_self _)
    refine ⟨_, hnext, ?_⟩
    rw [phyUp_phy]
    exact ⟨rfl, rfl, rfl, hw.same .mem (by decide), hw.same .time (by decide), hw.same .power (by decide)⟩
  case reset =>
    refine ⟨s.phyResetDone p, rfl, fun hoff => ?_, fun hen hpower hlegal => ?_⟩
    · rw [phyResetDone_stays hst hoff, State.phy_updPhy_same]
    · rw [phyResetDone_trains hst hen hpower, beginAttempt_phy (by rwa [State.readTrainCfg_updPhy])]
      rfl

end Sys2Proof.Machine
end

section
/-!
SUPPORT. What a received training block does to its lane (R221, R222), and to an attempt that has left LOCK (R224).
-/
namespace Sys2Proof.Machine

/-- The training state with one lane's changed. -/
def PhyState.onLane (x : PhyState) (lane : Nat) (f : LaneTrain → LaneTrain) : PhyState :=
  { x with lanes := SMap.set {} x.lanes lane (f (SMap.get {} x.lanes lane)) }

theorem PhyState.onLane_same (x : PhyState) (lane : Nat) (f : LaneTrain → LaneTrain) :
    SMap.get {} (x.onLane lane f).lanes lane = f (SMap.get {} x.lanes lane) := SMap.get_set_same _ _ _ _

theorem PhyState.onLane_other (x : PhyState) {lane k : Nat} (h : k ≠ lane) (f : LaneTrain → LaneTrain) :
    SMap.get {} (x.onLane lane f).lanes k = SMap.get {} x.lanes k := SMap.get_set_other _ _ _ h.symm

/-- The polarity recorded is no part of a training state. -/
theorem notePol_phy (s : State) (p : Phy) (lane : Nat) (inv : Bool) : (s.notePol p lane inv).phy p = s.phy p :=
  State.phy_of_within (State.notePol_within p lane inv (Within.refl _ s) (Nat.or_self _)) (by decide) p

/-- The state with a valid block's fields recorded and its requests applied. -/
def State.blockTaken (s : State) (p : Phy) (lane : Nat) (b : BitVec 64) (inv : Bool) : State :=
  (s.updPhy p fun x => x.onLane lane (·.take b)).notePol p lane inv

section
variable (s : State) (p : Phy) (lane : Nat) (b : BitVec 64) (inv : Bool)

theorem blockTaken_phy : (s.blockTaken p lane b inv).phy p = (s.phy p).onLane lane (·.take b) := by
  rw [State.blockTaken, notePol_phy, State.phy_updPhy_same]

theorem blockTaken_readTrainCfg : (s.blockTaken p lane b inv).readTrainCfg p = s.readTrainCfg p := by
  have hpol := State.notePol_within p lane inv (Within.refl 32 (s.updPhy p fun x => x.onLane lane (·.take b))) (by decide)
  rw [State.blockTaken, State.readTrainCfg_of_within hpol (by decide), State.readTrainCfg_updPhy]

theorem blockTaken_within : Within 100 s (s.blockTaken p lane b inv) :=
  State.notePol_within p lane inv (State.updPhy_within p _ (Within.refl _ s) (by decide)) (by decide)

end

section
variable {s : State} {p : Phy} {lane : Nat} {b c : BitVec 64} {inv : Bool} (htrain : (s.phy p).training = true)
  (hdata : (s.phy p).dataMode = false) (hlane : lane < s.phyLanes p)
include htrain hdata hlane

/-- A block that a lane ignores costs its run of valid blocks. -/
theorem trainBlock_of_ignored (h : s.polarised p lane b = none) :
    s.trainBlock p lane b = s.updPhy p fun x => x.onLane lane ({ · with good := 0 }) := by
  have hheard : ¬ (!(s.phy p).training || decide (s.phyLanes p ≤ lane)) = true := by simp [htrain, hlane]
  unfold State.trainBlock
  dsimp only
  rw [if_neg hheard, h]
  exact if_neg (ne_true_of_eq_false hdata)

/-- In EQ a valid block is recorded, and one of LOCK takes this end back to step 1 as well (R224). -/
theorem trainBlock_of_valid (h : s.polarised p lane b = some (c, inv)) (hst : (s.phy p).st = .eq) :
    s.trainBlock p lane b = if Tb.phase c = 0 then (s.blockTaken p lane c inv).beginAttempt p .lock
      else s.blockTaken p lane c inv := by
  have hheard : ¬ (!(s.phy p).training || decide (s.phyLanes p ≤ lane)) = true := by simp [htrain, hlane]
  have htaken : ¬ ((s.phy p).dataMode && Tb.phase c != 0) = true := by simp [hdata]
  unfold State.trainBlock
  dsimp only
  rw [if_neg hheard, h]
  refine (if_neg htaken).trans ?_
  by_cases hphase : Tb.phase c = 0
  · refine Eq.trans (if_pos ?_) (if_pos hphase).symm
    rw [hst, hphase]
    rfl
  · refine Eq.trans (if_neg ?_) (Eq.trans ?_ (if_neg hphase).symm)
    · simp [hphase]
    · split
      · next hlock => exact absurd (hst.symm.trans hlock) nofun
      · next hcaps => exact absurd (hst.symm.trans hcaps) nofun
      · rfl

end

/-- Settles O35: an ignored block and a valid one each change one lane, and a block of LOCK begins an attempt after that. -/
theorem trainingBlocksAreTaken : Obligations.TrainingBlocksAreTaken := by
  unfold Obligations.TrainingBlocksAreTaken
  intro p lane b s htrain hdata hlane
  refine ⟨fun hignored => ?ignored, fun c inv hvalid hst hphase => ?taken, fun c inv hvalid hst hphase hlegal => ?restart⟩
  case ignored =>
    refine ⟨_, congrArg Host.Outcome.next (trainBlock_of_ignored htrain hdata hlane hignored), ?_⟩
    rw [State.phy_updPhy_same]
    exact ⟨rfl, PhyState.onLane_same _ _ _, fun k hk => PhyState.onLane_other _ hk _, updPhy_keeps s p _⟩
  case taken =>
    have hnext := (trainBlock_of_valid htrain hdata hlane hvalid hst).trans (if_neg hphase)
    refine ⟨_, congrArg Host.Outcome.next hnext, ?_⟩
    rw [blockTaken_phy]
    exact ⟨hst, PhyState.onLane_same _ _ _, fun k hk => PhyState.onLane_other _ hk _,
      keeps_of_mask (blockTaken_within s p lane.val c inv) (by decide)⟩
  case restart =>
    have hnext := (trainBlock_of_valid htrain hdata hlane hvalid hst).trans (if_pos hphase)
    refine ⟨_, congrArg Host.Outcome.next hnext, ?_⟩
    rw [beginAttempt_phy (by rwa [blockTaken_readTrainCfg])]
    rfl

end Sys2Proof.Machine
end

section
/-!
SUPPORT. What a failed attempt, a lost signal or a side that goes down leaves of the training state (R223, R224, R227, R228).
-/
namespace Sys2Proof.Machine

section
variable (s : State) (p : Phy) (cause : Nat)

/-- The report of a failed attempt changes no training state (R462: it is not fatal). -/
theorem noteFail_within_report :
    Within 18874496 (s.updPhy p fun x => { x with trainFail := inc8 x.trainFail, fail := cause, raised := cause })
      (s.noteFail p cause) :=
  Within.ite (Within.refl _ _) (raise_within_of_not_fatal _ _ _ _ _ (by decide))

theorem noteFail_phy : (s.noteFail p cause).phy p =
    { s.phy p with trainFail := inc8 (s.phy p).trainFail, fail := cause, raised := cause } := by
  rw [State.phy_of_within (noteFail_within_report s p cause) (by decide), State.phy_updPhy_same]

theorem noteFail_readTrainCfg : (s.noteFail p cause).readTrainCfg p = s.readTrainCfg p := by
  rw [State.readTrainCfg_of_within (noteFail_within_report s p cause) (by decide), State.readTrainCfg_updPhy]

end

/-- A failed attempt counts, names its cause and starts again from LOCK (R224). -/
theorem failAttempt_phy {s : State} {p : Phy} (h : (s.readTrainCfg p).illegal = false) (cause : Nat) :
    ((s.failAttempt p cause).phy p).st = .lock ∧ ((s.failAttempt p cause).phy p).fail = cause ∧
      ((s.failAttempt p cause).phy p).trainFail = inc8 (s.phy p).trainFail := by
  rw [State.failAttempt, beginAttempt_phy (by rwa [noteFail_readTrainCfg]), noteFail_phy]
  exact ⟨rfl, rfl, rfl⟩

theorem failAttempt_queues (s : State) (p : Phy) (cause : Nat) : (s.failAttempt p cause).queues = s.queues :=
  (State.failAttempt_within p cause (Within.refl _ s) (Nat.or_self _)).same .queues (by decide)

/-- What leaving UP does above the physical layer leaves the training state and the settings (R228). -/
theorem leaveUp_phy (s : State) (p : Phy) :
    (s.leaveUp p).phy p = s.phy p ∧ (s.leaveUp p).readTrainCfg p = s.readTrainCfg p := by
  have hpost : ∀ g ev, Within 16777344 s (s.post g ev) := fun g ev => State.post_within g ev (Within.refl _ s) (Nat.or_self _)
  cases p with
  | link n =>
    have hhold : ∀ t : State, (t.holdLink n.val).link n.val = t.link n.val := fun t => State.link_of_links
      ((State.holdLink_within n.val (Within.refl _ t) (Nat.or_self _)).same .links (by decide)) n.val
    have hdown : (s.leaveUp (.link n)).link n.val = (s.link n.val).down :=
      (hhold _).trans ((State.link_updLink _ _ _ _).trans ((if_pos rfl).trans
        (congrArg Link.down (State.link_of_links ((hpost _ _).same .links (by decide)) n.val))))
    refine ⟨(congrArg Link.phy hdown).trans rfl, ?_⟩
    simp only [State.readTrainCfg, hdown]
    rfl
  | side d =>
    refine ⟨?_, rfl⟩
    exact (congrArg RingSide.phy (State.side_updSide_same _ _ _)).trans
      (State.phy_of_within (hpost _ _) (by decide) (.side d))

/-- An UP side that goes down counts it and starts LOCK (R223, R228). -/
theorem phyDown_phy {s : State} {p : Phy} (hup : (s.phy p).st = .up) (hlegal : (s.readTrainCfg p).illegal = false) :
    (s.phyDown p).phy p =
      ({ s.phy p with downCnt := inc8 (s.phy p).downCnt } : PhyState).begin_ (s.readTrainCfg p) .lock := by
  obtain ⟨hphy, hcfg⟩ := leaveUp_phy (s.updPhy p fun x => { x with downCnt := inc8 x.downCnt }) p
  rw [State.readTrainCfg_updPhy] at hcfg
  rw [State.phyDown, if_pos hup, State.phyLeave, if_pos hup, beginAttempt_phy (by rwa [hcfg]), hcfg, hphy,
    State.phy_updPhy_same]

/-- A lost signal takes down a side in every mode (R227). -/
theorem downBy_signal {s : State} {p : Phy} (hup : (s.phy p).st = .up) : s.downBy p .signal = s.phyDown p := by
  refine if_pos ?_
  rw [hup]
  rfl

/-- Settles O36: a failed or lost attempt begins again by `beginAttempt`, after what is counted of it. -/
theorem trainingFailuresStartAgain : Obligations.TrainingFailuresStartAgain := by
  unfold Obligations.TrainingFailuresStartAgain
  intro p s hlegal
  refine ⟨fun htrain => ?timeout, fun hst hdata => ?marker, fun htrain => ?signal, fun n hp hwait hen => ?retry,
    fun hup => ?down⟩
  case timeout =>
    have hnext : exec (.trainingTimeout p) s = .next (s.failAttempt p 1) := congrArg _ (if_pos htrain)
    obtain ⟨hlock, hfail, hcount⟩ := failAttempt_phy hlegal 1
    exact ⟨_, hnext, hlock, hfail, hcount, failAttempt_queues s p 1⟩
  case marker =>
    have hnext : exec (.markerLockTimeout p) s = .next (s.failAttempt p 7) := congrArg _ (if_pos (by simp [hst, hdata]))
    obtain ⟨hlock, hfail, hcount⟩ := failAttempt_phy hlegal 7
    exact ⟨_, hnext, hlock, hfail, hcount, failAttempt_queues s p 7⟩
  case signal =>
    have hnext : exec (.trainingSignalLoss p) s = .next (s.beginAttempt p .sigdet) := congrArg _ (if_pos htrain)
    refine ⟨_, hnext, ?_⟩
    rw [beginAttempt_phy hlegal]
    exact ⟨rfl, rfl, beginAttempt_keeps hlegal _⟩
  case retry =>
    subst hp
    have hnext : exec (.trainingRetry n) s = .next (s.beginAttempt (.link n) .sigdet) :=
      congrArg _ (if_pos (by rw [hwait, hen]; rfl))
    refine ⟨_, hnext, ?_⟩
    rw [beginAttempt_phy hlegal, beginAttempt_of_legal hlegal]
    exact ⟨rfl, rfl, keeps_of_mask (onLink_updPhy s n _).within (by decide)⟩
  case down =>
    have hw := State.downBy_within p .signal (Within.refl _ s) (Nat.or_self _)
    refine ⟨s.downBy p .signal, rfl, ?_⟩
    refine ⟨?_, ?_, hw.same .kiosk (by decide), hw.same .time (by decide)⟩
    all_goals
      rw [downBy_signal hup, phyDown_phy hup hlegal]
      rfl

end Sys2Proof.Machine
end

section
/-!
SUPPORT. Accesses of a Kiosk in which nothing is under way (R341 to R343), and the answers to a link partner's requests (R253,
R345).
-/
namespace Sys2Proof.Machine

/-! ## The word after an access -/

/-- The word that an operation leaves behind (Table BL-11). -/
def KOp.leaves (op : KOp) (old data : Word64) : Word64 :=
  match op with
  | .read => old
  | .add => old + data
  | .write | .swap => data

/-- The data that an operation answers with: a write has none. -/
def KOp.answers (op : KOp) (old : Word64) : Word64 :=
  match op with
  | .write => 0
  | _ => old

/-- What an access leaves of a Kiosk in which nothing was under way: a write that has yet to commit (R342), or the word that
FetchAdd and Swap lock (R343). -/
def Kiosk.accessed (k : Kiosk) (op : KOp) (a : Nat) (data : Word64) : Kiosk :=
  match op with
  | .read => k
  | .write => { k with writes := [{ addr := a, data := data, left := 2, lock := false }] }
  | .add | .swap =>
    let new := op.leaves (k.word a) data
    { k.put a new with writes := [{ addr := a, data := new, left := 2, lock := true }] }

section
variable {k : Kiosk}

theorem Kiosk.advance_of_idle (h : k.writes = []) (cycles : Nat) : k.advance cycles = k := by
  obtain ⟨words, bad, writes⟩ := k
  obtain rfl : writes = [] := h
  rfl

theorem Kiosk.waitFor_of_idle (h : k.writes = []) (a : Nat) (locksOnly : Bool) : k.waitFor a locksOnly = 0 := by
  simp [Kiosk.waitFor, h]

theorem Kiosk.word_put (k : Kiosk) (a b : Nat) (v : Word64) : (k.put a v).word b = if a = b then v else k.word b :=
  SMap.get_set _ _ _ _ _

/-- After its two cycles an access has left its word, and no other has changed. -/
theorem Kiosk.word_accessed (h : k.writes = []) (op : KOp) (a b : Nat) (data : Word64) :
    ((k.accessed op a data).advance 2).word b = if a = b then op.leaves (k.word a) data else k.word b := by
  cases op with
  | read =>
    rw [Kiosk.accessed, Kiosk.advance_of_idle h]
    split
    · next hab => rw [hab]; rfl
    · rfl
  | write => exact Kiosk.word_put k a b data
  | add => exact Kiosk.word_put k a b _
  | swap => exact Kiosk.word_put k a b _

end

/-- An access meets neither a write nor a lock, and a word that is good. -/
theorem kioskAccess_of_idle {s : State} {a : Nat} (hidle : s.kiosk.writes = []) (hgood : SMap.get false s.kiosk.bad a = false)
    (who : Asker) (op : KOp) (data : Word64) : s.kioskAccess who op a data =
      (.value (op.answers (s.kiosk.word a)), { s.ungate with kiosk := s.kiosk.accessed op a data }) := by
  have hadvance : ∀ c, s.kiosk.advance c = s.kiosk := Kiosk.advance_of_idle hidle
  unfold State.kioskAccess
  cases op <;> simp [hadvance, hidle, hgood, Kiosk.accessed, Kiosk.put, KOp.leaves, KOp.answers]

/-! ## Requests of link partners -/

/-- FetchAdd and Swap are the operations that version 1.0 lacks. -/
theorem kopOf_locks (op : Nat) : (kopOf op == .add || kopOf op == .swap) = decide (2 ≤ op) := by
  match op with
  | 0 | 1 | 2 => rfl
  | n + 3 => exact (decide_eq_true (by omega)).symm

section
variable {s : State} {win : BitVec 32} {v10 : Bool} {op a : Nat}

theorem permits_eq_false (h : bit win 23 = false ∨ Kwin.covers win a = false ∨ Kwin.allows win (kopOf op) = false) :
    Kwin.permits win (kopOf op) a = false := by
  rw [Kwin.permits]
  rcases h with h | h | h <;> simp [h]

theorem streetAccess_of_old_version (hver : v10 = true) (hop : 2 ≤ op) (who : Asker) (data : Word64) :
    s.streetAccess who win v10 op a data = (some (3, 0), s) :=
  if_pos (by rw [kopOf_locks, hver, decide_eq_true hop]; rfl)

theorem has_operation (h : v10 = false ∨ op < 2) : (v10 && (kopOf op == .add || kopOf op == .swap)) = false := by
  rw [kopOf_locks]
  rcases h with rfl | h
  · rfl
  · rw [decide_eq_false (Nat.not_le.mpr h), Bool.and_false]

theorem streetAccess_of_closed (hver : v10 = false ∨ op < 2) (hwin : Kwin.permits win (kopOf op) a = false) (who : Asker)
    (data : Word64) : s.streetAccess who win v10 op a data = (some (2, 0), s) := by
  simp [State.streetAccess, has_operation hver, hwin]

/-- A permitted request accesses an idle Kiosk. -/
theorem streetAccess_of_permitted (hver : v10 = false ∨ op < 2) (hwin : Kwin.permits win (kopOf op) a = true)
    (hidle : s.kiosk.writes = []) (hgood : SMap.get false s.kiosk.bad a = false) (who : Asker) (data : Word64) :
    s.streetAccess who win v10 op a data = (some (0, (kopOf op).answers (s.kiosk.word a)),
      { s.ungate with kiosk := s.kiosk.accessed (kopOf op) a data }) := by
  simp [State.streetAccess, has_operation hver, hwin, kioskAccess_of_idle hidle hgood]

end

section
variable {s : State} {n : Fin 8} {op : Fin 4} {addr : Fin 32768}

theorem exec_kioskReq (hlive : s.linkLive n.val = true) (tag : Byte) (data : Word64) :
    exec (.kioskReq n op tag addr data) s = .next (s.kioskReq n.val op.val tag.toNat addr.val data) :=
  congrArg Host.Outcome.next (if_pos hlive)

/-- The response goes out, once the request has left a live link so. -/
theorem kioskReq_of_answer {tag status : Nat} {data v : Word64} {t : State} (hlive : t.linkLive n.val = true)
    (h : ∀ who, s.streetAccess who (SMap.get 0 s.kiosk.win n.val) ((s.link n.val).phy.ver == 0) op.val addr.val data =
      (some (status, v), t)) :
    s.kioskReq n.val op.val tag addr.val data =
      t.emit (.word n (cword 5 2 (kioskFields op.val status tag addr.val v))) := by
  unfold State.kioskReq
  dsimp only
  rw [h]
  exact sendWord_of_live hlive _

end

/-- Settles O40: a request is refused by its version or its window, or it accesses an idle Kiosk by `kioskAccess_of_idle`. -/
theorem kioskRequestsOfLinks : Obligations.KioskRequestsOfLinks := by
  unfold Obligations.KioskRequestsOfLinks
  intro n op tag addr data s hlive
  refine ⟨fun hver hop => ?old, fun hver hwin => ?closed, fun hver hen hcovers hallows hidle hgood => ?served, rfl⟩
  all_goals rw [exec_kioskReq hlive]
  case old =>
    rw [kioskReq_of_answer hlive (streetAccess_of_old_version (beq_iff_eq.mpr hver) hop · data)]
    rfl
  case closed =>
    rw [kioskReq_of_answer hlive
      (streetAccess_of_closed (hver.imp_left beq_eq_false_iff_ne.mpr) (permits_eq_false hwin) · data)]
    rfl
  case served =>
    have hwin : Kwin.permits (SMap.get 0 s.kiosk.win n.val) (kopOf op.val) addr.val = true := by
      rw [Kwin.permits, hen, hcovers, hallows]
      rfl
    have hserved := streetAccess_of_permitted (hver.imp_left beq_eq_false_iff_ne.mpr) hwin hidle hgood
    refine ⟨_, congrArg _ (kioskReq_of_answer (by exact hlive) (hserved · data)), ?_, ?_, fun b hb => ?_, fun p hp => ?_⟩
    · fin_cases op <;> rfl
    · refine (Kiosk.word_accessed hidle _ _ _ _).trans ((if_pos rfl).trans ?_)
      fin_cases op <;> rfl
    · exact (Kiosk.word_accessed hidle _ _ _ _).trans (if_neg hb.symm)
    · cases p with
      | kiosk | words | power | out => simp at hp
      | _ => rfl

end Sys2Proof.Machine
end

section
/-!
SUPPORT. What stored bytes a run of writes leaves (R326, R330), and what moves a queue's write pointer with them.
-/
namespace Sys2Proof.Machine

/-! ## Bytes written -/

section
variable {q : Queue}

theorem wrBytes_mem_other (bs : List Byte) {s : State} {pos a : Nat} (h : ∀ i, i < bs.length → q.addr (pos + i) ≠ some a) :
    SMap.get 0 (s.wrBytes q pos bs).plaza.mem a = SMap.get 0 s.plaza.mem a := by
  induction bs generalizing s pos with
  | nil => rfl
  | cons b bs ih =>
    have hrest : ∀ i, i < bs.length → q.addr (pos + 1 + i) ≠ some a := fun i hi => by
      have := h (i + 1) (Nat.succ_lt_succ hi)
      rwa [← Nat.add_assoc, Nat.add_right_comm] at this
    rw [State.wrBytes, ih hrest]
    split
    · next c hc => exact SMap.get_set_other _ _ _ fun hca => h 0 (Nat.zero_lt_succ _) (hca ▸ hc)
    · rfl

/-- Each byte lies where its position does, where no two positions of the run share a place. -/
theorem wrBytes_mem_same (bs : List Byte) {s : State} {pos : Nat}
    (hinj : ∀ i j, i < j → j < bs.length → q.addr (pos + i) ≠ q.addr (pos + j)) {i a : Nat} (hi : i < bs.length)
    (ha : q.addr (pos + i) = some a) : SMap.get 0 (s.wrBytes q pos bs).plaza.mem a = bs[i] := by
  induction bs generalizing s pos i with
  | nil => exact absurd hi (Nat.not_lt_zero _)
  | cons b bs ih =>
    rw [State.wrBytes]
    cases i with
    | zero =>
      rw [wrBytes_mem_other bs fun j hj => ?_]
      · rw [Nat.add_zero] at ha
        rw [ha]
        exact SMap.get_set_same _ _ _ _
      · have := hinj 0 (j + 1) (Nat.zero_lt_succ _) (Nat.succ_lt_succ hj)
        rw [ha, ← Nat.add_assoc, Nat.add_right_comm] at this
        exact this.symm
    | succ i =>
      refine ih (fun j k hjk hk => ?_) (Nat.lt_of_succ_lt_succ hi) (by rw [← ha]; congr 1; omega)
      have := hinj (j + 1) (k + 1) (Nat.succ_lt_succ hjk) (Nat.succ_lt_succ hk)
      rwa [← Nat.add_assoc, ← Nat.add_assoc, Nat.add_right_comm, Nat.add_right_comm pos k] at this

end

/-! ## The data of a queue -/

/-- The next `k` bytes from the write pointer on lie in `k` places. -/
def Queue.apart (q : Queue) (k : Nat) : Prop := ∀ i j, i < j → j < k → q.addr (q.wptr + i) ≠ q.addr (q.wptr + j)

/-- A run of bytes finds room: the queue holds the segments that its plan needs, each byte at a place of its own. -/
def Queue.hasRoom (q : Queue) (last : Bool) (bs : List Byte) : Prop :=
  (q.plan last bs).needEnd ≤ q.heldEnd ∧ q.apart (q.plan last bs).bytes.length

/-- An Express queue in stream mode with no message open. -/
structure Queue.PlainStream (q : Queue) : Prop where
  stream : q.b.msgMode = false
  express : q.b.kerb = false
  idle : q.wmsg = none

/-- Two states hold the same stored bytes and the same queues, but for what queue n keeps beside its segments and pointers. -/
structure SameData (n : Nat) (s t : State) : Prop where
  wptr : (t.q n).wptr = (s.q n).wptr
  rptr : (t.q n).rptr = (s.q n).rptr
  segs : (t.q n).segs = (s.q n).segs
  segBase : (t.q n).segBase = (s.q n).segBase
  pair : (t.q n).pair = (s.q n).pair
  mem : t.plaza.mem = s.plaza.mem
  other : ∀ m, m ≠ n → t.q m = s.q m

/-- From `s` to `t` a run of bytes is stored at the write pointer of queue n, which moves past it; no other byte and no other
queue changes. -/
structure Stores (n : Nat) (s t : State) (bs : List Byte) : Prop where
  wptr : (t.q n).wptr = (s.q n).wptr + bs.length
  rptr : (t.q n).rptr = (s.q n).rptr
  pair : (t.q n).pair = (s.q n).pair
  stored : ∀ i a, (hi : i < bs.length) → (s.q n).addr ((s.q n).wptr + i) = some a → SMap.get 0 t.plaza.mem a = bs[i]
  kept : ∀ a, (∀ i, i < bs.length → (s.q n).addr ((s.q n).wptr + i) ≠ some a) →
    SMap.get 0 t.plaza.mem a = SMap.get 0 s.plaza.mem a
  other : ∀ m, m ≠ n → t.q m = s.q m

section
variable {n : Nat} {s t u : State} {bs : List Byte}

theorem SameData.of_q (hq : ∀ m, t.q m = s.q m) (hmem : t.plaza.mem = s.plaza.mem) : SameData n s t :=
  ⟨by rw [hq], by rw [hq], by rw [hq], by rw [hq], by rw [hq], hmem, fun m _ => hq m⟩

theorem SameData.of_within {M : Nat} (h : Within M s t) (hM : M.testBit 0 = false ∧ M.testBit 11 = false) : SameData n s t :=
  .of_q (State.q_of_within h hM.1) (h.same .mem hM.2)

theorem SameData.of_updQ (s : State) (n : Nat) (f : Queue → Queue) (hwptr : ∀ q, (f q).wptr = q.wptr := by intro q; rfl)
    (hrptr : ∀ q, (f q).rptr = q.rptr := by intro q; rfl) (hsegs : ∀ q, (f q).segs = q.segs := by intro q; rfl)
    (hbase : ∀ q, (f q).segBase = q.segBase := by intro q; rfl) (hpair : ∀ q, (f q).pair = q.pair := by intro q; rfl) :
    SameData n s (s.updQ n f) := by
  have hq : (s.updQ n f).q n = f (s.q n) := (State.q_updQ s n n f).trans (if_pos rfl)
  exact ⟨by rw [hq, hwptr], by rw [hq, hrptr], by rw [hq, hsegs], by rw [hq, hbase], by rw [hq, hpair], rfl,
    fun m hm => (State.q_updQ s n m f).trans (if_neg hm.symm)⟩

theorem SameData.of_evalFlags (s : State) (n : Nat) : SameData n s (s.evalFlags n) :=
  ⟨evalFlags_field s n Queue.wptr, evalFlags_field s n Queue.rptr, evalFlags_field s n Queue.segs,
    evalFlags_field s n Queue.segBase, evalFlags_field s n Queue.pair, congrArg Plaza.mem (evalFlags_plaza s n), fun _ hm => evalFlags_other s hm⟩

theorem SameData.trans (h : SameData n s t) (k : SameData n t u) : SameData n s u :=
  ⟨k.wptr.trans h.wptr, k.rptr.trans h.rptr, k.segs.trans h.segs, k.segBase.trans h.segBase, k.pair.trans h.pair, k.mem.trans h.mem,
    fun m hm => (k.other m hm).trans (h.other m hm)⟩

theorem SameData.addr (h : SameData n s t) (pos : Nat) : (t.q n).addr pos = (s.q n).addr pos := by
  rw [Queue.addr, Queue.addr, h.segs, h.segBase]

theorem SameData.heldEnd (h : SameData n s t) : (t.q n).heldEnd = (s.q n).heldEnd := by
  rw [Queue.heldEnd, Queue.heldEnd, h.segs, h.segBase]

theorem Stores.after (h : SameData n s t) (k : Stores n t u bs) : Stores n s u bs where
  wptr := by rw [k.wptr, h.wptr]
  rptr := k.rptr.trans h.rptr
  pair := k.pair.trans h.pair
  stored i a hi ha := k.stored i a hi (by rwa [h.wptr, h.addr])
  kept a ha := by rw [k.kept a fun i hi => by rw [h.wptr, h.addr]; exact ha i hi, h.mem]
  other m hm := (k.other m hm).trans (h.other m hm)

theorem Stores.before (k : Stores n s t bs) (h : SameData n t u) : Stores n s u bs where
  wptr := h.wptr.trans k.wptr
  rptr := h.rptr.trans k.rptr
  pair := h.pair.trans k.pair
  stored i a hi ha := by rw [h.mem]; exact k.stored i a hi ha
  kept a ha := by rw [h.mem]; exact k.kept a ha
  other m hm := (h.other m hm).trans (k.other m hm)

/-- The bytes are written, and the queue's write pointer is moved past them. -/
theorem stores_of_wrBytes {x : Queue} (hwptr : x.wptr = (s.q n).wptr + bs.length) (hrptr : x.rptr = (s.q n).rptr)
    (hpair : x.pair = (s.q n).pair)
    (hapart : (s.q n).apart bs.length) :
    Stores n s ((s.wrBytes (s.q n) (s.q n).wptr bs).setQ n x) bs where
  wptr := by rw [State.q_setQ, if_pos rfl, hwptr]
  rptr := by rw [State.q_setQ, if_pos rfl, hrptr]
  pair := by rw [State.q_setQ, if_pos rfl, hpair]
  stored _ _ hi ha := wrBytes_mem_same bs hapart hi ha
  kept _ ha := wrBytes_mem_other bs ha
  other m hm := by
    rw [State.q_setQ, if_neg hm.symm]
    exact State.q_of_within (State.wrBytes_within _ _ _ (Within.refl _ s) (Nat.or_self _)) (by decide) m

end

/-! ## A run that a stream queue stores (R39, R129) -/

section
variable {s : State} {n : Nat} {p : Piece}

theorem growTo_of_held {need : Nat} (h : need ≤ (s.q n).heldEnd) : s.growTo n need growFuel = s := if_pos h

theorem grantable_of_full (h : (s.q n).b.maxSeg ≤ (s.q n).segs.length) : s.grantable n = 0 := by
  rw [State.grantable, Nat.sub_eq_zero_of_le h, Nat.zero_min]

/-- A queue that holds all the segments it may hold is refused another. -/
theorem growTo_of_full {need : Nat} (h : (s.q n).heldEnd < need) (hfull : (s.q n).b.maxSeg ≤ (s.q n).segs.length) :
    s.growTo n need growFuel = s.denySeg n := by
  refine (if_neg (Nat.not_le.mpr h)).trans (if_neg ?_)
  rw [grantable_of_full hfull]
  exact Nat.lt_irrefl 0

/-- The queue whose open message is none stays so, and its plan starts at the write pointer. -/
theorem plan_of_no_message {q : Queue} (h : q.wmsg = none) (last : Bool) (bs : List Byte) :
    (q.plan last bs).q.wmsg = none ∧ (q.plan last bs).pos = q.wptr ∧ (q.plan last bs).q.rptr = q.rptr ∧
      (q.plan last bs).q.wptr = q.wptr + (q.plan last bs).bytes.length :=
  ⟨congrArg (Option.map _) h, rfl, rfl, rfl⟩

theorem commit_of_no_message (hmsg : (s.q n).wmsg = none) (last : Bool) (bs : List Byte) (end_ : Bool) :
    s.commit n ((s.q n).plan last bs) end_ =
      (((s.ungate.wrBytes (s.q n) (s.q n).wptr ((s.q n).plan last bs).bytes).setQ n
        { ((s.q n).plan last bs).q with needRoom := false }).askSegment n).evalFlags n := by
  unfold State.commit
  dsimp only
  rw [(plan_of_no_message hmsg last bs).1]
  rfl

theorem SameData.of_askSegment (s : State) (n : Nat) : SameData n s (s.askSegment n) := by
  refine .of_updQ s n _ ?_ ?_ ?_ ?_ ?_
  all_goals
    intro q
    split <;> rfl

/-- The bytes received so far count among those that arrived (R202). -/
def State.arrives (s : State) (n : Nat) (p : Piece) : State :=
  s.updQ n fun q => { q with kerb := { q.kerb with arrBytes := q.kerb.arrBytes + p.bytes.length } }

theorem arrives_q (s : State) (n : Nat) (p : Piece) : (s.arrives n p).q n =
    { s.q n with kerb := { (s.q n).kerb with arrBytes := (s.q n).kerb.arrBytes + p.bytes.length } } :=
  (State.q_updQ _ _ _ _).trans (if_pos rfl)

theorem SameData.of_arrives (s : State) (n : Nat) (p : Piece) : SameData n s (s.arrives n p) := .of_updQ s n _

theorem storePiece_of_stream (hmode : (s.q n).b.msgMode = false) (at_ : Arrival) :
    s.storePiece n at_ (p, true) =
      let t := (s.arrives n p).commit n (((s.arrives n p).q n).plan p.last p.bytes) p.last
      if p.last then t.updQ n fun q => { q with decided := q.decided.filter fun d => d.1 != p.msn } else t := by
  have hopen : ¬ (p.first && (s.q n).b.msgMode) = true := by rw [hmode, Bool.and_false]; exact Bool.false_ne_true
  unfold State.storePiece
  dsimp only
  rw [if_pos rfl, if_neg hopen]
  rfl

/-- What storing a run of a stream may change: the queues, the Plaza, the clock's gate, and what the flags go out by. -/
theorem storePiece_within_stream (h : (s.q n).PlainStream) (at_ : Arrival) :
    Within 16911489 s (s.storePiece n at_ (p, true)) := by
  have hmsg : ((s.arrives n p).q n).wmsg = none := by rw [arrives_q]; exact h.idle
  have harrives : Within 16911489 s (s.arrives n p) := State.updQ_within n _ (Within.refl _ s) (by decide)
  have hcommit : Within 16911489 s ((s.arrives n p).commit n (((s.arrives n p).q n).plan p.last p.bytes) p.last) := by
    rw [commit_of_no_message hmsg]
    refine State.evalFlags_within n (State.askSegment_within n (State.setQ_within n _ ?_ (by decide)) (by decide)) (by decide)
    exact State.wrBytes_within _ _ _ (State.ungate_within harrives (by decide)) (by decide)
  rw [storePiece_of_stream h.stream]
  exact Within.ite (State.updQ_within n _ hcommit (by decide)) hcommit

/-- What a plan of a stream queue has to store is stored. -/
theorem commit_stores (hmsg : (s.q n).wmsg = none) {last : Bool} {bs : List Byte}
    (hapart : (s.q n).apart ((s.q n).plan last bs).bytes.length) (end_ : Bool) :
    Stores n s (s.commit n ((s.q n).plan last bs) end_) ((s.q n).plan last bs).bytes := by
  obtain ⟨-, -, hrptr, hwptr⟩ := plan_of_no_message hmsg last bs
  rw [commit_of_no_message hmsg]
  refine Stores.before (Stores.before ?_ (.of_askSegment _ n)) (.of_evalFlags _ n)
  exact Stores.after (t := s.ungate) (.of_q (fun _ => rfl) rfl) (stores_of_wrBytes hwptr hrptr rfl hapart)

/-- A run that arrives at a stream queue is stored as it is planned. -/
theorem storePiece_stores (h : (s.q n).PlainStream) (hapart : (s.q n).apart ((s.q n).plan p.last p.bytes).bytes.length)
    (at_ : Arrival) : Stores n s (s.storePiece n at_ (p, true)) ((s.q n).plan p.last p.bytes).bytes := by
  have hq := arrives_q s n p
  have hbytes : (((s.arrives n p).q n).plan p.last p.bytes).bytes = ((s.q n).plan p.last p.bytes).bytes := by rw [hq]; rfl
  have hmsg : ((s.arrives n p).q n).wmsg = none := by rw [hq]; exact h.idle
  have hapart' : ((s.arrives n p).q n).apart (((s.arrives n p).q n).plan p.last p.bytes).bytes.length := by
    rw [hq]
    exact hapart
  have hwritten := Stores.after (.of_arrives s n p) (commit_stores hmsg hapart' p.last)
  rw [storePiece_of_stream h.stream, ← hbytes]
  dsimp only
  split
  · exact hwritten.before (.of_updQ _ n _)
  · exact hwritten

/-! ## What a burst brings a stream queue (Table BL-4 check 9) -/

/-- Decisions about messages that cannot come again are forgotten (R194). -/
def State.forgets (s : State) (n : Nat) (p : Piece) : State :=
  s.updQ n fun q => { q with decided := q.decided.filter fun d => [p].any fun p => p.msn == d.1 }

/-- The decision about a Kerbside message that is not taken is kept (R194). -/
def State.decides (s : State) (n : Nat) (p : Piece) : State :=
  s.updQ n fun q => { q with decided := if q.b.kerb then [(p.msn, true)] else q.decided }

theorem forgets_q (s : State) (n : Nat) (p : Piece) : (s.forgets n p).q n =
    { s.q n with decided := (s.q n).decided.filter fun d => [p].any fun p => p.msn == d.1 } :=
  (State.q_updQ _ _ _ _).trans (if_pos rfl)

theorem SameData.of_forgets (s : State) (n : Nat) (p : Piece) : SameData n s (s.forgets n p) := .of_updQ s n _

theorem SameData.of_decides (s : State) (n : Nat) (p : Piece) : SameData n s (s.decides n p) := .of_updQ s n _

theorem SameData.of_denySeg (s : State) (n : Nat) : SameData n s (s.denySeg n) := by
  have hq := denySeg_q s n
  exact ⟨by rw [hq], by rw [hq], by rw [hq], by rw [hq], by rw [hq], rfl, fun m hm => denySeg_other s hm⟩

theorem forgets_within (s : State) (n : Nat) (p : Piece) : Within 1 s (s.forgets n p) :=
  State.updQ_within n _ (Within.refl _ s) (Nat.or_self _)

theorem admitAll_of_express (h : (s.q n).b.kerb = false) : s.admitAll n 0 [p] = (s, [(p, true)]) := by
  simp [State.admitAll, State.admission, h]

theorem needFor_of_stream {q : Queue} (h : q.b.msgMode = false) : q.needFor [p] = (q.plan p.last p.bytes).needEnd := by
  simp [Queue.needFor, h]

/-- A run that begins at an Express stream queue asks for the room that its plan needs. -/
theorem acceptPieces_of_stream (hfirst : p.first = true) (h : (s.q n).PlainStream) (at_ : Arrival) :
    s.acceptPieces n at_ [p] =
      let need := ((s.q n).plan p.last p.bytes).needEnd
      let g := (s.forgets n p).growTo n need growFuel
      if need ≤ (g.q n).heldEnd then (true, (g.storePiece n at_ (p, true)).followRead n) else (false, g.decides n p) := by
  have hq := forgets_q s n p
  have hkerb : ((s.forgets n p).q n).b.kerb = false := by rw [hq]; exact h.express
  have hevict : (s.forgets n p).evictRoom n [p] = s.forgets n p := by simp [State.evictRoom, hkerb]
  have hneed : ((s.forgets n p).q n).needFor [p] = ((s.q n).plan p.last p.bytes).needEnd := by
    rw [hq, needFor_of_stream (by exact h.stream)]
    rfl
  unfold State.acceptPieces
  split
  · next hpiece _ => exact absurd (congrArg Piece.first (List.singleton_inj.mp hpiece)) (by rw [hfirst]; nofun)
  · rw [← hneed]
    dsimp only
    generalize hd : s.updQ n _ = d
    obtain rfl : s.forgets n p = d := hd
    rw [hevict, admitAll_of_express hkerb]
    simp only [List.filter, List.map, List.foldl, hkerb, Bool.false_eq_true, if_false]
    rfl

/-- Where its plan finds room, the run is taken, and stored unless the queue is a shadow, whose read point may move past it (R160). -/
theorem acceptPieces_stores (hfirst : p.first = true) (h : (s.q n).PlainStream) (hroom : (s.q n).hasRoom p.last p.bytes)
    (at_ : Arrival) : ∃ t, s.acceptPieces n at_ [p] = (true, t) ∧ Within 16911489 s t ∧
      ((s.q n).pair.shadow = false → Stores n s t ((s.q n).plan p.last p.bytes).bytes) := by
  have hq := forgets_q s n p
  have hplain : ((s.forgets n p).q n).PlainStream := by rw [hq]; exact ⟨h.stream, h.express, h.idle⟩
  obtain ⟨hheld, hapart⟩ : ((s.forgets n p).q n).hasRoom p.last p.bytes := by rw [hq]; exact hroom
  have hneed : (((s.forgets n p).q n).plan p.last p.bytes).needEnd = ((s.q n).plan p.last p.bytes).needEnd := by rw [hq]; rfl
  have hbytes : (((s.forgets n p).q n).plan p.last p.bytes).bytes = ((s.q n).plan p.last p.bytes).bytes := by rw [hq]; rfl
  have hw := storePiece_within_stream (p := p) hplain at_
  refine ⟨((s.forgets n p).storePiece n at_ (p, true)).followRead n, ?_, ?_, fun hshadow => ?_⟩
  · rw [hneed] at hheld
    rw [acceptPieces_of_stream hfirst h]
    dsimp only
    rw [growTo_of_held hheld, if_pos hheld]
  · exact State.followRead_within n (((forgets_within s n p).mono (by decide)).step hw (Nat.or_self _)) (by decide)
  · have hstores := Stores.after (.of_forgets s n p) (storePiece_stores hplain hapart at_)
    have hactive : ((s.forgets n p).storePiece n at_ (p, true)).followRead n = (s.forgets n p).storePiece n at_ (p, true) := by
      simp [State.followRead, hstores.pair, hshadow]
    rw [hactive, ← hbytes]
    exact hstores

/-- Without room, and with no segment to be had, the run is not taken. -/
theorem acceptPieces_waits (hfirst : p.first = true) (h : (s.q n).PlainStream)
    (hroom : (s.q n).heldEnd < ((s.q n).plan p.last p.bytes).needEnd) (hfull : (s.q n).b.maxSeg ≤ (s.q n).segs.length)
    (at_ : Arrival) : ∃ t, s.acceptPieces n at_ [p] = (false, t) ∧ Within 1 s t ∧ SameData n s t := by
  have hdenied := (SameData.of_forgets s n p).trans (.of_denySeg _ n)
  have hroom' : ((s.forgets n p).q n).heldEnd < ((s.q n).plan p.last p.bytes).needEnd := by
    rwa [(SameData.of_forgets s n p).heldEnd]
  have hfull' : ((s.forgets n p).q n).b.maxSeg ≤ ((s.forgets n p).q n).segs.length := by rw [forgets_q]; exact hfull
  refine ⟨((s.forgets n p).denySeg n).decides n p, ?_, ?_, hdenied.trans (.of_decides _ n p)⟩
  · rw [acceptPieces_of_stream hfirst h]
    dsimp only
    rw [growTo_of_full hroom' hfull', hdenied.heldEnd, if_neg (Nat.not_le.mpr hroom)]
  · exact State.updQ_within n _ (State.denySeg_within n (forgets_within s n p) (Nat.or_self _)) (Nat.or_self _)

end

end Sys2Proof.Machine
end

section
/-!
SUPPORT. A received burst at each check of Table BL-4 (R237 to R247): what it leaves of its link's counts and credit, and of its
queue.
-/
namespace Sys2Proof.Machine

/-! ## Reports and NAKs (R242, R251) -/

section
variable {s : State} {n : Nat}

theorem raiseLimited_link (code : Nat) (owner : Option Nat) (a b c : Nat) {α : Type} (p : Link → α)
    (hp : ∀ l e, p { l with lastErr := e } = p l := by intros; rfl) :
    p ((s.raiseLimited n code owner a b c).link n) = p (s.link n) := by
  unfold State.raiseLimited
  dsimp only
  split
  · have hraise := fun u : State => State.raise_within code owner a b c (Within.refl 19923136 u) (Nat.or_self _)
    rw [State.link_of_links ((hraise _).same .links (by decide)), State.link_updLink, if_pos rfl, hp]
  · rfl

/-- Only a fatal error freezes the datapath. -/
theorem raiseLimited_within_of_not_fatal {code : Nat} (owner : Option Nat) (a b c : Nat)
    (hcode : fatalCodes.contains code = false) : Within 18874500 s (s.raiseLimited n code owner a b c) := by
  unfold State.raiseLimited
  dsimp only
  refine Within.ite ?_ (Within.refl _ _)
  exact (State.updLink_within n _ (Within.refl _ s) (by decide)).step (raise_within_of_not_fatal _ owner a b c hcode) (by decide)

theorem refuse_of_express {qid : Nat} (h : (s.q qid).b.kerb = false) (why : NakReason) (hdr : BitVec 128) :
    s.refuse n qid why hdr = s := by
  simp [State.refuse, h]

/-- A NAK counts at its link, and otherwise sends a word. -/
theorem refuse_link (qid : Nat) (why : NakReason) (hdr : BitVec 128) {α : Type} (p : Link → α)
    (hp : ∀ l k, p { l with naks := k } = p l := by intros; rfl) : p ((s.refuse n qid why hdr).link n) = p (s.link n) := by
  unfold State.refuse State.nak
  dsimp only
  split
  · have hsend := fun (u : State) bytes => State.sendWord_within n bytes (Within.refl 16777216 u) (Nat.or_self _)
    rw [State.link_of_links ((hsend _ _).same .links (by decide)), State.link_updLink, if_pos rfl, hp]
    rfl
  · rfl

theorem SameData.of_refuse (s : State) (n qid : Nat) (why : NakReason) (hdr : BitVec 128) :
    SameData qid s (s.refuse n qid why hdr) := by
  unfold State.refuse State.nak
  dsimp only
  split
  · have hsend := fun (u : State) bytes => State.sendWord_within n bytes (Within.refl 16777216 u) (Nat.or_self _)
    have hlink := fun (u : State) f => State.updLink_within n f (Within.refl 4 u) (Nat.or_self _)
    refine SameData.trans (SameData.trans ?_ (.of_within (hlink _ _) (by decide))) (.of_within (hsend _ _) (by decide))
    exact .of_updQ s qid _
  · exact .of_q (fun _ => rfl) rfl

end

/-! ## Credit (R243, R246) -/

/-- What a burst costs (R243). -/
def Bh.cost (h : BitVec 128) : Nat := creditCost (Bh.len h) (Bh.sealBit h)

/-- A burst charged to its pair, and its credit returned. -/
def Credit.charged (c : Credit) (cost : Nat) : Credit :=
  { c with rxUsed := c.rxUsed + BitVec.ofNat 24 cost, outstanding := c.outstanding - cost }

theorem updLink_queues (s : State) (n : Nat) (f : Link → Link) : (s.updLink n f).queues = s.queues := rfl

theorem giveBack_queues (s : State) (n k cost : Nat) : (s.giveBack n k cost).queues = s.queues := rfl

theorem raiseLimited_queues (s : State) (n code : Nat) (owner : Option Nat) (a b c : Nat) :
    (s.raiseLimited n code owner a b c).queues = s.queues :=
  (State.raiseLimited_within n code owner a b c (Within.refl _ s) (Nat.or_self _)).same .queues (by decide)

theorem charge_link (s : State) (n k cost : Nat) : (s.charge n k cost).link n = (s.link n).setCredit k
    { (s.link n).credit k with rxUsed := ((s.link n).credit k).rxUsed + BitVec.ofNat 24 cost } := s.link_updCredit n k _

theorem giveBack_link (s : State) (n k cost : Nat) : (s.giveBack n k cost).link n =
    (s.link n).setCredit k { (s.link n).credit k with outstanding := ((s.link n).credit k).outstanding - cost } :=
  s.link_updCredit n k _

theorem giveBack_credit (s : State) (n k cost : Nat) : ((s.giveBack n k cost).link n).credit k =
    { (s.link n).credit k with outstanding := ((s.link n).credit k).outstanding - cost } := by
  rw [giveBack_link, Link.credit_setCredit_same]

/-- A burst within its credit, charged to its pair: a NAK of its queue is over. -/
def State.arrived (s : State) (n : Nat) (h : BitVec 128) : State :=
  (s.charge n (s.pairOf (Bh.qid h)) (Bh.cost h)).updQ (Bh.qid h) fun q => { q with nak := none }

section
variable {s : State} {n : Nat} {h : BitVec 128}

theorem arrived_link : (s.arrived n h).link n = (s.link n).setCredit (s.pairOf (Bh.qid h))
    { (s.link n).credit (s.pairOf (Bh.qid h)) with
      rxUsed := ((s.link n).credit (s.pairOf (Bh.qid h))).rxUsed + BitVec.ofNat 24 (Bh.cost h) } :=
  charge_link s n (s.pairOf (Bh.qid h)) (Bh.cost h)

theorem arrived_q (hnak : (s.q (Bh.qid h)).nak = none) (m : Nat) : (s.arrived n h).q m = s.q m := by
  rw [State.arrived, State.q_updQ]
  split
  · next hm =>
    subst hm
    show { s.q (Bh.qid h) with nak := none } = s.q (Bh.qid h)
    rw [← hnak]
  · rfl

theorem arrived_within (s : State) (n : Nat) (h : BitVec 128) : Within 5 s (s.arrived n h) :=
  State.updQ_within _ _ (State.charge_within n _ _ (Within.refl _ s) (by decide)) (by decide)

end

/-! ## Checks 7 to 9 -/

/-- The run that a burst that is not packed carries. -/
def Staged.piece (x : Staged) : Piece :=
  { msn := Bh.msn x.hdr, first := Bh.first x.hdr, last := Bh.last x.hdr, bytes := x.payload
    rt := if Bh.rt x.hdr then some (extend40 x.stamp (Bh.rtLo x.hdr)) else none }

section
variable {s u : State} {n : Nat} {x : Staged}

theorem tryBurst_of_refused (hkerb : (s.q (Bh.qid x.hdr)).b.kerb = false) (h : (s.q (Bh.qid x.hdr)).refuses = true) :
    s.tryBurst n x = (true, (s.updQ (Bh.qid x.hdr) fun q => { q with refusedCnt := inc32 q.refusedCnt }).giveBack n
      (s.pairOf (Bh.qid x.hdr)) x.cost) := by
  unfold State.tryBurst
  dsimp only
  rw [if_pos h, refuse_of_express]
  have hq := (s.q_updQ (Bh.qid x.hdr) (Bh.qid x.hdr) fun q => { q with refusedCnt := inc32 q.refusedCnt }).trans (if_pos rfl)
  exact (congrArg (fun q => q.b.kerb) hq).trans hkerb

/-- A FIRST burst for a stream queue that takes writes, and what the queue makes of the run that it carries. -/
structure State.Offers (s : State) (x : Staged) (taken : Bool) (u : State) : Prop where
  kind : Bh.kind x.hdr = 0
  first : Bh.first x.hdr = true
  plain : (s.q (Bh.qid x.hdr)).PlainStream
  open_ : (s.q (Bh.qid x.hdr)).refuses = false
  accepts : s.acceptPieces (Bh.qid x.hdr) x.arrival [x.piece] = (taken, u)

theorem tryBurst_of_taken (h : s.Offers x true u) : s.tryBurst n x = (true, u.giveBack n (s.pairOf (Bh.qid x.hdr)) x.cost) := by
  have haccepts : s.acceptPieces (Bh.qid x.hdr) x.arrival (burstPieces x.hdr x.payload x.stamp) = (true, u) := by
    rw [burstPieces, if_neg (by rw [h.kind]; decide)]
    exact h.accepts
  simp [State.tryBurst, h.open_, h.first, h.plain.stream, haccepts]

theorem tryBurst_of_waiting (h : s.Offers x false u) :
    s.tryBurst n x = (false, (u.evalFlags (Bh.qid x.hdr)).waitRoom (Bh.qid x.hdr)) := by
  have haccepts : s.acceptPieces (Bh.qid x.hdr) x.arrival (burstPieces x.hdr x.payload x.stamp) = (false, u) := by
    rw [burstPieces, if_neg (by rw [h.kind]; decide)]
    exact h.accepts
  simp [State.tryBurst, h.open_, h.first, h.plain.stream, h.plain.express, haccepts]

theorem finishChecks_of_done (hfirst : ((s.link n).staged.any fun y => Bh.qid y.hdr == Bh.qid x.hdr) = false)
    (h : s.tryBurst n x = (true, u)) : s.finishChecks n x = u := by
  simp [State.finishChecks, hfirst, h]

theorem finishChecks_of_waiting (hfirst : ((s.link n).staged.any fun y => Bh.qid y.hdr == Bh.qid x.hdr) = false)
    (h : s.tryBurst n x = (false, u)) : s.finishChecks n x = u.updLink n fun l => { l with staged := l.staged ++ [x] } := by
  simp [State.finishChecks, hfirst, h]

/-- The only burst in staging goes, and the marks behind it come into place. -/
theorem commitStaged_of_done (h : s.tryBurst n x = (true, u)) : s.commitStaged n [] [x] =
    x.marks.foldl (fun s m => s.writeMark (Bh.qid x.hdr) m) (u.updLink n fun l => { l with staged := [] }) := by
  simp [State.commitStaged, h]

end

/-! ## Checks 4 to 6 -/

/-- What check 9 is made of a burst with: its plaintext, and the stamp of its arrival. -/
def State.stages (s : State) (b : Burst) (payload : List Byte) : Staged :=
  { hdr := b.hdr, payload := payload, cost := Bh.cost b.hdr, stamp := (s.arrival (Bh.qid b.hdr)).stamp
    stamped := (s.arrival (Bh.qid b.hdr)).stamped, offset := (s.arrival (Bh.qid b.hdr)).offset }

/-- A burst that passes checks 1 to 3. -/
structure State.Routes (s : State) (n : Fin 8) (b : Burst) : Prop where
  live : s.linkLive n.val = true
  header : b.hdrErr = false
  hcs : hcsOk b.hdr = true
  legal : s.headerBad n.val b.hdr = false
  records : recordsBad b = false
  bound : (s.q (Bh.qid b.hdr)).st ≠ .unbound
  own : (s.q (Bh.qid b.hdr)).b.wend.isLink n.val = true

/-- A burst that passes check 4 as well, of an Express queue. -/
structure State.Admits (s : State) (n : Fin 8) (b : Burst) : Prop extends s.Routes n b where
  covered : Credit.covers ((s.link n.val).credit (s.pairOf (Bh.qid b.hdr))).limit
    ((s.link n.val).credit (s.pairOf (Bh.qid b.hdr))).rxUsed (Bh.cost b.hdr) = true
  nak : (s.q (Bh.qid b.hdr)).nak = none
  express : (s.q (Bh.qid b.hdr)).b.kerb = false

/-- A burst that passes check 5 as well. -/
structure IntactBurst (b : Burst) : Prop where
  payload : b.payErr = false
  length : b.payload.length = Bh.len b.hdr
  crc : burstCrc b.hdr b.payload b.tag = b.crc

/-- The state in which an admitted burst meets check 5. -/
def State.admitted (s : State) (n : Fin 8) (b : Burst) : State := (s.crossRx n.val (burstUnit b)).arrived n.val b.hdr

section
variable {s : State} {n : Fin 8} {b : Burst}

theorem crossRx_link (s : State) (n : Nat) (unit : List Byte) : (s.crossRx n unit).link n = { s.link n with
    rx := ((s.link n).rx.carry rxWindows (bytesAsWords (s.linkWord n) (padUnit unit))).2 } :=
  (s.link_updLink n n _).trans (if_pos rfl)

/-- The Crosswalk is no part of what the header is judged by. -/
theorem headerBad_crossRx (s : State) (n : Nat) (unit : List Byte) (h : BitVec 128) :
    (s.crossRx n unit).headerBad n h = s.headerBad n h := by
  unfold State.headerBad
  rw [crossRx_link]
  rfl

theorem rxBurst_of_bad_header (hlive : s.linkLive n.val = true) (hbad : b.hdrErr = true ∨ hcsOk b.hdr = false) :
    s.rxBurst n.val b =
      ((s.crossRx n.val (burstUnit b)).updLink n.val fun l => { l with hcse := inc32 l.hcse }).phyDown (.link n) := by
  have hheader : (b.hdrErr || !hcsOk b.hdr) = true := by rcases hbad with h | h <;> simp [h]
  simp [State.rxBurst, hlive, hheader]

theorem rxBurst_of_routed (h : s.Routes n b) : s.rxBurst n.val b = (s.crossRx n.val (burstUnit b)).rxRouted n.val b := by
  have hown : ((s.q (Bh.qid b.hdr)).st != .unbound && (s.q (Bh.qid b.hdr)).b.wend.isLink n.val) = true := by
    rw [h.own, bne_iff_ne.mpr h.bound]
    rfl
  unfold State.rxBurst
  dsimp only
  rw [h.live, h.header, h.hcs, headerBad_crossRx, h.legal, h.records, hown]
  rfl

theorem admitted_q (h : s.Admits n b) (m : Nat) : (s.admitted n b).q m = s.q m :=
  arrived_q (s := s.crossRx n.val (burstUnit b)) h.nak m

theorem admitted_pairOf (h : s.Admits n b) (qid : Nat) : (s.admitted n b).pairOf qid = s.pairOf qid := by
  rw [State.pairOf, admitted_q h]
  rfl

theorem admitted_link (s : State) (n : Fin 8) (b : Burst) : (s.admitted n b).link n.val =
    ((s.crossRx n.val (burstUnit b)).link n.val).setCredit (s.pairOf (Bh.qid b.hdr))
      { (s.link n.val).credit (s.pairOf (Bh.qid b.hdr)) with
        rxUsed := ((s.link n.val).credit (s.pairOf (Bh.qid b.hdr))).rxUsed + BitVec.ofNat 24 (Bh.cost b.hdr) } := by
  refine arrived_link.trans ?_
  rw [crossRx_link]
  rfl

/-- What is neither credit nor in the Crosswalk is at the link as it was. -/
theorem admitted_link_field (s : State) (n : Fin 8) (b : Burst) {α : Type} (p : Link → α)
    (hp : ∀ l cs rx, p { l with credits := cs, rx := rx } = p l := by intros; rfl) :
    p ((s.admitted n b).link n.val) = p (s.link n.val) := by
  rw [admitted_link, crossRx_link]
  exact hp (s.link n.val) _ _

theorem admitted_credit (s : State) (n : Fin 8) (b : Burst) :
    ((s.admitted n b).link n.val).credit (s.pairOf (Bh.qid b.hdr)) =
      { (s.link n.val).credit (s.pairOf (Bh.qid b.hdr)) with
        rxUsed := ((s.link n.val).credit (s.pairOf (Bh.qid b.hdr))).rxUsed + BitVec.ofNat 24 (Bh.cost b.hdr) } := by
  rw [admitted_link, Link.credit_setCredit_same]

theorem admitted_within (s : State) (n : Fin 8) (b : Burst) : Within 5 s (s.admitted n b) :=
  ((State.crossRx_within n.val _ (Within.refl 4 s) (Nat.or_self _)).mono (by decide)).step (arrived_within _ _ _) (by decide)

theorem admitted_openBurst (h : s.Admits n b) : (s.admitted n b).openBurst b = s.openBurst b := by
  unfold State.openBurst
  dsimp only
  rw [admitted_q h]

theorem admitted_arrival (h : s.Admits n b) (qid : Nat) : (s.admitted n b).arrival qid = s.arrival qid := by
  unfold State.arrival
  rw [admitted_q h]
  rfl

/-- A burst that its credit covers goes on to check 5. -/
theorem rxRouted_of_admitted (h : s.Admits n b) : (s.crossRx n.val (burstUnit b)).rxRouted n.val b =
    if b.payErr || b.payload.length != Bh.len b.hdr || burstCrc b.hdr b.payload b.tag != b.crc then
      ((s.admitted n b).updLink n.val fun l => { l with crce := inc32 l.crce }).giveBack n.val (s.pairOf (Bh.qid b.hdr))
        (Bh.cost b.hdr)
    else (s.openBurst b).elim
      ((((s.admitted n b).updLink n.val fun l => { l with seale := inc32 l.seale }).giveBack n.val
        (s.pairOf (Bh.qid b.hdr)) (Bh.cost b.hdr)).raiseLimited n.val 0x301 (some (ownerOf (Bh.qid b.hdr))) n.val
        (Bh.qid b.hdr) (Bh.epoch b.hdr))
      fun payload => ((s.admitted n b).countSealedIn b).finishChecks n.val (s.stages b payload) := by
  let a := s.crossRx n.val (burstUnit b)
  have hcovered : Credit.covers ((a.link n.val).credit (a.pairOf (Bh.qid b.hdr))).limit
      ((a.link n.val).credit (a.pairOf (Bh.qid b.hdr))).rxUsed (Bh.cost b.hdr) = true := by
    rw [crossRx_link]
    exact h.covered
  have hfresh : ((a.charge n.val (a.pairOf (Bh.qid b.hdr)) (Bh.cost b.hdr)).q (Bh.qid b.hdr)).nakDiscards b.hdr = false := by
    show (s.q (Bh.qid b.hdr)).nakDiscards b.hdr = false
    simp [Queue.nakDiscards, h.nak]
  have hrefuse : ∀ u : State, u.queues = (s.admitted n b).queues → ∀ why,
      u.refuse n.val (Bh.qid b.hdr) why b.hdr = u := fun u hu why => by
    refine refuse_of_express ?_ why b.hdr
    rw [State.q, hu, ← State.q, admitted_q h, h.express]
  unfold Bh.cost at hcovered hfresh
  unfold State.rxRouted
  dsimp only
  rw [if_neg (by rw [hcovered]; nofun), if_neg (by rw [hfresh]; nofun)]
  generalize hc : State.updQ _ _ _ = c
  obtain rfl : s.admitted n b = c := hc
  have hpair : (s.crossRx n.val (burstUnit b)).pairOf (Bh.qid b.hdr) = s.pairOf (Bh.qid b.hdr) := rfl
  rw [admitted_openBurst h, admitted_arrival h, hpair, show creditCost (Bh.len b.hdr) (Bh.sealBit b.hdr) = Bh.cost b.hdr from rfl]
  split
  · exact hrefuse _ ((giveBack_queues _ _ _ _).trans (updLink_queues _ _ _)) .crc
  · cases s.openBurst b with
    | none =>
      rw [Option.elim_none]
      refine hrefuse _ ?_ .sealFail
      exact (raiseLimited_queues _ _ _ _ _ _ _).trans ((giveBack_queues _ _ _ _).trans (updLink_queues _ _ _))
    | some payload =>
      rw [Option.elim_some]
      rfl

end

end Sys2Proof.Machine
end

section
/-!
SUPPORT. The outcomes of a received burst (Table BL-4), and the statement about them.
-/
namespace Sys2Proof.Machine

/-! ## Checks 1 to 4 -/

section
variable {s : State} {n : Nat}

theorem rxReject_rxrej (s : State) (n code : Nat) (h : BitVec 128) :
    ((s.rxReject n code h).link n).rxrej = inc32 (s.link n).rxrej := by
  unfold State.rxReject
  dsimp only
  rw [raiseLimited_link code none n (Bh.qid h) (fld h 0 32) Link.rxrej, State.link_updLink, if_pos rfl]
  split
  · rfl
  · rw [giveBack_link, charge_link]
    rfl

theorem rxReject_within_of_not_fatal {code : Nat} (hcode : fatalCodes.contains code = false) (h : BitVec 128) :
    Within 18874500 s (s.rxReject n code h) := by
  have hcredit : ∀ u : State, Within 18874500 s u → Within 18874500 s (u.updLink n bumpRej) := fun u hu =>
    State.updLink_within n _ hu (by decide)
  have hraise := fun u : State => raiseLimited_within_of_not_fatal (s := u) (n := n) none n (Bh.qid h) (fld h 0 32) hcode
  unfold State.rxReject
  dsimp only
  refine (hcredit _ ?_).step (hraise _) (Nat.or_self _)
  exact Within.ite (Within.refl _ s)
    (State.giveBack_within n _ _ (State.charge_within n _ _ (Within.refl _ s) (by decide)) (by decide))

end

section
variable {s : State} {n : Fin 8} {b : Burst}

/-- A burst that fails check 2 or 3 is rejected under a code that is not fatal, and may be answered with a NAK. -/
theorem rxBurst_of_rejected (hlive : s.linkLive n.val = true) (hheader : b.hdrErr = false) (hhcs : hcsOk b.hdr = true)
    (hbad : s.headerBad n.val b.hdr = true ∨ (s.q (Bh.qid b.hdr)).st = .unbound ∨
      (s.q (Bh.qid b.hdr)).b.wend.isLink n.val = false) :
    ∃ code, fatalCodes.contains code = false ∧
      (s.rxBurst n.val b = (s.crossRx n.val (burstUnit b)).rxReject n.val code b.hdr ∨
        s.rxBurst n.val b = ((s.crossRx n.val (burstUnit b)).rxReject n.val code b.hdr).refuse n.val (Bh.qid b.hdr)
          .malformed b.hdr) := by
  have hforeign : s.headerBad n.val b.hdr = true ∨
      ((s.q (Bh.qid b.hdr)).st != .unbound && (s.q (Bh.qid b.hdr)).b.wend.isLink n.val) = false := by
    rcases hbad with h | h | h
    · exact .inl h
    · exact .inr (by rw [h]; rfl)
    · exact .inr (by rw [h, Bool.and_false])
  unfold State.rxBurst
  simp only [hlive, hheader, hhcs, headerBad_crossRx, Bool.not_true, Bool.or_false, Bool.false_eq_true, if_false]
  split
  · split
    · exact ⟨0x203, by decide, .inl rfl⟩
    · exact ⟨0x203, by decide, .inr rfl⟩
  · next hrecords =>
    have hmine := hforeign.resolve_left fun h => hrecords (by rw [h]; rfl)
    rw [hmine, if_pos (by rfl)]
    exact ⟨0x204, by decide, .inl rfl⟩

/-- What a rejected burst leaves: it counts, and no byte is stored. -/
theorem rxBurst_rejects (hlive : s.linkLive n.val = true) (hheader : b.hdrErr = false) (hhcs : hcsOk b.hdr = true)
    (hbad : s.headerBad n.val b.hdr = true ∨ (s.q (Bh.qid b.hdr)).st = .unbound ∨
      (s.q (Bh.qid b.hdr)).b.wend.isLink n.val = false) :
    ((s.rxBurst n.val b).link n.val).rxrej = inc32 (s.link n.val).rxrej ∧
      SameData (Bh.qid b.hdr) s (s.rxBurst n.val b) ∧ Within 18874501 s (s.rxBurst n.val b) := by
  obtain ⟨code, hcode, hout⟩ := rxBurst_of_rejected hlive hheader hhcs hbad
  let r := (s.crossRx n.val (burstUnit b)).rxReject n.val code b.hdr
  have hcount : (r.link n.val).rxrej = inc32 (s.link n.val).rxrej := by rw [rxReject_rxrej, crossRx_link]
  have hw : Within 18874501 s r := (State.crossRx_within n.val _ (Within.refl _ s) (by decide)).step
    (rxReject_within_of_not_fatal hcode b.hdr) (by decide)
  have hcrossed : SameData (Bh.qid b.hdr) s (s.crossRx n.val (burstUnit b)) := .of_q (fun _ => rfl) rfl
  have hsame : SameData (Bh.qid b.hdr) s r :=
    hcrossed.trans (.of_within (M := 18874500) (rxReject_within_of_not_fatal hcode b.hdr) (by decide))
  rcases hout with hout | hout <;> rw [hout]
  · exact ⟨hcount, hsame, hw⟩
  · exact ⟨(refuse_link _ _ _ Link.rxrej).trans hcount, hsame.trans (.of_refuse _ _ _ _ _),
      State.refuse_within n.val _ _ _ hw (by decide)⟩

/-- A burst beyond its credit counts, and neither its queue nor its credit changes. -/
theorem rxBurst_beyond_credit (h : s.Routes n b)
    (hcredit : Credit.covers ((s.link n.val).credit (s.pairOf (Bh.qid b.hdr))).limit
      ((s.link n.val).credit (s.pairOf (Bh.qid b.hdr))).rxUsed (Bh.cost b.hdr) = false) :
    ((s.rxBurst n.val b).link n.val).rxrej = inc32 (s.link n.val).rxrej ∧
      ((s.rxBurst n.val b).link n.val).credit (s.pairOf (Bh.qid b.hdr)) = (s.link n.val).credit (s.pairOf (Bh.qid b.hdr)) ∧
      Within 19923140 s (s.rxBurst n.val b) := by
  let a := s.crossRx n.val (burstUnit b)
  have hbeyond : Credit.covers ((a.link n.val).credit (a.pairOf (Bh.qid b.hdr))).limit
      ((a.link n.val).credit (a.pairOf (Bh.qid b.hdr))).rxUsed (creditCost (Bh.len b.hdr) (Bh.sealBit b.hdr)) = false := by
    rw [crossRx_link]
    exact hcredit
  have hlink : (a.updLink n.val bumpRej).link n.val = bumpRej (a.link n.val) := (a.link_updLink _ _ _).trans (if_pos rfl)
  have hout : s.rxBurst n.val b = _ := (rxBurst_of_routed h).trans (if_pos (by rw [hbeyond]; rfl))
  rw [hout]
  refine ⟨(raiseLimited_link _ _ _ _ _ Link.rxrej).trans ?_,
    (raiseLimited_link _ _ _ _ _ fun l => l.credit (s.pairOf (Bh.qid b.hdr))).trans ?_, ?_⟩
  · rw [hlink, crossRx_link]
    rfl
  · rw [hlink, crossRx_link]
    rfl
  · exact State.raiseLimited_within _ _ _ _ _ _ (State.updLink_within _ _ (State.crossRx_within _ _ (Within.refl _ s) (by decide))
      (by decide)) (by decide)

end

/-! ## Checks 5 and 6 -/

/-- An admitted burst that is discarded: its link counts it by `f`, and its credit returns. -/
def State.returned (s : State) (n : Fin 8) (b : Burst) (f : Link → Link) : State :=
  ((s.admitted n b).updLink n.val f).giveBack n.val (s.pairOf (Bh.qid b.hdr)) (Bh.cost b.hdr)

/-- From `s` to `t` a burst is discarded: its credit returns, and nothing is stored. -/
structure Discards (n : Fin 8) (b : Burst) (s t : State) : Prop where
  credit : (t.link n.val).credit (s.pairOf (Bh.qid b.hdr)) =
    ((s.link n.val).credit (s.pairOf (Bh.qid b.hdr))).charged (Bh.cost b.hdr)
  plaza : t.plaza = s.plaza
  wptr : (t.q (Bh.qid b.hdr)).wptr = (s.q (Bh.qid b.hdr)).wptr

section
variable {s : State} {n : Fin 8} {b : Burst} {f : Link → Link}

theorem admitted_sameData (h : s.Admits n b) : SameData (Bh.qid b.hdr) s (s.admitted n b) :=
  .of_q (admitted_q h) ((admitted_within s n b).same .mem (by decide))

theorem link_updQ (s : State) (m : Nat) (f : Queue → Queue) (l : Nat) : (s.updQ m f).link l = s.link l := rfl

theorem stages_hdr (s : State) (b : Burst) (payload : List Byte) : (s.stages b payload).hdr = b.hdr := rfl

theorem updLink_q (s : State) (n m : Nat) (f : Link → Link) : (s.updLink n f).q m = s.q m := rfl

theorem giveBack_q (s : State) (n k cost m : Nat) : (s.giveBack n k cost).q m = s.q m := rfl

/-- After the credit has returned the pair is as charged. -/
theorem giveBack_admitted_credit {u : State} (hu : (u.link n.val).credits = ((s.admitted n b).link n.val).credits) :
    ((u.giveBack n.val (s.pairOf (Bh.qid b.hdr)) (Bh.cost b.hdr)).link n.val).credit (s.pairOf (Bh.qid b.hdr)) =
      ((s.link n.val).credit (s.pairOf (Bh.qid b.hdr))).charged (Bh.cost b.hdr) := by
  have hcredit : (u.link n.val).credit (s.pairOf (Bh.qid b.hdr)) =
      ((s.admitted n b).link n.val).credit (s.pairOf (Bh.qid b.hdr)) := by rw [Link.credit, hu, ← Link.credit]
  rw [giveBack_credit, hcredit, admitted_credit]
  rfl

theorem returned_discards (h : s.Admits n b) (hf : ∀ l, (f l).credits = l.credits := by intro l; rfl) :
    Discards n b s (s.returned n b f) where
  credit := giveBack_admitted_credit (by rw [State.link_updLink, if_pos rfl, hf])
  plaza := by
    have hwithin := State.updLink_within n.val f (admitted_within s n b) (Nat.or_self 5)
    exact (State.giveBack_within _ _ _ hwithin (by decide)).same .plaza (by decide)
  wptr := by rw [State.returned, giveBack_q, updLink_q, admitted_q h]

theorem returned_link (s : State) (n : Fin 8) (b : Burst) (f : Link → Link) {α : Type} (p : Link → α)
    (hp : ∀ l cs, p { l with credits := cs } = p l := by intros; rfl) :
    p ((s.returned n b f).link n.val) = p (f ((s.admitted n b).link n.val)) := by
  rw [State.returned, giveBack_link, State.link_updLink, if_pos rfl]
  exact hp (f ((s.admitted n b).link n.val)) _

/-- Check 5: a damaged burst counts in CRCE. -/
theorem rxBurst_damaged (h : s.Admits n b)
    (hbad : b.payErr = true ∨ b.payload.length ≠ Bh.len b.hdr ∨ burstCrc b.hdr b.payload b.tag ≠ b.crc) :
    ((s.rxBurst n.val b).link n.val).crce = inc32 (s.link n.val).crce ∧ Discards n b s (s.rxBurst n.val b) := by
  have hdamaged : (b.payErr || b.payload.length != Bh.len b.hdr || burstCrc b.hdr b.payload b.tag != b.crc) = true := by
    rcases hbad with h | h | h <;> simp [h]
  have hout : s.rxBurst n.val b = s.returned n b fun l => { l with crce := inc32 l.crce } := by
    rw [rxBurst_of_routed h.toRoutes, rxRouted_of_admitted h, if_pos hdamaged]
    rfl
  rw [hout]
  refine ⟨(returned_link s n b _ Link.crce).trans ?_, returned_discards h⟩
  exact congrArg inc32 (admitted_link_field s n b Link.crce)

theorem not_damaged (h : IntactBurst b) :
    ¬ (b.payErr || b.payload.length != Bh.len b.hdr || burstCrc b.hdr b.payload b.tag != b.crc) = true := by
  simp [h.payload, h.length, h.crc]

/-- Check 6: a burst that does not open counts in SEALE. -/
theorem rxBurst_unopened (h : s.Admits n b) (hintact : IntactBurst b) (hopen : s.openBurst b = none) :
    ((s.rxBurst n.val b).link n.val).seale = inc32 (s.link n.val).seale ∧ Discards n b s (s.rxBurst n.val b) := by
  let r := s.returned n b fun l => { l with seale := inc32 l.seale }
  have hout : s.rxBurst n.val b =
      r.raiseLimited n.val 0x301 (some (ownerOf (Bh.qid b.hdr))) n.val (Bh.qid b.hdr) (Bh.epoch b.hdr) := by
    rw [rxBurst_of_routed h.toRoutes, rxRouted_of_admitted h, if_neg (not_damaged hintact), hopen, Option.elim_none]
    rfl
  have hraise := State.raiseLimited_within n.val 0x301 (some (ownerOf (Bh.qid b.hdr))) n.val (Bh.qid b.hdr) (Bh.epoch b.hdr)
    (Within.refl _ r) (Nat.or_self _)
  have hdiscards : Discards n b s r := returned_discards h
  rw [hout]
  refine ⟨(raiseLimited_link _ _ _ _ _ Link.seale).trans ?_,
    (raiseLimited_link _ _ _ _ _ fun l => l.credit (s.pairOf (Bh.qid b.hdr))).trans hdiscards.credit,
    (hraise.same .plaza (by decide)).trans hdiscards.plaza,
    (congrArg Queue.wptr (State.q_of_within hraise (by decide) _)).trans hdiscards.wptr⟩
  refine (returned_link s n b _ Link.seale).trans ?_
  exact congrArg inc32 (admitted_link_field s n b Link.seale)

/-- A burst of a plain queue goes on to check 7 as it came. -/
theorem rxBurst_of_plain (h : s.Admits n b) (hintact : IntactBurst b) (hseal : (s.q (Bh.qid b.hdr)).b.sealedQ = false)
    (hbit : Bh.sealBit b.hdr = false) :
    s.rxBurst n.val b = (s.admitted n b).finishChecks n.val (s.stages b b.payload) := by
  have hopen : s.openBurst b = some b.payload := by simp [State.openBurst, hseal, hbit]
  have hcount : (s.admitted n b).countSealedIn b = s.admitted n b := by
    unfold State.countSealedIn
    dsimp only
    rw [admitted_q h, hseal]
    rfl
  rw [rxBurst_of_routed h.toRoutes, rxRouted_of_admitted h, if_neg (not_damaged hintact), hopen, Option.elim_some, hcount]

end

/-! ## Checks 7 to 9 of a plain stream burst -/

section
variable {s u : State} {n : Fin 8} {b : Burst}

/-- An intact FIRST burst of a plain stream queue, with no burst of its queue in staging. -/
structure State.Streams (s : State) (n : Fin 8) (b : Burst) : Prop extends s.Admits n b, IntactBurst b where
  unsealed : (s.q (Bh.qid b.hdr)).b.sealedQ = false
  sealBit : Bh.sealBit b.hdr = false
  kind : Bh.kind b.hdr = 0
  first : Bh.first b.hdr = true
  stream : (s.q (Bh.qid b.hdr)).b.msgMode = false
  alone : ((s.link n.val).staged.any fun y => Bh.qid y.hdr == Bh.qid b.hdr) = false

theorem State.Streams.finishes (h : s.Streams n b) :
    s.rxBurst n.val b = (s.admitted n b).finishChecks n.val (s.stages b b.payload) ∧
      (((s.admitted n b).link n.val).staged.any fun y => Bh.qid y.hdr == Bh.qid (s.stages b b.payload).hdr) = false :=
  ⟨rxBurst_of_plain h.toAdmits h.toIntactBurst h.unsealed h.sealBit, by rw [admitted_link_field s n b Link.staged]; exact h.alone⟩

/-- A queue that refuses data counts the burst. -/
theorem rxBurst_refused (h : s.Streams n b) (hrefuses : (s.q (Bh.qid b.hdr)).refuses = true) :
    ((s.rxBurst n.val b).q (Bh.qid b.hdr)).refusedCnt = inc32 (s.q (Bh.qid b.hdr)).refusedCnt ∧
      Discards n b s (s.rxBurst n.val b) := by
  obtain ⟨hout, halone⟩ := h.finishes
  have hq := admitted_q h.toAdmits (Bh.qid b.hdr)
  have htry := tryBurst_of_refused (s := s.admitted n b) (n := n.val) (x := s.stages b b.payload)
    (by exact (congrArg (fun q => q.b.kerb) hq).trans h.express) (by exact (congrArg Queue.refuses hq).trans hrefuses)
  rw [hout, finishChecks_of_done halone htry, stages_hdr, admitted_pairOf h.toAdmits]
  have hwithin := State.updQ_within (Bh.qid b.hdr) (fun q => { q with refusedCnt := inc32 q.refusedCnt }) (admitted_within s n b)
    (Nat.or_self 5)
  refine ⟨?_, giveBack_admitted_credit (congrArg Link.credits (link_updQ _ _ _ _)),
    (State.giveBack_within _ _ _ hwithin (by decide)).same .plaza (by decide), ?_⟩
  · rw [giveBack_q, State.q_updQ, if_pos rfl, hq]
  · rw [giveBack_q, State.q_updQ, if_pos rfl, hq]

/-- A burst that the queue takes is offered to it as it came. -/
theorem State.Streams.offers (h : s.Streams n b) (hrefuses : (s.q (Bh.qid b.hdr)).refuses = false)
    (hmsg : (s.q (Bh.qid b.hdr)).wmsg = none) {taken : Bool}
    (haccepts : (s.admitted n b).acceptPieces (Bh.qid b.hdr) (s.stages b b.payload).arrival [(s.stages b b.payload).piece] =
      (taken, u)) : (s.admitted n b).Offers (s.stages b b.payload) taken u where
  kind := h.kind
  first := h.first
  plain := by
    show ((s.admitted n b).q (Bh.qid b.hdr)).PlainStream
    rw [admitted_q h.toAdmits]
    exact ⟨h.stream, h.express, hmsg⟩
  open_ := by
    show ((s.admitted n b).q (Bh.qid b.hdr)).refuses = false
    rw [admitted_q h.toAdmits, hrefuses]
  accepts := haccepts

/-- A burst that finds room is stored, and its credit returns. -/
theorem rxBurst_stored (h : s.Streams n b) (hrefuses : (s.q (Bh.qid b.hdr)).refuses = false)
    (hmsg : (s.q (Bh.qid b.hdr)).wmsg = none) (hroom : (s.q (Bh.qid b.hdr)).hasRoom (Bh.last b.hdr) b.payload) :
    ((s.rxBurst n.val b).link n.val).credit (s.pairOf (Bh.qid b.hdr)) =
        ((s.link n.val).credit (s.pairOf (Bh.qid b.hdr))).charged (Bh.cost b.hdr) ∧
      ((s.q (Bh.qid b.hdr)).pair.shadow = false →
        Stores (Bh.qid b.hdr) s (s.rxBurst n.val b) ((s.q (Bh.qid b.hdr)).plan (Bh.last b.hdr) b.payload).bytes) ∧
      Within 16911493 s (s.rxBurst n.val b) := by
  obtain ⟨hout, halone⟩ := h.finishes
  have hq := admitted_q h.toAdmits (Bh.qid b.hdr)
  obtain ⟨u, haccepts, hw, hstores⟩ := acceptPieces_stores (s := s.admitted n b) (n := Bh.qid b.hdr)
    (p := (s.stages b b.payload).piece) h.first (by rw [hq]; exact ⟨h.stream, h.express, hmsg⟩) (by rw [hq]; exact hroom)
    (s.stages b b.payload).arrival
  rw [hout, finishChecks_of_done halone (tryBurst_of_taken (h.offers hrefuses hmsg haccepts)), admitted_pairOf h.toAdmits]
  rw [hq] at hstores
  refine ⟨giveBack_admitted_credit ?_, fun hshadow => ?_, ?_⟩
  · rw [State.link_of_links (hw.same .links (by decide))]
  · refine Stores.before (Stores.after (admitted_sameData h.toAdmits) (hstores hshadow)) ?_
    exact .of_within (State.giveBack_within _ _ _ (Within.refl 4 u) (Nat.or_self _)) (by decide)
  · exact State.giveBack_within _ _ _ (((admitted_within s n b).mono (by decide)).step hw (by decide)) (by decide)

/-- A burst that finds none waits in staging, and keeps its credit. -/
theorem rxBurst_waits (h : s.Streams n b) (hrefuses : (s.q (Bh.qid b.hdr)).refuses = false)
    (hmsg : (s.q (Bh.qid b.hdr)).wmsg = none)
    (hroom : (s.q (Bh.qid b.hdr)).heldEnd < ((s.q (Bh.qid b.hdr)).plan (Bh.last b.hdr) b.payload).needEnd)
    (hfull : (s.q (Bh.qid b.hdr)).b.maxSeg ≤ (s.q (Bh.qid b.hdr)).segs.length) :
    ((s.rxBurst n.val b).q (Bh.qid b.hdr)).needRoom = true ∧
      ((s.rxBurst n.val b).q (Bh.qid b.hdr)).wptr = (s.q (Bh.qid b.hdr)).wptr ∧
      (((s.rxBurst n.val b).link n.val).credit (s.pairOf (Bh.qid b.hdr))).outstanding =
        ((s.link n.val).credit (s.pairOf (Bh.qid b.hdr))).outstanding ∧
      ((s.rxBurst n.val b).link n.val).staged = (s.link n.val).staged ++ [s.stages b b.payload] ∧
      (s.rxBurst n.val b).plaza = s.plaza := by
  obtain ⟨hout, halone⟩ := h.finishes
  have hq := admitted_q h.toAdmits (Bh.qid b.hdr)
  obtain ⟨u, haccepts, hw, hsame⟩ := acceptPieces_waits (s := s.admitted n b) (n := Bh.qid b.hdr)
    (p := (s.stages b b.payload).piece) h.first (by rw [hq]; exact ⟨h.stream, h.express, hmsg⟩) (by rw [hq]; exact hroom)
    (by rw [hq]; exact hfull) (s.stages b b.payload).arrival
  let w := (u.evalFlags (Bh.qid b.hdr)).waitRoom (Bh.qid b.hdr)
  have hwaits : Within 16777349 s w := State.waitRoom_within _ (State.evalFlags_within _
    (((admitted_within s n b).mono (by decide)).step hw (by decide)) (by decide)) (by decide)
  have hafter : Within 16777345 (s.admitted n b) w :=
    State.waitRoom_within _ (State.evalFlags_within _ (hw.mono (by decide)) (by decide)) (by decide)
  have hlinks : w.links = (s.admitted n b).links := hafter.same .links (by decide)
  have hlink : (w.updLink n.val fun l => { l with staged := l.staged ++ [s.stages b b.payload] }).link n.val =
      { (s.admitted n b).link n.val with staged := ((s.admitted n b).link n.val).staged ++ [s.stages b b.payload] } := by
    rw [State.link_updLink, if_pos rfl, State.link_of_links hlinks]
  have hdata : SameData (Bh.qid b.hdr) s w :=
    (((admitted_sameData h.toAdmits).trans hsame).trans (.of_evalFlags u (Bh.qid b.hdr))).trans (.of_updQ _ _ _)
  have hneed : (w.q (Bh.qid b.hdr)).needRoom = true := by
    rw [show w = (u.evalFlags (Bh.qid b.hdr)).waitRoom (Bh.qid b.hdr) from rfl, State.waitRoom, State.q_updQ, if_pos rfl]
  have hleaves : s.rxBurst n.val b = w.updLink n.val fun l => { l with staged := l.staged ++ [s.stages b b.payload] } :=
    hout.trans (finishChecks_of_waiting halone (tryBurst_of_waiting (h.offers hrefuses hmsg haccepts)))
  rw [hleaves]
  refine ⟨hneed, hdata.wptr, ?_, ?_, hwaits.same .plaza (by decide)⟩
  · rw [hlink]
    exact (congrArg Credit.outstanding (admitted_credit s n b) :)
  · rw [hlink]
    exact congrArg (· ++ _) (admitted_link_field s n b Link.staged)

end

end Sys2Proof.Machine
end

section
/-!
SUPPORT. A burst in staging that finds room, the counts that come with a burst, and the statement about bursts.
-/
namespace Sys2Proof.Machine

section
variable {s : State} {n : Fin 8}

theorem execStagedBurstCommit_eq {x : Staged} (hlive : s.errs.frozen = false) (hx : (s.link n.val).staged = [x]) :
    exec (.stagedBurstCommit n) s = .next (s.commitStaged n.val [] [x]) := by
  rw [← hx]
  exact congrArg Host.Outcome.next (if_neg (by rw [hlive]; nofun))

theorem execBurstReceive_eq {s0 : State} {lanes : LaneCounts} (b : Burst) (hlive : s0.linkLive n.val = true)
    (hcount : s0.countLanes (.link n) lanes = s) : exec (.burstReceive n ⟨b, lanes⟩) s0 = .next (s.rxBurst n.val b) := by
  rw [← hcount]
  exact congrArg Host.Outcome.next (if_pos hlive)

/-- Once there is room, the only burst in staging is stored and its credit returns, before its marks are placed. -/
theorem stagedBurstCommit_stores {x : Staged} (hlive : s.errs.frozen = false) (hx : (s.link n.val).staged = [x])
    (hkind : Bh.kind x.hdr = 0) (hfirst : Bh.first x.hdr = true) (hplain : (s.q (Bh.qid x.hdr)).PlainStream)
    (hopen : (s.q (Bh.qid x.hdr)).refuses = false) (hroom : (s.q (Bh.qid x.hdr)).hasRoom (Bh.last x.hdr) x.payload) :
    ∃ t, exec (.stagedBurstCommit n) s = .next (x.marks.foldl (fun s m => s.writeMark (Bh.qid x.hdr) m) t) ∧
      ((s.q (Bh.qid x.hdr)).pair.shadow = false →
        Stores (Bh.qid x.hdr) s t ((s.q (Bh.qid x.hdr)).plan (Bh.last x.hdr) x.payload).bytes) ∧
      (t.link n.val).staged = [] ∧
      ((t.link n.val).credit (s.pairOf (Bh.qid x.hdr))).outstanding =
        ((s.link n.val).credit (s.pairOf (Bh.qid x.hdr))).outstanding - x.cost := by
  obtain ⟨u, haccepts, hw, hstores⟩ := acceptPieces_stores (p := x.piece) hfirst hplain hroom x.arrival
  let v := u.giveBack n.val (s.pairOf (Bh.qid x.hdr)) x.cost
  have hdone : s.tryBurst n.val x = (true, v) := tryBurst_of_taken ⟨hkind, hfirst, hplain, hopen, haccepts⟩
  have hlink : (v.updLink n.val fun l => { l with staged := [] }).link n.val = { v.link n.val with staged := [] } :=
    (v.link_updLink _ _ _).trans (if_pos rfl)
  have hafter : Within 4 u (v.updLink n.val fun l => { l with staged := [] }) :=
    State.updLink_within _ _ (State.giveBack_within _ _ _ (Within.refl 4 u) (Nat.or_self _)) (Nat.or_self _)
  have hcredit : (v.link n.val).credit (s.pairOf (Bh.qid x.hdr)) = _ := giveBack_credit u n.val _ x.cost
  refine ⟨v.updLink n.val fun l => { l with staged := [] }, ?_, fun hshadow => ?_, ?_, ?_⟩
  · rw [execStagedBurstCommit_eq hlive hx, commitStaged_of_done hdone]
  · exact (hstores hshadow).before (.of_within hafter (by decide))
  · rw [hlink]
  · rw [hlink]
    refine (congrArg Credit.outstanding hcredit).trans ?_
    rw [State.link_of_links (hw.same .links (by decide))]

end

/-- Settles O54: the counts come first, checks 1 to 4 either end the burst or pass it on, an admitted burst is damaged, does not
open or is plain, and a plain one is refused, stored (`acceptPieces_stores`) or waits. -/
theorem burstsAreCheckedAndStored : Obligations.BurstsAreCheckedAndStored := by
  unfold Obligations.BurstsAreCheckedAndStored
  intro s n b hlive h qid k cost q at_ stores fits
  refine ⟨fun s0 lanes hlive0 hcount => ?_, ?staged⟩
  case staged =>
    intro x hfrozen hx hstaged hkind hfirst hmode hkerb hopen hmsg hroom
    have hqid : Bh.qid x.hdr = qid := congrArg Bh.qid hx
    obtain ⟨t, hout, hstores, hempty, hcredit⟩ := stagedBurstCommit_stores hfrozen hstaged (hx ▸ hkind) (hx ▸ hfirst)
      (by rw [hqid]; exact ⟨hmode, hkerb, hmsg⟩) (by rw [hqid]; exact hopen) (by rw [hqid, hx]; exact hroom)
    rw [hqid] at hout hstores hcredit
    rw [hx] at hstores
    refine ⟨t, hout, fun hshadow => ?_, hempty, hcredit⟩
    have hdata := hstores hshadow
    exact ⟨hdata.wptr, hdata.rptr, hdata.stored, hdata.kept, hdata.other⟩
  rw [execBurstReceive_eq b hlive0 hcount]
  refine ⟨⟨?_, ?_⟩, fun hbad => ?_, fun hheader hhcs => ⟨fun hbad => ?rejects, fun hlegal hrecords hbound hown => ?routed⟩⟩
  · rw [← hcount]
    exact State.phy_updPhy_same s0 (.link n) _
  · rw [← hcount]
    exact keeps_of_mask (onLink_updPhy s0 n _).within (by decide)
  · rw [rxBurst_of_bad_header hlive hbad]
  case rejects =>
    obtain ⟨hcnt, hsame, hw⟩ := rxBurst_rejects hlive hheader hhcs hbad
    exact ⟨_, rfl, hcnt, hsame.mem, hsame.wptr, keeps_of_mask hw (by decide)⟩
  have hroutes : s.Routes n b := ⟨hlive, hheader, hhcs, hlegal, hrecords, hbound, hown⟩
  refine ⟨fun hbeyond => ?beyond, fun hcovered hnak hexpress => ?admitted⟩
  case beyond =>
    obtain ⟨hcnt, hcredit, hw⟩ := rxBurst_beyond_credit hroutes hbeyond
    exact ⟨_, rfl, hcnt, hcredit, hw.same .queues (by decide), hw.same .plaza (by decide)⟩
  have hadmits : s.Admits n b := ⟨hroutes, hcovered, hnak, hexpress⟩
  intro charged
  refine ⟨fun hdamaged => ?damaged, fun hpay hlen hcrc => ⟨fun hclosed => ?unopened, ?streams⟩⟩
  case damaged =>
    obtain ⟨hcnt, hd⟩ := rxBurst_damaged hadmits hdamaged
    exact ⟨_, rfl, hcnt, hd.credit, hd.plaza, hd.wptr⟩
  case unopened =>
    obtain ⟨hcnt, hd⟩ := rxBurst_unopened hadmits ⟨hpay, hlen, hcrc⟩ hclosed
    exact ⟨_, rfl, hcnt, hd.credit, hd.plaza, hd.wptr⟩
  intro hseal hbit hkind hfirst hmode halone
  have hstreams : s.Streams n b := ⟨hadmits, ⟨hpay, hlen, hcrc⟩, hseal, hbit, hkind, hfirst, hmode, halone⟩
  refine ⟨fun hrefuses => ?refused, fun hopen hmsg hroom => ?stored,
    fun hopen hmsg hroom hfull => ⟨_, rfl, rxBurst_waits hstreams hopen hmsg hroom hfull⟩⟩
  case refused =>
    obtain ⟨hcnt, hd⟩ := rxBurst_refused hstreams hrefuses
    exact ⟨_, rfl, hcnt, hd.credit, hd.plaza, hd.wptr⟩
  obtain ⟨hcredit, hstores, hw⟩ := rxBurst_stored hstreams hopen hmsg hroom
  refine ⟨_, rfl, hcredit, fun hshadow => ?_⟩
  have hdata := hstores hshadow
  exact ⟨⟨hdata.wptr, hdata.rptr, hdata.stored, hdata.kept, hdata.other⟩, keeps_of_mask hw (by decide)⟩

end Sys2Proof.Machine
end

section
/-!
SUPPORT. What sending on the ring changes (R267, R270, R272): a side's transmit half, its queues of frames, the count of sealed
frames and the output, and nothing else.
-/
namespace Sys2Proof.Machine

/-! ## What sending leaves alone -/

/-- A ring side without what sending writes. -/
def RingSide.unsent (x : RingSide) : RingSide :=
  { x with
    tx := {}, txSeq := 0, resend := [], transit := [], ctrlq := [], again := [], owesAck := false, sinceOwn := 0, resendCnt := 0 }

/-- The ring without what sending writes. -/
def Ring.unsent (r : Ring) : Ring := { r with east := r.east.unsent, west := r.west.unsent, rcNonce := 0 }

/-- From `s` to `t` frames are sent, or put where they wait. -/
structure State.Sends (s t : State) : Prop where
  ring : t.ring.unsent = s.ring.unsent
  out : s.out <:+ t.out
  within : Within 16777280 s t

/-- Frames are sent on one side. -/
structure State.SendsOn (d : Side) (s t : State) : Prop extends s.Sends t where
  other : ∀ e, e ≠ d → t.side e = s.side e

section
variable {s t u : State} {d : Side}

theorem State.Sends.refl (s : State) : s.Sends s := ⟨rfl, List.suffix_refl _, Within.refl _ s⟩

theorem State.Sends.trans (h : s.Sends t) (k : t.Sends u) : s.Sends u :=
  ⟨k.ring.trans h.ring, h.out.trans k.out, h.within.step k.within (Nat.or_self _)⟩

theorem State.Sends.foldl {α : Type} {f : State → α → State} (hf : ∀ (t : State) a, t.Sends (f t a)) (l : List α)
    (h : s.Sends t) : s.Sends (l.foldl f t) := by
  induction l generalizing t with
  | nil => exact h
  | cons a l ih => exact ih (h.trans (hf t a))

theorem State.SendsOn.refl (d : Side) (s : State) : s.SendsOn d s := ⟨.refl s, fun _ _ => rfl⟩

theorem State.SendsOn.trans (h : s.SendsOn d t) (k : t.SendsOn d u) : s.SendsOn d u :=
  ⟨h.toSends.trans k.toSends, fun e he => (k.other e he).trans (h.other e he)⟩

theorem State.SendsOn.foldl {α : Type} {f : State → α → State} (hf : ∀ (t : State) a, t.SendsOn d (f t a)) (l : List α)
    (h : s.SendsOn d t) : s.SendsOn d (l.foldl f t) := by
  induction l generalizing t with
  | nil => exact h
  | cons a l ih => exact ih (h.trans (hf t a))

/-! ## What may be read after frames were sent -/

theorem State.Sends.ringField (h : s.Sends t) {α : Type} (p : Ring → α) (hp : ∀ r, p r.unsent = p r := by intro r; rfl) :
    p t.ring = p s.ring := by
  rw [← hp, h.ring, hp]

theorem State.Sends.sideField (h : s.Sends t) (d : Side) {α : Type} (p : RingSide → α)
    (hp : ∀ x, p x.unsent = p x := by intro x; rfl) : p (t.side d) = p (s.side d) := by
  cases d with
  | east => exact h.ringField (fun r => p r.east) fun r => hp r.east
  | west => exact h.ringField (fun r => p r.west) fun r => hp r.west

theorem State.Sends.q (h : s.Sends t) (n : Nat) : t.q n = s.q n := State.q_of_within h.within (by decide) n

theorem State.Sends.queues (h : s.Sends t) : t.queues = s.queues := h.within.same .queues (by decide)

theorem State.Sends.keeps (h : s.Sends t) : s.keeps t [.ring, .out] := keeps_of_mask h.within (by decide)

theorem State.Sends.station (h : s.Sends t) : t.station = s.station := h.ringField fun r => fld r.cfg 0 3

theorem State.Sends.hops (h : s.Sends t) (d : Side) (k : Nat) : t.hops d k = s.hops d k := by
  have hE : t.ring.hopsE = s.ring.hopsE := h.ringField Ring.hopsE
  have hW : t.ring.hopsW = s.ring.hopsW := h.ringField Ring.hopsW
  cases d with
  | east => simp only [State.hops, hE]
  | west => simp only [State.hops, hW]

theorem State.Sends.route (h : s.Sends t) (k : Nat) : t.route k = s.route k := by
  simp only [State.route, h.hops]

theorem State.Sends.heard (h : s.Sends t) (k : Nat) : t.heard k = s.heard k := by
  simp only [State.heard, h.hops]

theorem State.Sends.chainStations (h : s.Sends t) (pos nsta : Nat) : t.chainStations pos nsta = s.chainStations pos nsta := by
  have hheard : t.heard = s.heard := funext h.heard
  simp only [State.chainStations, State.present, State.around, h.station, hheard]

theorem State.Sends.sideLive (h : s.Sends t) (d : Side) : t.sideLive d = s.sideLive d := by
  have herrs : t.errs = s.errs := h.within.same .errs (by decide)
  have hphy : (t.side d).phy = (s.side d).phy := h.sideField d RingSide.phy
  have hkey : t.ring.nokey = s.ring.nokey := h.ringField Ring.nokey
  simp only [State.sideLive, hphy, hkey, herrs]

theorem State.Sends.openFrame (h : s.Sends t) (f : Frame) : t.openFrame f = s.openFrame f := by
  have hgroups : t.groups = s.groups := h.within.same .groups (by decide)
  have hgroup : ∀ g, t.group g = s.group g := fun g => by simp only [State.group, hgroups]
  have hkey : t.ring.nokey = s.ring.nokey := h.ringField Ring.nokey
  have hepoch : t.ring.rcEpoch = s.ring.rcEpoch := h.ringField Ring.rcEpoch
  have hparent : t.ring.rcParent = s.ring.rcParent := h.ringField Ring.rcParent
  have hprev : t.ring.rcPrev = s.ring.rcPrev := h.ringField Ring.rcPrev
  simp only [State.openFrame, hgroup, hkey, hepoch, hparent, hprev]

/-! ## The operations that send -/

theorem setSide_sendsOn {x : RingSide} (h : x.unsent = (s.side d).unsent) : s.SendsOn d (s.setSide d x) where
  ring := by
    cases d with
    | east => exact congrArg (fun y => { s.ring.unsent with east := y }) h
    | west => exact congrArg (fun y => { s.ring.unsent with west := y }) h
  out := by rw [State.setSide_out]
  within := State.setSide_within d x (Within.refl _ s) (by decide)
  other e he := (State.side_setSide s d e x).trans (if_neg he)

theorem updSide_sendsOn (s : State) (d : Side) (f : RingSide → RingSide)
    (hf : ∀ x, (f x).unsent = x.unsent := by intro x; rfl) : s.SendsOn d (s.updSide d f) := setSide_sendsOn (hf _)

theorem emit_sendsOn (s : State) (d : Side) (o : Out) : s.SendsOn d (s.emit o) where
  ring := rfl
  out := List.suffix_cons o s.out
  within := State.emit_within o (Within.refl _ s) (by decide)
  other e _ := by cases e <;> rfl

theorem sendFrame_sendsOn (s : State) (d : Side) (f : Frame) : s.SendsOn d (s.sendFrame d f) :=
  (updSide_sendsOn s d _).trans (emit_sendsOn _ d _)

theorem launch_sendsOn (s : State) (d : Side) (f : Frame) (ctrl : Option (Nat × List Byte)) : s.SendsOn d (s.launch d f ctrl) :=
  (setSide_sendsOn (by rfl)).trans (sendFrame_sendsOn _ d _)

theorem pump_sendsOn (d : Side) (fuel : Nat) (s : State) : s.SendsOn d (s.pump d fuel) := by
  induction fuel generalizing s with
  | zero => exact .refl d s
  | succ fuel ih =>
    have hnext : ∀ (x : RingSide) f ctrl, x.unsent = (s.side d).unsent →
        s.SendsOn d (((s.setSide d x).launch d f ctrl).pump d fuel) := fun x f ctrl hx =>
      (setSide_sendsOn hx).trans ((launch_sendsOn _ d f ctrl).trans (ih _))
    unfold State.pump
    dsimp only
    split
    · exact .refl d s
    · split
      · split
        · exact hnext _ _ _ rfl
        · exact .refl d s
      · split
        · split
          · exact hnext _ _ _ rfl
          · exact .refl d s
        · exact .refl d s

theorem drain_sendsOn (s : State) (d : Side) : s.SendsOn d (s.drain d) := pump_sendsOn d _ s

theorem pushFrame_sendsOn (s : State) (d : Side) (f : Frame) (ctrl : Option (Nat × List Byte)) :
    s.SendsOn d (s.pushFrame d f ctrl) := by
  unfold State.pushFrame
  split
  · exact .refl d s
  · exact (updSide_sendsOn s d _).trans (drain_sendsOn _ d)

theorem controlFrame_sendsOn {kind dst : Nat} {bcast : Bool} {payload : List Byte} {f : Frame}
    (h : s.controlFrame kind dst bcast payload = some (f, t)) (d : Side) : s.SendsOn d t := by
  have hw := State.controlFrame_eq_within h (Within.refl 16777280 s) (by decide)
  unfold State.controlFrame at h
  split at h
  · cases h
  · cases h
    exact ⟨⟨rfl, List.suffix_refl _, hw⟩, fun e _ => by cases e <;> rfl⟩

theorem sendCtrlOn_sendsOn (s : State) (d : Side) (dst : Nat) (payload : List Byte) (keep : Bool) :
    s.SendsOn d (s.sendCtrlOn d dst payload keep) := by
  unfold State.sendCtrlOn
  split
  · exact .refl d s
  · next hframe => exact (controlFrame_sendsOn hframe d).trans (pushFrame_sendsOn _ d _ _)

theorem sendCtrl_sends (s : State) (dst op : Nat) (args : List (Nat × Nat × Nat)) : s.Sends (s.sendCtrl dst op args) := by
  unfold State.sendCtrl
  split
  · next d _ =>
    split
    · exact (sendCtrlOn_sendsOn s d _ _ _).toSends
    · split
      · exact (updSide_sendsOn s d _).toSends
      · exact .refl s
  · exact .refl s

theorem routeFrame_sends (s : State) (f : Frame) : s.Sends (s.routeFrame f) := by
  unfold State.routeFrame
  split
  · exact (pushFrame_sendsOn s .east f none).toSends.trans (pushFrame_sendsOn _ .west f none).toSends
  · split
    · exact (pushFrame_sendsOn s _ f none).toSends
    · exact .refl s

theorem sendChainCmd_sends (s : State) (n code pos : Nat) : s.Sends (s.sendChainCmd n code pos) := by
  unfold State.sendChainCmd
  split
  · exact sendCtrl_sends s _ _ _
  · exact .refl s

theorem sendSyncOn_sendsOn (s : State) (d : Side) (k : Nat) (payload : List Byte) : s.SendsOn d (s.sendSyncOn d k payload) := by
  unfold State.sendSyncOn
  split
  · exact .refl d s
  · next hframe => exact (controlFrame_sendsOn hframe d).trans (pushFrame_sendsOn _ d _ _)

theorem sendSync_sends (s : State) (k : Nat) (both : Bool) (entries : List Nat) : s.Sends (s.sendSync k both entries) := by
  unfold State.sendSync
  dsimp only
  split
  · exact (sendSyncOn_sendsOn s .east k _).toSends.trans (sendSyncOn_sendsOn _ .west k _).toSends
  · split
    · exact (sendSyncOn_sendsOn s _ k _).toSends
    · exact .refl s

theorem sendGone_sends (s : State) (n k : Nat) : s.Sends (s.sendGone n k) := sendCtrl_sends s k 10 _

theorem tellLoss_sends (s : State) (n : Nat) : s.Sends (s.tellLoss n) :=
  .foldl (fun t k => sendCtrl_sends t k 5 _) _ (.refl s)

theorem toNeighbours_sends (s : State) (n op : Nat) (args : List (Nat × Nat × Nat)) : s.Sends (s.toNeighbours n op args) :=
  .foldl (fun t k => sendCtrl_sends t k op args) _ (.refl s)

theorem resendFrames_sendsOn (s : State) (d : Side) : s.SendsOn d (s.resendFrames d) :=
  .foldl (fun t e => (updSide_sendsOn t d _).trans (sendFrame_sendsOn _ d _)) _ (.refl d s)

/-! ## A frame that goes at once -/

/-- Nothing waits on a live side, and its resend buffer has room for a frame. -/
structure State.CanSend (s : State) (d : Side) (f : Frame) : Prop where
  live : s.sideLive d = true
  ctrlq : (s.side d).ctrlq = []
  transit : (s.side d).transit = []
  room : (s.side d).room f = true

/-- A frame as a side sends it now. -/
def State.nextStamp (s : State) (d : Side) (f : Frame) : Frame := stampFrame f (s.side d).txSeq (s.side d).rxSeq

theorem launch_out (s : State) (d : Side) (f : Frame) (ctrl : Option (Nat × List Byte)) :
    (s.launch d f ctrl).out = .frame d (s.nextStamp d f) :: s.out := by
  cases d <;> rfl

/-- What a side that sent a frame keeps of it (R270). -/
theorem launch_side (s : State) (d : Side) (f : Frame) (ctrl : Option (Nat × List Byte)) :
    ((s.launch d f ctrl).side d).txSeq = (s.side d).txSeq + 1 ∧
      ((s.launch d f ctrl).side d).resend = (s.side d).resend ++ [{ seq := (s.side d).txSeq, frame := s.nextStamp d f, ctrl := ctrl }] ∧
      ((s.launch d f ctrl).side d).owesAck = false ∧ ((s.launch d f ctrl).side d).ctrlq = (s.side d).ctrlq ∧
      ((s.launch d f ctrl).side d).transit = (s.side d).transit := by
  cases d <;> exact ⟨rfl, rfl, rfl, rfl, rfl⟩

theorem State.setSide_self (s : State) (d : Side) : s.setSide d (s.side d) = s := by cases d <;> rfl

theorem State.setSide_setSide (s : State) (d : Side) (x y : RingSide) : (s.setSide d x).setSide d y = s.setSide d y := by
  cases d <;> rfl

theorem State.updSide_updSide (s : State) (d : Side) (f g : RingSide → RingSide) :
    (s.updSide d f).updSide d g = s.updSide d fun x => g (f x) := by
  cases d <;> rfl

theorem sideLive_setSide {x : RingSide} (h : x.phy = (s.side d).phy) (e : Side) : (s.setSide d x).sideLive e = s.sideLive e := by
  have hphy : ((s.setSide d x).side e).phy = (s.side e).phy := setSide_sidesKept h e
  have hkey : (s.setSide d x).ring.nokey = s.ring.nokey := by cases d <;> rfl
  rw [State.sideLive, hphy, hkey, State.setSide_errs, ← State.sideLive]

theorem ownClass_lt (f : Frame) : ownClass f < 3 := by
  unfold ownClass
  split <;> decide

/-- The only frame that waits goes first. -/
theorem nextWaiting_single (e : SentFrame) : nextWaiting [e] = some (e, []) := by
  have h := ownClass_lt e.frame
  have hsome : ((List.range 3).findSome? fun c => [e].findIdx? fun e => ownClass e.frame == c) = some 0 := by
    obtain hc | hc | hc : ownClass e.frame = 0 ∨ ownClass e.frame = 1 ∨ ownClass e.frame = 2 := by omega
    all_goals simp [List.range, List.range.loop, List.findIdx?_cons, hc]
  unfold nextWaiting
  rw [hsome]
  rfl

theorem drain_of_empty (hctrlq : (s.side d).ctrlq = []) (htransit : (s.side d).transit = []) : s.drain d = s := by
  rw [State.drain, hctrlq, htransit]
  rfl

/-- A frame of the station's own that can go is sent at once (R270). -/
theorem pushFrame_of_canSend {f : Frame} (h : s.CanSend d f) (ctrl : Option (Nat × List Byte)) :
    s.pushFrame d f ctrl = s.launch d f ctrl := by
  let e : SentFrame := { seq := 0, frame := f, ctrl := ctrl }
  have hwait : (s.updSide d fun x => { x with ctrlq := x.ctrlq ++ [e] }) = s.setSide d { s.side d with ctrlq := [e] } := by
    rw [State.updSide, h.ctrlq]
    rfl
  have hside : ((s.setSide d { s.side d with ctrlq := [e] }).side d) = { s.side d with ctrlq := [e] } := by
    rw [State.side_setSide, if_pos rfl]
  have hlive : (s.setSide d { s.side d with ctrlq := [e] }).sideLive d = true := (sideLive_setSide (by rfl) d).trans h.live
  have hempty : s.setSide d { s.side d with ctrlq := [] } = s := by
    rw [← h.ctrlq]
    exact s.setSide_self d
  have hroom : ({ s.side d with ctrlq := [e] } : RingSide).room e.frame = true := h.room
  unfold State.pushFrame
  rw [hwait, h.live, State.drain, hside, h.transit]
  simp only [List.length_cons, List.length_nil, Bool.not_true, Bool.false_eq_true, if_false]
  rw [State.pump, hside, hlive]
  simp only [nextWaiting_single, Bool.not_true, Bool.false_eq_true, if_false, hroom, if_true, State.setSide_setSide, hempty]
  rfl

/-- Sealing counts the frame and changes nothing else. -/
theorem controlFrame_state {kind dst : Nat} {bcast : Bool} {payload : List Byte} {f : Frame}
    (h : s.controlFrame kind dst bcast payload = some (f, t)) : t = { s with ring := { s.ring with rcNonce := s.ring.rcNonce + 1 } } := by
  unfold State.controlFrame at h
  split at h
  · cases h
  · cases h
    rfl

theorem State.CanSend.sealed {kind dst : Nat} {bcast : Bool} {payload : List Byte} {f g : Frame}
    (h : s.controlFrame kind dst bcast payload = some (f, t)) (hs : s.CanSend d g) :
    t.CanSend d g ∧ t.side d = s.side d ∧ t.out = s.out := by
  obtain rfl := controlFrame_state h
  cases d <;> exact ⟨⟨hs.live, hs.ctrlq, hs.transit, hs.room⟩, rfl, rfl⟩

end

end Sys2Proof.Machine
end

section
/-!
SUPPORT. What a write of `RING_CFG` does (R262, R474).
-/
namespace Sys2Proof.Machine

/-! ## The written fields -/

theorem bit_eq_getLsbD {w : Nat} (v : BitVec w) (i : Nat) : bit v i = v.getLsbD i := by
  rw [BitVec.getLsbD, Nat.testBit_eq_decide_div_mod_eq]
  exact beq_eq_decide _ _

/-- What the register holds after a write: `STATION` stays under the I/O lock. -/
def State.ringCfgOf (s : State) (v : Word32) : BitVec 32 :=
  if s.rst.ioLocked then (s.ring.cfg &&& 7#32) ||| (v &&& 0x70#32) else v &&& 0x77#32

theorem bit_ringCfgOf (s : State) (v : Word32) {i : Nat} (hi : i = 4 ∨ i = 5) : bit (s.ringCfgOf v) i = bit v i := by
  unfold State.ringCfgOf
  rcases hi with rfl | rfl
  all_goals
    simp only [bit_eq_getLsbD]
    split <;> simp

/-- The state with the register written, before its sides are enabled, stopped or reset. -/
def State.ringCfgStored (s : State) (v : Word32) : State := { s with ring := { s.ring with cfg := s.ringCfgOf v } }

/-- The state after the write, but for what the reset bits do. -/
def State.ringEnWritten (s : State) (v : Word32) : State :=
  ((s.ringCfgStored v).phyWriteEn (.side .east)).phyWriteEn (.side .west)

theorem writeRingCfg_eq (s : State) (v : Word32) : s.writeRingCfg v =
    let t := s.ringEnWritten v
    let t := if bit v 7 then t.phyReset (.side .east) else t
    if bit v 8 then t.phyReset (.side .west) else t := by
  have hcfg : (s.ring.cfg &&& (if s.rst.ioLocked then 7#32 else 0#32)) |||
      (v &&& 0x77#32 &&& ~~~(if s.rst.ioLocked then 7#32 else 0#32)) = s.ringCfgOf v := by
    unfold State.ringCfgOf
    split
    · rw [BitVec.and_assoc]
      rfl
    · rw [BitVec.and_assoc, BitVec.and_zero, BitVec.zero_or]
      rfl
  unfold State.writeRingCfg
  simp only [hcfg]
  rfl

/-! ## One side -/

/-- Where a write of `EN` leaves a side that is not up (R213, R223). -/
def writtenSt (en powered : Bool) (st : LState) : LState :=
  if en then if st = .disabled ∧ powered = true then .sigdet else st
  else if st = .reset then .reset else .disabled

/-- A write of `EN` changes a side that is not up in its training state alone. -/
theorem phyWriteEn_side {s : State} {d : Side} (hup : (s.side d).phy.st ≠ .up) :
    ∃ g : PhyState → PhyState, s.phyWriteEn (.side d) = s.updPhy (.side d) g ∧
      (g (s.side d).phy).st = writtenSt (s.phyEn (.side d)) (s.phyPowered (.side d)) (s.side d).phy.st := by
  let clear : PhyState → PhyState := fun x => { x with raised := 0, cfgRaised := false }
  let t := s.updPhy (.side d) clear
  have hst : (t.phy (.side d)).st = (s.side d).phy.st := (congrArg PhyState.st (s.phy_updPhy_same (.side d) clear)).trans rfl
  have hen : t.phyEn (.side d) = s.phyEn (.side d) := s.phyEn_setPhy _ _
  have hpower : t.phyPowered (.side d) = s.phyPowered (.side d) := s.phyPowered_setPhy _ _
  have htwice : ∀ g, t.updPhy (.side d) g = s.updPhy (.side d) (g ∘ clear) := fun g => by cases d <;> rfl
  have heq : s.phyWriteEn (.side d) = if t.phyEn (.side d) then t.phyEnable (.side d)
      else if (t.phy (.side d)).st = .disabled || (t.phy (.side d)).st = .reset then t
      else t.phyStop (.side d) .disabled := rfl
  unfold writtenSt
  rw [heq, State.phyEnable, hst, hen, hpower]
  by_cases hon : s.phyEn (.side d) = true
  · by_cases hstart : (s.side d).phy.st = .disabled ∧ s.phyPowered (.side d) = true
    · refine ⟨(·.begin_ (t.readTrainCfg (.side d)) .sigdet) ∘ clear, ?_, by rw [if_pos hon, if_pos hstart]; rfl⟩
      simp only [hon, hstart, beq_self_eq_true, Bool.and_self, if_true]
      rw [beginAttempt_of_legal rfl, htwice]
    · refine ⟨clear, ?_, by rw [if_pos hon, if_neg hstart]⟩
      have hno : ((s.side d).phy.st == .disabled && s.phyPowered (.side d)) = false := by
        rw [Bool.eq_false_iff]
        exact fun h => hstart (by simpa using h)
      simp [hon, hno, t]
  · by_cases hrest : (s.side d).phy.st = .disabled ∨ (s.side d).phy.st = .reset
    · refine ⟨clear, by simp [hon, hrest, t], ?_⟩
      rw [if_neg hon]
      rcases hrest with h | h <;> simp [h, clear]
    · have hreset : (s.side d).phy.st ≠ .reset := fun h => hrest (.inr h)
      refine ⟨PhyState.stopped .disabled ∘ clear, ?_, by rw [if_neg hon, if_neg hreset]; rfl⟩
      simp only [hon, Bool.false_eq_true, if_false, Bool.or_eq_true, decide_eq_true_eq, hrest]
      rw [phyStop_of_not_up (by rwa [hst]), htwice]

/-- A ring side after a block reset: counters and Crosswalks cleared. -/
def RingSide.blockReset (x : RingSide) : RingSide :=
  { x with phy := { st := .reset }, resendCnt := 0, rxrej := 0, authe := 0, epoche := 0, tdrop := 0, rx := {}, tx := {} }

theorem phyReset_side {s : State} {d : Side} (hup : (s.phy (.side d)).st ≠ .up) :
    s.phyReset (.side d) = (s.updSide d RingSide.blockReset).resetCells (phyCells (.side d)) := by
  rw [State.phyReset, phyStop_of_not_up hup]
  cases d <;> rfl

/-! ## Both sides -/

theorem keeps_ring (s : State) (r : Ring) : s.keeps { s with ring := r } [.ring] := by
  intro p hp
  cases p <;> simp_all [State.same]

theorem keeps_ring_cells (s : State) (r : Ring) (c : SMap EventCell) : s.keeps { s with ring := r, cells := c } [.ring, .cells] := by
  intro p hp
  cases p <;> simp_all [State.same]

/-- The state with the register written and the training states of the sides replaced. -/
def State.ringTrained (s : State) (v : Word32) (x y : PhyState) : State :=
  { s with ring := { s.ring with
      cfg := s.ringCfgOf v, east := { s.ring.east with phy := x }, west := { s.ring.west with phy := y } } }

section
variable {s : State} {v : Word32} (heast : s.ring.east.phy.st ≠ .up) (hwest : s.ring.west.phy.st ≠ .up)
include heast hwest

/-- The write changes the register and the training states. -/
theorem ringEnWritten_eq : ∃ x y : PhyState, s.ringEnWritten v = s.ringTrained v x y ∧
    x.st = writtenSt (bit v 4) (s.phyPowered (.side .east)) s.ring.east.phy.st ∧
    y.st = writtenSt (bit v 5) (s.phyPowered (.side .west)) s.ring.west.phy.st := by
  have hE : (s.ringCfgStored v).phyEn (.side .east) = bit v 4 := bit_ringCfgOf s v (.inl rfl)
  obtain ⟨g, hg, hgst⟩ := phyWriteEn_side (s := s.ringCfgStored v) (d := .east) heast
  have hW : ((s.ringCfgStored v).updPhy (.side .east) g).phyEn (.side .west) = bit v 5 := bit_ringCfgOf s v (.inr rfl)
  obtain ⟨h, hh, hhst⟩ := phyWriteEn_side (s := (s.ringCfgStored v).updPhy (.side .east) g) (d := .west) hwest
  rw [hE] at hgst
  rw [hW] at hhst
  exact ⟨g s.ring.east.phy, h s.ring.west.phy, by rw [State.ringEnWritten, hg, hh]; rfl, hgst, hhst⟩

/-- Without a reset bit the write ends there. -/
theorem writeRingCfg_of_no_rst (h7 : bit v 7 = false) (h8 : bit v 8 = false) :
    ∃ t, s.writeRingCfg v = t ∧ t.ring.cfg = s.ringCfgOf v ∧
      t.ring.east.phy.st = writtenSt (bit v 4) (s.phyPowered (.side .east)) s.ring.east.phy.st ∧
      t.ring.west.phy.st = writtenSt (bit v 5) (s.phyPowered (.side .west)) s.ring.west.phy.st ∧ s.keeps t [.ring] := by
  obtain ⟨x, y, ht, hx, hy⟩ := ringEnWritten_eq (v := v) heast hwest
  refine ⟨s.ringTrained v x y, ?_, rfl, hx, hy, keeps_ring s _⟩
  simp [writeRingCfg_eq, h7, h8, ht]

/-- With both reset bits and `EN` 0 for both sides, both are reset. -/
theorem writeRingCfg_of_rst (h7 : bit v 7 = true) (h8 : bit v 8 = true) (h4 : bit v 4 = false) (h5 : bit v 5 = false) :
    ∃ t, s.writeRingCfg v = t ∧ t.ring.cfg = s.ringCfgOf v ∧ t.ring.east.phy.st = .reset ∧ t.ring.west.phy.st = .reset ∧
      t.ring.east.rxrej = 0 ∧ t.ring.west.rxrej = 0 ∧ s.keeps t [.ring, .cells] := by
  obtain ⟨x, y, ht, hx, hy⟩ := ringEnWritten_eq (v := v) heast hwest
  have hdown : ∀ b st, writtenSt false b st ≠ .up := fun b st => by
    unfold writtenSt
    rw [if_neg Bool.false_ne_true]
    split <;> decide
  have hE : ((s.ringTrained v x y).phy (.side .east)).st ≠ .up := fun h => hdown _ _ ((h4 ▸ hx).symm.trans h)
  have hW : ((((s.ringTrained v x y).updSide .east RingSide.blockReset).resetCells (phyCells (.side .east))).phy
      (.side .west)).st ≠ .up := fun h => hdown _ _ ((h5 ▸ hy).symm.trans h)
  refine ⟨s.writeRingCfg v, rfl, ?_⟩
  rw [writeRingCfg_eq]
  simp only [h7, h8, if_true, ht]
  rw [phyReset_side hE, phyReset_side hW]
  exact ⟨rfl, rfl, rfl, rfl, rfl, keeps_ring_cells s _ _⟩

end

/-! ## The statement -/

/-- Settles O33: each write gives the training states as a function of those before. -/
theorem ringSettings : Obligations.RingSettings := by
  unfold Obligations.RingSettings
  intro v s hrun heast hwest cfg
  have hcore : ∀ effect : State, (.next (s.coreWrite 0x1400 v effect) : Host.Outcome State Fault Refusal) = .next effect :=
    fun effect => congrArg _ (coreWrite_of_runs hrun 0x1400 v effect)
  have hdisabled : ∀ b st, writtenSt false b st = if st = .reset then .reset else .disabled := fun b st =>
    if_neg Bool.false_ne_true
  have hgoes : ∀ b st, st ≠ .disabled → writtenSt true b st = st := fun b st h => by
    rw [writtenSt, if_pos rfl, if_neg fun hst => h hst.1]
  refine ⟨fun h7 h8 h4 h5 hst hpower => ?enable, fun h7 h8 h4 h5 => ?disable, fun h7 h8 _ _ hE hW h4 h5 => ?insert,
    fun h7 h8 h4 h5 => ?reset⟩
  case reset =>
    obtain ⟨t, ht, hrest⟩ := writeRingCfg_of_rst heast hwest h7 h8 h4 h5
    exact ⟨t, (hcore _).trans (congrArg _ ht), hrest⟩
  all_goals
    obtain ⟨t, ht, hcfg, hx, hy, hkeeps⟩ := writeRingCfg_of_no_rst heast hwest h7 h8
    refine ⟨t, (hcore _).trans (congrArg _ ht), hcfg, ?_, ?_, hkeeps⟩
  case enable.refine_1 => rw [hx, h4, hst, hpower]; rfl
  case enable.refine_2 => rw [hy, h5, hdisabled]
  case disable.refine_1 => rw [hx, h4, hdisabled]
  case disable.refine_2 => rw [hy, h5, hdisabled]
  case insert.refine_1 => rw [hx, h4, hgoes _ _ hE]
  case insert.refine_2 => rw [hy, h5, hgoes _ _ hW]

end Sys2Proof.Machine
end

section
/-!
SUPPORT. A frame that arrives on a ring side (R267 to R272): the checks of the hop, the gap they open, and the expected frame,
which is used here, goes on, or passes through.
-/
namespace Sys2Proof.Machine

/-! ## The hop's checks -/

section
variable {s : State} {d : Side} {f : Frame}

/-- Frames ahead of the expected one, modulo 2^16. -/
def State.seqAhead (s : State) (d : Side) (f : Frame) : Nat := (BitVec.ofNat 16 (Fr.seq f.hdr) - (s.side d).rxSeq).toNat

theorem otherSide_ne (d : Side) : d ≠ otherSide d := by cases d <;> decide

theorem side_crossIn (s : State) (d : Side) (f : Frame) : (s.crossIn d f).side d =
    { s.side d with rx := ((s.side d).rx.carry rxWindows (bytesAsWords sideWord (padUnit (frameUnit f)))).2 } :=
  State.side_updSide_same s d _

theorem station_updSide (s : State) (d : Side) (g : RingSide → RingSide) : (s.updSide d g).station = s.station := by
  cases d <;> rfl

theorem sideLive_updSide (s : State) (d e : Side) {g : RingSide → RingSide} (hg : ∀ x, (g x).phy = x.phy := by intro x; rfl) :
    (s.updSide d g).sideLive e = s.sideLive e := sideLive_setSide (hg _) e

/-- Crossing in shows at the receive Crosswalk alone. -/
theorem crossIn_sideField (s : State) (d : Side) (f : Frame) {α : Type} (p : RingSide → α)
    (hp : ∀ x r, p { x with rx := r } = p x := by intro x r; rfl) : p ((s.crossIn d f).side d) = p (s.side d) := by
  rw [side_crossIn, hp]

theorem passes_crossIn (s : State) (d : Side) (f : Frame) (h : BitVec 256) : (s.crossIn d f).passes h = s.passes h := by
  cases d <;> rfl

theorem transitRoom_crossIn (s : State) (d : Side) (f : Frame) :
    (s.crossIn d f).transitRoom (otherSide d) f = s.transitRoom (otherSide d) f := by
  cases d <;> rfl

/-- A frame on a live side, check by check. -/
theorem rxFrame_of_live (hlive : s.sideLive d = true) : s.rxFrame d f =
    if (frameGood f && frameLegal f.hdr) = false then ((s.crossIn d f).countRej d).gapResend d
    else if s.seqAhead d f ≠ 0 then
      if s.seqAhead d f < 2 ^ 15 then ((s.crossIn d f).countRej d).gapResend d
      else ((s.crossIn d f).countRej d).updSide d fun x => { x with owesAck := true }
    else if (s.passes f.hdr && !s.transitRoom (otherSide d) f) = true then
      ((s.crossIn d f).updSide d fun x => { x with tdrop := inc32 x.tdrop }).gapResend d
    else (s.crossIn d f).acceptFrame d f := by
  have hbad : ((!frameGood f || !frameLegal f.hdr) = true) = ((frameGood f && frameLegal f.hdr) = false) := by
    rw [← Bool.not_and, Bool.not_eq_true']
  unfold State.rxFrame
  simp only [hlive, Bool.not_true, Bool.false_eq_true, if_false, passes_crossIn, transitRoom_crossIn, hbad]
  rfl

/-- A frame that fails its checks, or comes ahead of the expected one, opens a gap. -/
theorem rxFrame_of_gap (hlive : s.sideLive d = true)
    (h : (frameGood f && frameLegal f.hdr) = false ∨ (s.seqAhead d f ≠ 0 ∧ s.seqAhead d f < 2 ^ 15)) :
    s.rxFrame d f = ((s.crossIn d f).countRej d).gapResend d := by
  rw [rxFrame_of_live hlive]
  by_cases hbad : (frameGood f && frameLegal f.hdr) = false
  · rw [if_pos hbad]
  · obtain ⟨h0, hlt⟩ := h.resolve_left hbad
    rw [if_neg hbad, if_pos h0, if_pos hlt]

theorem rxFrame_of_behind (hlive : s.sideLive d = true) (hgood : (frameGood f && frameLegal f.hdr) = true)
    (h : 2 ^ 15 ≤ s.seqAhead d f) :
    s.rxFrame d f = ((s.crossIn d f).countRej d).updSide d fun x => { x with owesAck := true } := by
  have h0 : s.seqAhead d f ≠ 0 := fun h0 => absurd (h0 ▸ h : 2 ^ 15 ≤ 0) (by decide)
  rw [rxFrame_of_live hlive, hgood, if_neg (by decide), if_pos h0, if_neg (Nat.not_lt.mpr h)]

theorem rxFrame_of_full (hlive : s.sideLive d = true) (hgood : (frameGood f && frameLegal f.hdr) = true)
    (hnext : s.seqAhead d f = 0) (h : (s.passes f.hdr && !s.transitRoom (otherSide d) f) = true) :
    s.rxFrame d f = ((s.crossIn d f).updSide d fun x => { x with tdrop := inc32 x.tdrop }).gapResend d := by
  rw [rxFrame_of_live hlive, hgood, if_neg (by decide), if_neg (not_not_intro hnext), if_pos h]

/-! ## The gap (R270) -/

/-- Within 1 µs of a RESEND a gap is only marked. -/
theorem gapResend_of_recent (h0 : (s.side d).lastResend ≠ 0) (h : s.cyc < (s.side d).lastResend - 1 + 1250) :
    s.gapResend d = s.updSide d fun x => { x with gap := true } := by
  have hno : (decide ((s.side d).lastResend = 0) || decide ((s.side d).lastResend - 1 + 1250 ≤ s.cyc)) = false := by
    rw [decide_eq_false h0, decide_eq_false (by omega)]
    rfl
  unfold State.gapResend
  dsimp only
  rw [hno]
  rfl

/-- A side with its gap marked and its last RESEND at a time. -/
def RingSide.gapAt (x : RingSide) (last : Nat) : RingSide := { x with gap := true, lastResend := last }

/-- A gap is marked, and a RESEND may go out. -/
theorem gapResend_eq (s : State) (d : Side) :
    ∃ last, (s.setSide d ((s.side d).gapAt last)).SendsOn d (s.gapResend d) := by
  unfold State.gapResend
  dsimp only
  split
  · exact ⟨s.cyc + 1, sendCtrlOn_sendsOn _ d _ _ _⟩
  · exact ⟨(s.side d).lastResend, .refl d _⟩

theorem gapResend_sideField (s : State) (d : Side) {α : Type} (p : RingSide → α)
    (hp : ∀ x, p x.unsent = p x := by intro x; rfl) (hgap : ∀ x last, p (x.gapAt last) = p x := by intro x last; rfl) :
    p ((s.gapResend d).side d) = p (s.side d) := by
  obtain ⟨last, h⟩ := gapResend_eq s d
  rw [h.sideField d p hp, State.side_setSide, if_pos rfl, hgap]

theorem gapResend_gap (s : State) (d : Side) : ((s.gapResend d).side d).gap = true := by
  obtain ⟨last, h⟩ := gapResend_eq s d
  rw [h.sideField d RingSide.gap, State.side_setSide, if_pos rfl]
  rfl

theorem updSide_within_ring (s : State) (d : Side) (f : RingSide → RingSide) : Within 16777280 s (s.updSide d f) :=
  State.updSide_within d f (Within.refl _ s) (by decide)

theorem crossIn_within_ring (s : State) (d : Side) (f : Frame) : Within 16777280 s (s.crossIn d f) :=
  State.crossIn_within d f (Within.refl _ s) (by decide)

/-- A counted frame that opens a gap changes the ring and the output. -/
theorem gapResend_counted_keeps (s : State) (d : Side) (f : Frame) (count : RingSide → RingSide) :
    s.keeps (((s.crossIn d f).updSide d count).gapResend d) [.ring, .out] :=
  keeps_of_mask (((crossIn_within_ring s d f).step (updSide_within_ring _ d count) rfl).step
    (State.gapResend_within d (Within.refl 16777280 _) rfl) rfl) (by decide)

/-! ## The expected frame (R270) -/

/-- What the side notes of the expected frame. -/
def RingSide.received (f : Frame) (x : RingSide) : RingSide :=
  { x.ackTo (BitVec.ofNat 16 (Fr.ack f.hdr)) with rxSeq := x.rxSeq + 1, gap := false, owesAck := true }

/-- The state once the expected frame has crossed in and has been noted. -/
def State.received (s : State) (d : Side) (f : Frame) : State := (s.crossIn d f).updSide d (RingSide.received f)

theorem received_eq (s : State) (d : Side) (f : Frame) : s.received d f = s.updSide d fun x =>
    RingSide.received f { x with rx := (x.rx.carry rxWindows (bytesAsWords sideWord (padUnit (frameUnit f)))).2 } :=
  State.updSide_updSide s d _ _

theorem received_sideField (s : State) (d : Side) (f : Frame) {α : Type} (p : RingSide → α)
    (hp : ∀ x r, p (RingSide.received f { x with rx := r }) = p x := by intro x r; rfl) :
    p ((s.received d f).side d) = p (s.side d) := by
  rw [received_eq, State.side_updSide_same, hp]

theorem State.side_updSide_other (s : State) (g : RingSide → RingSide) {e : Side} (h : e ≠ d) : (s.updSide d g).side e = s.side e := by
  rw [State.updSide, State.side_setSide, if_neg h]

theorem received_other (s : State) (d : Side) (f : Frame) : (s.received d f).side (otherSide d) = s.side (otherSide d) := by
  cases d <;> rfl

theorem received_station (s : State) (d : Side) (f : Frame) : (s.received d f).station = s.station :=
  (station_updSide _ d _).trans (station_updSide s d _)

theorem received_within (s : State) (d : Side) (f : Frame) : Within 16777280 s (s.received d f) :=
  (crossIn_within_ring s d f).step (updSide_within_ring _ d _) rfl

theorem received_openFrame (s : State) (d : Side) (f g : Frame) : (s.received d f).openFrame g = s.openFrame g := by
  cases d <;> rfl

theorem received_goesOn (s : State) (d : Side) (f g : Frame) : (s.received d f).goesOn d g = s.goesOn d g := by
  cases d <;> rfl

theorem received_sideLive (s : State) (d : Side) (f : Frame) (e : Side) : (s.received d f).sideLive e = s.sideLive e :=
  (sideLive_updSide _ d e).trans (sideLive_updSide s d e)

theorem foldl_filter_of_none {α β : Type} {l : List α} {p : α → Bool} (h : ∀ e ∈ l, p e = false) (f : β → α → β) (b : β) :
    (l.filter p).foldl f b = b := by
  rw [List.filter_eq_nil_iff.mpr fun e he => ne_true_of_eq_false (h e he)]
  rfl

theorem endLeaves_of_none (h : ∀ e ∈ s.queues, ∀ w, e.2.chain.wait = some w → w.leave = false) : s.endLeaves = s := by
  refine foldl_filter_of_none (fun e he => ?_) _ s
  split
  · next w hw => rw [h e he w hw, Bool.false_and, Bool.false_and]
  · rfl

/-- The frame is the expected one on a live side, passes its checks and finds room; nothing waits on the side, and no queue leaves
its chain. -/
structure State.Expects (s : State) (d : Side) (f : Frame) : Prop where
  live : s.sideLive d = true
  good : (frameGood f && frameLegal f.hdr) = true
  next : s.seqAhead d f = 0
  room : (s.passes f.hdr && !s.transitRoom (otherSide d) f) = false
  ctrlq : (s.side d).ctrlq = []
  transit : (s.side d).transit = []
  stays : ∀ e ∈ s.queues, ∀ w, e.2.chain.wait = some w → w.leave = false

theorem rxFrame_of_expects (h : s.Expects d f) : s.rxFrame d f =
    if s.passes f.hdr then (s.received d f).forward d f else ((s.received d f).forwardCast d f).consume d f := by
  have hpasses : (s.received d f).passes f.hdr = s.passes f.hdr := by cases d <;> rfl
  have hdrain : (s.received d f).drain d = s.received d f :=
    drain_of_empty ((received_sideField s d f RingSide.ctrlq).trans h.ctrlq)
      ((received_sideField s d f RingSide.transit).trans h.transit)
  have hleaves : (s.received d f).endLeaves = s.received d f := endLeaves_of_none (by cases d <;> exact h.stays)
  have haccept : (s.crossIn d f).acceptFrame d f =
      if (((s.received d f).drain d).endLeaves).passes f.hdr then (((s.received d f).drain d).endLeaves).forward d f
      else ((((s.received d f).drain d).endLeaves).forwardCast d f).consume d f := rfl
  rw [rxFrame_of_live h.live]
  simp only [h.good, h.next, h.room, Bool.true_eq_false, Bool.false_eq_true, ne_eq, not_true_eq_false, if_false]
  rw [haccept, hdrain, hleaves, hpasses]

/-! ## Broadcasts (R272) -/

theorem forwardCast_of_ends (h : s.goesOn d f = false) : s.forwardCast d f = s := if_neg (ne_true_of_eq_false h)

theorem forwardCast_of_unopened (h : s.goesOn d f = true) (hopen : ∀ bs, s.openFrame f ≠ .plain bs) :
    s.forwardCast d f = s.pushFrame (otherSide d) f none := by
  unfold State.forwardCast
  rw [if_pos h]
  split
  · next hplain => exact absurd hplain (hopen _)
  · rfl

theorem forwardCast_sendsOn (s : State) (d : Side) (f : Frame) : s.SendsOn (otherSide d) (s.forwardCast d f) := by
  unfold State.forwardCast
  split
  · split
    · split
      · exact .refl _ s
      · split
        · exact updSide_sendsOn s _ _
        · exact pushFrame_sendsOn s _ f _
    · exact pushFrame_sendsOn s _ f none
  · exact .refl _ s

/-- A tag that fails is counted and reported, and the frame is not used (R268). -/
theorem consume_of_badTag (hkind : Fr.kind f.hdr ≠ 0) (h : s.openFrame f = .badTag) : s.consume d f = s.authFail d f.hdr := by
  unfold State.consume
  dsimp only
  rw [if_neg hkind, h]

theorem authFail_spec (s : State) (d : Side) (h : BitVec 256) :
    ((s.authFail d h).side d).authe = inc32 (s.side d).authe ∧ (s.authFail d h).errs.seq = (s.errs.seq + 1) % 2 ^ 32 ∧
      Within 18874560 s (s.authFail d h) := by
  have hraise : ∀ t : State, Within 18874496 t (t.raise 0x402 none (Fr.src h) (Fr.kind h) (Fr.qid h)) := fun t =>
    raise_within_of_not_fatal t none _ _ _ (by decide)
  have hside : ∀ t : State, (t.raise 0x402 none (Fr.src h) (Fr.kind h) (Fr.qid h)).side d = t.side d := fun t => by
    have hring : (t.raise 0x402 none (Fr.src h) (Fr.kind h) (Fr.qid h)).ring = t.ring := (hraise t).same .ring (by decide)
    cases d <;> simp only [State.side, hring]
  unfold State.authFail
  refine ⟨?_, ?_, ?_⟩
  · rw [hside, State.side_updSide_same]
  · rw [raise_seq]
    cases d <;> rfl
  · exact (State.updSide_within d _ (Within.refl _ s) (by decide)).step (hraise _) (by decide)

/-! ## Transit (R272) -/

/-- A transit frame goes on at once where own DATA has had its share. -/
theorem drain_of_transit (h : s.CanSend d f) (hown : (s.side d).sinceOwn < 3) :
    (s.updSide d fun x => { x with transit := x.transit ++ [f] }).drain d =
      (s.updSide d fun x => { x with sinceOwn := x.sinceOwn + 1 }).launch d f none := by
  have hwait : (s.updSide d fun x => { x with transit := x.transit ++ [f] }) = s.setSide d { s.side d with transit := [f] } := by
    rw [State.updSide, h.transit]
    rfl
  have hside : ((s.setSide d { s.side d with transit := [f] }).side d) = { s.side d with transit := [f] } := by
    rw [State.side_setSide, if_pos rfl]
  have hlive : (s.setSide d { s.side d with transit := [f] }).sideLive d = true := (sideLive_setSide (by rfl) d).trans h.live
  have hroom : ({ s.side d with transit := [f] } : RingSide).room f = true := h.room
  have hsent : ∀ x : RingSide, x.transit = [] → x.ctrlq = [] →
      ({ x with transit := [], ctrlq := [], sinceOwn := x.sinceOwn + 1 } : RingSide) = { x with sinceOwn := x.sinceOwn + 1 } := by
    rintro ⟨⟩ rfl rfl
    rfl
  rw [hwait, State.drain, hside, h.ctrlq]
  simp only [List.length_cons, List.length_nil, Nat.zero_add]
  rw [State.pump, hside, hlive, h.ctrlq]
  have hnone : nextWaiting [] = none := rfl
  simp only [hnone, Bool.not_true, Bool.false_eq_true, if_false, hroom, decide_eq_false (Nat.not_le.mpr hown), Bool.false_and,
    Bool.not_false, Bool.and_self, if_true, State.setSide_setSide]
  exact congrArg (fun x => (s.setSide d x).launch d f none) (hsent (s.side d) h.transit h.ctrlq)

/-- The state in which a transit frame is about to leave by the other side. -/
def State.passing (s : State) (d : Side) (f : Frame) : State :=
  ((s.received d f).endRepeats d).updSide (otherSide d) fun x => { x with sinceOwn := x.sinceOwn + 1 }

theorem passing_side (s : State) (d : Side) (f : Frame) : (s.passing d f).side (otherSide d) =
    { s.side (otherSide d) with sinceOwn := (s.side (otherSide d)).sinceOwn + 1 } := by
  rw [State.passing, State.side_updSide_same, State.endRepeats, State.side_updSide_other _ _ (otherSide_ne d).symm, received_other]

theorem passing_out (s : State) (d : Side) (f : Frame) : (s.passing d f).out = s.out := by
  simp only [State.passing, State.endRepeats, State.received, State.crossIn, State.updSide, State.setSide_out]

theorem passing_within (s : State) (d : Side) (f : Frame) : Within 16777280 s (s.passing d f) :=
  ((received_within s d f).step (updSide_within_ring _ d _) rfl).step (updSide_within_ring _ (otherSide d) _) rfl

/-- A frame that only passes through, and is not the station's own, leaves by the other side (R272). -/
theorem forward_of_canSend (hsrc : Fr.src f.hdr ≠ s.station) (h : s.CanSend (otherSide d) f)
    (hown : (s.side (otherSide d)).sinceOwn < 3) :
    (s.received d f).forward d f = (s.passing d f).launch (otherSide d) f none := by
  have hside : ((s.received d f).endRepeats d).side (otherSide d) = s.side (otherSide d) :=
    ((s.received d f).side_updSide_other _ (otherSide_ne d).symm).trans (received_other s d f)
  have hlive : ((s.received d f).endRepeats d).sideLive (otherSide d) = s.sideLive (otherSide d) :=
    (sideLive_updSide _ d _).trans (received_sideLive s d f _)
  have hsrc' : Fr.src f.hdr ≠ ((s.received d f).endRepeats d).station := by
    rwa [State.endRepeats, station_updSide, received_station]
  unfold State.forward
  dsimp only
  rw [if_neg hsrc']
  exact drain_of_transit ⟨hlive.trans h.live, hside ▸ h.ctrlq, hside ▸ h.transit, hside ▸ h.room⟩ (hside ▸ hown)

/-- The frame that passes goes out stamped, and the resend buffer keeps it (R270, R272). -/
theorem forward_spec (hsrc : Fr.src f.hdr ≠ s.station) (h : s.CanSend (otherSide d) f)
    (hown : (s.side (otherSide d)).sinceOwn < 3) :
    let o := otherSide d
    let t := (s.received d f).forward d f
    t.out = .frame o (s.nextStamp o f) :: s.out ∧ (t.side o).txSeq = (s.side o).txSeq + 1 ∧
      (t.side o).resend = (s.side o).resend ++ [{ seq := (s.side o).txSeq, frame := s.nextStamp o f, ctrl := none }] ∧
      s.keeps t [.ring, .out] := by
  have hstamp : (s.passing d f).nextStamp (otherSide d) f = s.nextStamp (otherSide d) f := by
    rw [State.nextStamp, passing_side]
    rfl
  obtain ⟨hseq, hresend, -⟩ := launch_side (s.passing d f) (otherSide d) f none
  dsimp only
  rw [forward_of_canSend hsrc h hown, launch_out, hseq, hresend, hstamp, passing_out, passing_side]
  exact ⟨rfl, rfl, rfl,
    keeps_of_mask ((passing_within s d f).step (launch_sendsOn _ _ f none).within rfl) (by decide)⟩

end

/-! ## The statement -/

/-- The ring's frame commands receive their frame; DATA brings the lanes' counts first. -/
theorem exec_ringFrame {c : Instr} {d : Side} {f : Frame} {s s0 : State}
    (h : (∃ lanes, c = Instr.ringDataFrame d ⟨f, lanes⟩ ∧ s0.sideLive d = true ∧ s0.countLanes (.side d) lanes = s) ∨
      s0 = s ∧ c ∈ [Instr.syncFrame d f, .ringHello d f, .ack d f, .resend d f, .chainJoin d f, .chainCmd d f, .ffMark d f,
        .ffRewind d f, .pairJoin d f, .revoke d f, .gone d f, .kioskFrame d f, .ringFrameTransit d f]) :
    exec c s0 = .next (s.rxFrame d f) := by
  rcases h with ⟨lanes, rfl, hlive, rfl⟩ | ⟨rfl, hc⟩
  · exact congrArg Host.Outcome.next (if_pos hlive)
  · simp only [List.mem_cons, List.not_mem_nil, or_false] at hc
    rcases hc with rfl | rfl | rfl | rfl | rfl | rfl | rfl | rfl | rfl | rfl | rfl | rfl | rfl <;> rfl

/-- Settles O56: the hop's checks come one after the other (`rxFrame_of_live`), and the expected frame is passed on, used, or both
(`rxFrame_of_expects`). -/
theorem ringFramesAreTakenInOrder : Obligations.RingFramesAreTakenInOrder := by
  unfold Obligations.RingFramesAreTakenInOrder
  intro c d f s s0 hc hlive x o a good ahead full
  have hexec : exec c s0 = .next (s.rxFrame d f) := exec_ringFrame hc
  rw [hexec]
  refine ⟨fun hgap => ?gap, fun hgood hbehind => ?behind, fun hgood hnext hfull => ?full,
    fun hgood hnext hroom hctrlq htransit hstays => ?expected⟩
  case gap =>
    have hcount : (a.countRej d).side d = { a.side d with rxrej := inc32 (a.side d).rxrej } := State.side_updSide_same a d _
    have hrxrej : (a.side d).rxrej = x.rxrej := crossIn_sideField s d f RingSide.rxrej
    have hrxSeq : (a.side d).rxSeq = x.rxSeq := crossIn_sideField s d f RingSide.rxSeq
    have hlast : (a.side d).lastResend = x.lastResend := crossIn_sideField s d f RingSide.lastResend
    have hcyc : (a.countRej d).cyc = s.cyc := by cases d <;> rfl
    rw [rxFrame_of_gap hlive hgap]
    refine ⟨⟨_, rfl, ?_, ?_, gapResend_gap _ d, gapResend_counted_keeps s d f _⟩, fun h0 hrecent => ?_⟩
    · rw [gapResend_sideField _ d RingSide.rxrej, hcount, hrxrej]
    · rw [gapResend_sideField _ d RingSide.rxSeq, hcount, hrxSeq]
    · rw [gapResend_of_recent (by rw [hcount, hlast]; exact h0) (by rw [hcount, hcyc, hlast]; exact hrecent)]
      exact congrArg Host.Outcome.next (State.updSide_updSide a d _ _)
  case behind =>
    rw [rxFrame_of_behind hlive hgood hbehind]
    exact congrArg Host.Outcome.next (State.updSide_updSide a d _ _)
  case full =>
    have hcount : (a.updSide d fun x => { x with tdrop := inc32 x.tdrop }).side d = _ := State.side_updSide_same a d _
    have htdrop : (a.side d).tdrop = x.tdrop := crossIn_sideField s d f RingSide.tdrop
    have hrxSeq : (a.side d).rxSeq = x.rxSeq := crossIn_sideField s d f RingSide.rxSeq
    rw [rxFrame_of_full hlive hgood hnext hfull]
    refine ⟨_, rfl, ?_, ?_, gapResend_gap _ d, gapResend_counted_keeps s d f _⟩
    · rw [gapResend_sideField _ d RingSide.tdrop, hcount, htdrop]
    · rw [gapResend_sideField _ d RingSide.rxSeq, hcount, hrxSeq]
  case expected =>
    intro u
    have hexpects : s.Expects d f := ⟨hlive, hgood, hnext, hroom, hctrlq, htransit, hstays⟩
    have hu : u = s.received d f := rfl
    rw [rxFrame_of_expects hexpects, hu]
    refine ⟨fun hpasses => ⟨?used, fun hends => ?ends, fun hbcast hsrc hhops hopen => ?goesOn, fun hkind htag => ?badTag⟩,
      fun hpasses hsrc => ?own, fun hpasses hsrc hliveO hctrlqO htransitO hroomO hown => ?transit⟩
    case used => rw [if_neg (ne_true_of_eq_false hpasses)]
    case ends =>
      refine forwardCast_of_ends ((received_goesOn s d f f).trans ?_)
      rcases hends with h | h | h
      · simp [State.goesOn, h]
      · simp [State.goesOn, h]
      · simp [State.goesOn, Nat.not_lt.mpr h]
    case goesOn =>
      refine forwardCast_of_unopened ((received_goesOn s d f f).trans ?_) fun bs => ?_
      · simp [State.goesOn, hbcast, hsrc, hhops]
      · rw [received_openFrame]
        exact hopen bs
    case badTag =>
      have hcast := forwardCast_sendsOn (s.received d f) d f
      have htag' : ((s.received d f).forwardCast d f).openFrame f = .badTag := by
        rw [hcast.openFrame, received_openFrame, htag]
      obtain ⟨hauthe, hseq, hw⟩ := authFail_spec ((s.received d f).forwardCast d f) d f.hdr
      have hbefore : Within 16777280 s ((s.received d f).forwardCast d f) := (received_within s d f).step hcast.within rfl
      refine ⟨_, rfl, ?_, ?_, ?_⟩
      · rw [if_neg (ne_true_of_eq_false hpasses), consume_of_badTag hkind htag', hauthe, hcast.other d (otherSide_ne d),
          received_sideField s d f RingSide.authe]
      · rw [if_neg (ne_true_of_eq_false hpasses), consume_of_badTag hkind htag', hseq, hbefore.same .errs (by decide)]
      · rw [if_neg (ne_true_of_eq_false hpasses), consume_of_badTag hkind htag']
        exact keeps_of_mask ((hbefore.mono (W := 18874560) rfl).step hw rfl) (by decide)
    case own =>
      have hown : Fr.src f.hdr = ((s.received d f).endRepeats d).station := by
        rwa [State.endRepeats, station_updSide, received_station]
      rw [if_pos hpasses, State.forward]
      exact congrArg Host.Outcome.next (if_pos hown)
    case transit =>
      rw [if_pos hpasses]
      exact ⟨_, rfl, forward_spec hsrc ⟨hliveO, hctrlqO, htransitO, hroomO⟩ hown⟩

end Sys2Proof.Machine
end

section
/-!
SUPPORT. What Ring Road's operations on a member leave of its queues (R277, R283, R288): SYNC, an abdication, a takeover, and the
joins that a setup waits for (R275, R285).
-/
namespace Sys2Proof.Machine

/-! ## What stays of the queues -/

/-- A reading of the queues that is the same in both states. -/
def State.Alike {α : Type} (p : Queue → α) (s t : State) : Prop := ∀ m, p (t.q m) = p (s.q m)

/-- A queue's context without the credit it has granted upstream. -/
def Queue.ungranted (q : Queue) : Queue := { q with chain := { q.chain with granted := 0 } }

/-- A queue's context without its place of reading. -/
def Queue.unread (q : Queue) : Queue := { q with rptr := 0, rmsg := none, rsub := 0 }

section
variable {α : Type} {p : Queue → α} {s t u : State}

theorem State.Alike.refl (p : Queue → α) (s : State) : s.Alike p s := fun _ => rfl

theorem State.Alike.trans (h : s.Alike p t) (k : t.Alike p u) : s.Alike p u := fun m => (k m).trans (h m)

theorem State.Alike.foldl {β : Type} {f : State → β → State} (hf : ∀ (t : State) b, t.Alike p (f t b)) (l : List β)
    (h : s.Alike p t) : s.Alike p (l.foldl f t) := by
  induction l generalizing t with
  | nil => exact h
  | cons b l ih => exact ih (h.trans (hf t b))

theorem State.Alike.of_within {M : Nat} (h : Within M s t) (hM : M.testBit 0 = false) : s.Alike p t := fun m =>
  congrArg p (State.q_of_within h hM m)

theorem State.Sends.alike (h : s.Sends t) : s.Alike p t := .of_within h.within (by decide)

theorem setQ_alike {n : Nat} {x : Queue} (h : p x = p (s.q n)) : s.Alike p (s.setQ n x) := by
  intro m
  rw [State.q_setQ]
  split
  · next hm => rw [h, hm]
  · rfl

theorem updQ_alike (s : State) (n : Nat) {f : Queue → Queue} (h : ∀ q, p (f q) = p q := by intro q; rfl) :
    s.Alike p (s.updQ n f) := setQ_alike (h _)

theorem evalFlags_alike (s : State) (n : Nat) (hp : ∀ q, p q.offFlags = p q := by intro q; rfl) : s.Alike p (s.evalFlags n) := by
  intro m
  by_cases hm : m = n
  · subst hm
    exact evalFlags_field s m p hp
  · rw [evalFlags_other s hm]

/-! ## SYNC (R277, R283) -/

theorem grantUp_alike (s : State) (n : Nat) (hp : ∀ q, p q.ungranted = p q := by intro q; rfl) : s.Alike p (s.grantUp n) := by
  unfold State.grantUp
  dsimp only
  split
  · apply setQ_alike
    rw [← hp, ← hp (s.q n)]
    rfl
  · exact .refl p s

theorem syncNow_sends (s : State) (n : Nat) : (s.grantUp n).Sends (s.syncNow n) :=
  .foldl (fun t k => sendSync_sends t k _ _) _ (.refl _)

theorem syncNow_alike (s : State) (n : Nat) (hp : ∀ q, p q.ungranted = p q := by intro q; rfl) : s.Alike p (s.syncNow n) :=
  (grantUp_alike s n hp).trans (syncNow_sends s n).alike

/-! ## Reading stops -/

theorem stopRead_alike (s : State) (n : Nat) (hp : ∀ q, p q.unread = p q := by intro q; rfl) : s.Alike p (s.stopRead n) := by
  refine updQ_alike s n fun q => ?_
  split
  · split
    · rfl
    · rw [← hp, ← hp q]
      rfl
  · rfl

/-! ## Takeover and abdication (R288) -/

theorem abdicate_of_unpaired {n : Nat} (h : (s.q n).pair.paired = false) : s.abdicate n = s := by simp [State.abdicate, h]

/-- An active tail that abdicates leaves its pair's chain to the other tail, and nothing else of the pair changes. -/
theorem abdicate_pair {n : Nat} (hpaired : (s.q n).pair.paired = true) (hactive : (s.q n).pair.shadow = false)
    (hin : (s.q n).pair.out = false) : ((s.abdicate n).q n).pair = { (s.q n).pair with out := true } := by
  have hcond : ((s.q n).pair.paired && !(s.q n).pair.shadow && !(s.q n).pair.out) = true := by simp [hpaired, hactive, hin]
  rw [State.abdicate, if_pos hcond, syncNow_alike (p := Queue.pair), stopRead_alike (p := Queue.pair), State.q_updQ, if_pos rfl]

theorem abdicate_alike (s : State) (n : Nat) (hsync : ∀ q, p q.ungranted = p q := by intro q; rfl)
    (hread : ∀ q, p q.unread = p q := by intro q; rfl) (hpair : ∀ q pair, p { q with pair := pair } = p q := by intro q _; rfl) :
    s.Alike p (s.abdicate n) := by
  unfold State.abdicate
  split
  · exact ((updQ_alike s n fun q => hpair q _).trans (stopRead_alike _ n hread)).trans (syncNow_alike _ n hsync)
  · exact .refl p s

/-- The pair of a shadow that has taken over, its FAILOVER commands answered. -/
def Pair.tookOver (x : Pair) : Pair :=
  { x with shadow := false, out := false, stopping := false, gen := (x.gen + 1) % 128, peerActive := false, failWatch := false,
           failoverWait := [] }

theorem Pair.tookOver_of_none {x : Pair} (h : x.failoverWait = []) : x.tookOver =
    { x with shadow := false, out := false, stopping := false, gen := (x.gen + 1) % 128, peerActive := false, failWatch := false } := by
  rw [Pair.tookOver, ← h]

/-- A shadow that takes over: the state before its FAILOVER commands complete. -/
theorem takeover_spec {n : Nat} (hpaired : (s.q n).pair.paired = true) (hshadow : (s.q n).pair.shadow = true)
    (hheld : (s.q n).st ≠ .held) : ∃ t, s.takeover n = t.completeAll (s.q n).pair.failoverWait St.ok ∧
      (t.q n).pair = (s.q n).pair.tookOver ∧ (t.q n).rptr = (s.q n).rptr ∧ Within 16777409 s t := by
  let q := s.q n
  let pair : Pair := { q.pair with
    shadow := false, out := false, stopping := false, gen := (q.pair.gen + 1) % 128, peerActive := false, failWatch := false }
  let v := ((s.setQ n { q with pair := pair }).syncNow n).post 0
    (failoverEvent n ((q.pair.gen + 1) % 128) false (!q.pair.fit) false)
  have hv : ∀ {β : Type} (r : Queue → β), (∀ q, r q.ungranted = r q) → r (v.q n) = r { q with pair := pair } := by
    intro β r hr
    have hpost : v.q n = ((s.setQ n { q with pair := pair }).syncNow n).q n :=
      State.q_of_within (State.post_within 0 _ (Within.refl 16777344 _) (by decide)) (by decide) n
    rw [hpost, syncNow_alike _ n hr, State.q_setQ, if_pos rfl]
  have hvpair : (v.q n).pair = pair := hv Queue.pair fun _ => rfl
  have hcond : ((s.q n).pair.paired && (s.q n).pair.shadow) = true := by simp [hpaired, hshadow]
  have htake : s.takeover n = v.endFailovers n := by
    unfold State.takeover
    dsimp only
    rw [if_pos hcond, if_neg hheld]
  refine ⟨v.updQ n fun q => { q with pair := { q.pair with failoverWait := [] } }, ?_, ?_, ?_, ?_⟩
  · rw [htake, State.endFailovers, hvpair]
  · rw [State.q_updQ, if_pos rfl, hvpair]
    rfl
  · rw [State.q_updQ, if_pos rfl]
    exact hv Queue.rptr fun _ => rfl
  · exact State.updQ_within n _ (State.post_within 0 _ (State.syncNow_within n (State.setQ_within n _ (Within.refl _ s) (by decide))
      (by decide)) (by decide)) (by decide)

theorem takeover_of_held {n : Nat} (hpaired : (s.q n).pair.paired = true) (hshadow : (s.q n).pair.shadow = true)
    (hheld : (s.q n).st = .held) : s.takeover n = s.post 0 (failoverEvent n (s.q n).pair.gen true false false) := by
  simp [State.takeover, hpaired, hshadow, hheld]

theorem takeover_of_not_shadow {n : Nat} (h : (s.q n).pair.paired = false ∨ (s.q n).pair.shadow = false) : s.takeover n = s := by
  obtain h | h := h <;> simp [State.takeover, h]

theorem endFailovers_of_none {n : Nat} (h : (s.q n).pair.failoverWait = []) :
    s.endFailovers n = s.updQ n fun q => { q with pair := { q.pair with failoverWait := [] } } := by
  rw [State.endFailovers, h]
  rfl

/-! ## Joins (R275, R285) -/

/-- A write of the ring's own state changes nothing else. -/
theorem withRing_within (s : State) (r : Ring) : Within 64 s { s with ring := r } :=
  .build (.refl 64 s) (.inl rfl) (.inl rfl) (.inl rfl) (.inl rfl) (.inl rfl) (.inl rfl) (.inr rfl) (.inl rfl) (.inl rfl) (.inl rfl)
    (.inl rfl) (.inl rfl) (.inl rfl) (.inl rfl) (.inl rfl) (.inl rfl) (.inl rfl) (.inl rfl) (.inl rfl) (.inl rfl) (.inl rfl)
    (.inl rfl) (.inl rfl) (.inl rfl) (.inl rfl)

theorem joinFrom_of_none (h : s.ring.joins = []) (op n k : Nat) : s.joinFrom op n k = none := by
  rw [State.joinFrom, h]
  rfl

theorem joinFrom_of_single {op n k : Nat} {payload : List Byte} (h : s.ring.joins = [{ op := op, station := k, payload := payload }])
    (hq : joinQid payload = n) : s.joinFrom op n k = some payload := by
  rw [State.joinFrom, h]
  simp [hq]

/-- A member that waits for a neighbour goes on waiting while no join has come. -/
theorem judgeChain_of_none {n : Nat} {w : JoinWait} (hw : (s.q n).chain.wait = some w) (hsides : w.east = true ∨ w.west = true)
    (h : s.ring.joins = []) : s.judgeChain n = s := by
  unfold State.judgeChain
  simp only [hw, joinFrom_of_none h]
  split
  · rfl
  · obtain he | hw' := hsides
    · cases w.west <;> cases (s.q n).member .east <;> cases (s.q n).member .west <;> simp [he]
    · cases w.east <;> cases (s.q n).member .east <;> cases (s.q n).member .west <;> simp [hw']

theorem complete_q (s : State) (r : CmdRef) (status m : Nat) : (s.complete r status).q m = s.q m := completeAll_q s [r] status m

/-- A setup that fails leaves no chain. -/
theorem failChain_chain {n status : Nat} {w : JoinWait} (hw : (s.q n).chain.wait = some w) :
    ((s.failChain n status).q n).chain = {} := by
  rw [State.failChain, hw]
  dsimp only
  rw [complete_q, State.q_updQ, if_pos rfl]

/-- The ring without the joins heard for a queue's chain. -/
def State.forgetJoins (s : State) (n : Nat) : State :=
  { s with ring := { s.ring with joins := s.ring.joins.filter fun j => !(j.op == 4 && joinQid j.payload == n) } }

theorem forgetJoins_q (s : State) (n m : Nat) : (s.forgetJoins n).q m = s.q m := rfl

/-- A member becomes one of a chain of the stations that are present now. -/
def State.join (s : State) (n : Nat) : State :=
  (s.updQ n fun q => { q with chain := { q.chain with
    joined := true, wait := none, stations := s.chainStations q.chain.pos q.chain.nsta } }).evalFlags n

section
variable {n o : Nat} {w : JoinWait} {payload : List Byte} (hw : (s.q n).chain.wait = some w) (hleave : w.leave = false)
  (heast : w.east = true) (hwest : w.west = false) (hmember : (s.q n).member .east = some o)
  (hjoin : s.joinFrom 4 n o = some payload)
include hw hleave heast hwest hmember hjoin

/-- A head hears one neighbour: it joins when that one's fields agree. -/
theorem judgeChain_of_match (hmatch : (s.q n).chainMatches n ((s.q n).chain.pos + 1) payload = true) :
    s.judgeChain n = ((s.join n).forgetJoins n).complete w.ref St.ok := by
  unfold State.judgeChain
  simp only [hw, hleave, heast, hwest, hmember, Option.map_some, hjoin, hmatch, Bool.not_true, Bool.not_false, Bool.false_eq_true,
    Bool.or_false, Bool.and_self, if_true, if_false]
  rfl

theorem judgeChain_of_mismatch (hmatch : (s.q n).chainMatches n ((s.q n).chain.pos + 1) payload = false) :
    s.judgeChain n = (s.failChain n St.chainMismatch).forgetJoins n := by
  unfold State.judgeChain
  simp only [hw, hleave, heast, hwest, hmember, Option.map_some, hjoin, hmatch, Bool.not_true, Bool.not_false, Bool.false_eq_true,
    Bool.or_false, Bool.and_self, if_true, if_false]
  rfl

end

theorem join_chain (s : State) (n : Nat) : ((s.join n).q n).chain = { (s.q n).chain with
    joined := true, wait := none, stations := s.chainStations (s.q n).chain.pos (s.q n).chain.nsta } := by
  rw [State.join, evalFlags_alike (p := Queue.chain), State.q_updQ, if_pos rfl]

theorem join_within (s : State) (n : Nat) : Within 16777345 s (s.join n) :=
  State.evalFlags_within n (State.updQ_within n _ (Within.refl _ s) (by decide)) (by decide)

/-- The one join heard is forgotten with its chain. -/
theorem forgetJoins_single {n k : Nat} {payload : List Byte} (h : s.ring.joins = [{ op := 4, station := k, payload := payload }])
    (hq : joinQid payload = n) : (s.forgetJoins n).ring.joins = [] := by
  unfold State.forgetJoins
  rw [h]
  simp [hq]

section
variable {n o : Nat} {w : JoinWait} {payload : List Byte} (hw : (s.q n).chain.wait = some w) (hleave : w.leave = false)
  (heast : w.east = true) (hwest : w.west = false) (hmember : (s.q n).member .east = some o)
  (hjoins : s.ring.joins = [{ op := 4, station := o, payload := payload }]) (hq : joinQid payload = n)
include hw hleave heast hwest hmember hjoins hq

/-- A head whose neighbour's join is the one heard: the chain stands, and the join is forgotten. -/
theorem judgeChain_agrees (hmatch : (s.q n).chainMatches n ((s.q n).chain.pos + 1) payload = true) :
    ∃ t, s.judgeChain n = t.complete w.ref St.ok ∧ (t.q n).chain = { (s.q n).chain with
        joined := true, wait := none, stations := s.chainStations (s.q n).chain.pos (s.q n).chain.nsta } ∧
      t.ring.joins = [] ∧ Within 16777409 s t := by
  have hring : (s.join n).ring = s.ring := (join_within s n).same .ring (by decide)
  refine ⟨(s.join n).forgetJoins n,
    judgeChain_of_match hw hleave heast hwest hmember (joinFrom_of_single hjoins hq) hmatch, ?_,
    forgetJoins_single ((congrArg Ring.joins hring).trans hjoins) hq,
    ((join_within s n).mono (W := 16777409) rfl).step (withRing_within _ _) rfl⟩
  rw [forgetJoins_q, join_chain]

theorem judgeChain_disagrees (hmatch : (s.q n).chainMatches n ((s.q n).chain.pos + 1) payload = false) :
    ((s.judgeChain n).q n).chain = {} := by
  rw [judgeChain_of_mismatch hw hleave heast hwest hmember (joinFrom_of_single hjoins hq) hmatch, forgetJoins_q,
    failChain_chain hw]

end

theorem judgePair_of_none {n : Nat} (h : s.ring.joins = []) : s.judgePair n = s := by
  unfold State.judgePair
  dsimp only
  split
  · rfl
  · rw [joinFrom_of_none h]

/-- The ring without the joins heard for a pair. -/
def State.forgetPairJoins (s : State) (n : Nat) : State :=
  { s with ring := { s.ring with
    joins := s.ring.joins.filter fun j => !(j.op == 8 && joinQid j.payload == n && j.station == (s.q n).pair.peer) } }

/-- An active tail's pair stands once the shadow's join agrees. -/
theorem judgePair_of_match {n : Nat} {r : CmdRef} {payload : List Byte} (hw : (s.q n).pair.wait = some r)
    (hshadow : (s.q n).pair.shadow = false) (hjoin : s.joinFrom 8 n (s.q n).pair.peer = some payload)
    (hmatch : (s.q n).pairMatches n 0 payload = true) :
    ∃ t, s.judgePair n = t.complete r St.ok ∧
      (t.q n).pair = { (s.q n).pair with paired := true, wait := none, peerActive := false } ∧
      Within 16777281 s t := by
  let v := (s.forgetPairJoins n).updQ n fun q => { q with pair := { q.pair with paired := true, wait := none, peerActive := q.pair.shadow } }
  have hv : s.judgePair n = (if (v.q n).pairActive then v.syncNow n else v).complete r St.ok := by
    unfold State.judgePair
    simp only [hw, hjoin]
    rw [hshadow]
    simp only [Bool.false_eq_true, if_false, hmatch, if_true]
    rfl
  have hpair : (v.q n).pair = { (s.q n).pair with paired := true, wait := none, peerActive := false } := by
    rw [State.q_updQ, if_pos rfl, ← hshadow]
    rfl
  refine ⟨_, hv, ?_, ?_⟩
  · split
    · rw [syncNow_alike (p := Queue.pair), hpair]
    · exact hpair
  · have hring : Within 16777281 s (s.forgetPairJoins n) := (withRing_within s _).mono rfl
    have hwithin : Within 16777281 s v := State.updQ_within n _ hring (by decide)
    split
    · exact State.syncNow_within n hwithin (by decide)
    · exact hwithin

/-! ## Leaving a chain (R275) -/

/-- A member that ends its leaving keeps its state, and is in no chain. -/
theorem endLeaves_left {n : Nat} (hjoined : (s.q n).chain.joined = false) (hstations : (s.q n).chain.stations = []) :
    (s.endLeaves.q n).chain.joined = false ∧ (s.endLeaves.q n).chain.stations = [] ∧ (s.endLeaves.q n).st = (s.q n).st := by
  unfold State.endLeaves
  refine List.foldlRecOn (motive := fun t : State =>
    (t.q n).chain.joined = false ∧ (t.q n).chain.stations = [] ∧ (t.q n).st = (s.q n).st) _ _ ⟨hjoined, hstations, rfl⟩ ?_
  intro t ht e _
  split
  · next w _ =>
    rw [complete_q, State.q_updQ]
    split
    · next he =>
      subst he
      exact ⟨rfl, rfl, ht.2.2⟩
    · exact ht
  · exact ht

end

end Sys2Proof.Machine
end

section
/-!
SUPPORT. CHAIN_SETUP, PAIR_SETUP and FAILOVER (R275, R285, R292) where they take effect.
-/
namespace Sys2Proof.Machine
open Sys2Proof

/-! ## CHAIN_SETUP (R275, Table RR-6) -/

/-- A station that asks its chain neighbours to join. -/
def State.asksToJoin (s : State) (n : Nat) (c : Chain) : State :=
  let s := s.updQ n fun q => { q with chain := c }
  s.toNeighbours n 4 ([(2, 2, n), (4, 1, c.pos), (5, 1, c.nsta)] ++ joinFields (s.q n))

section
variable {s : State} {r : CmdRef} {d : Block512} {n : Nat} {c : Chain}

theorem asksToJoin_sends (s : State) (n : Nat) (c : Chain) : (s.updQ n fun q => { q with chain := c }).Sends (s.asksToJoin n c) :=
  toNeighbours_sends _ _ _ _

theorem asksToJoin_q (s : State) (n : Nat) (c : Chain) : (s.asksToJoin n c).q n = { s.q n with chain := c } := by
  rw [(asksToJoin_sends s n c).q, State.q_updQ, if_pos rfl]

theorem asksToJoin_other (s : State) (c : Chain) {n m : Nat} (h : m ≠ n) : (s.asksToJoin n c).q m = s.q m := by
  rw [(asksToJoin_sends s n c).q, State.q_updQ, if_neg h.symm]

theorem asksToJoin_joins (s : State) (n : Nat) (c : Chain) : (s.asksToJoin n c).ring.joins = s.ring.joins :=
  (asksToJoin_sends s n c).ringField Ring.joins

theorem asksToJoin_within (s : State) (n : Nat) (c : Chain) : Within 16777281 s (s.asksToJoin n c) :=
  (State.updQ_within n _ (Within.refl _ s) (by decide)).step (asksToJoin_sends s n c).within rfl

theorem asksToJoin_chainStations (s : State) (n : Nat) (c : Chain) (pos nsta : Nat) :
    (s.asksToJoin n c).chainStations pos nsta = s.chainStations pos nsta :=
  (asksToJoin_sends s n c).chainStations pos nsta

/-- The chain that stands once every neighbour agrees. -/
theorem asksToJoin_join_chain (hc : s.chainStations c.pos c.nsta = c.stations) :
    (((s.asksToJoin n c).join n).q n).chain = { c with joined := true, wait := none } := by
  rw [join_chain, asksToJoin_q]
  show ({ c with joined := true, wait := none, stations := (s.asksToJoin n c).chainStations c.pos c.nsta } : Chain) = _
  rw [asksToJoin_chainStations, hc]

theorem doChainSetup_refused (h : s.chainStatus r.fn d ≠ St.ok) : s.doChainSetup r d = s.complete r (s.chainStatus r.fn d) := if_pos h

theorem doChainSetup_joining (hok : s.chainStatus r.fn d = St.ok) (hop : fld d 144 2 = 0) :
    s.doChainSetup r d =
      (s.asksToJoin (qidOf d) (s.newChain (qidOf d) r (fld d 146 2) (fld d 148 3))).judgeChain (qidOf d) := by
  unfold State.doChainSetup
  simp only [hok, hop, ne_eq, not_true, if_false, if_true]
  rfl

/-- A CHAIN_SETUP that passes its checks names a position of a chain of two stations or more. -/
theorem chainStatus_position {fn : Nat} (hok : s.chainStatus fn d = St.ok) : 2 ≤ fld d 148 3 ∧ fld d 146 2 < fld d 148 3 := by
  obtain ⟨-, hok⟩ := firstFail_pass hok (by decide)
  obtain ⟨hfields, -⟩ := firstFail_pass hok (by decide)
  simp only [Bool.or_eq_false_iff, decide_eq_false_iff_not] at hfields
  omega

/-- The state in which a member that leaves waits for its neighbours to acknowledge. -/
def State.leaving (s : State) (r : CmdRef) (n : Nat) : State :=
  (s.toNeighbours n 5 [(2, 2, n), (4, 1, 4), (8, 5, (s.q n).committed % 2 ^ 40)]).updQ n
    fun q => { q with chain := { wait := some { ref := r, leave := true } } }

theorem doChainSetup_leaving (hok : s.chainStatus r.fn d = St.ok) (hop : fld d 144 2 ≠ 0) :
    s.doChainSetup r d = (s.leaving r (qidOf d)).endLeaves := by
  unfold State.doChainSetup
  simp only [hok, hop, ne_eq, not_true, if_false]
  rfl

theorem leaving_q (s : State) (r : CmdRef) (n : Nat) :
    (s.leaving r n).q n = { s.q n with chain := { wait := some { ref := r, leave := true } } } := by
  rw [State.leaving, State.q_updQ, if_pos rfl, (toNeighbours_sends s n 5 _).q]

/-! ## PAIR_SETUP (R285, Table RR-9) -/

/-- A station that asks the other tail for a pair. -/
def State.asksToPair (s : State) (n role : Nat) (p : Pair) : State :=
  let s := s.updQ n fun q => { q with pair := p }
  s.sendCtrl p.peer 8 ([(2, 2, n), (4, 1, role)] ++ joinFields (s.q n))

/-- The pair a PAIR_SETUP asks for. -/
def newPair (r : CmdRef) (d : Block512) : Pair :=
  { shadow := fld d 146 1 == 1, peer := fld d 148 3, tmo := if fld d 152 8 = 0 then 50 else fld d 152 8, wait := some r }

theorem asksToPair_sends (s : State) (n role : Nat) (p : Pair) :
    (s.updQ n fun q => { q with pair := p }).Sends (s.asksToPair n role p) := sendCtrl_sends _ _ _ _

theorem asksToPair_q (s : State) (n role : Nat) (p : Pair) : (s.asksToPair n role p).q n = { s.q n with pair := p } := by
  rw [(asksToPair_sends s n role p).q, State.q_updQ, if_pos rfl]

theorem asksToPair_other (s : State) (role : Nat) (p : Pair) {n m : Nat} (h : m ≠ n) : (s.asksToPair n role p).q m = s.q m := by
  rw [(asksToPair_sends s n role p).q, State.q_updQ, if_neg h.symm]

theorem asksToPair_joins (s : State) (n role : Nat) (p : Pair) : (s.asksToPair n role p).ring.joins = s.ring.joins :=
  (asksToPair_sends s n role p).ringField Ring.joins

theorem asksToPair_within (s : State) (n role : Nat) (p : Pair) : Within 16777281 s (s.asksToPair n role p) :=
  (State.updQ_within n _ (Within.refl _ s) (by decide)).step (asksToPair_sends s n role p).within rfl

theorem doPairSetup_refused (h : s.pairStatus r.fn d ≠ St.ok) : s.doPairSetup r d = s.complete r (s.pairStatus r.fn d) := if_pos h

theorem doPairSetup_joining (hok : s.pairStatus r.fn d = St.ok) (hop : fld d 144 2 = 0) :
    s.doPairSetup r d = (s.asksToPair (qidOf d) (fld d 146 1) (newPair r d)).judgePair (qidOf d) := by
  unfold State.doPairSetup
  simp only [hok, hop, ne_eq, not_true, if_false, if_true]
  rfl

theorem doPairSetup_ending (hok : s.pairStatus r.fn d = St.ok) (hop : fld d 144 2 ≠ 0) :
    s.doPairSetup r d = ((s.endFailovers (qidOf d)).updQ (qidOf d) fun q => { q with pair := {} }).complete r St.ok := by
  unfold State.doPairSetup
  simp only [hok, hop, ne_eq, not_true, if_false]

/-! ## FAILOVER (R292) -/

/-- A FAILOVER that waits at its tail. -/
def State.awaitsFailover (s : State) (n : Nat) (r : CmdRef) : State :=
  s.updQ n fun q => { q with pair := { q.pair with failoverWait := q.pair.failoverWait ++ [r] } }

/-- The active tail finishes its message first. -/
def State.stopping (s : State) (n : Nat) : State := s.updQ n fun q => { q with pair := { q.pair with stopping := true } }

theorem awaitsFailover_pair (s : State) (n : Nat) (r : CmdRef) : ((s.awaitsFailover n r).q n).pair =
    { (s.q n).pair with failoverWait := (s.q n).pair.failoverWait ++ [r] } := by
  rw [State.awaitsFailover, State.q_updQ, if_pos rfl]

theorem stopping_pair (s : State) (n : Nat) : ((s.stopping n).q n).pair = { (s.q n).pair with stopping := true } := by
  rw [State.stopping, State.q_updQ, if_pos rfl]

theorem awaitsFailover_alike {α : Type} {p : Queue → α} (s : State) (n : Nat) (r : CmdRef)
    (hp : ∀ q pair, p { q with pair := pair } = p q := by intro q _; rfl) : s.Alike p (s.awaitsFailover n r) :=
  updQ_alike s n fun q => hp q _

theorem stopping_alike {α : Type} {p : Queue → α} (s : State) (n : Nat)
    (hp : ∀ q pair, p { q with pair := pair } = p q := by intro q _; rfl) : s.Alike p (s.stopping n) :=
  updQ_alike s n fun q => hp q _

theorem doFailover_refused (h : s.failoverStatus r.fn d ≠ St.ok) : s.doFailover r d = s.complete r (s.failoverStatus r.fn d) :=
  if_pos h

theorem doFailover_shadow (hok : s.failoverStatus r.fn d = St.ok) (hshadow : (s.q (qidOf d)).pair.shadow = true) :
    s.doFailover r d = if bit d 144 then (s.awaitsFailover (qidOf d) r).takeover (qidOf d) else s.awaitsFailover (qidOf d) r := by
  have hshadow' : ((s.awaitsFailover (qidOf d) r).q (qidOf d)).pair.shadow = true := by rw [awaitsFailover_pair]; exact hshadow
  unfold State.doFailover
  simp only [hok, ne_eq, not_true, if_false]
  exact if_pos hshadow'

theorem doFailover_active (hok : s.failoverStatus r.fn d = St.ok) (hactive : (s.q (qidOf d)).pair.shadow = false) :
    s.doFailover r d = if bit d 144 then (s.awaitsFailover (qidOf d) r).abdicate (qidOf d)
      else if (((s.awaitsFailover (qidOf d) r).stopping (qidOf d)).q (qidOf d)).rmsg.isNone then
        ((s.awaitsFailover (qidOf d) r).stopping (qidOf d)).syncNow (qidOf d)
      else (s.awaitsFailover (qidOf d) r).stopping (qidOf d) := by
  have hactive' : ¬ ((s.awaitsFailover (qidOf d) r).q (qidOf d)).pair.shadow = true := by
    rw [awaitsFailover_pair]
    simp [hactive]
  unfold State.doFailover
  simp only [hok, ne_eq, not_true, if_false]
  exact if_neg hactive'

end

/-! ## What each command does -/

section
variable {g : Fin 16} {d : Block512} {s : State}

/-- What a command that was fetched and waits has changed. -/
theorem keeps_of_fetched {t : State} (h : Within 16777409 (s.fetched g.val d) t) :
    s.keeps t [.queues, .ring, .funcs, .cmdSerial, .host, .out] :=
  keeps_of_mask (((fetched_within s g.val d).mono (W := 16778177) rfl).step h rfl) (by decide)

section
variable (h : s.Accepts g.val 0x40 d)
include h

theorem exec_chainSetup : exec (.chainSetup g d) s = .next ((s.fetched g.val d).doChainSetup (s.nextRef g.val d) d) :=
  exec_of_accepts rfl h hasEffect_chainSetup

theorem chainSetup_refused (hst : (s.fetched g.val d).chainStatus g.val d ≠ St.ok) : exec (.chainSetup g d) s =
    .next (s.endsWith g.val d (s.fetched g.val d) ((s.fetched g.val d).chainStatus g.val d)) := by
  rw [exec_chainSetup h, doChainSetup_refused hst]
  rfl

section
variable (hok : (s.fetched g.val d).chainStatus g.val d = St.ok) (hop : fld d 144 2 = 0)
include hok hop

theorem chainSetup_joining : exec (.chainSetup g d) s = .next (((s.fetched g.val d).asksToJoin (qidOf d)
    (s.newChain (qidOf d) (s.nextRef g.val d) (fld d 146 2) (fld d 148 3))).judgeChain (qidOf d)) := by
  rw [exec_chainSetup h, doChainSetup_joining hok hop]
  rfl

/-- Without a join heard the command waits, and the setup stands at this member alone. -/
theorem chainSetup_waits (hjoins : s.ring.joins = []) : ∃ t, exec (.chainSetup g d) s = .next t ∧
    (t.q (qidOf d)).chain = s.newChain (qidOf d) (s.nextRef g.val d) (fld d 146 2) (fld d 148 3) ∧
    (∀ m, m ≠ qidOf d → t.q m = s.q m) ∧ s.keeps t [.queues, .ring, .funcs, .cmdSerial, .host, .out] := by
  let c := s.newChain (qidOf d) (s.nextRef g.val d) (fld d 146 2) (fld d 148 3)
  let t := (s.fetched g.val d).asksToJoin (qidOf d) c
  obtain ⟨hnsta, hpos⟩ := chainStatus_position hok
  have hchain : (t.q (qidOf d)).chain = c := congrArg Queue.chain (asksToJoin_q _ _ _)
  have hwait : (t.q (qidOf d)).chain.wait = c.wait := congrArg Chain.wait hchain
  have hsides : decide (fld d 146 2 + 1 < fld d 148 3) = true ∨ decide (0 < fld d 146 2) = true := by
    simp only [decide_eq_true_eq]
    omega
  have hstays : t.judgeChain (qidOf d) = t :=
    judgeChain_of_none hwait hsides ((asksToJoin_joins _ _ _).trans hjoins)
  refine ⟨t, ?_, hchain, fun m hm => asksToJoin_other _ _ hm, keeps_of_fetched ((asksToJoin_within _ _ _).mono rfl)⟩
  rw [chainSetup_joining h hok hop]
  exact congrArg _ hstays

section
variable {o : Nat} {p : List Byte} (hpos : fld d 146 2 = 0) (hnext : (s.chainStations (fld d 146 2) (fld d 148 3))[1]? = some o)
  (hjoins : s.ring.joins = [{ op := 4, station := o, payload := p }]) (hqid : joinQid p = qidOf d)
include hpos hnext hjoins hqid

/-- A head whose neighbour has asked already is judged at once. -/
theorem chainSetup_heard :
    let c := s.newChain (qidOf d) (s.nextRef g.val d) (fld d 146 2) (fld d 148 3)
    (({ s.q (qidOf d) with chain := c } : Queue).chainMatches (qidOf d) 1 p = true →
      ∃ u, exec (.chainSetup g d) s = .next (s.endsWith g.val d u St.ok) ∧
        (u.q (qidOf d)).chain = { c with joined := true, wait := none }) ∧
    (({ s.q (qidOf d) with chain := c } : Queue).chainMatches (qidOf d) 1 p = false →
      ∃ u, exec (.chainSetup g d) s = .next u ∧ (u.q (qidOf d)).chain = {}) := by
  intro c
  let t := (s.fetched g.val d).asksToJoin (qidOf d) c
  obtain ⟨hnsta, -⟩ := chainStatus_position hok
  have hq : t.q (qidOf d) = { s.q (qidOf d) with chain := c } := asksToJoin_q _ _ _
  have hwait : (t.q (qidOf d)).chain.wait = c.wait := by rw [hq]
  have heast : decide (fld d 146 2 + 1 < fld d 148 3) = true := by
    rw [decide_eq_true_eq]
    omega
  have hwest : decide (0 < fld d 146 2) = false := by
    rw [decide_eq_false_iff_not]
    omega
  have hmember : (t.q (qidOf d)).member .east = some o := by
    have hat : c.pos + 1 = 1 := congrArg (· + 1) hpos
    rw [hq, ← hnext]
    show c.stations[c.pos + 1]? = c.stations[1]?
    rw [hat]
  have hjoin : t.joinFrom 4 (qidOf d) o = some p := joinFrom_of_single ((asksToJoin_joins _ _ _).trans hjoins) hqid
  have hat : (t.q (qidOf d)).chain.pos + 1 = 1 := by
    rw [hq]
    exact congrArg (· + 1) hpos
  have hstations : (s.fetched g.val d).chainStations c.pos c.nsta = c.stations := rfl
  constructor
  · intro hmatch
    refine ⟨(t.join (qidOf d)).forgetJoins (qidOf d), ?_, ?_⟩
    · rw [chainSetup_joining h hok hop]
      exact congrArg _ (judgeChain_of_match hwait rfl heast hwest hmember hjoin (by rw [hat, hq]; exact hmatch))
    · rw [forgetJoins_q, asksToJoin_join_chain hstations]
  · intro hmatch
    refine ⟨(t.failChain (qidOf d) St.chainMismatch).forgetJoins (qidOf d), ?_, ?_⟩
    · rw [chainSetup_joining h hok hop]
      exact congrArg _ (judgeChain_of_mismatch hwait rfl heast hwest hmember hjoin (by rw [hat, hq]; exact hmatch))
    · rw [forgetJoins_q, failChain_chain hwait]

end

end

theorem chainSetup_leaves (hok : (s.fetched g.val d).chainStatus g.val d = St.ok) (hop : fld d 144 2 ≠ 0) :
    ∃ t, exec (.chainSetup g d) s = .next t ∧ (t.q (qidOf d)).chain.joined = false ∧ (t.q (qidOf d)).chain.stations = [] ∧
      (t.q (qidOf d)).st = (s.q (qidOf d)).st := by
  have hq := leaving_q (s.fetched g.val d) (s.nextRef g.val d) (qidOf d)
  obtain ⟨hjoined, hstations, hst⟩ := endLeaves_left (n := qidOf d) (congrArg (fun q : Queue => q.chain.joined) hq)
    (congrArg (fun q : Queue => q.chain.stations) hq)
  refine ⟨_, ?_, hjoined, hstations, hst.trans ?_⟩
  · rw [exec_chainSetup h, doChainSetup_leaving hok hop]
  · rw [hq]
    rfl

end

section
variable (h : s.Accepts g.val 0x41 d)
include h

theorem exec_pairSetup : exec (.pairSetup g d) s = .next ((s.fetched g.val d).doPairSetup (s.nextRef g.val d) d) :=
  exec_of_accepts rfl h hasEffect_pairSetup

theorem pairSetup_refused (hst : (s.fetched g.val d).pairStatus g.val d ≠ St.ok) : exec (.pairSetup g d) s =
    .next (s.endsWith g.val d (s.fetched g.val d) ((s.fetched g.val d).pairStatus g.val d)) := by
  rw [exec_pairSetup h, doPairSetup_refused hst]
  rfl

section
variable (hok : (s.fetched g.val d).pairStatus g.val d = St.ok)
include hok

theorem pairSetup_waits (hop : fld d 144 2 = 0) (hjoins : s.ring.joins = []) : ∃ t, exec (.pairSetup g d) s = .next t ∧
    (t.q (qidOf d)).pair = newPair (s.nextRef g.val d) d ∧ (∀ m, m ≠ qidOf d → t.q m = s.q m) ∧
    s.keeps t [.queues, .ring, .funcs, .cmdSerial, .host, .out] := by
  refine ⟨(s.fetched g.val d).asksToPair (qidOf d) (fld d 146 1) (newPair (s.nextRef g.val d) d), ?_,
    congrArg Queue.pair (asksToPair_q _ _ _ _), fun m hm => asksToPair_other _ _ _ hm,
    keeps_of_fetched ((asksToPair_within _ _ _ _).mono rfl)⟩
  rw [exec_pairSetup h, doPairSetup_joining hok hop, judgePair_of_none ((asksToPair_joins (s.fetched g.val d) _ _ _).trans hjoins)]

theorem pairSetup_agrees {b : List Byte} (hop : fld d 144 2 = 0) (hrole : fld d 146 1 = 0) (hqid : joinQid b = qidOf d)
    (hjoins : s.ring.joins = [{ op := 8, station := fld d 148 3, payload := b }])
    (hmatch : ({ s.q (qidOf d) with pair := newPair (s.nextRef g.val d) d } : Queue).pairMatches (qidOf d) 0 b = true) :
    ∃ u, exec (.pairSetup g d) s = .next (s.endsWith g.val d u St.ok) ∧
      (u.q (qidOf d)).pair = { newPair (s.nextRef g.val d) d with paired := true, wait := none } := by
  let t := (s.fetched g.val d).asksToPair (qidOf d) (fld d 146 1) (newPair (s.nextRef g.val d) d)
  have hq : t.q (qidOf d) = { s.q (qidOf d) with pair := newPair (s.nextRef g.val d) d } := asksToPair_q _ _ _ _
  have hwait : (t.q (qidOf d)).pair.wait = some (s.nextRef g.val d) := by rw [hq]; rfl
  have hshadow : (t.q (qidOf d)).pair.shadow = false := by
    rw [hq]
    show (fld d 146 1 == 1) = false
    rw [hrole]
    rfl
  have hpeer : (t.q (qidOf d)).pair.peer = fld d 148 3 := by rw [hq]; rfl
  have hjoin : t.joinFrom 8 (qidOf d) (t.q (qidOf d)).pair.peer = some b := by
    rw [hpeer]
    exact joinFrom_of_single ((asksToPair_joins _ _ _ _).trans hjoins) hqid
  obtain ⟨u, hjudge, hpair, -⟩ := judgePair_of_match hwait hshadow hjoin (by rw [hq]; exact hmatch)
  refine ⟨u, ?_, ?_⟩
  · rw [exec_pairSetup h, doPairSetup_joining hok hop]
    exact congrArg _ hjudge
  · rw [hpair, hq]
    rfl

theorem pairSetup_ends (hop : fld d 144 2 ≠ 0) (hwaits : (s.q (qidOf d)).pair.failoverWait = []) :
    ∃ u, exec (.pairSetup g d) s = .next (s.endsWith g.val d u St.ok) ∧ (u.q (qidOf d)).pair = {} ∧
      (u.q (qidOf d)).st = (s.q (qidOf d)).st ∧ s.keeps u [.queues, .funcs, .cmdSerial, .host] := by
  refine ⟨((s.fetched g.val d).endFailovers (qidOf d)).updQ (qidOf d) fun q => { q with pair := {} }, ?_, ?_, ?_, ?_⟩
  · rw [exec_pairSetup h, doPairSetup_ending hok hop]
    rfl
  · rw [State.q_updQ, if_pos rfl]
  · rw [State.q_updQ, if_pos rfl, endFailovers_of_none (s := s.fetched g.val d) hwaits, State.q_updQ, if_pos rfl]
    rfl
  · rw [endFailovers_of_none (s := s.fetched g.val d) hwaits]
    exact keeps_of_mask (M := 897) (State.updQ_within _ _ (State.updQ_within _ _ ((fetched_within s g.val d).mono rfl)
      (by decide)) (by decide)) (by decide)

end

end

section
variable (h : s.Accepts g.val 0x42 d)
include h

theorem exec_failover : exec (.failover g d) s = .next ((s.fetched g.val d).doFailover (s.nextRef g.val d) d) :=
  exec_of_accepts rfl h hasEffect_failover

theorem failover_refused (hst : (s.fetched g.val d).failoverStatus g.val d ≠ St.ok) : exec (.failover g d) s =
    .next (s.endsWith g.val d (s.fetched g.val d) ((s.fetched g.val d).failoverStatus g.val d)) := by
  rw [exec_failover h, doFailover_refused hst]
  rfl

section
variable (hok : (s.fetched g.val d).failoverStatus g.val d = St.ok)
include hok

theorem failover_shadow_waits (hshadow : (s.q (qidOf d)).pair.shadow = true) (hforce : bit d 144 = false) :
    exec (.failover g d) s = .next ((s.fetched g.val d).updQ (qidOf d) fun q =>
      { q with pair := { (s.q (qidOf d)).pair with
        failoverWait := (s.q (qidOf d)).pair.failoverWait ++ [s.nextRef g.val d] } }) := by
  rw [exec_failover h, doFailover_shadow (s := s.fetched g.val d) hok hshadow, hforce]
  rfl

theorem failover_finishes_first (hactive : (s.q (qidOf d)).pair.shadow = false) (hforce : bit d 144 = false) :
    ∃ t, exec (.failover g d) s = .next t ∧ (t.q (qidOf d)).pair = { (s.q (qidOf d)).pair with
        failoverWait := (s.q (qidOf d)).pair.failoverWait ++ [s.nextRef g.val d], stopping := true } ∧
      (t.q (qidOf d)).rptr = (s.q (qidOf d)).rptr ∧ s.keeps t [.queues, .ring, .funcs, .cmdSerial, .host, .out] := by
  let t := ((s.fetched g.val d).awaitsFailover (qidOf d) (s.nextRef g.val d)).stopping (qidOf d)
  have hwithin : Within 16777409 (s.fetched g.val d) t :=
    State.updQ_within _ _ (State.updQ_within _ _ (Within.refl _ _) (by decide)) (by decide)
  have hpair : (t.q (qidOf d)).pair = { (s.q (qidOf d)).pair with
      failoverWait := (s.q (qidOf d)).pair.failoverWait ++ [s.nextRef g.val d], stopping := true } := by
    rw [stopping_pair, awaitsFailover_pair]
    rfl
  have hrptr : (t.q (qidOf d)).rptr = (s.q (qidOf d)).rptr :=
    ((awaitsFailover_alike (p := Queue.rptr) _ _ _).trans (stopping_alike _ _)) (qidOf d)
  have hexec : exec (.failover g d) s =
      .next (if (t.q (qidOf d)).rmsg.isNone then t.syncNow (qidOf d) else t) := by
    rw [exec_failover h, doFailover_active (s := s.fetched g.val d) hok hactive, hforce, if_neg Bool.false_ne_true]
  refine ⟨_, hexec, ?_, ?_, ?_⟩
  · split
    · rw [syncNow_alike (p := Queue.pair), hpair]
    · exact hpair
  · split
    · rw [syncNow_alike (p := Queue.rptr), hrptr]
    · exact hrptr
  · split
    · exact keeps_of_fetched (State.syncNow_within _ hwithin (by decide))
    · exact keeps_of_fetched hwithin

section
variable (hpaired : (s.q (qidOf d)).pair.paired = true)
include hpaired

theorem failover_takes_over (hshadow : (s.q (qidOf d)).pair.shadow = true) (hforce : bit d 144 = true)
    (hheld : (s.q (qidOf d)).st ≠ .held) (hwaits : (s.q (qidOf d)).pair.failoverWait = []) :
    ∃ u, exec (.failover g d) s = .next (s.endsWith g.val d u St.ok) ∧ (u.q (qidOf d)).pair = { (s.q (qidOf d)).pair with
      shadow := false, out := false, stopping := false, gen := ((s.q (qidOf d)).pair.gen + 1) % 128, peerActive := false
      failWatch := false } := by
  let f := s.fetched g.val d
  let t := f.awaitsFailover (qidOf d) (s.nextRef g.val d)
  have hpair : (t.q (qidOf d)).pair = { (s.q (qidOf d)).pair with failoverWait := [s.nextRef g.val d] } := by
    rw [awaitsFailover_pair]
    show ({ (s.q (qidOf d)).pair with failoverWait := (s.q (qidOf d)).pair.failoverWait ++ [s.nextRef g.val d] } : Pair) = _
    rw [hwaits]
    rfl
  have hst : (t.q (qidOf d)).st = (s.q (qidOf d)).st :=
    awaitsFailover_alike (p := Queue.st) f (qidOf d) (s.nextRef g.val d) (fun _ _ => rfl) (qidOf d)
  obtain ⟨u, htake, hupair, -⟩ := takeover_spec (s := t) (n := qidOf d) (by rw [hpair]; exact hpaired)
    (by rw [hpair]; exact hshadow) (by rw [hst]; exact hheld)
  refine ⟨u, ?_, ?_⟩
  · rw [exec_failover h, doFailover_shadow (s := s.fetched g.val d) hok hshadow, hforce, if_pos rfl, htake, hpair]
    rfl
  · rw [hupair, hpair]
    exact Pair.tookOver_of_none hwaits

theorem failover_abdicates (hactive : (s.q (qidOf d)).pair.shadow = false) (hforce : bit d 144 = true) (hin : (s.q (qidOf d)).pair.out = false) :
    ∃ t, exec (.failover g d) s = .next t ∧ (t.q (qidOf d)).pair = { (s.q (qidOf d)).pair with
        failoverWait := (s.q (qidOf d)).pair.failoverWait ++ [s.nextRef g.val d], out := true } ∧
      s.keeps t [.queues, .ring, .funcs, .cmdSerial, .host, .out] := by
  let t := (s.fetched g.val d).awaitsFailover (qidOf d) (s.nextRef g.val d)
  have hpair := awaitsFailover_pair (s.fetched g.val d) (qidOf d) (s.nextRef g.val d)
  refine ⟨t.abdicate (qidOf d), ?_, ?_, keeps_of_fetched (State.abdicate_within _ (State.updQ_within _ _ (Within.refl _ _) (by decide))
    (by decide))⟩
  · rw [exec_failover h, doFailover_active (s := s.fetched g.val d) hok hactive, hforce, if_pos rfl]
  · rw [abdicate_pair (s := t) (by rw [hpair]; exact hpaired) (by rw [hpair]; exact hactive) (by rw [hpair]; exact hin), hpair]
    rfl

end

end

end

end

/-! ## The statement -/

/-- Settles O59: each command is judged by the first status that applies, and each of its effects has its lemma above. -/
theorem chainPairAndFailoverCommands : Obligations.ChainPairAndFailoverCommands := by
  unfold Obligations.ChainPairAndFailoverCommands
  intro g d s f n q r
  refine ⟨fun h => ?_, fun h => ?_, fun h => ?_⟩
  · intro pos nsta c
    exact ⟨chainSetup_refused h, chainSetup_waits h, fun _ _ hok hop hpos hnext hjoins hqid =>
      chainSetup_heard h hok hop hpos hnext hjoins hqid, chainSetup_leaves h⟩
  · intro p
    exact ⟨pairSetup_refused h, pairSetup_waits h, fun _ hok hop hrole hqid hjoins hmatch =>
      pairSetup_agrees h hok hop hrole hqid hjoins hmatch, pairSetup_ends h⟩
  · intro p waiting
    exact ⟨failover_refused h, fun hok _ hshadow hforce => failover_shadow_waits h hok hshadow hforce,
      fun hok hpaired hshadow hforce hheld hwaits => failover_takes_over h hok hpaired hshadow hforce hheld hwaits,
      fun hok hpaired hactive hforce hin => failover_abdicates h hok hpaired hactive hforce hin,
      fun hok _ hactive hforce => failover_finishes_first h hok hactive hforce⟩

end Sys2Proof.Machine
end

section
/-!
SUPPORT. A chain member is lost (R284, Table RR-7): what holding a queue keeps of its chain, and what a loss leaves.
-/
namespace Sys2Proof.Machine
open Sys2Proof

/-! ## Holding a queue keeps what is known of losses -/

/-- Whether a queue's chain is void, and the members it has lost. -/
def Queue.losses (q : Queue) : Bool × List Nat := (q.chain.void, q.chain.lost)

section
variable {s : State} {n : Nat}

theorem alike_ite {α : Type} {p : Queue → α} {t u : State} {c : Prop} [Decidable c] (ht : s.Alike p t) (hu : s.Alike p u) :
    s.Alike p (if c then t else u) := by
  split
  · exact ht
  · exact hu

theorem raiseQ_alike {α : Type} {p : Queue → α} (s : State) (code n b : Nat) : s.Alike p (s.raiseQ code n b) :=
  .of_within (State.raiseQ_within code n b (Within.refl _ s) (Nat.or_self _)) (by decide)

theorem wrBytes_alike {α : Type} {p : Queue → α} (s : State) (q : Queue) (pos : Nat) (bs : List Byte) :
    s.Alike p (s.wrBytes q pos bs) :=
  .of_within (State.wrBytes_within q pos bs (Within.refl _ s) (Nat.or_self _)) (by decide)

theorem settleFfMarks_losses (s : State) (n : Nat) (removed : Option Nat) : s.Alike Queue.losses (s.settleFfMarks n removed) := by
  unfold State.settleFfMarks
  dsimp only
  split
  · have hcleared : s.Alike Queue.losses (s.setQ n { s.q n with chain := { (s.q n).chain with marks := [] } }) := setQ_alike rfl
    split
    · exact hcleared.trans (.foldl (fun t m => (sendCtrl_sends t _ _ _).alike) _ (.refl _ _))
    · exact hcleared
  · exact .refl _ s

theorem finishMsg_losses (s : State) (n : Nat) (trunc : Bool) : s.Alike Queue.losses (s.finishMsg n trunc) := by
  unfold State.finishMsg
  dsimp only
  split
  · exact .refl _ s
  · exact (((wrBytes_alike s _ _ _).trans (wrBytes_alike _ _ _ _)).trans (updQ_alike _ n)).trans (settleFfMarks_losses _ n none)

theorem flushBlock_losses (s : State) (n : Nat) : s.Alike Queue.losses (s.flushBlock n) := by
  unfold State.flushBlock
  dsimp only
  split
  · exact .refl _ s
  · split
    · refine (wrBytes_alike s _ _ _).trans (setQ_alike ?_)
      exact (wrBytes_alike (p := Queue.losses) s _ _ _ n).symm
    · exact .refl _ s

theorem stopWrite_losses (s : State) (n : Nat) : s.Alike Queue.losses (s.stopWrite n) := by
  have hclear : s.Alike Queue.losses (s.updQ n fun q => { q with skip := none, nak := none }) := updQ_alike s n
  unfold State.stopWrite
  dsimp only
  split
  · exact hclear
  · refine hclear.trans ?_
    split
    · split
      · exact .refl _ _
      · next w _ =>
        have hcut : ∀ t : State, t.Alike Queue.losses
            (((if (s.q n).part.isEmpty = true then t else t.raiseQ 0x002 n w.msn.toNat).flushBlock n).finishMsg n true) := by
          intro t
          refine State.Alike.trans ?_ ((flushBlock_losses _ n).trans (finishMsg_losses _ n true))
          split
          · exact .refl _ _
          · exact raiseQ_alike _ _ _ _
        have hdropped : ∀ t : State, t.Alike Queue.losses ((t.settleFfMarks n (some w.start)).updQ n fun q => { q with
            wmsg := none, wptr := w.start, part := [], pack := [], marks := q.settleMarks w.start
            partialCnt := inc32 q.partialCnt
            kerb := { q.kerb with stamps := q.kerb.stamps.filter fun t => decide (t.1 < w.start) } }) := fun t =>
          (settleFfMarks_losses t n _).trans (updQ_alike _ n)
        exact alike_ite (hcut _) (hdropped _)
    · have hpart : ∀ t : State, t.Alike Queue.losses
          (if (s.q n).part.isEmpty = true then t else (t.updQ n fun q => { q with part := [] }).raiseQ 0x002 n 0) := by
        intro t
        split
        · exact .refl _ t
        · exact (updQ_alike t n).trans (raiseQ_alike _ _ _ _)
      split
      · exact hpart _
      · exact (((hpart _).trans (wrBytes_alike _ _ _ _)).trans (updQ_alike _ n)).trans (raiseQ_alike _ _ _ _)

theorem post_alike {α : Type} {p : Queue → α} (s : State) (g : Nat) (e : Event) : s.Alike p (s.post g e) :=
  .of_within (State.post_within g e (Within.refl _ s) (Nat.or_self _)) (by decide)

theorem hold_losses (s : State) (n reason : Nat) : s.Alike Queue.losses (s.hold n reason) := by
  unfold State.hold
  dsimp only
  split
  · have hstop : s.Alike Queue.losses (((s.stopWrite n).stopRead n).updQ n fun q =>
        { q with st := .held, resume := q.st, why := 2 ^ reason }) :=
      ((stopWrite_losses s n).trans (stopRead_alike _ n)).trans (updQ_alike _ n)
    have hrest : ∀ t : State, s.Alike Queue.losses t → ∀ e : Event, s.Alike Queue.losses
        (((t.updQ n fun q => { q.spoilInterval with
          pair := if q.pair.paired && !q.pair.shadow then { q.pair with out := true } else q.pair }).post (ownerOf n) e).evalFlags n) :=
      fun t ht e => ((ht.trans (updQ_alike _ n)).trans (post_alike _ _ e)).trans (evalFlags_alike _ n)
    by_cases hheld : (s.q n).st = .held
    · simp only [if_pos hheld]
      refine hrest _ ?_ _
      exact setQ_alike rfl
    · simp only [if_neg hheld]
      exact (hrest _ hstop _).trans (syncNow_alike _ n)
  · exact .refl _ s

/-! ## A loss -/

/-- The loss of another station that is a member: the setup is void, and the station is among the lost; the head's loss leaves the
others to drain. -/
theorem loseMember_spec {t : Nat} (hchained : (s.q n).chained = true) (hmember : t ∈ (s.q n).chain.stations) (hother : t ≠ s.station)
    (hpaired : (s.q n).pair.paired = false) :
    ((s.loseMember n t).q n).chain.void = true ∧ ((s.loseMember n t).q n).chain.lost = (s.q n).chain.lost ++ [t] ∧
      ((s.q n).chain.stations.head? = some t → ((s.loseMember n t).q n).st = (s.q n).st) := by
  let v := s.setQ n { s.q n with chain := { (s.q n).chain with void := true, lost := (s.q n).chain.lost ++ [t] } }
  have hcond : ((s.q n).chained && (s.q n).chain.stations.contains t && t != s.station) = true := by
    simp [hchained, hmember, hother]
  have htold : ((v.tellLoss n).q n) = v.q n := (tellLoss_sends v n).q n
  have hv : v.q n = { s.q n with chain := { (s.q n).chain with void := true, lost := (s.q n).chain.lost ++ [t] } } := by
    rw [State.q_setQ, if_pos rfl]
  have hstays : (v.tellLoss n).abdicate n = v.tellLoss n := abdicate_of_unpaired (by rw [htold, hv]; exact hpaired)
  have hlose : s.loseMember n t =
      if (s.q n).chain.stations.head? = some t then v.tellLoss n else (v.tellLoss n).hold n 3 := by
    rw [State.loseMember, if_pos hcond]
    show (if _ then (v.tellLoss n).abdicate n else ((v.tellLoss n).abdicate n).hold n 3) = _
    rw [hstays]
  have hlosses : ((s.loseMember n t).q n).losses = (true, (s.q n).chain.lost ++ [t]) := by
    rw [hlose]
    split
    · rw [htold, hv]
      rfl
    · rw [hold_losses, htold, hv]
      rfl
  refine ⟨congrArg Prod.fst hlosses, congrArg Prod.snd hlosses, fun hhead => ?_⟩
  rw [hlose, if_pos hhead, htold, hv]

end

end Sys2Proof.Machine
end

section
/-!
SUPPORT. The ring's timers (R262, R264, R270, R283, R284): HELLO, the map, acknowledgement, resending, SYNC and sides that stay down.
-/
namespace Sys2Proof.Machine
open Sys2Proof

section
variable {s : State} {d : Side}

/-! ## HELLO (R264) -/

/-- A frame that goes out of a side where it is live. -/
def State.offer (s : State) (d : Side) (f : Frame) : State := if s.sideLive d then s.pushFrame d f none else s

theorem broadcastCtrl_of_once {op : Nat} {args : List (Nat × Nat × Nat)} {f : Frame} {u : State} (hop : ctrlRepeats op = false)
    (hf : s.controlFrame 2 0 true (ctrlPayload op args) = some (f, u)) :
    s.broadcastCtrl op args = (u.offer .east f).offer .west f := by
  unfold State.broadcastCtrl
  simp only [hf, hop, Bool.false_eq_true, if_false]
  rfl

theorem offer_sendsOn (s : State) (d : Side) (f : Frame) : s.SendsOn d (s.offer d f) := by
  unfold State.offer
  split
  · exact pushFrame_sendsOn s d f none
  · exact .refl d s

theorem offer_out {f : Frame} (h : s.CanSend d f) : (s.offer d f).out = .frame d (s.nextStamp d f) :: s.out := by
  rw [State.offer, if_pos h.live, pushFrame_of_canSend h, launch_out]

/-- What one side sends leaves the other side as it was. -/
theorem State.CanSend.after {t : State} {e : Side} {f : Frame} (h : s.CanSend d f) (ht : s.SendsOn e t) (hne : d ≠ e) :
    t.CanSend d f ∧ t.nextStamp d f = s.nextStamp d f := by
  have hside : t.side d = s.side d := ht.other d hne
  refine ⟨⟨(ht.sideLive d).trans h.live, ?_, ?_, ?_⟩, ?_⟩
  · rw [hside, h.ctrlq]
  · rw [hside, h.transit]
  · rw [hside, h.room]
  · rw [State.nextStamp, hside, State.nextStamp]

theorem sealed_nextStamp {kind dst : Nat} {bcast : Bool} {payload : List Byte} {f : Frame} {t : State}
    (hf : s.controlFrame kind dst bcast payload = some (f, t)) (h : s.CanSend d f) :
    t.CanSend d f ∧ t.nextStamp d f = s.nextStamp d f ∧ t.out = s.out := by
  obtain ⟨hsend, hside, hout⟩ := h.sealed hf
  exact ⟨hsend, by rw [State.nextStamp, hside, State.nextStamp], hout⟩

/-- HELLO goes out of each live side (R264). -/
theorem helloTimer_sends {f : Frame} {u : State}
    (hf : s.controlFrame 2 0 true (ctrlPayload 1 [(1, 1, s.station), (2, 1, 0), (8, 8, s.nv.devid.toNat % 2 ^ 64)]) = some (f, u))
    (h : s.CanSend d f) : ∃ t, exec .helloTimer s = .next t ∧ Out.frame d (s.nextStamp d f) ∈ t.out ∧ s.keeps t [.ring, .out] := by
  obtain ⟨hu, hstamp, -⟩ := sealed_nextStamp hf h
  have heast := offer_sendsOn u .east f
  have hwest := offer_sendsOn (u.offer .east f) .west f
  have hexec : exec .helloTimer s = .next ((u.offer .east f).offer .west f) := congrArg Host.Outcome.next (broadcastCtrl_of_once rfl hf)
  refine ⟨_, hexec, ?_, (((controlFrame_sendsOn hf d).toSends.trans heast.toSends).trans hwest.toSends).keeps⟩
  rw [← hstamp]
  cases d with
  | east =>
    refine hwest.out.subset ?_
    rw [offer_out hu]
    exact List.mem_cons_self
  | west =>
    obtain ⟨hafter, hstamp'⟩ := hu.after heast (by decide)
    rw [offer_out hafter, hstamp']
    exact List.mem_cons_self

/-! ## The map (R264, Table RR-11) -/

theorem le_foldl_min (l : List Nat) (t a : Nat) : t ≤ l.foldl min a ↔ t ≤ a ∧ ∀ x ∈ l, t ≤ x := by
  induction l generalizing a with
  | nil => simp
  | cons x l ih => simp [ih, and_assoc]

/-- Whether what was heard at `t` outlives the expiry of what was heard longest ago. -/
def Ring.outlives (r : Ring) (now t : Nat) : Bool :=
  !(decide (t ≤ now) && ((!r.closedE || decide (t ≤ r.closedEAt)) && (!r.closedW || decide (t ≤ r.closedWAt)) &&
    (!r.dup || decide (t ≤ r.dupAt)))) && decide (now < t + 375000)

theorem outlives_eq (r : Ring) (now t : Nat) : r.outlives now t =
    (decide ((((if r.closedE then [r.closedEAt] else []) ++ (if r.closedW then [r.closedWAt] else []) ++
      (if r.dup then [r.dupAt] else [])).foldl min now) < t) && decide (now < t + mapCycles)) := by
  have holdest : ∀ l : List Nat, decide (l.foldl min now < t) = !(decide (t ≤ now) && l.all fun x => decide (t ≤ x)) := by
    intro l
    have hlt : l.foldl min now < t ↔ ¬ (t ≤ now ∧ ∀ x ∈ l, t ≤ x) := by rw [← le_foldl_min, not_le]
    rw [Bool.eq_iff_iff, decide_eq_true_iff, hlt]
    by_cases hnow : t ≤ now <;> simp [hnow]
  have hages : ∀ (b : Bool) (x : Nat), ((if b then [x] else []).all fun x => decide (t ≤ x)) = (!b || decide (t ≤ x)) := by
    intro b x
    cases b <;> simp
  rw [holdest, List.all_append, List.all_append, hages, hages, hages]
  rfl

theorem expireOwn_eq (r : Ring) (now : Nat) : r.expireOwn now = { r with
    closedE := r.closedE && r.outlives now r.closedEAt, closedW := r.closedW && r.outlives now r.closedWAt
    dup := r.dup && r.outlives now r.dupAt } := by
  simp only [outlives_eq]
  rfl

theorem exec_ringMapExpiry_own {k : Fin 8} (hk : k.val = s.station) :
    exec (.ringMapExpiry k) s = .next { s with ring := s.ring.expireOwn s.cyc } := congrArg Host.Outcome.next (if_pos hk)

theorem exec_ringMapExpiry_other {k : Fin 8} (hk : k.val ≠ s.station) : exec (.ringMapExpiry k) s = .next { s with ring := { s.ring with
    hopsE := SMap.erase s.ring.hopsE k.val, hopsW := SMap.erase s.ring.hopsW k.val } } := congrArg Host.Outcome.next (if_neg hk)

/-! ## A side without HELLO (R262) -/

theorem updPhy_side (s : State) (d : Side) (f : PhyState → PhyState) :
    s.updPhy (.side d) f = s.updSide d fun x => { x with phy := f x.phy } := rfl

/-- An UP side goes down, and starts LOCK again with nothing of its hop state. -/
theorem phyDown_side (hup : (s.side d).phy.st = .up) : ∃ e, s.phyDown (.side d) =
    (((s.updPhy (.side d) fun x => { x with downCnt := inc8 x.downCnt }).post 0 e).updSide d RingSide.down).updPhy (.side d)
      fun x => x.begin_ { nrz := false, fec := 2, txRev := false, autoPol := true, verMax := false } .lock := by
  have hup' : (s.phy (.side d)).st = .up := hup
  rw [State.phyDown, if_pos hup', State.phyLeave, if_pos hup']
  exact ⟨_, rfl⟩

theorem phyDown_side_resend (hup : (s.side d).phy.st = .up) : ((s.phyDown (.side d)).side d).resend = [] := by
  obtain ⟨e, he⟩ := phyDown_side hup
  rw [he, updPhy_side, State.side_updSide_same, State.side_updSide_same]
  rfl

theorem phyDown_side_within (hup : (s.side d).phy.st = .up) : Within 16777408 s (s.phyDown (.side d)) := by
  obtain ⟨e, he⟩ := phyDown_side hup
  have hcounted : Within 16777408 s (s.updPhy (.side d) fun x => { x with downCnt := inc8 x.downCnt }) := by
    rw [updPhy_side]
    exact State.updSide_within d _ (Within.refl _ s) (by decide)
  have hdown := State.updSide_within d RingSide.down (State.post_within 0 e hcounted (by decide)) (by decide)
  rw [he, updPhy_side]
  exact State.updSide_within d _ hdown (by decide)

theorem ringHelloMissing_down (hup : (s.side d).phy.st = .up) (hseen : (s.side d).helloSeen = false) :
    ∃ t, exec (.ringHelloMissing d) s = .next t ∧ (t.side d).phy.fail = 5 ∧ (t.side d).phy.st = .lock ∧
      (t.side d).phy.downCnt = inc8 (s.side d).phy.downCnt ∧ (t.side d).resend = [] ∧ s.keeps t [.ring, .funcs, .out] := by
  have hcond : ((s.side d).phy.st = .up && !(s.side d).helloSeen) = true := by simp [hup, hseen]
  have hphy : ((s.phyDown (.side d)).side d).phy = _ := phyDown_phy (p := .side d) hup rfl
  refine ⟨(s.phyDown (.side d)).updPhy (.side d) fun x => { x with fail := 5 }, congrArg Host.Outcome.next (if_pos hcond), ?_, ?_, ?_, ?_,
    keeps_of_mask (State.updSide_within d _ (phyDown_side_within hup) (by decide)) (by decide)⟩
  all_goals rw [updPhy_side, State.side_updSide_same]
  · show ((s.phyDown (.side d)).side d).phy.st = .lock
    rw [hphy]
    rfl
  · show ((s.phyDown (.side d)).side d).phy.downCnt = _
    rw [hphy]
    rfl
  · exact phyDown_side_resend hup

theorem ringHelloMissing_stays (h : (s.side d).phy.st ≠ .up ∨ (s.side d).helloSeen = true) :
    exec (.ringHelloMissing d) s = .next s := by
  refine congrArg Host.Outcome.next (if_neg ?_)
  obtain h | h := h <;> simp [h]

/-! ## Acknowledgement and resending (R270) -/

theorem sendCtrlOn_out {k : Nat} {payload : List Byte} {f : Frame} {u : State}
    (hf : s.controlFrame 2 k false payload = some (f, u)) (h : s.CanSend d f) :
    (s.sendCtrlOn d k payload false).out = .frame d (s.nextStamp d f) :: s.out ∧
      ((s.sendCtrlOn d k payload false).side d).owesAck = false := by
  obtain ⟨hu, hstamp, hout⟩ := sealed_nextStamp hf h
  have hsend : s.sendCtrlOn d k payload false = u.launch d f none := by
    unfold State.sendCtrlOn
    rw [hf]
    exact pushFrame_of_canSend hu none
  obtain ⟨-, -, howes, -⟩ := launch_side u d f none
  rw [hsend]
  exact ⟨by rw [launch_out, hstamp, hout], howes⟩

theorem ringAckTimer_sends (howes : (s.side d).owesAck = true) {f : Frame} {u : State}
    (hf : s.controlFrame 2 (s.hopStation d) false (ctrlPayload 2 []) = some (f, u)) (h : s.CanSend d f) :
    ∃ t, exec (.ringAckTimer d) s = .next t ∧ t.out = .frame d (s.nextStamp d f) :: s.out ∧ (t.side d).owesAck = false ∧
      s.keeps t [.ring, .out] := by
  obtain ⟨hout, howes'⟩ := sendCtrlOn_out hf h
  exact ⟨_, congrArg Host.Outcome.next (if_pos howes), hout, howes', (sendCtrlOn_sendsOn s d _ _ false).keeps⟩

theorem ringAckTimer_stays (howes : (s.side d).owesAck = false) : exec (.ringAckTimer d) s = .next s :=
  congrArg Host.Outcome.next (if_neg (by simp [howes]))

/-- One frame of the resend buffer goes again. -/
def State.resendOne (s : State) (d : Side) (e : SentFrame) : State :=
  (s.updSide d fun x => { x with resendCnt := inc32 x.resendCnt }).sendFrame d (stampFrame e.frame e.seq (s.side d).rxSeq)

theorem resendOne_spec (s : State) (d : Side) (e : SentFrame) :
    (s.resendOne d e).out = .frame d (stampFrame e.frame e.seq (s.side d).rxSeq) :: s.out ∧
      ((s.resendOne d e).side d).rxSeq = (s.side d).rxSeq ∧ ((s.resendOne d e).side d).resend = (s.side d).resend := by
  cases d <;> exact ⟨rfl, rfl, rfl⟩

/-- Frames that go again leave in order, and stay in the buffer. -/
theorem resend_out (l : List SentFrame) (s : State) (d : Side) :
    (l.foldl (fun s e => s.resendOne d e) s).out =
        (l.map fun e => Out.frame d (stampFrame e.frame e.seq (s.side d).rxSeq)).reverse ++ s.out ∧
      ((l.foldl (fun s e => s.resendOne d e) s).side d).resend = (s.side d).resend := by
  induction l generalizing s with
  | nil => exact ⟨rfl, rfl⟩
  | cons e l ih =>
    obtain ⟨hout, hseq, hresend⟩ := resendOne_spec s d e
    obtain ⟨hout', hresend'⟩ := ih (s.resendOne d e)
    rw [hseq, hout] at hout'
    refine ⟨?_, hresend'.trans hresend⟩
    rw [List.foldl_cons, hout']
    simp

theorem resendFrames_out (s : State) (d : Side) :
    (s.resendFrames d).out =
        ((s.side d).resend.map fun e => Out.frame d (stampFrame e.frame e.seq (s.side d).rxSeq)).reverse ++ s.out ∧
      ((s.resendFrames d).side d).resend = (s.side d).resend := resend_out (s.side d).resend s d

theorem ringResendTimeout_resends (hlive : s.sideLive d = true) : ∃ t, exec (.ringResendTimeout d) s = .next t ∧
    (t.side d).resend = (s.side d).resend ∧
    t.out = ((s.side d).resend.map fun e => Out.frame d (stampFrame e.frame e.seq (s.side d).rxSeq)).reverse ++ s.out ∧
    s.keeps t [.ring, .out] := by
  obtain ⟨hout, hresend⟩ := resendFrames_out s d
  exact ⟨_, congrArg Host.Outcome.next (if_pos hlive), hresend, hout, (resendFrames_sendsOn s d).keeps⟩

/-! ## Sides that stay down (R284, Table RR-7) -/

theorem sideDownTimeout_up (h : s.sideUpNow d = true) : exec (.sideDownTimeout d) s = .next s := congrArg Host.Outcome.next (if_pos h)

theorem hopPauseTimeout_up (h : s.sideUpNow d = true) : exec (.hopPauseTimeout d) s = .next s := congrArg Host.Outcome.next (if_pos h)

section
variable {n t : Nat} (hdown : s.sideUpNow d = false) (hop : s.hopQueues d = [(n, t)])
include hdown hop

theorem sideDownTimeout_loses : exec (.sideDownTimeout d) s = .next ((s.loseMember n t).reportLost t) := by
  have hlose : s.loseBeyond d (fun _ => true) = (s.loseMember n t).reportLost t := by
    unfold State.loseBeyond
    rw [hop]
    rfl
  rw [← hlose]
  exact congrArg Host.Outcome.next (if_neg (by simp [hdown]))

/-- An active tail that uses a paused hop abdicates (Table RR-7). -/
theorem hopPauseTimeout_abdicates (hpaired : (s.q n).pair.paired = true) (hactive : (s.q n).pair.shadow = false)
    (hin : (s.q n).pair.out = false) :
    ∃ u, exec (.hopPauseTimeout d) s = .next u ∧ (u.q n).pair = { (s.q n).pair with out := true } := by
  have hfold : (s.hopQueues d).foldl (fun s e => s.abdicate e.1) s = s.abdicate n := by
    rw [hop]
    rfl
  refine ⟨s.abdicate n, ?_, abdicate_pair hpaired hactive hin⟩
  rw [← hfold]
  exact congrArg Host.Outcome.next (if_neg (by simp [hdown]))

end

/-! ## SYNC (R283) -/

theorem syncTimer_alone {p : Fin 8} (h : s.sharedWith p.val = []) : exec (.syncTimer p) s = .next s := by
  have hturn : s.syncTurn p.val = s := by
    unfold State.syncTurn
    rw [h]
  exact congrArg Host.Outcome.next hturn

theorem within_grantUp (s : State) (n : Nat) : Within 1 s (s.grantUp n) := State.grantUp_within n (Within.refl _ s) (by decide)

theorem grantUp_ring (s : State) (n : Nat) : (s.grantUp n).ring = s.ring := (within_grantUp s n).same .ring (by decide)

theorem State.CanSend.granted {f : Frame} (h : s.CanSend d f) (n : Nat) :
    (s.grantUp n).CanSend d f ∧ (s.grantUp n).nextStamp d f = s.nextStamp d f ∧ (s.grantUp n).out = s.out := by
  have hside : (s.grantUp n).side d = s.side d := by
    cases d with
    | east => exact congrArg Ring.east (grantUp_ring s n)
    | west => exact congrArg Ring.west (grantUp_ring s n)
  have hlive : (s.grantUp n).sideLive d = s.sideLive d := by
    rw [State.sideLive, hside, grantUp_ring, (within_grantUp s n).same .errs (by decide), State.sideLive]
  refine ⟨⟨hlive.trans h.live, ?_, ?_, ?_⟩, ?_, (within_grantUp s n).same .out (by decide)⟩
  · rw [hside, h.ctrlq]
  · rw [hside, h.transit]
  · rw [hside, h.room]
  · rw [State.nextStamp, hside, State.nextStamp]

theorem grantUp_route (s : State) (n k : Nat) : (s.grantUp n).route k = s.route k := by
  have hhops : ∀ e, (s.grantUp n).hops e k = s.hops e k := by
    intro e
    cases e <;> simp only [State.hops, grantUp_ring]
  simp only [State.route, hhops]

theorem sendSyncOn_out {k : Nat} {payload : List Byte} {f : Frame} {u : State}
    (hf : s.controlFrame 1 k false payload = some (f, u)) (h : s.CanSend d f) :
    (s.sendSyncOn d k payload).out = .frame d (s.nextStamp d f) :: s.out := by
  obtain ⟨hu, hstamp, hout⟩ := sealed_nextStamp hf h
  unfold State.sendSyncOn
  rw [hf]
  dsimp only
  rw [pushFrame_of_canSend hu, launch_out, hstamp, hout]

/-- The entry of the one shared queue goes to its peer (R283). -/
theorem syncTimer_sends {p : Fin 8} {n : Nat} {f : Frame} {u : State} (hshared : s.sharedWith p.val = [n])
    (hpaired : (s.q n).pair.paired = false) (hroute : s.route p.val = some d)
    (hf : (s.grantUp n).controlFrame 1 p.val false (toBytes 64 ((s.grantUp n).syncEntry n)) = some (f, u)) (h : s.CanSend d f) :
    ∃ t, exec (.syncTimer p) s = .next t ∧ t.out = .frame d (s.nextStamp d f) :: s.out ∧ s.keeps t [.ring, .queues, .out] := by
  have hpaired' : ((s.grantUp n).q n).pair.paired = false :=
    (grantUp_alike (p := fun q => q.pair.paired) s n (fun _ => rfl) n).trans hpaired
  have hturn : s.syncTurn p.val = (s.grantUp n).sendSyncOn d p.val (toBytes 64 ((s.grantUp n).syncEntry n)) := by
    unfold State.syncTurn
    rw [hshared]
    simp [State.sendSync, hpaired', fours, grantUp_route, hroute]
  obtain ⟨hgranted, hstamp, hout⟩ := h.granted n
  refine ⟨_, congrArg Host.Outcome.next hturn, ?_, keeps_of_mask (M := 16777281) (((within_grantUp s n).mono rfl).step
    (sendSyncOn_sendsOn _ d _ _).within rfl) (by decide)⟩
  rw [sendSyncOn_out hf hgranted, hstamp, hout]

end

end Sys2Proof.Machine
end

section
/-!
SUPPORT. What a chain member and a pair's tail do in time (R276 to R281, R288): commands and marks at their position, DATA in its
turn, takeovers, and setups that are not answered.
-/
namespace Sys2Proof.Machine
open Sys2Proof

section
variable {s : State} {n : Fin 8192}

/-! ## Chain commands at their position (R276) -/

/-- After a command a member that was HELD and is no longer tells its peers at once; the credit it grants is renewed in each case. -/
def State.tells (s : State) (n : Nat) (u : State) : State :=
  if (s.q n).st = .held ∧ (u.q n).st ≠ .held then u.syncNow n else u.grantUp n

/-- The state in which the oldest command has left its queue. -/
def State.takesCmd (s : State) (n : Nat) (rest : List ChainCmd) : State :=
  s.updQ n fun q => { q with chain := { q.chain with cmds := rest } }

theorem takesCmd_q (s : State) (n : Nat) (rest : List ChainCmd) :
    (s.takesCmd n rest).q n = { s.q n with chain := { (s.q n).chain with cmds := rest } } := by
  rw [State.takesCmd, State.q_updQ, if_pos rfl]

theorem chainCmdApply_stays
    (h : (s.q n.val).chain.cmds = [] ∨ ∃ k rest, (s.q n.val).chain.cmds = k :: rest ∧ k.code < 2 ∧ (s.q n.val).committed < k.pos) :
    exec (.chainCmdApply n) s = .next s := by
  suffices hsame : s.applyChainCmd n.val = s from congrArg Host.Outcome.next hsame
  unfold State.applyChainCmd
  obtain h | ⟨k, rest, h, hcode, hpos⟩ := h
  · rw [h]
  · have hnot : ¬ (s.q n.val).reached k = true := by
      simp only [Queue.reached, Bool.or_eq_true, decide_eq_true_eq]
      omega
    rw [h]
    exact if_neg hnot

section
variable {k : ChainCmd} {rest : List ChainCmd} (hcmds : (s.q n.val).chain.cmds = k :: rest) (hreached : (s.q n.val).reached k = true)
include hcmds hreached

theorem chainCmdApply_due : exec (.chainCmdApply n) s = .next (s.tells n.val
    (if k.code < 4 then ((s.takesCmd n.val rest).memberCmd n.val k).sendChainCmd n.val k.code k.pos
      else (s.takesCmd n.val rest).memberCmd n.val k)) := by
  have hst : ((s.takesCmd n.val rest).q n.val).st = (s.q n.val).st := by rw [takesCmd_q]
  have htells : ∀ u : State,
      (if (((s.takesCmd n.val rest).q n.val).st == .held && (u.q n.val).st != .held) = true then u.syncNow n.val
        else u.grantUp n.val) = s.tells n.val u := by
    intro u
    rw [hst, State.tells]
    simp only [Bool.and_eq_true, beq_iff_eq, bne_iff_ne]
  refine congrArg Host.Outcome.next ?_
  rw [← htells, State.applyChainCmd, hcmds]
  exact if_pos hreached

theorem chainCmdApply_passes (hcode : k.code < 4) : exec (.chainCmdApply n) s =
    .next (s.tells n.val (((s.takesCmd n.val rest).memberCmd n.val k).sendChainCmd n.val k.code k.pos)) := by
  rw [chainCmdApply_due hcmds hreached, if_pos hcode]

section
variable (hcode : 4 ≤ k.code)
include hcode

theorem chainCmdApply_teardown :
    exec (.chainCmdApply n) s = .next (s.tells n.val ((s.takesCmd n.val rest).teardown n.val)) := by
  obtain ⟨j, hj⟩ := Nat.exists_eq_add_of_le hcode
  have hcmd : (s.takesCmd n.val rest).memberCmd n.val k = (s.takesCmd n.val rest).teardown n.val := by
    unfold State.memberCmd
    rw [hj, Nat.add_comm]
    rfl
  rw [chainCmdApply_due hcmds hreached, if_neg (Nat.not_lt.mpr hcode), hcmd]

theorem chainCmdApply_unchained (hchained : (s.q n.val).chained = false) :
    exec (.chainCmdApply n) s = .next (s.tells n.val (s.takesCmd n.val rest)) := by
  have hchained' : ((s.takesCmd n.val rest).q n.val).chained = false := by rw [takesCmd_q]; exact hchained
  rw [chainCmdApply_teardown hcmds hreached hcode, State.teardown]
  simp [hchained']

section
variable (hchained : (s.q n.val).chained = true)
include hchained

theorem chainCmdApply_ends (hst : (s.q n.val).st = .ready ∨ (s.q n.val).st = .closed) : exec (.chainCmdApply n) s =
    .next (s.tells n.val ((s.takesCmd n.val rest).updQ n.val fun q => { q with chain := { q.chain with void := true } })) := by
  have hchained' : ((s.takesCmd n.val rest).q n.val).chained = true := by rw [takesCmd_q]; exact hchained
  have hst' : ((s.takesCmd n.val rest).q n.val).st = .ready ∨ ((s.takesCmd n.val rest).q n.val).st = .closed := by
    rw [takesCmd_q]
    exact hst
  rw [chainCmdApply_teardown hcmds hreached hcode, State.teardown, if_neg (by simp [hchained']), if_pos (by simpa using hst')]
  rfl

theorem chainCmdApply_loses (hready : (s.q n.val).st ≠ .ready) (hclosed : (s.q n.val).st ≠ .closed) {t : Nat}
    (hgone : ((s.q n.val).chain.stations.filter fun t => t != s.station && !s.heard t).getLast? = some t) :
    exec (.chainCmdApply n) s = .next (s.tells n.val (((s.takesCmd n.val rest).loseMember n.val t).reportLost t)) := by
  have hchained' : ((s.takesCmd n.val rest).q n.val).chained = true := by rw [takesCmd_q]; exact hchained
  have hst' : ¬ (((s.takesCmd n.val rest).q n.val).st = .ready ∨ ((s.takesCmd n.val rest).q n.val).st = .closed) := by
    rw [takesCmd_q]
    exact not_or.mpr ⟨hready, hclosed⟩
  have hgone' : (((s.takesCmd n.val rest).q n.val).chain.stations.filter fun t =>
      t != (s.takesCmd n.val rest).station && !(s.takesCmd n.val rest).heard t).getLast? = some t := by
    rw [takesCmd_q]
    exact hgone
  rw [chainCmdApply_teardown hcmds hreached hcode, State.teardown, if_neg (by simp [hchained']), if_neg (by simpa using hst')]
  dsimp only
  rw [hgone']

end

end

end

/-! ## Marks at their position (R146, R279) -/

/-- The state in which the oldest mark has left its queue. -/
def State.takesMark (s : State) (n : Nat) (rest : List ChainCmd) : State :=
  s.updQ n fun q => { q with chain := { q.chain with marks := rest } }

theorem takesMark_q (s : State) (n : Nat) (rest : List ChainCmd) :
    (s.takesMark n rest).q n = { s.q n with chain := { (s.q n).chain with marks := rest } } := by
  rw [State.takesMark, State.q_updQ, if_pos rfl]

/-- Whether a carried position lies inside the open message. -/
def Queue.insideOpen (q : Queue) (p : Nat) : Bool :=
  q.b.msgMode && (match q.wmsg with
    | some w => decide (w.start < p)
    | none => false)

theorem Queue.insideOpen_eq_true {q : Queue} {p : Nat} (hmode : q.b.msgMode = true) (h : ∃ x, q.wmsg = some x ∧ x.start < p) :
    q.insideOpen p = true := by
  obtain ⟨x, hx, hlt⟩ := h
  rw [Queue.insideOpen, hmode, hx]
  exact decide_eq_true hlt

theorem Queue.insideOpen_eq_false {q : Queue} {p : Nat} (h : q.b.msgMode = false ∨ ∀ x, q.wmsg = some x → p ≤ x.start) :
    q.insideOpen p = false := by
  rw [Queue.insideOpen]
  obtain hmode | hafter := h
  · rw [hmode]
    rfl
  · cases hx : q.wmsg with
    | none => exact Bool.and_false _
    | some x =>
      have hge : decide (x.start < p) = false := decide_eq_false (Nat.not_lt.mpr (hafter x hx))
      show (q.b.msgMode && decide (x.start < p)) = false
      rw [hge, Bool.and_false]

/-- A mark at its position goes on downstream, or takes its place at the tail. -/
def State.handsOn (s : State) (n : Nat) (k : ChainCmd) : State :=
  match (s.q n).member .east with
  | some t => s.sendCtrl t 6 [(2, 2, n), (4, 1, k.code), (8, 5, k.pos % 2 ^ 40)]
  | none => s.placeFfMark n k.code k.pos

theorem ffMarkApply_stays
    (h : (s.q n.val).chain.marks = [] ∨ (s.q n.val).role = some .head ∨
      ∃ k rest, (s.q n.val).chain.marks = k :: rest ∧ (s.q n.val).committed < k.pos) :
    exec (.ffMarkApply n) s = .next s := by
  suffices hsame : s.applyFfMark n.val = s from congrArg Host.Outcome.next hsame
  unfold State.applyFfMark
  split
  · next k rest hmarks =>
    refine if_neg ?_
    obtain h | h | ⟨k', rest', h, hpos⟩ := h
    · rw [hmarks] at h
      cases h
    · simp [h]
    · rw [hmarks] at h
      cases h
      simp only [Bool.and_eq_true, decide_eq_true_eq]
      omega
  · rfl

section
variable {k : ChainCmd} {rest : List ChainCmd} (hmarks : (s.q n.val).chain.marks = k :: rest)
  (hrole : (s.q n.val).role ≠ some .head) (hpos : k.pos ≤ (s.q n.val).committed)
include hmarks hrole hpos

theorem ffMarkApply_due : exec (.ffMarkApply n) s = .next ((s.takesMark n.val rest).handsOn n.val k) := by
  have hdue : ((s.q n.val).role != some .head && decide (k.pos ≤ (s.q n.val).committed)) = true := by simp [hrole, hpos]
  refine congrArg Host.Outcome.next ?_
  rw [State.applyFfMark, hmarks]
  exact if_pos hdue

theorem ffMarkApply_passes {t : Nat} (hmember : (s.q n.val).member .east = some t) : exec (.ffMarkApply n) s =
    .next ((s.takesMark n.val rest).sendCtrl t 6 [(2, 2, n.val), (4, 1, k.code), (8, 5, k.pos % 2 ^ 40)]) := by
  have hmember' : ((s.takesMark n.val rest).q n.val).member .east = some t := by rw [takesMark_q]; exact hmember
  rw [ffMarkApply_due hmarks hrole hpos, State.handsOn, hmember']

section
variable (hmember : (s.q n.val).member .east = none)
include hmember

theorem ffMarkApply_tail :
    exec (.ffMarkApply n) s = .next ((s.takesMark n.val rest).placeFfMark n.val k.code k.pos) := by
  have hmember' : ((s.takesMark n.val rest).q n.val).member .east = none := by rw [takesMark_q]; exact hmember
  rw [ffMarkApply_due hmarks hrole hpos, State.handsOn, hmember']

/-- A mark that a MARK command would refuse is rejected at the tail (R146). -/
theorem ffMarkApply_rejects (hrefused : ((s.q n.val).markAt k.code).auto = true ∨ (s.q n.val).st = .closing) :
    ∃ t, exec (.ffMarkApply n) s = .next t ∧
      t.q n.val = { (s.takesMark n.val rest).q n.val with inbandRej := inc32 (s.q n.val).inbandRej } ∧
      t.errs.seq = (s.errs.seq + 1) % 2 ^ 32 ∧ s.keeps t [.queues, .errs, .funcs, .out] := by
  let w := s.takesMark n.val rest
  let v := w.setQ n.val { w.q n.val with inbandRej := inc32 (w.q n.val).inbandRej }
  have hrefused' : ((w.q n.val).markAt k.code).auto = true ∨ (w.q n.val).st = .closing := by
    rw [takesMark_q]
    exact hrefused
  have hplace : w.placeFfMark n.val k.code k.pos = v.raise 0x004 (some (ownerOf n.val)) n.val (packNat [(8, 4, 9)]) 0 := by
    rw [State.placeFfMark]
    exact if_pos (by simpa using hrefused')
  have hraise : Within 18874496 v (v.raise 0x004 (some (ownerOf n.val)) n.val (packNat [(8, 4, 9)]) 0) :=
    raise_within_of_not_fatal v _ _ _ _ (by decide)
  have hv : Within 18874497 s v := State.setQ_within _ _ (State.updQ_within _ _ (Within.refl _ s) (by decide)) (by decide)
  refine ⟨_, ?_, ?_, ?_, keeps_of_mask (hv.step hraise rfl) (by decide)⟩
  · rw [ffMarkApply_tail hmarks hrole hpos hmember]
    exact congrArg Host.Outcome.next hplace
  · rw [State.q_of_within hraise (by decide), State.q_setQ, if_pos rfl]
    show ({ w.q n.val with inbandRej := inc32 (w.q n.val).inbandRej } : Queue) = _
    rw [show (w.q n.val).inbandRej = (s.q n.val).inbandRej by rw [takesMark_q]]
  · rw [raise_seq]
    rfl

/-- A mark that a MARK command would take is placed at the tail (R146). -/
theorem ffMarkApply_places (hcode : k.code < 4) (hauto : ((s.q n.val).markAt k.code).auto = false)
    (hst : (s.q n.val).st ≠ .closing) :
    let w := s.takesMark n.val rest
    let p := (s.q n.val).storedPos k.pos
    let inside := (s.q n.val).insideOpen p
    ∃ t, exec (.ffMarkApply n) s = .next t ∧ (t.q n.val).chain.marks = rest ∧
      ((t.q n.val).markAt k.code).isSet = true ∧
      ((t.q n.val).markAt k.code).pos = (if inside then p else w.ffBoundary (w.q n.val) p) ∧
      ((t.q n.val).markAt k.code).next = inside ∧ ∀ i, i ≠ k.code → (t.q n.val).markAt i = (s.q n.val).markAt i := by
  intro w p inside
  let x : Mark := { (w.q n.val).markAt k.code with
    isSet := true, pos := if inside then p else w.ffBoundary (w.q n.val) p, next := inside, c := 0, waiting := false }
  let v := w.setQ n.val ((w.q n.val).setMark k.code x)
  have hw : w.q n.val = { s.q n.val with chain := { (s.q n.val).chain with marks := rest } } := takesMark_q s n.val rest
  have htaken : ¬ (((w.q n.val).markAt k.code).auto || (w.q n.val).st = .closing) = true := by
    rw [hw]
    simp only [Bool.or_eq_true, decide_eq_true_eq, not_or]
    exact ⟨fun h => Bool.false_ne_true (hauto.symm.trans h), hst⟩
  have hsame : (w.q n.val).storedPos k.pos = p ∧ (w.q n.val).insideOpen p = inside := by
    rw [hw]
    exact ⟨rfl, rfl⟩
  have hplace : w.placeFfMark n.val k.code k.pos = (v.release n.val).evalFlags n.val := by
    rw [State.placeFfMark]
    refine (if_neg htaken).trans ?_
    dsimp only
    rw [hsame.1]
    show ((w.setQ n.val ((w.q n.val).setMark k.code { (w.q n.val).markAt k.code with
      isSet := true, pos := if (w.q n.val).insideOpen p then p else w.ffBoundary (w.q n.val) p
      next := (w.q n.val).insideOpen p, c := 0, waiting := false })).release n.val).evalFlags n.val = _
    rw [hsame.2]
  have honly : OnQ n.val v ((v.release n.val).evalFlags n.val) := onQ_release_evalFlags v n.val
  have hv : v.q n.val = (w.q n.val).setMark k.code x := (State.q_setQ _ _ _ _).trans (if_pos rfl)
  have hmark : ∀ i, (((v.release n.val).evalFlags n.val).q n.val).markAt i = if i = k.code then x else (w.q n.val).markAt i := by
    intro i
    rw [onQ_markAt honly, hv, markAt_set _ _ _ _ hcode]
  refine ⟨(v.release n.val).evalFlags n.val, ?_, ?_, ?_, ?_, ?_, fun i hi => ?_⟩
  · rw [ffMarkApply_tail hmarks hrole hpos hmember]
    exact congrArg Host.Outcome.next hplace
  · rw [honly.field fun q => q.chain.marks, hv]
    show (w.q n.val).chain.marks = rest
    rw [hw]
  · rw [hmark, if_pos rfl]
  · rw [hmark, if_pos rfl]
  · rw [hmark, if_pos rfl]
  · rw [hmark, if_neg hi, hw]
    rfl

end

end

/-! ## DATA in its turn (R277, R281) -/

/-- A queue that has sent a DATA frame. -/
def Queue.fellForward (q : Queue) : Queue :=
  { q with chain := { q.chain with
    sendPos := q.chain.sendPos + q.ffLen, ffUsed := (q.chain.ffUsed + ceilDiv q.ffLen 256) % 2 ^ 24
    sent := q.chain.sent ++ [(q.chain.sendPos, q.chain.ffUsed)] } }

/-- The frame's place in its queue and its group's nonce are taken. -/
def State.countsData (s : State) (n : Nat) : State :=
  (s.setQ n (s.q n).fellForward).setGroup (n / 512)
    { s.group (n / 512) with rsNonce := (s.group (n / 512)).rsNonce + 1 }

theorem countsData_within (s : State) (n : Nat) : Within 3 s (s.countsData n) :=
  State.setGroup_within _ _ (State.setQ_within _ _ (Within.refl _ s) (by decide)) (by decide)

theorem fallForwardSend_stays (h : s.dataTurn ≠ some n.val ∨ s.ownTurn (s.dataOut n.val) = false) :
    exec (.fallForwardSend n) s = .next s := by
  refine congrArg Host.Outcome.next (if_neg ?_)
  obtain h | h := h <;> simp [h]

/-- DATA goes in its turn; the queue's place, its credit and the group's nonce move on, and nothing read. -/
theorem fallForwardSend_sends (hturn : s.dataTurn = some n.val) (hown : s.ownTurn (s.dataOut n.val) = true)
    (htransit : (s.side .east).transit = [])
    (hbad : s.badWords (s.q n.val) ((s.q n.val).storedPos (s.q n.val).chain.sendPos) (s.q n.val).ffLen = []) :
    ∃ t, exec (.fallForwardSend n) s = .next t ∧ t.out = .frame .east (s.nextStamp .east (s.dataOut n.val)) :: s.out ∧
      t.q n.val = (s.q n.val).fellForward ∧
      (t.group (n.val / 512)).rsNonce = (s.group (n.val / 512)).rsNonce + 1 ∧ (t.side .east).sinceOwn = 0 ∧
      s.keeps t [.queues, .groups, .ring, .out] := by
  let v := (s.countsData n.val).launch .east (s.dataOut n.val) none
  let t := v.updSide .east fun x => { x with sinceOwn := 0, rrData := n.val + 1 }
  have hctrlq : (s.side .east).ctrlq = [] := by
    simp only [State.ownTurn, Bool.and_eq_true, List.isEmpty_iff] at hown
    exact hown.1.1
  have hsends : (s.countsData n.val).SendsOn .east v := launch_sendsOn _ _ _ _
  have hvt : Within 16777280 v t := State.updSide_within _ _ (Within.refl _ v) (by decide)
  have hcounted : Within 16777280 (s.countsData n.val) t := hsends.within.step hvt rfl
  have hdrain : t.drain .east = t := by
    obtain ⟨-, -, -, hctrlq', htransit'⟩ := launch_side (s.countsData n.val) .east (s.dataOut n.val) none
    refine drain_of_empty ?_ ?_
    · rw [State.side_updSide_same]
      exact hctrlq'.trans hctrlq
    · rw [State.side_updSide_same]
      exact htransit'.trans htransit
  have hcond : (decide (s.dataTurn = some n.val) && s.ownTurn (s.dataOut n.val)) = true := by simp [hturn, hown]
  have hforward : s.fallForward n.val = t := by
    refine (if_pos hcond).trans (Eq.trans ?_ hdrain)
    dsimp only
    rw [hbad]
    rfl
  refine ⟨t, congrArg Host.Outcome.next hforward, rfl, ?_, ?_, ?_,
    keeps_of_mask (M := 16777283) (((countsData_within s n.val).mono rfl).step hcounted rfl) (by decide)⟩
  · rw [State.q_of_within hcounted (by decide)]
    exact (s.q_setQ n.val n.val (s.q n.val).fellForward).trans (if_pos rfl)
  · have hgroups : t.groups = (s.countsData n.val).groups := hcounted.same .groups (by decide)
    have hgroup : t.group (n.val / 512) = (s.countsData n.val).group (n.val / 512) := by rw [State.group, hgroups, State.group]
    rw [hgroup, State.countsData, State.group_setGroup, if_pos rfl]
  · rw [State.side_updSide_same]

/-! ## A shadow takes over (R288) -/

theorem syncTimeout_stays (h : (s.q n.val).pair.paired = false ∨ (s.q n.val).pair.shadow = false) :
    exec (.syncTimeout n) s = .next s := congrArg Host.Outcome.next (takeover_of_not_shadow h)

theorem exec_pairFailSyncTimeout : exec (.pairFailSyncTimeout n) s =
    .next (if (s.q n.val).pair.failWatch then s.takeover n.val else s) := rfl

theorem pairFailSyncTimeout_stays (h : (s.q n.val).pair.paired = false ∨ (s.q n.val).pair.shadow = false) :
    exec (.pairFailSyncTimeout n) s = .next s := by
  rw [exec_pairFailSyncTimeout, takeover_of_not_shadow h, ite_self]

theorem pairFailSyncTimeout_unwatched (h : (s.q n.val).pair.failWatch = false) : exec (.pairFailSyncTimeout n) s = .next s := by
  rw [exec_pairFailSyncTimeout, h]
  rfl

theorem exec_takeover {k : Instr}
    (hk : k = .syncTimeout n ∨ (k = .pairFailSyncTimeout n ∧ (s.q n.val).pair.failWatch = true)) :
    exec k s = .next (s.takeover n.val) := by
  obtain rfl | ⟨rfl, hwatch⟩ := hk
  · rfl
  · rw [exec_pairFailSyncTimeout, if_pos hwatch]

theorem takeover_idle (hpaired : (s.q n.val).pair.paired = true) (hshadow : (s.q n.val).pair.shadow = true)
    (hheld : (s.q n.val).st ≠ .held) (hwaits : (s.q n.val).pair.failoverWait = []) :
    ((s.takeover n.val).q n.val).pair = { (s.q n.val).pair with
        shadow := false, out := false, stopping := false, gen := ((s.q n.val).pair.gen + 1) % 128, peerActive := false
        failWatch := false } ∧
      ((s.takeover n.val).q n.val).rptr = (s.q n.val).rptr ∧ s.keeps (s.takeover n.val) [.queues, .ring, .funcs, .out] := by
  obtain ⟨t, htake, hpair, hrptr, hwithin⟩ := takeover_spec hpaired hshadow hheld
  have hsame : s.takeover n.val = t := by
    rw [htake, hwaits]
    rfl
  rw [hsame]
  exact ⟨hpair.trans (Pair.tookOver_of_none hwaits), hrptr, keeps_of_mask hwithin (by decide)⟩

/-! ## Setups that are not answered (Tables RR-6, RR-9) -/

theorem exec_chainSetupTimeout : exec (.chainSetupTimeout n) s = .next (match (s.q n.val).chain.wait with
    | some w => if w.leave then s else s.failChain n.val St.chainTimeout
    | none => s) := rfl

theorem chainSetupTimeout_idle (h : (s.q n.val).chain.wait = none) : exec (.chainSetupTimeout n) s = .next s := by
  rw [exec_chainSetupTimeout, h]

theorem chainSetupTimeout_leaving {w : JoinWait} (h : (s.q n.val).chain.wait = some w) (hleave : w.leave = true) :
    exec (.chainSetupTimeout n) s = .next s := by
  rw [exec_chainSetupTimeout, h]
  exact congrArg Host.Outcome.next (if_pos hleave)

theorem chainSetupTimeout_fails {w : JoinWait} (h : (s.q n.val).chain.wait = some w) (hleave : w.leave = false) :
    exec (.chainSetupTimeout n) s =
      .next ((s.updQ n.val fun q => { q with chain := {} }).complete w.ref St.chainTimeout) := by
  have hfail : s.failChain n.val St.chainTimeout =
      (s.updQ n.val fun q => { q with chain := {} }).complete w.ref St.chainTimeout := by
    rw [State.failChain, h]
  rw [exec_chainSetupTimeout, h, ← hfail]
  exact congrArg Host.Outcome.next (if_neg (by simp [hleave]))

theorem exec_pairSetupTimeout : exec (.pairSetupTimeout n) s = .next (match (s.q n.val).pair.wait with
    | some r => (s.updQ n.val fun x => { x with pair := {} }).complete r St.chainTimeout
    | none => s) := rfl

theorem pairSetupTimeout_idle (h : (s.q n.val).pair.wait = none) : exec (.pairSetupTimeout n) s = .next s := by
  rw [exec_pairSetupTimeout, h]

theorem pairSetupTimeout_fails {r : CmdRef} (h : (s.q n.val).pair.wait = some r) : exec (.pairSetupTimeout n) s =
    .next ((s.updQ n.val fun q => { q with pair := {} }).complete r St.chainTimeout) := by
  rw [exec_pairSetupTimeout, h]

end

end Sys2Proof.Machine
end

section
/-!
SUPPORT. The timers of the ring and its members, put together.
-/
namespace Sys2Proof.Machine
open Sys2Proof

/-- Settles O58: each timer and each member's action has its lemma above, for where it acts and for where it does not. -/
theorem ringTimersAndMembersAct : Obligations.RingTimersAndMembersAct := by
  unfold Obligations.RingTimersAndMembersAct
  intro s
  refine ⟨fun d f u hf hlive hctrlq htransit hroom => helloTimer_sends hf ⟨hlive, hctrlq, htransit, hroom⟩,
    fun k => ⟨fun hk => ?_, exec_ringMapExpiry_other⟩,
    fun d => ⟨ringHelloMissing_down, ringHelloMissing_stays, ringAckTimer_stays, ?_, ringResendTimeout_resends,
      fun hup => ⟨sideDownTimeout_up hup, hopPauseTimeout_up hup⟩, ?_, ?_⟩,
    fun p => ⟨syncTimer_alone, ?_⟩, rfl, fun n => ?_⟩
  · intro r oldest lives
    rw [exec_ringMapExpiry_own hk, expireOwn_eq]
    rfl
  · intro howes hlive hctrlq htransit f u hf hroom
    exact ringAckTimer_sends howes hf ⟨hlive, hctrlq, htransit, hroom⟩
  · intro n t hdown hop hpaired hchained hmember hother
    obtain ⟨hvoid, hlost, hst⟩ := loseMember_spec hchained hmember hother hpaired
    exact ⟨sideDownTimeout_loses hdown hop, hvoid, hlost, hst⟩
  · intro n t hdown hop hpaired hactive hin
    exact hopPauseTimeout_abdicates hdown hop hpaired hactive hin
  · intro n d f u hshared hpaired hroute hlive hctrlq htransit hf hroom
    exact syncTimer_sends hshared hpaired hroute hf ⟨hlive, hctrlq, htransit, hroom⟩
  · intro q c p
    refine ⟨chainCmdApply_stays, fun k rest hcmds hreached => ?_, ffMarkApply_stays, fun k rest hmarks hrole hpos => ?_,
      fallForwardSend_stays, ?_, fun h => ⟨syncTimeout_stays h, pairFailSyncTimeout_stays h⟩, pairFailSyncTimeout_unwatched,
      fun k hk hpaired hshadow => ?_, chainSetupTimeout_idle,
      fun w hw => ⟨chainSetupTimeout_leaving hw, chainSetupTimeout_fails hw⟩, pairSetupTimeout_idle, fun r => pairSetupTimeout_fails⟩
    · intro w told
      exact ⟨chainCmdApply_passes hcmds hreached, chainCmdApply_unchained hcmds hreached, chainCmdApply_ends hcmds hreached,
        fun hcode hchained hready hclosed t hgone => chainCmdApply_loses hcmds hreached hcode hchained hready hclosed hgone⟩
    · intro w p
      refine ⟨fun t => ffMarkApply_passes hmarks hrole hpos,
        fun hmember _ hrefused => ffMarkApply_rejects hmarks hrole hpos hmember hrefused, fun hmember hcode hauto hst => ?_⟩
      obtain ⟨t, hexec, hrest, hset, hat, hnext, hother⟩ := ffMarkApply_places hmarks hrole hpos hmember hcode hauto hst
      refine ⟨t, hexec, hrest, hset, ?_, ?_, hother⟩
      · intro hmode hopen
        have hinside : q.insideOpen p = true := Queue.insideOpen_eq_true hmode hopen
        exact ⟨hat.trans (if_pos hinside), hnext.trans hinside⟩
      · intro hmode
        have hinside : q.insideOpen p = false := Queue.insideOpen_eq_false hmode
        exact ⟨hat.trans (if_neg (Bool.eq_false_iff.mp hinside)), hnext.trans hinside⟩
    · intro hturn hown htransit hbad
      obtain ⟨t, hexec, hout, hq, hnonce, hsince, hkeeps⟩ := fallForwardSend_sends hturn hown htransit hbad
      refine ⟨t, hexec, hout, ?_, ?_, hnonce, hsince, hkeeps⟩
      · rw [hq]
        rfl
      · rw [hq]
        rfl
    · refine ⟨fun hheld => ?_, fun hheld hwaits => ?_⟩
      · rw [exec_takeover hk, takeover_of_held hpaired hshadow hheld]
      · exact ⟨s.takeover n.val, exec_takeover hk, takeover_idle hpaired hshadow hheld hwaits⟩

end Sys2Proof.Machine
end

section
/-!
SUPPORT. The expected frame at the station it is for (R267 to R272): from its receipt to what its kind does, and what of the state
has changed by then.
-/
namespace Sys2Proof.Machine
open Sys2Proof

section
variable {s : State} {d : Side} {f : Frame} {bs : List Byte}

/-! ## The state in which the frame is used -/

/-- The expected frame has been noted, and ends the repeats. -/
def State.noted (s : State) (d : Side) (f : Frame) : State := (s.received d f).endRepeats d

/-- A control operation that R271 repeats is noted among those applied. -/
def State.notedOp (s : State) (d : Side) (f : Frame) (bs : List Byte) : State :=
  (s.noted d f).updSide d fun x => { x with applied := x.applied ++ [(Fr.src f.hdr, bs)] }

theorem noted_eq (s : State) (d : Side) (f : Frame) : s.noted d f = (s.crossIn d f).updSide d fun x =>
    { RingSide.received f x with repeats := [] } := by
  rw [State.noted, State.endRepeats, State.received, State.updSide_updSide]

theorem notedOp_eq (s : State) (d : Side) (f : Frame) (bs : List Byte) : s.notedOp d f bs = (s.crossIn d f).updSide d fun x =>
    { RingSide.received f x with repeats := [], applied := x.applied ++ [(Fr.src f.hdr, bs)] } := by
  rw [State.notedOp, noted_eq, State.updSide_updSide]
  rfl

theorem updSide_ringOnly (s : State) (d : Side) (g : RingSide → RingSide) : Within 64 s (s.updSide d g) :=
  State.updSide_within d g (Within.refl _ s) (by decide)

theorem noted_ringOnly (s : State) (d : Side) (f : Frame) : Within 64 s (s.noted d f) := by
  have hcross : Within 64 s (s.crossIn d f) := State.crossIn_within d f (Within.refl _ s) (by decide)
  rw [noted_eq]
  exact hcross.step (updSide_ringOnly _ d _) rfl

theorem notedOp_ringOnly (s : State) (d : Side) (f : Frame) (bs : List Byte) : Within 64 s (s.notedOp d f bs) :=
  (noted_ringOnly s d f).step (updSide_ringOnly _ d _) rfl

/-- The ring outside its two sides. -/
def Ring.outside (r : Ring) : Ring := { r with east := {}, west := {} }

theorem updSide_outside (s : State) (d : Side) (g : RingSide → RingSide) : (s.updSide d g).ring.outside = s.ring.outside := by
  cases d <;> rfl

theorem noted_outside (s : State) (d : Side) (f : Frame) : (s.noted d f).ring.outside = s.ring.outside := by
  rw [noted_eq, updSide_outside, State.crossIn, updSide_outside]

theorem notedOp_outside (s : State) (d : Side) (f : Frame) (bs : List Byte) : (s.notedOp d f bs).ring.outside = s.ring.outside := by
  rw [State.notedOp, updSide_outside, noted_outside]

theorem Ring.field_of_outside {r x : Ring} (h : r.outside = x.outside) {α : Type} (p : Ring → α)
    (hp : ∀ r, p r.outside = p r := by intro r; rfl) : p r = p x := by
  rw [← hp, h, hp]

theorem noted_q (s : State) (d : Side) (f : Frame) (n : Nat) : (s.noted d f).q n = s.q n :=
  State.q_of_within (noted_ringOnly s d f) (by decide) n

theorem notedOp_q (s : State) (d : Side) (f : Frame) (bs : List Byte) (n : Nat) : (s.notedOp d f bs).q n = s.q n :=
  State.q_of_within (notedOp_ringOnly s d f bs) (by decide) n

theorem noted_station (s : State) (d : Side) (f : Frame) : (s.noted d f).station = s.station :=
  (station_updSide _ d _).trans (received_station s d f)

theorem noted_sideField (s : State) (d : Side) (f : Frame) {α : Type} (p : RingSide → α)
    (hp : ∀ x r, p { RingSide.received f { x with rx := r } with repeats := [] } = p x := by intro x r; rfl) :
    p ((s.noted d f).side d) = p (s.side d) := by
  rw [noted_eq, State.side_updSide_same, side_crossIn, hp]

theorem updSide_openFrame (s : State) (d : Side) (g : RingSide → RingSide) (f : Frame) : (s.updSide d g).openFrame f = s.openFrame f := by
  cases d <;> rfl

theorem noted_openFrame (s : State) (d : Side) (f g : Frame) : (s.noted d f).openFrame g = s.openFrame g :=
  (updSide_openFrame _ d _ g).trans (received_openFrame s d f g)

theorem updQ_congr {n : Nat} {g h : Queue → Queue} (hgh : g (s.q n) = h (s.q n)) : s.updQ n g = s.updQ n h :=
  congrArg (s.setQ n) hgh

/-! ## From the receipt to the kind -/

/-- The frame is the expected one, ends here or is used here besides, and opens. -/
structure State.Uses (s : State) (d : Side) (f : Frame) (bs : List Byte) : Prop extends s.Expects d f where
  here : s.passes f.hdr = false
  opens : s.openFrame f = .plain bs

theorem expects_of_here (hlive : s.sideLive d = true) (hgood : frameGood f = true) (hlegal : frameLegal f.hdr = true)
    (hnext : BitVec.ofNat 16 (Fr.seq f.hdr) = (s.side d).rxSeq) (hhere : s.passes f.hdr = false) (hctrlq : (s.side d).ctrlq = [])
    (htransit : (s.side d).transit = []) (hstays : ∀ e ∈ s.queues, ∀ w, e.2.chain.wait = some w → w.leave = false) :
    s.Expects d f where
  live := hlive
  good := by rw [hgood, hlegal]; rfl
  next := by rw [State.seqAhead, hnext, BitVec.sub_self]; rfl
  room := by rw [hhere, Bool.false_and]
  ctrlq := hctrlq
  transit := htransit
  stays := hstays

theorem rxFrame_of_uses (h : s.Uses d f bs) : s.rxFrame d f = ((s.received d f).forwardCast d f).consume d f := by
  rw [rxFrame_of_expects h.toExpects, if_neg (ne_true_of_eq_false h.here)]

/-- A frame that ends here, or a HELLO, which goes on one hop older, is used as it came. -/
theorem rxFrame_of_ends (h : s.Uses d f bs) (hends : s.goesOn d f = false ∨ (Fr.kind f.hdr = 2 ∧ le bs 0 1 = 1)) :
    s.rxFrame d f = (s.received d f).consume d f := by
  have hopen : (s.received d f).openFrame f = .plain bs := (received_openFrame s d f f).trans h.opens
  have hcast : (s.received d f).forwardCast d f = s.received d f := by
    obtain hends | ⟨hkind, hop⟩ := hends
    · exact forwardCast_of_ends ((received_goesOn s d f f).trans hends)
    · unfold State.forwardCast
      rw [hkind, hopen]
      exact (if_congr Iff.rfl (if_pos hop) rfl).trans (ite_self _)
  rw [rxFrame_of_uses h, hcast]

theorem consume_data (hkind : Fr.kind f.hdr = 0) : s.consume d f = (s.endRepeats d).dataFrame d f := if_pos hkind

theorem consume_sync (hopen : s.openFrame f = .plain bs) (hkind : Fr.kind f.hdr = 1) :
    s.consume d f = (s.endRepeats d).syncIn (Fr.src f.hdr) bs := by
  unfold State.consume
  dsimp only
  rw [hopen, hkind]
  rfl

theorem consume_ctrl (hopen : s.openFrame f = .plain bs) (hkind : Fr.kind f.hdr = 2) :
    s.consume d f = s.ctrlIn d (Fr.src f.hdr) bs := by
  unfold State.consume
  dsimp only
  rw [hopen, hkind]
  rfl

theorem consume_kiosk (hopen : s.openFrame f = .plain bs) (hkind : Fr.kind f.hdr = 3) :
    s.consume d f = (s.endRepeats d).kioskIn (Fr.src f.hdr) bs := by
  unfold State.consume
  dsimp only
  rw [hopen, hkind]
  rfl

section
variable (h : s.Uses d f bs) (hends : s.goesOn d f = false ∨ (Fr.kind f.hdr = 2 ∧ le bs 0 1 = 1))
include h hends

theorem rxFrame_data (hkind : Fr.kind f.hdr = 0) : s.rxFrame d f = (s.noted d f).dataFrame d f := by
  rw [rxFrame_of_ends h hends, consume_data hkind]
  rfl

theorem rxFrame_sync (hkind : Fr.kind f.hdr = 1) : s.rxFrame d f = (s.noted d f).syncIn (Fr.src f.hdr) bs := by
  rw [rxFrame_of_ends h hends, consume_sync ((received_openFrame s d f f).trans h.opens) hkind]
  rfl

theorem rxFrame_kiosk (hkind : Fr.kind f.hdr = 3) : s.rxFrame d f = (s.noted d f).kioskIn (Fr.src f.hdr) bs := by
  rw [rxFrame_of_ends h hends, consume_kiosk ((received_openFrame s d f f).trans h.opens) hkind]
  rfl

section
variable (hkind : Fr.kind f.hdr = 2)
include hkind

/-- An operation that is sent once ends the repeats and acts. -/
theorem rxFrame_ctrl_once (hop : ctrlRepeats (le bs 0 1) = false) :
    s.rxFrame d f = (s.noted d f).ctrlOp d (Fr.src f.hdr) bs := by
  rw [rxFrame_of_ends h hends, consume_ctrl ((received_openFrame s d f f).trans h.opens) hkind, State.ctrlIn,
    if_neg (ne_true_of_eq_false hop)]
  rfl

/-- A repeat of an operation applied already has no effect (R271). -/
theorem rxFrame_ctrl_repeat (hop : ctrlRepeats (le bs 0 1) = true) (hrep : (Fr.src f.hdr, bs) ∈ (s.side d).repeats) :
    s.rxFrame d f = (s.crossIn d f).updSide d fun x =>
      { RingSide.received f x with repeats := x.repeats.erase (Fr.src f.hdr, bs) } := by
  have hrep' : ((s.received d f).side d).repeats.contains (Fr.src f.hdr, bs) = true := by
    rw [received_sideField s d f RingSide.repeats]
    exact List.contains_iff_mem.mpr hrep
  rw [rxFrame_of_ends h hends, consume_ctrl ((received_openFrame s d f f).trans h.opens) hkind, State.ctrlIn, if_pos hop, if_pos hrep']
  exact State.updSide_updSide _ d _ _

theorem rxFrame_ctrl_new (hop : ctrlRepeats (le bs 0 1) = true) (hrep : (Fr.src f.hdr, bs) ∉ (s.side d).repeats) :
    s.rxFrame d f = (s.notedOp d f bs).ctrlOp d (Fr.src f.hdr) bs := by
  have hrep' : ¬ ((s.received d f).side d).repeats.contains (Fr.src f.hdr, bs) = true := by
    rw [received_sideField s d f RingSide.repeats, List.contains_iff_mem]
    exact hrep
  rw [rxFrame_of_ends h hends, consume_ctrl ((received_openFrame s d f f).trans h.opens) hkind, State.ctrlIn, if_pos hop, if_neg hrep']
  rfl

end

end

/-! ## A REVOKE that goes on (R271, R272) -/

/-- A REVOKE leaves by the other side, or is kept for it. -/
def State.passRevoke (s : State) (d : Side) (f : Frame) (bs : List Byte) : State :=
  if s.sideLive (otherSide d) = true then s.pushFrame (otherSide d) f (some (0, bs))
  else s.updSide (otherSide d) fun x => { x with again := x.again ++ [(0, bs)] }

theorem passRevoke_received (s : State) (d : Side) (f : Frame) (bs : List Byte) : (s.received d f).passRevoke d f bs =
    if s.sideLive (otherSide d) = true then (s.received d f).pushFrame (otherSide d) f (some (0, bs))
    else (s.received d f).updSide (otherSide d) fun x => { x with again := x.again ++ [(0, bs)] } := by
  rw [State.passRevoke, received_sideLive]

theorem passRevoke_sendsOn (s : State) (d : Side) (f : Frame) (bs : List Byte) : s.SendsOn (otherSide d) (s.passRevoke d f bs) := by
  unfold State.passRevoke
  split
  · exact pushFrame_sendsOn s _ f _
  · exact updSide_sendsOn s _ _

theorem forwardCast_revoke (hgoes : s.goesOn d f = true) (hopen : s.openFrame f = .plain bs) (hkind : Fr.kind f.hdr = 2)
    (hop : le bs 0 1 = 9) : s.forwardCast d f = s.passRevoke d f bs := by
  unfold State.forwardCast
  rw [if_pos hgoes, hkind, hopen]
  simp only [hop]
  cases hlive : s.sideLive (otherSide d) <;> simp [State.passRevoke, hlive]

theorem rxFrame_revoke_goesOn (h : s.Uses d f bs) (hgoes : s.goesOn d f = true) (hkind : Fr.kind f.hdr = 2) (hop : le bs 0 1 = 9)
    (hrep : (Fr.src f.hdr, bs) ∉ (s.side d).repeats) :
    s.rxFrame d f = (((s.received d f).passRevoke d f bs).updSide d fun x =>
      { x with repeats := [], applied := x.applied ++ [(Fr.src f.hdr, bs)] }).revokeGroup (le bs 1 1 % 16) (le bs 2 1) := by
  have hopen : (s.received d f).openFrame f = .plain bs := (received_openFrame s d f f).trans h.opens
  have hsends := passRevoke_sendsOn (s.received d f) d f bs
  have hrep' : ¬ (((s.received d f).passRevoke d f bs).side d).repeats.contains (Fr.src f.hdr, bs) = true := by
    rw [hsends.other d (otherSide_ne d), received_sideField s d f RingSide.repeats, List.contains_iff_mem]
    exact hrep
  have hrepeats : ctrlRepeats (le bs 0 1) = true := by rw [hop]; rfl
  rw [rxFrame_of_uses h, forwardCast_revoke ((received_goesOn s d f f).trans hgoes) hopen hkind hop,
    consume_ctrl (hsends.openFrame f |>.trans hopen) hkind, State.ctrlIn, if_pos hrepeats, if_neg hrep', State.endRepeats,
    State.updSide_updSide]
  unfold State.ctrlOp
  rw [hop]
  rfl

end

end Sys2Proof.Machine
end

section
/-!
SUPPORT. DATA, SYNC and Kiosk frames at their station (R277, R278, R282, R345).
-/
namespace Sys2Proof.Machine
open Sys2Proof

/-! ## DATA (R277, R278) -/

section
variable {s : State} {d : Side} {f : Frame} {bs : List Byte} {src n pos : Nat}

theorem dataFrame_unjoined (h : (s.q (Fr.qid f.hdr)).chain.joined = false) :
    s.dataFrame d f = s.sendGone (Fr.qid f.hdr) (Fr.src f.hdr) := if_pos (by rw [h]; rfl)

theorem dataFrame_opened (hjoined : (s.q (Fr.qid f.hdr)).chain.joined = true) (hopen : s.openFrame f = .plain bs) :
    s.dataFrame d f = s.dataIn (Fr.src f.hdr) (Fr.qid f.hdr) (Fr.pos f.hdr) bs := by
  unfold State.dataFrame
  dsimp only
  rw [hjoined, hopen]
  rfl

/-- DATA out of its position is discarded, and FF_REWIND goes out once (R278). -/
theorem dataIn_displaced (hjoined : (s.q n).chain.joined = true) (hpos : pos ≠ (s.q n).committed % 2 ^ 40) :
    s.dataIn src n pos bs = if (s.q n).chain.gapSent then s else
      (s.updQ n fun q => { q with chain := { q.chain with gapSent := true } }).sendCtrl src 7
        [(2, 2, n), (8, 5, (s.q n).committed % 2 ^ 40)] := by
  have hpos' : (pos != (s.q n).committed % 2 ^ 40) = true := bne_iff_ne.mpr hpos
  have hrefused : (pos != (s.q n).committed % 2 ^ 40 || !((s.q n).st == .opened || (s.q n).st == .closing)) = true := by
    rw [hpos', Bool.true_or]
  have hreject : s.dataIn src n pos bs = s.ffReject n src pos := by
    unfold State.dataIn
    simp only [hjoined, hrefused, Bool.not_true, Bool.false_eq_true, if_false, if_true]
  rw [hreject, State.ffReject]
  simp only [hpos', Bool.and_true]
  rfl

/-- The credit a frame takes is counted, and the gap is over. -/
def State.takesData (s : State) (n len : Nat) : State :=
  s.updQ n fun q => { q with chain := { q.chain with gapSent := false, taken := q.chain.taken + ceilDiv len 256 } }

theorem takesData_q (s : State) (n len : Nat) : (s.takesData n len).q n =
    { s.q n with chain := { (s.q n).chain with gapSent := false, taken := (s.q n).chain.taken + ceilDiv len 256 } } := by
  rw [State.takesData, State.q_updQ, if_pos rfl]

theorem askSegment_alike {α : Type} {p : Queue → α} (s : State) (n : Nat)
    (hp : ∀ q b, p { q with segReq := b } = p q := by intro q b; rfl) : s.Alike p (s.askSegment n) := by
  refine updQ_alike s n fun q => ?_
  split
  · exact hp q true
  · rfl

theorem ringRoom_of_held {need : Nat} (h : need ≤ (s.q n).heldEnd) : s.ringRoom n need = s := by
  unfold State.ringRoom
  rw [growTo_of_held h]
  exact if_pos h

theorem followRead_of_unpaired (h : (s.q n).pair.paired = false) : s.followRead n = s := by simp [State.followRead, h]

theorem commitRaw_of_stream (h : (s.q n).b.msgMode = false) : s.commitRaw n bs =
    (s.wrBytes (s.q n) (s.q n).wptr bs).setQ n { s.q n with wptr := (s.q n).wptr + bs.length } := by
  unfold State.commitRaw
  simp only [h, Bool.false_eq_true, if_false]

theorem commitRaw_stores (h : (s.q n).b.msgMode = false) (hapart : (s.q n).apart bs.length) : Stores n s (s.commitRaw n bs) bs := by
  rw [commitRaw_of_stream h]
  exact stores_of_wrBytes rfl rfl rfl hapart

section
variable (hjoined : (s.q n).chain.joined = true) (hpos : pos = (s.q n).committed % 2 ^ 40) (hst : (s.q n).st = .opened)
  (hmode : (s.q n).b.msgMode = false) (hpaired : (s.q n).pair.paired = false) (hroom : (s.q n).wptr + bs.length ≤ (s.q n).heldEnd)
include hjoined hpos hst hmode hpaired hroom

theorem dataIn_in_order : s.dataIn src n pos bs =
    (((s.takesData n bs.length).commitRaw n bs).askSegment n).evalFlags n := by
  have htaken : (pos != (s.q n).committed % 2 ^ 40 || !((s.q n).st == .opened || (s.q n).st == .closing)) = false := by
    rw [hpos, bne_self_eq_false, hst]
    rfl
  have hmode' : ((s.takesData n bs.length).q n).b.msgMode = false := by rw [takesData_q]; exact hmode
  have hpaired' : (((s.takesData n bs.length).commitRaw n bs).q n).pair.paired = false := by
    rw [commitRaw_of_stream hmode', State.q_setQ, if_pos rfl]
    show ((s.takesData n bs.length).q n).pair.paired = false
    rw [takesData_q]
    exact hpaired
  unfold State.dataIn
  simp only [hjoined, htaken, Bool.not_true, Bool.false_eq_true, if_false, ringRoom_of_held hroom, if_neg (Nat.not_lt.mpr hroom)]
  show (((((s.takesData n bs.length).commitRaw n bs).followRead n).askSegment n).evalFlags n) = _
  rw [followRead_of_unpaired hpaired']

/-- DATA at the committed position is stored, its credit taken, and nothing read (R277). -/
theorem dataIn_stores (hapart : (s.q n).apart bs.length) :
    Stores n s (s.dataIn src n pos bs) bs ∧
      ((s.dataIn src n pos bs).q n).chain.taken = (s.q n).chain.taken + ceilDiv bs.length 256 ∧
      ((s.dataIn src n pos bs).q n).chain.gapSent = false ∧ Within 16780481 s (s.dataIn src n pos bs) := by
  let u := s.takesData n bs.length
  have hu : u.q n = _ := takesData_q s n bs.length
  have hmode' : (u.q n).b.msgMode = false := by rw [hu]; exact hmode
  have hsame : SameData n s u := .of_updQ s n _
  have hapart' : (u.q n).apart bs.length := fun i j hij hj => by
    rw [hsame.addr, hsame.addr, hsame.wptr]
    exact hapart i j hij hj
  have hstores : Stores n s ((((u.commitRaw n bs).askSegment n)).evalFlags n) bs :=
    Stores.after hsame (((commitRaw_stores hmode' hapart').before (.of_askSegment _ n)).before (.of_evalFlags _ n))
  have hchain : (((((u.commitRaw n bs).askSegment n)).evalFlags n).q n).chain = (u.q n).chain := by
    rw [evalFlags_alike (p := Queue.chain), askSegment_alike (p := Queue.chain), commitRaw_of_stream hmode', State.q_setQ, if_pos rfl]
  rw [dataIn_in_order hjoined hpos hst hmode hpaired hroom]
  refine ⟨hstores, ?_, ?_, ?_⟩
  · rw [hchain, hu]
  · rw [hchain, hu]
  · have hu : Within 16780481 s u := State.updQ_within n _ (Within.refl _ s) (by decide)
    rw [commitRaw_of_stream hmode']
    exact State.evalFlags_within n (State.askSegment_within n (State.setQ_within n _ (State.wrBytes_within _ _ _ hu (by decide))
      (by decide)) (by decide)) (by decide)

end

end

/-! ## SYNC (R282) -/

/-- What a member knows of the others by SYNC, and its place of reading. -/
def Queue.progress (q : Queue) : (List SyncIn × Nat) × Nat := ((q.chain.sync, q.chain.ffLimit), q.rptr)

section
variable {α : Type} {p : Queue → α}

theorem hearPeer_alike (s : State) (t : Nat) (hp : ∀ q b, p { q with pair := { q.pair with failWatch := b } } = p q := by intro q b; rfl) :
    s.Alike p (s.hearPeer t) := by
  unfold State.hearPeer
  exact .foldl (fun u (e : Nat × Queue) => updQ_alike u e.1 fun q => hp q false) _ (.refl p s)

/-- A write of a queue that leaves the reading as it is, and what comes after it. -/
theorem setQ_alike_then {s t : State} {n : Nat} {x : Queue} (k : (s.setQ n x).Alike p t) (h : p x = p (s.q n)) : s.Alike p t :=
  (setQ_alike h).trans k

theorem release_alike (s : State) (n : Nat) (hp : ∀ q, p q.core = p q := by intro q; rfl) : s.Alike p (s.release n) := by
  intro m
  by_cases hm : m = n
  · subst hm
    exact (onQ_release m s).field p hp
  · rw [(onQ_release n s).other m hm]

theorem completeAll_alike (s : State) (rs : List CmdRef) (status : Nat) : s.Alike p (s.completeAll rs status) := fun m => by
  rw [completeAll_q]

theorem abortReadEnd_alike (s : State) (n : Nat) : s.Alike p (s.abortReadEnd n) := fun m => by
  rw [abortReadEnd_q]

end

theorem evict_progress (s : State) (n i : Nat) : s.Alike Queue.progress (s.evict n i) := by
  unfold State.evict
  exact setQ_alike_then ((post_alike _ _ _).trans (release_alike _ n)) rfl

theorem evictAll_progress (n : Nat) (more : State → Bool) (fuel : Nat) (s : State) :
    s.Alike Queue.progress (s.evictAll n more fuel) := by
  induction fuel generalizing s with
  | zero => exact .refl _ s
  | succ fuel ih =>
    unfold State.evictAll
    split
    · split
      · exact (evict_progress s n _).trans (ih _)
      · exact .refl _ s
    · exact .refl _ s

theorem tailEvict_progress (s : State) (n upCommit : Nat) : s.Alike Queue.progress (s.tailEvict n upCommit) :=
  alike_ite (evictAll_progress n _ 4 s) (.refl _ s)

theorem tryClose_progress (s : State) (n : Nat) : s.Alike Queue.progress (s.tryClose n) := by
  unfold State.tryClose
  refine alike_ite ?_ (.refl _ s)
  exact setQ_alike_then (((release_alike _ n).trans (abortReadEnd_alike _ n)).trans (completeAll_alike _ _ _)) rfl

theorem noteWaits_progress (s : State) (n : Nat) (y : SyncIn) : s.Alike Queue.progress (s.noteWaits n y) := by
  unfold State.noteWaits
  exact setQ_alike_then (completeAll_alike _ _ _) rfl

/-- What a member knows by SYNC, apart from its own place. -/
def Queue.told (q : Queue) : List SyncIn × Nat := (q.chain.sync, q.chain.ffLimit)

theorem Queue.of_told {q : Queue} {l : List SyncIn} {limit : Nat} (h : q.told = (l, limit)) :
    q.chain.sync = l ∧ q.chain.ffLimit = limit := ⟨congrArg Prod.fst h, congrArg Prod.snd h⟩

theorem Queue.of_progress {q : Queue} {l : List SyncIn} {limit at_ : Nat} (h : q.progress = ((l, limit), at_)) :
    q.chain.sync = l ∧ q.chain.ffLimit = limit ∧ q.rptr = at_ :=
  ⟨congrArg (fun x => x.1.1) h, congrArg (fun x => x.1.2) h, congrArg Prod.snd h⟩

theorem State.Alike.told {s t : State} (h : s.Alike Queue.progress t) : s.Alike Queue.told t := fun m => congrArg Prod.fst (h m)

theorem passTo_told (n target fuel : Nat) (s : State) : s.Alike Queue.told (s.passTo n target fuel) := by
  induction fuel generalizing s with
  | zero => exact .refl _ s
  | succ fuel ih =>
    unfold State.passTo
    dsimp only
    split
    · split
      · split
        · exact setQ_alike_then (ih _) rfl
        · split
          · exact setQ_alike rfl
          · exact .refl _ s
      · exact setQ_alike rfl
    · exact setQ_alike rfl

theorem downSync_eq (s : State) (n : Nat) (y : SyncIn) : ∃ c sent target fuel, s.downSync n y =
    (((s.setQ n { s.q n with chain := { (s.q n).chain with ffLimit := y.fflimit, downCommit := c, sent := sent } }).passTo n target
      fuel).release n).tryClose n := ⟨_, _, _, _, rfl⟩

/-- The downstream member's credit is what its entry says, and the entries known stay (R277). -/
theorem downSync_told (s : State) (n : Nat) (y : SyncIn) : ((s.downSync n y).q n).told = ((s.q n).chain.sync, y.fflimit) := by
  obtain ⟨c, sent, target, fuel, h⟩ := downSync_eq s n y
  rw [h, (tryClose_progress _ n).told, release_alike (p := Queue.told) _ n, passTo_told, State.q_setQ, if_pos rfl]
  rfl

section
variable (s : State) (n : Nat) (y : SyncIn)

/-- An entry takes the place of its sender's last one. -/
def State.keepsEntry : State :=
  s.setQ n { s.q n with chain := { (s.q n).chain with sync := ((s.q n).chain.sync.filter fun z => z.station != y.station) ++ [y] } }

/-- The tail's evictions for its upstream member. -/
def State.hearsUpstream : State :=
  if (s.q n).member .west = some y.station then (s.keepsEntry n y).tailEvict n y.commit else s.keepsEntry n y

/-- The entry of the downstream member is applied. -/
def State.hearsDownstream : State :=
  if (s.q n).member .east = some y.station then (s.hearsUpstream n y).downSync n y else s.hearsUpstream n y

theorem hearsUpstream_progress : ((s.hearsUpstream n y).q n).progress =
    ((((s.q n).chain.sync.filter fun z => z.station != y.station) ++ [y], (s.q n).chain.ffLimit), (s.q n).rptr) := by
  have hkept : ((s.keepsEntry n y).q n).progress =
      ((((s.q n).chain.sync.filter fun z => z.station != y.station) ++ [y], (s.q n).chain.ffLimit), (s.q n).rptr) := by
    rw [State.keepsEntry, State.q_setQ, if_pos rfl]
    rfl
  unfold State.hearsUpstream
  split
  · rw [tailEvict_progress, hkept]
  · exact hkept

theorem chainSync_progress : (s.hearsDownstream n y).Alike Queue.progress (s.chainSync n y) := by
  have hrest : ∀ u : State, (s.hearsDownstream n y).Alike Queue.progress u →
      (s.hearsDownstream n y).Alike Queue.progress ((u.noteWaits n y).evalFlags n) := fun u hu =>
    (hu.trans (noteWaits_progress u n y)).trans (evalFlags_alike _ n)
  have hclosed : (s.hearsDownstream n y).Alike Queue.progress
      (((s.hearsDownstream n y).updQ n fun q => { q with chain := { q.chain with upClosed := true } }).tryClose n) :=
    (updQ_alike _ n).trans (tryClose_progress _ n)
  exact hrest _ (alike_ite hclosed (.refl _ _))

/-- A member keeps the entry; of its downstream member it takes the credit, of the others nothing but what they say (R282). -/
theorem chainSync_spec :
    ((s.chainSync n y).q n).chain.sync = ((s.q n).chain.sync.filter fun z => z.station != y.station) ++ [y] ∧
      ((s.q n).member .east = some y.station → ((s.chainSync n y).q n).chain.ffLimit = y.fflimit) ∧
      ((s.q n).member .east ≠ some y.station → ((s.chainSync n y).q n).chain.ffLimit = (s.q n).chain.ffLimit ∧
        ((s.chainSync n y).q n).rptr = (s.q n).rptr) := by
  have hafter : ((s.chainSync n y).q n).progress = ((s.hearsDownstream n y).q n).progress := chainSync_progress s n y n
  have hbefore := hearsUpstream_progress s n y
  by_cases heast : (s.q n).member .east = some y.station
  · have htold : ((s.chainSync n y).q n).told = (((s.hearsUpstream n y).q n).chain.sync, y.fflimit) := by
      have hdown : s.hearsDownstream n y = (s.hearsUpstream n y).downSync n y := if_pos heast
      rw [← downSync_told, ← hdown]
      exact congrArg Prod.fst hafter
    obtain ⟨hsync, hlimit⟩ := Queue.of_told htold
    obtain ⟨hkept, -⟩ := Queue.of_progress hbefore
    exact ⟨hsync.trans hkept, fun _ => hlimit, fun h => absurd heast h⟩
  · have hsame : s.hearsDownstream n y = s.hearsUpstream n y := if_neg heast
    rw [hsame, hbefore] at hafter
    obtain ⟨hsync, hlimit, hrptr⟩ := Queue.of_progress hafter
    exact ⟨hsync, fun h => absurd h heast, fun _ => ⟨hlimit, hrptr⟩⟩

end

section
variable {s : State} {t v : Nat} {bs : List Byte}

theorem syncIn_single (h : bs.length = 64) : s.syncIn t bs = (s.hearPeer t).syncEntryIn t (le bs 0 64) := by
  unfold State.syncIn
  rw [h]
  rfl

theorem syncEntryIn_invalid (h : v / 2 ^ 13 % 2 = 0) : s.syncEntryIn t v = s := if_pos h

section
variable (hvalid : v / 2 ^ 13 % 2 = 1) (hjoined : (s.q (v % 2 ^ 13)).chain.joined = true)
  (hpaired : (s.q (v % 2 ^ 13)).pair.paired = false)
include hvalid hjoined hpaired

/-- An entry for a queue in a chain and no pair is one of the chain, where its sender is a member and not lost. -/
theorem syncEntryIn_chained : s.syncEntryIn t v =
    if ((s.q (v % 2 ^ 13)).chain.stations.contains t && !(s.q (v % 2 ^ 13)).chain.lost.contains t) = true then
      s.chainSync (v % 2 ^ 13) (syncOf t v)
    else s := by
  have hsome : ¬ v / 2 ^ 13 % 2 = 0 := by omega
  unfold State.syncEntryIn
  dsimp only
  rw [if_neg hsome]
  simp only [hjoined, hpaired, Bool.true_and, Bool.false_and, Bool.not_true, Bool.false_eq_true, if_false]

end

end

end Sys2Proof.Machine
end

section
/-!
SUPPORT. CTRL operations at their station (Table RR-3): HELLO, RESEND, joins, REVOKE.
-/
namespace Sys2Proof.Machine
open Sys2Proof

/-! ## HELLO (R264) -/

section
variable (s : State) (d : Side) (o hops : Nat) (dev : BitVec 64)

/-- The map takes a station's hops and its device number. -/
def State.mapsStation : State :=
  let set (m : SMap Nat) : SMap Nat := SMap.set 0 m o (hops + 1)
  let s := match d with
    | .east => { s with ring := { s.ring with hopsE := set s.ring.hopsE } }
    | .west => { s with ring := { s.ring with hopsW := set s.ring.hopsW } }
  { s with ring := { s.ring with devids := SMap.set 0 s.ring.devids o dev } }

/-- A lost station is found again. -/
def State.findsAgain : State :=
  if bit s.ring.lost o then
    ({ s with ring := { s.ring with lost := s.ring.lost &&& ~~~(BitVec.ofNat 8 (2 ^ o)) } }).post 0
      { code := 0x021, body := packNat [(0, 3, o)] }
  else s

/-- A HELLO from another station, up to what it says of the neighbour. -/
def State.hearsHello : State := ((s.mapsStation d o hops dev).findsAgain o).updSide d fun x => { x with helloSeen := true }

theorem mapsStation_hops : (s.mapsStation d o hops dev).hops d o = some hops := by
  cases d <;> simp [State.mapsStation, State.hops]

theorem mapsStation_devids : SMap.get 0 (s.mapsStation d o hops dev).ring.devids o = dev := SMap.get_set_same _ _ _ _

theorem mapsStation_side : (s.mapsStation d o hops dev).side d = s.side d := by cases d <;> rfl

theorem mapsStation_within : Within 16777408 s (s.mapsStation d o hops dev) := by
  cases d <;> exact (withRing_within s _).mono rfl

theorem findsAgain_ring : ∃ l, (s.findsAgain o).ring = { s.ring with lost := l } := by
  unfold State.findsAgain
  split
  · exact ⟨_, (State.post_within 0 _ (Within.refl 16777344 _) (by decide)).same .ring (by decide)⟩
  · exact ⟨s.ring.lost, rfl⟩

theorem findsAgain_within : Within 16777408 s (s.findsAgain o) := by
  unfold State.findsAgain
  split
  · exact State.post_within 0 _ ((withRing_within s _).mono rfl) (by decide)
  · exact .refl _ s

theorem State.hops_of_ring {s t : State} (hE : t.ring.hopsE = s.ring.hopsE) (hW : t.ring.hopsW = s.ring.hopsW) (d : Side) (k : Nat) :
    t.hops d k = s.hops d k := by
  cases d with
  | east => rw [State.hops, State.hops, hE]
  | west => rw [State.hops, State.hops, hW]

theorem hearsHello_spec :
    (s.hearsHello d o hops dev).hops d o = some hops ∧ SMap.get 0 (s.hearsHello d o hops dev).ring.devids o = dev ∧
      (s.hearsHello d o hops dev).side d = { s.side d with helloSeen := true } ∧ Within 16777408 s (s.hearsHello d o hops dev) := by
  obtain ⟨l, hring⟩ := findsAgain_ring (s.mapsStation d o hops dev) o
  have hseen : (s.hearsHello d o hops dev).ring.outside = { (s.mapsStation d o hops dev).ring with lost := l }.outside := by
    rw [State.hearsHello, updSide_outside, hring]
  have hside : ((s.mapsStation d o hops dev).findsAgain o).side d = s.side d := by
    rw [← mapsStation_side s d o hops dev]
    cases d <;> simp only [State.side, hring]
  refine ⟨?_, ?_, ?_, (((mapsStation_within s d o hops dev).step (findsAgain_within _ o) rfl).step (updSide_ringOnly _ d _) rfl)⟩
  · rw [State.hops_of_ring (Ring.field_of_outside hseen Ring.hopsE) (Ring.field_of_outside hseen Ring.hopsW)]
    exact mapsStation_hops s d o hops dev
  · rw [Ring.field_of_outside hseen Ring.devids]
    exact mapsStation_devids s d o hops dev
  · rw [State.hearsHello, State.side_updSide_same, hside]

end

section
variable {s : State} {d : Side} {bs : List Byte}

theorem helloFrom_of_far {o hops : Nat} {dev : BitVec 64} (h : hops ≠ 0) : s.helloFrom d o hops dev = s.hearsHello d o hops dev :=
  if_neg h

theorem helloFrom_of_near {o : Nat} {dev : BitVec 64} (h : (s.side d).facing = none) : s.helloFrom d o 0 dev =
    (s.hearsHello d o 0 dev).updSide d fun x => { x with facing := some (o, dev) } := by
  obtain ⟨-, -, hside, -⟩ := hearsHello_spec s d o 0 dev
  have hfacing : ((s.hearsHello d o 0 dev).side d).facing = none := by rw [hside]; exact h
  unfold State.helloFrom
  simp only [if_true]
  show (match ((s.hearsHello d o 0 dev).side d).facing with | some (p, pd) => _ | none => _) = _
  rw [hfacing]
  rfl

/-- A station that this side has not faced another before becomes known, with its hops (R264). -/
theorem helloFrom_spec {o hops : Nat} {dev : BitVec 64} (h : (s.side d).facing = none ∨ hops ≠ 0) :
    (s.helloFrom d o hops dev).hops d o = some hops ∧ SMap.get 0 (s.helloFrom d o hops dev).ring.devids o = dev ∧
      ((s.helloFrom d o hops dev).side d).helloSeen = true ∧
      (hops = 0 → ((s.helloFrom d o hops dev).side d).facing = some (o, dev)) ∧ Within 16777408 s (s.helloFrom d o hops dev) := by
  obtain ⟨hhops, hdev, hside, hwithin⟩ := hearsHello_spec s d o hops dev
  by_cases hnear : hops = 0
  · subst hnear
    have houtside := updSide_outside (s.hearsHello d o 0 dev) d fun x => { x with facing := some (o, dev) }
    rw [helloFrom_of_near (h.resolve_right (not_not_intro rfl)), State.side_updSide_same, hside]
    refine ⟨?_, ?_, rfl, fun _ => rfl, hwithin.step (updSide_ringOnly _ d _) rfl⟩
    · rw [State.hops_of_ring (Ring.field_of_outside houtside Ring.hopsE) (Ring.field_of_outside houtside Ring.hopsW)]
      exact hhops
    · rw [Ring.field_of_outside houtside Ring.devids]
      exact hdev
  · rw [helloFrom_of_far hnear, hside]
    exact ⟨hhops, hdev, rfl, fun h0 => absurd h0 hnear, hwithin⟩

/-- Another station's HELLO goes on besides. -/
theorem helloIn_other (h : le bs 1 1 % 8 ≠ s.station) :
    (s.helloFrom d (le bs 1 1 % 8) (le bs 2 1) (BitVec.ofNat 64 (le bs 8 8))).Sends (s.helloIn d bs) := by
  unfold State.helloIn
  dsimp only
  rw [if_neg h]
  split
  · split
    · next hframe => exact (controlFrame_sendsOn hframe d).toSends.trans (pushFrame_sendsOn _ _ _ _).toSends
    · exact .refl _
  · exact .refl _

theorem helloIn_other_spec (h : le bs 1 1 % 8 ≠ s.station) (hnew : (s.side d).facing = none ∨ le bs 2 1 ≠ 0) :
    (s.helloIn d bs).hops d (le bs 1 1 % 8) = some (le bs 2 1) ∧
      SMap.get 0 (s.helloIn d bs).ring.devids (le bs 1 1 % 8) = BitVec.ofNat 64 (le bs 8 8) ∧
      ((s.helloIn d bs).side d).helloSeen = true ∧
      (le bs 2 1 = 0 → ((s.helloIn d bs).side d).facing = some (le bs 1 1 % 8, BitVec.ofNat 64 (le bs 8 8))) ∧
      Within 16777408 s (s.helloIn d bs) := by
  obtain ⟨hhops, hdev, hseen, hfacing, hwithin⟩ :=
    helloFrom_spec (o := le bs 1 1 % 8) (dev := BitVec.ofNat 64 (le bs 8 8)) hnew
  have hsends := helloIn_other (d := d) h
  refine ⟨(hsends.hops d _).trans hhops, ?_, (hsends.sideField d RingSide.helloSeen).trans hseen,
    fun h0 => (hsends.sideField d RingSide.facing).trans (hfacing h0), hwithin.step hsends.within rfl⟩
  rw [hsends.ringField Ring.devids]
  exact hdev

section
variable (hown : le bs 1 1 % 8 = s.station)
include hown

/-- The station's own HELLO closes the ring on the side it comes by. -/
theorem helloIn_own (hdev : (BitVec.ofNat 64 (le bs 8 8)).toNat = s.nv.devid.toNat % 2 ^ 64) :
    (match d with
      | .east => (s.helloIn d bs).ring.closedE
      | .west => (s.helloIn d bs).ring.closedW) = true ∧ (s.helloIn d bs).ring.dup = s.ring.dup ∧ Within 64 s (s.helloIn d bs) := by
  have hdev' : ∀ e : Side, (BitVec.ofNat 64 (le bs 8 8)).toNat =
      (s.updSide e fun x => { x with helloSeen := true }).nv.devid.toNat % 2 ^ 64 := by
    intro e
    cases e <;> exact hdev
  unfold State.helloIn
  dsimp only
  rw [if_pos hown, if_pos (hdev' d)]
  cases d with
  | east => exact ⟨rfl, rfl, (updSide_ringOnly s .east _).step (withRing_within _ _) rfl⟩
  | west => exact ⟨rfl, rfl, (updSide_ringOnly s .west _).step (withRing_within _ _) rfl⟩

/-- Another device with the station's number is a duplicate. -/
theorem helloIn_duplicate (hdev : (BitVec.ofNat 64 (le bs 8 8)).toNat ≠ s.nv.devid.toNat % 2 ^ 64) :
    (s.helloIn d bs).ring.dup = true ∧ (s.helloIn d bs).errs.seq = (s.errs.seq + 1) % 2 ^ 32 ∧
      Within 18874560 s (s.helloIn d bs) := by
  let u := s.updSide d fun x => { x with helloSeen := true }
  let v : State := { u with ring := { u.ring with dup := true, dupAt := u.cyc } }
  have hdev' : ¬ (BitVec.ofNat 64 (le bs 8 8)).toNat = u.nv.devid.toNat % 2 ^ 64 := by
    cases d <;> exact hdev
  have hin : s.helloIn d bs = v.raise 0x401 none (le bs 1 1 % 8) ((BitVec.ofNat 64 (le bs 8 8)).toNat % 2 ^ 32)
      ((BitVec.ofNat 64 (le bs 8 8)).toNat / 2 ^ 32) := (if_pos hown).trans (if_neg hdev')
  have hraise := raise_within_of_not_fatal v (code := 0x401) none (le bs 1 1 % 8) ((BitVec.ofNat 64 (le bs 8 8)).toNat % 2 ^ 32)
    ((BitVec.ofNat 64 (le bs 8 8)).toNat / 2 ^ 32) (by decide)
  have hv : Within 64 s v := (updSide_ringOnly s d _).step (withRing_within u _) rfl
  rw [hin]
  refine ⟨?_, ?_, (hv.mono (W := 18874560) rfl).step hraise rfl⟩
  · rw [hraise.same .ring (by decide)]
  · rw [raise_seq, hv.same .errs (by decide)]

end

/-! ## RESEND (R270) -/

/-- What the other end still lacks goes again, in order. -/
theorem ctrlOp_resend {src : Nat} (hop : le bs 0 1 = 3) :
    s.ctrlOp d src bs = (s.updSide d fun x => x.ackTo (BitVec.ofNat 16 (le bs 2 2))).resendFrames d := by
  unfold State.ctrlOp
  rw [hop]
  rfl

/-! ## Joins (R275, R285) -/

theorem keepJoin_joins {src : Nat} (h : s.ring.joins = []) :
    (s.keepJoin src bs).ring.joins = [{ op := le bs 0 1, station := src, payload := bs }] := by
  unfold State.keepJoin
  rw [h]
  rfl

theorem keepJoin_q (s : State) (src : Nat) (bs : List Byte) (n : Nat) : (s.keepJoin src bs).q n = s.q n := rfl

theorem judgeChain_idle {n : Nat} (h : (s.q n).chain.wait = none) : s.judgeChain n = s := by
  unfold State.judgeChain
  dsimp only
  rw [h]

theorem judgePair_idle {n : Nat} (h : (s.q n).pair.wait = none) : s.judgePair n = s := by
  unfold State.judgePair
  dsimp only
  rw [h]

theorem judgePair_of_mismatch {n : Nat} {r : CmdRef} {payload : List Byte} (hw : (s.q n).pair.wait = some r)
    (hshadow : (s.q n).pair.shadow = false) (hjoin : s.joinFrom 8 n (s.q n).pair.peer = some payload)
    (hmatch : (s.q n).pairMatches n 0 payload = false) :
    s.judgePair n = ((s.forgetPairJoins n).updQ n fun q => { q with pair := {} }).complete r St.chainMismatch := by
  unfold State.judgePair
  simp only [hw, hjoin]
  rw [hshadow]
  simp only [Bool.false_eq_true, if_false, hmatch]
  rfl

theorem State.chainStations_of_ring {s t : State} (h : t.ring.cfg = s.ring.cfg) (hE : t.ring.hopsE = s.ring.hopsE)
    (hW : t.ring.hopsW = s.ring.hopsW) (pos nsta : Nat) : t.chainStations pos nsta = s.chainStations pos nsta := by
  have hstation : t.station = s.station := congrArg (fun c : BitVec 32 => fld c 0 3) h
  have hheard : t.heard = s.heard := by
    funext k
    simp only [State.heard, State.hops_of_ring hE hW]
  simp only [State.chainStations, State.present, State.around, hstation, hheard]

/-- A queue that waits for something is one of those listed. -/
theorem SMap.mem_of_get_ne {α : Type} {x : α} {m : SMap α} {n : Nat} (h : SMap.get x m n ≠ x) : (n, SMap.get x m n) ∈ m := by
  induction m with
  | nil => exact absurd rfl h
  | cons e m ih =>
    obtain ⟨k, v⟩ := e
    unfold SMap.get at h ⊢
    split
    · next hk => rw [hk]; exact List.mem_cons_self
    · next hk =>
      rw [if_neg hk] at h
      exact List.mem_cons_of_mem _ (ih h)

theorem leave_of_stays (hstays : ∀ e ∈ s.queues, ∀ w, e.2.chain.wait = some w → w.leave = false) {n : Nat} {w : JoinWait}
    (hw : (s.q n).chain.wait = some w) : w.leave = false := by
  refine hstays (n, s.q n) (SMap.mem_of_get_ne fun hdefault => ?_) w hw
  rw [State.q, hdefault] at hw
  cases hw

/-! ## REVOKE (R294) -/

theorem hold_groups (s : State) (n reason : Nat) : (s.hold n reason).groups = s.groups :=
  (State.hold_within n reason (Within.refl _ s) (Nat.or_self _)).same .groups (by decide)

theorem revokeGroup_group (s : State) (g e h : Nat) :
    (s.revokeGroup g e).group h = if g = h then (s.group g).revoke e else s.group h := by
  have hgroups : (s.revokeGroup g e).groups = (s.setGroup g ((s.group g).revoke e)).groups := by
    unfold State.revokeGroup
    exact List.foldlRecOn (motive := fun t : State => t.groups = (s.setGroup g ((s.group g).revoke e)).groups) _ _ rfl
      fun t ht e _ => (hold_groups t e.1 1).trans ht
  rw [← State.group_setGroup]
  exact congrArg (fun m => SMap.get {} m h) hgroups

theorem Group.mem_revoke_rsGone (g : Group) (e : Nat) : e ∈ (g.revoke e).rsGone ∧ ∀ x ∈ g.rsGone, x ∈ (g.revoke e).rsGone := by
  by_cases h : g.rsGone.contains e = true
  · have hsame : (g.revoke e).rsGone = g.rsGone := if_pos h
    rw [hsame]
    exact ⟨List.contains_iff_mem.mp h, fun x hx => hx⟩
  · have hadded : (g.revoke e).rsGone = g.rsGone ++ [e] := if_neg h
    rw [hadded]
    exact ⟨List.mem_append_right _ List.mem_cons_self, fun x hx => List.mem_append_left _ hx⟩

/-- A revocation marks the group's session of its epoch, remembers the epoch, and touches no other group (R294). -/
theorem revokeGroup_spec (s : State) (g e : Nat) :
    ((s.revokeGroup g e).group g).rsRevoked = ((s.group g).rsRevoked || ((s.group g).rsBound && (s.group g).rsEpoch.toNat % 256 == e)) ∧
      e ∈ ((s.revokeGroup g e).group g).rsGone ∧ (∀ x ∈ (s.group g).rsGone, x ∈ ((s.revokeGroup g e).group g).rsGone) ∧
      ∀ h, h ≠ g → (s.revokeGroup g e).group h = s.group h := by
  have hown : (s.revokeGroup g e).group g = (s.group g).revoke e := (revokeGroup_group s g e g).trans (if_pos rfl)
  obtain ⟨hgone, hkept⟩ := Group.mem_revoke_rsGone (s.group g) e
  rw [hown]
  exact ⟨rfl, hgone, hkept, fun h hh => (revokeGroup_group s g e h).trans (if_neg (Ne.symm hh))⟩

end

end Sys2Proof.Machine
end

section
/-!
SUPPORT. What the expected frame does by its kind and operation (R264 to R294, R345), and the statement put together.
-/
namespace Sys2Proof.Machine
open Sys2Proof

section
variable {s : State} {d : Side} {f : Frame} {bs : List Byte}

/-! ## DATA -/

section
variable {s0 : State} {lanes : LaneCounts}

theorem exec_dataFrame (hlive : s0.sideLive d = true) (hs : s0.countLanes (.side d) lanes = s) :
    exec (.ringDataFrame d ⟨f, lanes⟩) s0 = .next (s.rxFrame d f) := by
  subst hs
  exact congrArg Host.Outcome.next (if_pos hlive)

/-- The lanes' counts reach the side's registers, and nothing else changes (R220). -/
theorem countLanes_side (hs : s0.countLanes (.side d) lanes = s) :
    (s.side d).phy = { (s0.side d).phy with
      fecc := if (s0.side d).phy.cfg.fec = 0 then (s0.side d).phy.fecc else satAdd 0xFFFFFFFF (s0.side d).phy.fecc lanes.corrected
      fecu := if (s0.side d).phy.cfg.fec = 0 then (s0.side d).phy.fecu else satAdd 0xFFFFFFFF (s0.side d).phy.fecu lanes.failed
      bipe := satAdd 0xFFFFFFFF (s0.side d).phy.bipe lanes.bip } ∧ s0.keeps s [.ring] := by
  subst hs
  refine ⟨?_, keeps_of_mask (updSide_ringOnly s0 d _) (by decide)⟩
  exact congrArg RingSide.phy (State.side_updSide_same s0 d _)

end

section
variable (h : s.Uses d f bs) (hends : s.goesOn d f = false ∨ (Fr.kind f.hdr = 2 ∧ le bs 0 1 = 1))
include h hends

section
variable (hkind : Fr.kind f.hdr = 0)
include hkind

theorem rxFrame_data_unjoined (hjoined : (s.q (Fr.qid f.hdr)).chain.joined = false) :
    s.rxFrame d f = (s.noted d f).sendGone (Fr.qid f.hdr) (Fr.src f.hdr) := by
  rw [rxFrame_data h hends hkind, dataFrame_unjoined (by rw [noted_q]; exact hjoined)]

theorem rxFrame_data_joined (hjoined : (s.q (Fr.qid f.hdr)).chain.joined = true) :
    s.rxFrame d f = (s.noted d f).dataIn (Fr.src f.hdr) (Fr.qid f.hdr) (Fr.pos f.hdr) bs := by
  rw [rxFrame_data h hends hkind, dataFrame_opened (by rw [noted_q]; exact hjoined) ((noted_openFrame s d f f).trans h.opens)]

theorem rxFrame_data_displaced (hjoined : (s.q (Fr.qid f.hdr)).chain.joined = true)
    (hpos : Fr.pos f.hdr ≠ (s.q (Fr.qid f.hdr)).committed % 2 ^ 40) :
    s.rxFrame d f = if (s.q (Fr.qid f.hdr)).chain.gapSent then s.noted d f else
      ((s.noted d f).updQ (Fr.qid f.hdr) fun q => { q with chain := { q.chain with gapSent := true } }).sendCtrl (Fr.src f.hdr) 7
        [(2, 2, Fr.qid f.hdr), (8, 5, (s.q (Fr.qid f.hdr)).committed % 2 ^ 40)] := by
  rw [rxFrame_data_joined h hends hkind hjoined, dataIn_displaced (by rw [noted_q]; exact hjoined) (by rw [noted_q]; exact hpos),
    noted_q]

/-- DATA at the committed position is stored there, and nowhere else (R277). -/
theorem rxFrame_data_stores (hjoined : (s.q (Fr.qid f.hdr)).chain.joined = true)
    (hpos : Fr.pos f.hdr = (s.q (Fr.qid f.hdr)).committed % 2 ^ 40) (hst : (s.q (Fr.qid f.hdr)).st = .opened)
    (hmode : (s.q (Fr.qid f.hdr)).b.msgMode = false) (hpaired : (s.q (Fr.qid f.hdr)).pair.paired = false)
    (hroom : (s.q (Fr.qid f.hdr)).wptr + bs.length ≤ (s.q (Fr.qid f.hdr)).heldEnd)
    (hapart : (s.q (Fr.qid f.hdr)).apart bs.length) :
    Stores (Fr.qid f.hdr) s (s.rxFrame d f) bs ∧
      ((s.rxFrame d f).q (Fr.qid f.hdr)).chain.taken = (s.q (Fr.qid f.hdr)).chain.taken + ceilDiv bs.length 256 ∧
      ((s.rxFrame d f).q (Fr.qid f.hdr)).chain.gapSent = false ∧
      s.keeps (s.rxFrame d f) [.queues, .plaza, .mem, .funcs, .ring, .out] := by
  have hq := noted_q s d f (Fr.qid f.hdr)
  have hsame : SameData (Fr.qid f.hdr) s (s.noted d f) := .of_within (noted_ringOnly s d f) (by decide)
  obtain ⟨hstores, htaken, hgap, hwithin⟩ := dataIn_stores (s := s.noted d f) (src := Fr.src f.hdr) (pos := Fr.pos f.hdr)
    (bs := bs) (by rw [hq]; exact hjoined) (by rw [hq]; exact hpos) (by rw [hq]; exact hst) (by rw [hq]; exact hmode)
    (by rw [hq]; exact hpaired) (by rw [hq]; exact hroom) (by rw [hq]; exact hapart)
  rw [hq] at htaken
  rw [rxFrame_data_joined h hends hkind hjoined]
  exact ⟨hstores.after hsame, htaken, hgap,
    keeps_of_mask (((noted_ringOnly s d f).mono (W := 16780481) rfl).step hwithin rfl) (by decide)⟩

end

/-! ## SYNC -/

omit h hends in
theorem syncOf_station (t v : Nat) : (syncOf t v).station = t := rfl

section
variable (hkind : Fr.kind f.hdr = 1) (hlen : bs.length = 64)
include hkind hlen

theorem rxFrame_sync_single : s.rxFrame d f =
    ((s.noted d f).hearPeer (Fr.src f.hdr)).syncEntryIn (Fr.src f.hdr) (le bs 0 64) := by
  rw [rxFrame_sync h hends hkind, syncIn_single hlen]

theorem rxFrame_sync_invalid (hvalid : le bs 0 64 / 2 ^ 13 % 2 = 0) :
    s.rxFrame d f = (s.noted d f).hearPeer (Fr.src f.hdr) := by
  rw [rxFrame_sync_single h hends hkind hlen, syncEntryIn_invalid hvalid]

section
variable (hvalid : le bs 0 64 / 2 ^ 13 % 2 = 1) (hjoined : (s.q (le bs 0 64 % 2 ^ 13)).chain.joined = true)
  (hpaired : (s.q (le bs 0 64 % 2 ^ 13)).pair.paired = false)
include hvalid hjoined hpaired

omit h hends hkind hlen hvalid hjoined hpaired in
/-- What the notes of a frame and the end of a watch leave of a queue. -/
theorem heard_alike {α : Type} (p : Queue → α) (hp : ∀ q b, p { q with pair := { q.pair with failWatch := b } } = p q) :
    s.Alike p ((s.noted d f).hearPeer (Fr.src f.hdr)) :=
  (State.Alike.of_within (noted_ringOnly s d f) (by decide)).trans (hearPeer_alike _ _ hp)

theorem rxFrame_sync_chained : s.rxFrame d f =
    if ((s.q (le bs 0 64 % 2 ^ 13)).chain.stations.contains (Fr.src f.hdr) &&
        !(s.q (le bs 0 64 % 2 ^ 13)).chain.lost.contains (Fr.src f.hdr)) = true then
      ((s.noted d f).hearPeer (Fr.src f.hdr)).chainSync (le bs 0 64 % 2 ^ 13) (syncOf (Fr.src f.hdr) (le bs 0 64))
    else (s.noted d f).hearPeer (Fr.src f.hdr) := by
  have hchain := heard_alike (s := s) (d := d) (f := f) Queue.chain (fun _ _ => rfl) (le bs 0 64 % 2 ^ 13)
  have hpair := heard_alike (s := s) (d := d) (f := f) (fun q => q.pair.paired) (fun _ _ => rfl) (le bs 0 64 % 2 ^ 13)
  rw [rxFrame_sync_single h hends hkind hlen, syncEntryIn_chained hvalid (by rw [hchain]; exact hjoined) (hpair.trans hpaired), hchain]

theorem rxFrame_sync_lost (hlost : Fr.src f.hdr ∈ (s.q (le bs 0 64 % 2 ^ 13)).chain.lost) :
    s.rxFrame d f = (s.noted d f).hearPeer (Fr.src f.hdr) := by
  rw [rxFrame_sync_chained h hends hkind hlen hvalid hjoined hpaired, if_neg]
  rw [List.contains_iff_mem.mpr hlost, Bool.not_true, Bool.and_false]
  exact Bool.false_ne_true

theorem rxFrame_sync_member (hmember : Fr.src f.hdr ∈ (s.q (le bs 0 64 % 2 ^ 13)).chain.stations)
    (hlost : Fr.src f.hdr ∉ (s.q (le bs 0 64 % 2 ^ 13)).chain.lost) :
    ((s.rxFrame d f).q (le bs 0 64 % 2 ^ 13)).chain.sync =
        ((s.q (le bs 0 64 % 2 ^ 13)).chain.sync.filter fun z => z.station != Fr.src f.hdr) ++ [syncOf (Fr.src f.hdr) (le bs 0 64)] ∧
      ((s.q (le bs 0 64 % 2 ^ 13)).member .east = some (Fr.src f.hdr) →
        ((s.rxFrame d f).q (le bs 0 64 % 2 ^ 13)).chain.ffLimit = (syncOf (Fr.src f.hdr) (le bs 0 64)).fflimit) ∧
      ((s.q (le bs 0 64 % 2 ^ 13)).member .east ≠ some (Fr.src f.hdr) →
        ((s.rxFrame d f).q (le bs 0 64 % 2 ^ 13)).chain.ffLimit = (s.q (le bs 0 64 % 2 ^ 13)).chain.ffLimit ∧
        ((s.rxFrame d f).q (le bs 0 64 % 2 ^ 13)).rptr = (s.q (le bs 0 64 % 2 ^ 13)).rptr) := by
  have hcond : ((s.q (le bs 0 64 % 2 ^ 13)).chain.stations.contains (Fr.src f.hdr) &&
      !(s.q (le bs 0 64 % 2 ^ 13)).chain.lost.contains (Fr.src f.hdr)) = true := by
    rw [List.contains_iff_mem.mpr hmember, Bool.eq_false_iff.mpr (mt List.contains_iff_mem.mp hlost)]
    rfl
  rw [rxFrame_sync_chained h hends hkind hlen hvalid hjoined hpaired, if_pos hcond]
  clear hvalid hjoined hpaired hmember hlost hcond
  generalize le bs 0 64 % 2 ^ 13 = k
  have hchain := heard_alike (s := s) (d := d) (f := f) Queue.chain (fun _ _ => rfl) k
  have heast := heard_alike (s := s) (d := d) (f := f) (fun q => q.member .east) (fun _ _ => rfl) k
  have hrptr := heard_alike (s := s) (d := d) (f := f) Queue.rptr (fun _ _ => rfl) k
  have hspec := chainSync_spec ((s.noted d f).hearPeer (Fr.src f.hdr)) k (syncOf (Fr.src f.hdr) (le bs 0 64))
  rw [hchain, hrptr, show (((s.noted d f).hearPeer (Fr.src f.hdr)).q k).member .east = _ from heast, syncOf_station] at hspec
  exact hspec

end

end

/-! ## CTRL -/

section
variable (hkind : Fr.kind f.hdr = 2)
include hkind

theorem rxFrame_hello (hop : le bs 0 1 = 1) : s.rxFrame d f = (s.noted d f).helloIn d bs := by
  rw [rxFrame_ctrl_once h hends hkind (by rw [hop]; rfl), State.ctrlOp, hop]
  rfl

theorem rxFrame_ack (hop : le bs 0 1 = 2) : s.rxFrame d f = s.noted d f := by
  rw [rxFrame_ctrl_once h hends hkind (by rw [hop]; rfl), State.ctrlOp, hop]
  rfl

theorem rxFrame_resend (hop : le bs 0 1 = 3) :
    let left := ((s.side d).ackTo (BitVec.ofNat 16 (Fr.ack f.hdr))).ackTo (BitVec.ofNat 16 (le bs 2 2))
    ((s.rxFrame d f).side d).resend = left.resend ∧
      (∀ e ∈ left.resend, Out.frame d (stampFrame e.frame e.seq ((s.side d).rxSeq + 1)) ∈ (s.rxFrame d f).out) ∧
      s.keeps (s.rxFrame d f) [.ring, .out] := by
  intro left
  let v := (s.noted d f).updSide d fun x => x.ackTo (BitVec.ofNat 16 (le bs 2 2))
  have hrx : s.rxFrame d f = v.resendFrames d := by
    rw [rxFrame_ctrl_once h hends hkind (by rw [hop]; rfl), ctrlOp_resend hop]
  have hside : v.side d = ((s.noted d f).side d).ackTo (BitVec.ofNat 16 (le bs 2 2)) := State.side_updSide_same _ d _
  have hresend : (v.side d).resend = left.resend := by
    rw [hside, noted_eq, State.side_updSide_same, side_crossIn]
    rfl
  have hseq : (v.side d).rxSeq = (s.side d).rxSeq + 1 := by
    rw [hside, noted_eq, State.side_updSide_same, side_crossIn]
    rfl
  obtain ⟨hout, hleft⟩ := resendFrames_out v d
  rw [hresend, hseq] at hout
  rw [hrx]
  refine ⟨hleft.trans hresend, fun e he => ?_, keeps_of_mask ((((noted_ringOnly s d f).mono (W := 16777280) rfl).step
    (updSide_ringOnly _ d _) rfl).step (resendFrames_sendsOn v d).within rfl) (by decide)⟩
  rw [hout, List.mem_append, List.mem_reverse]
  exact .inl (List.mem_map_of_mem he)

end

end

end

end Sys2Proof.Machine
end

section
/-!
SUPPORT. The CTRL operations of the expected frame on a queue (R271, R275 to R279, R284, R285, R294), the Kiosk's answer (R345),
and the statement put together.
-/
namespace Sys2Proof.Machine
open Sys2Proof

/-! ## Operations on a queue -/

section
variable {s : State} {d : Side} {src : Nat} {bs : List Byte}

/-- Where a carried position lies from another on, modulo 2^40. -/
def ahead (bs : List Byte) (from_ : Nat) : Nat := (le bs 8 5 + 2 ^ 40 - from_ % 2 ^ 40) % 2 ^ 40

/-- The committed position that a carried one stands for; one from before is the present one. -/
def Queue.duePos (q : Queue) (bs : List Byte) : Nat :=
  if ahead bs q.committed < 2 ^ 39 then q.committed + ahead bs q.committed else q.committed

theorem ctrlOp_chainJoin (hop : le bs 0 1 = 4) :
    s.ctrlOp d src bs = (s.keepJoin src bs).judgeChain (le bs 2 2 % 2 ^ 13) := by
  rw [State.ctrlOp, hop]
  rfl

theorem ctrlOp_chainCmd (hop : le bs 0 1 = 5) : s.ctrlOp d src bs =
    if (s.q (le bs 2 2 % 2 ^ 13)).chain.joined then s.updQ (le bs 2 2 % 2 ^ 13) fun q =>
      { q with chain := { q.chain with cmds := q.chain.cmds ++ [{ code := le bs 4 1, pos := q.duePos bs }] } }
    else s.sendGone (le bs 2 2 % 2 ^ 13) src := by
  rw [State.ctrlOp, hop]
  rfl

theorem ctrlOp_ffMark (hop : le bs 0 1 = 6) : s.ctrlOp d src bs =
    if (s.q (le bs 2 2 % 2 ^ 13)).chain.joined then s.updQ (le bs 2 2 % 2 ^ 13) fun q =>
      { q with chain := { q.chain with marks := (q.chain.marks.filter fun c => c.code != le bs 4 1 % 4) ++
        [{ code := le bs 4 1 % 4, pos := q.duePos bs }] } }
    else s.sendGone (le bs 2 2 % 2 ^ 13) src := by
  rw [State.ctrlOp, hop]
  rfl

theorem ctrlOp_rewind (hop : le bs 0 1 = 7) : s.ctrlOp d src bs =
    if (s.q (le bs 2 2 % 2 ^ 13)).chain.joined then s.updQ (le bs 2 2 % 2 ^ 13) fun q =>
      if q.chain.downCommit + ahead bs q.chain.downCommit ≤ q.chain.sendPos then
        { q with chain := q.chain.resume (q.chain.downCommit + ahead bs q.chain.downCommit) }
      else q
    else s.sendGone (le bs 2 2 % 2 ^ 13) src := by
  rw [State.ctrlOp, hop]
  rfl

theorem ctrlOp_pairJoin (hop : le bs 0 1 = 8) :
    s.ctrlOp d src bs = (s.keepJoin src bs).judgePair (le bs 2 2 % 2 ^ 13) := by
  rw [State.ctrlOp, hop]
  rfl

theorem ctrlOp_revoke (hop : le bs 0 1 = 9) : s.ctrlOp d src bs = s.revokeGroup (le bs 1 1 % 16) (le bs 2 1) := by
  rw [State.ctrlOp, hop]
  rfl

theorem ctrlOp_gone (hop : le bs 0 1 = 10) : s.ctrlOp d src bs =
    if ((s.q (le bs 2 2 % 2 ^ 13)).chained && (s.q (le bs 2 2 % 2 ^ 13)).chain.stations.contains src) = true then
      (s.loseMember (le bs 2 2 % 2 ^ 13) src).reportLost src
    else s := by
  rw [State.ctrlOp, hop]
  rfl

end

/-! ## A join that is kept (R275, R285) -/

section
variable {s : State} {d : Side} {f : Frame} {bs : List Byte}

/-- The state in which a join has been noted and kept. -/
def State.kept (s : State) (d : Side) (f : Frame) (bs : List Byte) : State := (s.notedOp d f bs).keepJoin (Fr.src f.hdr) bs

theorem kept_q (s : State) (d : Side) (f : Frame) (bs : List Byte) (n : Nat) : (s.kept d f bs).q n = s.q n := notedOp_q s d f bs n

theorem kept_joins (hjoins : s.ring.joins = []) {op : Nat} (hop : le bs 0 1 = op) :
    (s.kept d f bs).ring.joins = [{ op := op, station := Fr.src f.hdr, payload := bs }] := by
  subst hop
  exact keepJoin_joins ((Ring.field_of_outside (notedOp_outside s d f bs) Ring.joins).trans hjoins)

theorem kept_chainStations (s : State) (d : Side) (f : Frame) (bs : List Byte) (pos nsta : Nat) :
    (s.kept d f bs).chainStations pos nsta = s.chainStations pos nsta :=
  State.chainStations_of_ring (t := s.kept d f bs) (Ring.field_of_outside (notedOp_outside s d f bs) Ring.cfg)
    (Ring.field_of_outside (notedOp_outside s d f bs) Ring.hopsE) (Ring.field_of_outside (notedOp_outside s d f bs) Ring.hopsW) pos nsta

theorem kept_ringOnly (s : State) (d : Side) (f : Frame) (bs : List Byte) : Within 64 s (s.kept d f bs) :=
  State.keepJoin_within _ _ (notedOp_ringOnly s d f bs) (by decide)

end

section
variable {s : State} {d : Side} {f : Frame} {bs : List Byte}
variable (h : s.Uses d f bs) (hends : s.goesOn d f = false ∨ (Fr.kind f.hdr = 2 ∧ le bs 0 1 = 1))
include h hends

section
variable (hkind : Fr.kind f.hdr = 2)
include hkind

/-! ## HELLO (R264) -/

section
variable (hop : le bs 0 1 = 1)
include hop

theorem rxFrame_hello_other (hother : le bs 1 1 % 8 ≠ s.station) (hnew : (s.side d).facing = none ∨ le bs 2 1 ≠ 0) :
    (s.rxFrame d f).hops d (le bs 1 1 % 8) = some (le bs 2 1) ∧
      SMap.get 0 (s.rxFrame d f).ring.devids (le bs 1 1 % 8) = BitVec.ofNat 64 (le bs 8 8) ∧
      ((s.rxFrame d f).side d).helloSeen = true ∧
      (le bs 2 1 = 0 → ((s.rxFrame d f).side d).facing = some (le bs 1 1 % 8, BitVec.ofNat 64 (le bs 8 8))) ∧
      s.keeps (s.rxFrame d f) [.ring, .funcs, .out] := by
  have hfacing : ((s.noted d f).side d).facing = (s.side d).facing := noted_sideField s d f RingSide.facing
  obtain ⟨hhops, hdev, hseen, hface, hwithin⟩ := helloIn_other_spec (s := s.noted d f) (d := d) (bs := bs)
    (by rw [noted_station]; exact hother) (by rw [hfacing]; exact hnew)
  rw [rxFrame_hello h hends hkind hop]
  exact ⟨hhops, hdev, hseen, hface, keeps_of_mask (((noted_ringOnly s d f).mono (W := 16777408) rfl).step hwithin rfl) (by decide)⟩

section
variable (hown : le bs 1 1 % 8 = s.station)
include hown

theorem rxFrame_hello_own (hdev : (BitVec.ofNat 64 (le bs 8 8)).toNat = s.nv.devid.toNat % 2 ^ 64) :
    (match d with
      | .east => (s.rxFrame d f).ring.closedE
      | .west => (s.rxFrame d f).ring.closedW) = true ∧ (s.rxFrame d f).ring.dup = s.ring.dup ∧ s.keeps (s.rxFrame d f) [.ring] := by
  have hnv : (s.noted d f).nv = s.nv := (noted_ringOnly s d f).same .nv (by decide)
  have hdup : (s.noted d f).ring.dup = s.ring.dup := Ring.field_of_outside (noted_outside s d f) Ring.dup
  obtain ⟨hclosed, hsame, hwithin⟩ := helloIn_own (s := s.noted d f) (d := d) (bs := bs)
    (by rw [noted_station]; exact hown) (by rw [hnv]; exact hdev)
  rw [rxFrame_hello h hends hkind hop]
  exact ⟨hclosed, hsame.trans hdup, keeps_of_mask ((noted_ringOnly s d f).step hwithin rfl) (by decide)⟩

theorem rxFrame_hello_duplicate (hdev : (BitVec.ofNat 64 (le bs 8 8)).toNat ≠ s.nv.devid.toNat % 2 ^ 64) :
    (s.rxFrame d f).ring.dup = true ∧ (s.rxFrame d f).errs.seq = (s.errs.seq + 1) % 2 ^ 32 ∧
      s.keeps (s.rxFrame d f) [.ring, .errs, .funcs, .out] := by
  have hnv : (s.noted d f).nv = s.nv := (noted_ringOnly s d f).same .nv (by decide)
  have herrs : (s.noted d f).errs = s.errs := (noted_ringOnly s d f).same .errs (by decide)
  obtain ⟨hdup, hseq, hwithin⟩ := helloIn_duplicate (s := s.noted d f) (d := d) (bs := bs)
    (by rw [noted_station]; exact hown) (by rw [hnv]; exact hdev)
  rw [rxFrame_hello h hends hkind hop]
  exact ⟨hdup, by rw [hseq, herrs], keeps_of_mask (((noted_ringOnly s d f).mono (W := 18874560) rfl).step hwithin rfl) (by decide)⟩

end

end

/-! ## FF_REWIND and GONE (R278, R284) -/

theorem rxFrame_rewind_joined (hop : le bs 0 1 = 7) (hjoined : (s.q (le bs 2 2 % 2 ^ 13)).chain.joined = true) :
    s.rxFrame d f = (s.noted d f).updQ (le bs 2 2 % 2 ^ 13) fun q =>
      if q.chain.downCommit + ahead bs q.chain.downCommit ≤ q.chain.sendPos then
        { q with chain := q.chain.resume (q.chain.downCommit + ahead bs q.chain.downCommit) }
      else q := by
  have hq := noted_q s d f (le bs 2 2 % 2 ^ 13)
  rw [rxFrame_ctrl_once h hends hkind (by rw [hop]; rfl), ctrlOp_rewind hop, if_pos (by rw [hq]; exact hjoined)]

theorem rxFrame_rewind_unjoined (hop : le bs 0 1 = 7) (hjoined : (s.q (le bs 2 2 % 2 ^ 13)).chain.joined = false) :
    s.rxFrame d f = (s.noted d f).sendGone (le bs 2 2 % 2 ^ 13) (Fr.src f.hdr) := by
  have hq := noted_q s d f (le bs 2 2 % 2 ^ 13)
  rw [rxFrame_ctrl_once h hends hkind (by rw [hop]; rfl), ctrlOp_rewind hop, hq, hjoined]
  rfl

section
variable (hop : le bs 0 1 = 10)
include hop

theorem rxFrame_gone_member (hchained : (s.q (le bs 2 2 % 2 ^ 13)).chained = true)
    (hmember : Fr.src f.hdr ∈ (s.q (le bs 2 2 % 2 ^ 13)).chain.stations) : s.rxFrame d f =
    ((s.noted d f).loseMember (le bs 2 2 % 2 ^ 13) (Fr.src f.hdr)).reportLost (Fr.src f.hdr) := by
  have hq := noted_q s d f (le bs 2 2 % 2 ^ 13)
  rw [rxFrame_ctrl_once h hends hkind (by rw [hop]; rfl), ctrlOp_gone hop, hq, hchained, List.contains_iff_mem.mpr hmember]
  rfl

theorem rxFrame_gone_other
    (hother : (s.q (le bs 2 2 % 2 ^ 13)).chained = false ∨ Fr.src f.hdr ∉ (s.q (le bs 2 2 % 2 ^ 13)).chain.stations) :
    s.rxFrame d f = s.noted d f := by
  have hq := noted_q s d f (le bs 2 2 % 2 ^ 13)
  rw [rxFrame_ctrl_once h hends hkind (by rw [hop]; rfl), ctrlOp_gone hop, hq]
  refine if_neg ?_
  obtain hchained | hstation := hother
  · rw [hchained]
    exact Bool.false_ne_true
  · rw [Bool.eq_false_iff.mpr (mt List.contains_iff_mem.mp hstation), Bool.and_false]
    exact Bool.false_ne_true

end

/-! ## Operations that R271 repeats -/

section
variable (hrep : (Fr.src f.hdr, bs) ∉ (s.side d).repeats)
include hrep

theorem rxFrame_chainCmd_joined (hop : le bs 0 1 = 5) (hjoined : (s.q (le bs 2 2 % 2 ^ 13)).chain.joined = true) :
    s.rxFrame d f = (s.notedOp d f bs).updQ (le bs 2 2 % 2 ^ 13) fun q =>
      { q with chain := { q.chain with
        cmds := q.chain.cmds ++ [{ code := le bs 4 1, pos := (s.q (le bs 2 2 % 2 ^ 13)).duePos bs }] } } := by
  have hq := notedOp_q s d f bs (le bs 2 2 % 2 ^ 13)
  rw [rxFrame_ctrl_new h hends hkind (by rw [hop]; rfl) hrep, ctrlOp_chainCmd hop, if_pos (by rw [hq]; exact hjoined)]
  exact updQ_congr (by rw [hq])

theorem rxFrame_chainCmd_unjoined (hop : le bs 0 1 = 5) (hjoined : (s.q (le bs 2 2 % 2 ^ 13)).chain.joined = false) :
    s.rxFrame d f = (s.notedOp d f bs).sendGone (le bs 2 2 % 2 ^ 13) (Fr.src f.hdr) := by
  have hq := notedOp_q s d f bs (le bs 2 2 % 2 ^ 13)
  rw [rxFrame_ctrl_new h hends hkind (by rw [hop]; rfl) hrep, ctrlOp_chainCmd hop, hq, hjoined]
  rfl

theorem rxFrame_ffMark_joined (hop : le bs 0 1 = 6) (hjoined : (s.q (le bs 2 2 % 2 ^ 13)).chain.joined = true) :
    s.rxFrame d f = (s.notedOp d f bs).updQ (le bs 2 2 % 2 ^ 13) fun q =>
      { q with chain := { q.chain with marks := (q.chain.marks.filter fun c => c.code != le bs 4 1 % 4) ++
        [{ code := le bs 4 1 % 4, pos := (s.q (le bs 2 2 % 2 ^ 13)).duePos bs }] } } := by
  have hq := notedOp_q s d f bs (le bs 2 2 % 2 ^ 13)
  rw [rxFrame_ctrl_new h hends hkind (by rw [hop]; rfl) hrep, ctrlOp_ffMark hop, if_pos (by rw [hq]; exact hjoined)]
  exact updQ_congr (by rw [hq])

theorem rxFrame_ffMark_unjoined (hop : le bs 0 1 = 6) (hjoined : (s.q (le bs 2 2 % 2 ^ 13)).chain.joined = false) :
    s.rxFrame d f = (s.notedOp d f bs).sendGone (le bs 2 2 % 2 ^ 13) (Fr.src f.hdr) := by
  have hq := notedOp_q s d f bs (le bs 2 2 % 2 ^ 13)
  rw [rxFrame_ctrl_new h hends hkind (by rw [hop]; rfl) hrep, ctrlOp_ffMark hop, hq, hjoined]
  rfl

theorem rxFrame_revoke (hop : le bs 0 1 = 9) :
    s.rxFrame d f = (s.notedOp d f bs).revokeGroup (le bs 1 1 % 16) (le bs 2 1) := by
  rw [rxFrame_ctrl_new h hends hkind (by rw [hop]; rfl) hrep, ctrlOp_revoke hop]

/-! ## Joins (R275, R285) -/

section
variable (hop : le bs 0 1 = 4)
include hop

theorem rxFrame_chainJoin : s.rxFrame d f =
    (s.kept d f bs).judgeChain (le bs 2 2 % 2 ^ 13) := by
  rw [rxFrame_ctrl_new h hends hkind (by rw [hop]; rfl) hrep, ctrlOp_chainJoin hop]
  rfl

theorem rxFrame_chainJoin_kept (hwait : (s.q (le bs 2 2 % 2 ^ 13)).chain.wait = none) :
    s.rxFrame d f = s.kept d f bs := by
  rw [rxFrame_chainJoin h hends hkind hrep hop, judgeChain_idle]
  rw [kept_q]
  exact hwait

section
variable {w : JoinWait} (hwait : (s.q (le bs 2 2 % 2 ^ 13)).chain.wait = some w) (heast : w.east = true) (hwest : w.west = false)
  (hmember : (s.q (le bs 2 2 % 2 ^ 13)).member .east = some (Fr.src f.hdr)) (hjoins : s.ring.joins = [])
include hwait heast hwest hmember hjoins

/-- The join that a head waits for: the chain stands once its fields agree (R275). -/
theorem rxFrame_chainJoin_agrees
    (hmatch : (s.q (le bs 2 2 % 2 ^ 13)).chainMatches (le bs 2 2 % 2 ^ 13) ((s.q (le bs 2 2 % 2 ^ 13)).chain.pos + 1) bs = true) :
    ∃ t, s.rxFrame d f = t.complete w.ref St.ok ∧ (t.q (le bs 2 2 % 2 ^ 13)).chain = { (s.q (le bs 2 2 % 2 ^ 13)).chain with
        joined := true, wait := none
        stations := s.chainStations (s.q (le bs 2 2 % 2 ^ 13)).chain.pos (s.q (le bs 2 2 % 2 ^ 13)).chain.nsta } ∧
      t.ring.joins = [] ∧ s.keeps t [.queues, .ring, .funcs, .out] := by
  have hq := kept_q s d f bs (le bs 2 2 % 2 ^ 13)
  obtain ⟨t, hjudge, hchain, hforgot, hafter⟩ := judgeChain_agrees (s := s.kept d f bs) (n := le bs 2 2 % 2 ^ 13)
    (by rw [hq]; exact hwait) (leave_of_stays h.stays hwait) heast hwest
    (by rw [hq]; exact hmember) (kept_joins hjoins hop) rfl (by rw [hq]; exact hmatch)
  rw [hq, kept_chainStations] at hchain
  exact ⟨t, (rxFrame_chainJoin h hends hkind hrep hop).trans hjudge, hchain, hforgot,
    keeps_of_mask (((kept_ringOnly s d f bs).mono (W := 16777409) rfl).step hafter rfl) (by decide)⟩

theorem rxFrame_chainJoin_disagrees
    (hmatch : (s.q (le bs 2 2 % 2 ^ 13)).chainMatches (le bs 2 2 % 2 ^ 13) ((s.q (le bs 2 2 % 2 ^ 13)).chain.pos + 1) bs = false) :
    ((s.rxFrame d f).q (le bs 2 2 % 2 ^ 13)).chain = {} ∧ s.keeps (s.rxFrame d f) [.queues, .ring, .funcs, .fw, .errs, .out] := by
  have hq := kept_q s d f bs (le bs 2 2 % 2 ^ 13)
  rw [rxFrame_chainJoin h hends hkind hrep hop]
  exact ⟨judgeChain_disagrees (s := s.kept d f bs) (n := le bs 2 2 % 2 ^ 13)
      (by rw [hq]; exact hwait) (leave_of_stays h.stays hwait) heast hwest (by rw [hq]; exact hmember)
      (kept_joins hjoins hop) rfl (by rw [hq]; exact hmatch),
    keeps_of_mask (State.judgeChain_within (W := 19923137) _ ((kept_ringOnly s d f bs).mono rfl) (by decide)) (by decide)⟩

end

end

theorem rxFrame_pairJoin (hop : le bs 0 1 = 8) : s.rxFrame d f =
    (s.kept d f bs).judgePair (le bs 2 2 % 2 ^ 13) := by
  rw [rxFrame_ctrl_new h hends hkind (by rw [hop]; rfl) hrep, ctrlOp_pairJoin hop]
  rfl

theorem rxFrame_pairJoin_kept (hop : le bs 0 1 = 8) (hwait : (s.q (le bs 2 2 % 2 ^ 13)).pair.wait = none) :
    s.rxFrame d f = s.kept d f bs := by
  rw [rxFrame_pairJoin h hends hkind hrep hop, judgePair_idle]
  rw [kept_q]
  exact hwait

section
variable {r : CmdRef} (hop : le bs 0 1 = 8) (hwait : (s.q (le bs 2 2 % 2 ^ 13)).pair.wait = some r)
  (hpeer : (s.q (le bs 2 2 % 2 ^ 13)).pair.peer = Fr.src f.hdr) (hjoins : s.ring.joins = [])
  (hshadow : (s.q (le bs 2 2 % 2 ^ 13)).pair.shadow = false)
include hop hwait hpeer hjoins hshadow

/-- The join that an active tail waits for: the pair stands once its fields agree (R285). -/
theorem rxFrame_pairJoin_agrees
    (hmatch : (s.q (le bs 2 2 % 2 ^ 13)).pairMatches (le bs 2 2 % 2 ^ 13) 0 bs = true) :
    ∃ t, s.rxFrame d f = t.complete r St.ok ∧ (t.q (le bs 2 2 % 2 ^ 13)).pair =
        { (s.q (le bs 2 2 % 2 ^ 13)).pair with paired := true, wait := none, peerActive := false } ∧
      s.keeps t [.queues, .ring, .out] := by
  have hq := kept_q s d f bs (le bs 2 2 % 2 ^ 13)
  obtain ⟨t, hjudge, hpair, hafter⟩ := judgePair_of_match (s := s.kept d f bs) (n := le bs 2 2 % 2 ^ 13)
    (by rw [hq]; exact hwait) (by rw [hq]; exact hshadow)
    (by rw [hq, hpeer]; exact joinFrom_of_single (kept_joins hjoins hop) rfl) (by rw [hq]; exact hmatch)
  rw [hq] at hpair
  exact ⟨t, (rxFrame_pairJoin h hends hkind hrep hop).trans hjudge, hpair,
    keeps_of_mask (((kept_ringOnly s d f bs).mono (W := 16777281) rfl).step hafter rfl) (by decide)⟩

theorem rxFrame_pairJoin_disagrees
    (hmatch : (s.q (le bs 2 2 % 2 ^ 13)).pairMatches (le bs 2 2 % 2 ^ 13) 0 bs = false) :
    ∃ t, s.rxFrame d f = t.complete r St.chainMismatch ∧ (t.q (le bs 2 2 % 2 ^ 13)).pair = {} ∧ s.keeps t [.queues, .ring] := by
  have hq := kept_q s d f bs (le bs 2 2 % 2 ^ 13)
  have hjudge := judgePair_of_mismatch (s := s.kept d f bs) (n := le bs 2 2 % 2 ^ 13)
    (by rw [hq]; exact hwait) (by rw [hq]; exact hshadow)
    (by rw [hq, hpeer]; exact joinFrom_of_single (kept_joins hjoins hop) rfl) (by rw [hq]; exact hmatch)
  refine ⟨_, (rxFrame_pairJoin h hends hkind hrep hop).trans hjudge, ?_, keeps_of_mask (M := 65)
    (State.updQ_within _ _ (((kept_ringOnly s d f bs).mono rfl).step (withRing_within _ _) rfl) (by decide)) (by decide)⟩
  rw [State.q_updQ, if_pos rfl]

end

end

end

end

end Sys2Proof.Machine
end

section
/-!
SUPPORT. The Kiosk's answer to a request over the ring (R345), and the kinds of frame put together.
-/
namespace Sys2Proof.Machine
open Sys2Proof

/-! ## Kiosk frames (R345) -/

/-- A field of a Kiosk word. -/
def kioskField (bs : List Byte) (lo w : Nat) : Nat := ofBytes bs / 2 ^ lo % 2 ^ w

/-- The response to a Kiosk request (Table BL-11). -/
def kioskAnswer (bs : List Byte) (st : Nat) (x : Word64) : List Byte :=
  cword 5 2 (kioskFields (kioskField bs 16 2) st (kioskField bs 24 8) (kioskField bs 32 15) x)

section
variable {s : State} {bs : List Byte} {src : Nat}

theorem kioskIn_response (h : kioskField bs 8 4 ≠ 4) : s.kioskIn src bs = s := if_neg h

/-- A request is answered with what the Kiosk said. -/
theorem kioskIn_answers (h : kioskField bs 8 4 = 4) {st : Nat} {x : Word64} {r t : State} {fr : Frame}
    (haccess : s.streetAccess .ring s.kiosk.winRing false (kioskField bs 16 2) (kioskField bs 32 15)
      (BitVec.ofNat 64 (kioskField bs 64 64)) = (some (st, x), r))
    (hframe : r.controlFrame 3 src false (kioskAnswer bs st x) = some (fr, t)) : s.kioskIn src bs = t.routeFrame fr := by
  unfold State.kioskIn
  refine (if_pos h).trans ?_
  show (match s.streetAccess .ring s.kiosk.winRing false (kioskField bs 16 2) (kioskField bs 32 15)
      (BitVec.ofNat 64 (kioskField bs 64 64)) with | (some (st, data), s) => _ | (none, s) => _) = _
  rw [haccess]
  show (match r.controlFrame 3 src false (kioskAnswer bs st x) with | some (fr, s) => _ | none => _) = _
  rw [hframe]

theorem streetAccess_of_value {who : Asker} {win : BitVec 32} {op a : Nat} {data x : Word64} {r : State}
    (hwin : Kwin.permits win (kopOf op) a = true) (haccess : s.kioskAccess who (kopOf op) a data = (.value x, r)) :
    s.streetAccess who win false op a data = (some (0, x), r) := by
  simp [State.streetAccess, hwin, haccess]

end

section
variable {s : State} {d : Side} {f : Frame} {bs : List Byte}
variable (h : s.Uses d f bs) (hends : s.goesOn d f = false ∨ (Fr.kind f.hdr = 2 ∧ le bs 0 1 = 1)) (hkind : Fr.kind f.hdr = 3)
include h hends hkind

theorem rxFrame_kiosk_response (hop : kioskField bs 8 4 ≠ 4) : s.rxFrame d f = s.noted d f := by
  rw [rxFrame_kiosk h hends hkind, kioskIn_response hop]

section
variable (hop : kioskField bs 8 4 = 4) {fr : Frame} {t : State}
include hop

theorem rxFrame_kiosk_refused (hwin : Kwin.permits s.kiosk.winRing (kopOf (kioskField bs 16 2)) (kioskField bs 32 15) = false)
    (hframe : (s.noted d f).controlFrame 3 (Fr.src f.hdr) false (kioskAnswer bs 2 0) = some (fr, t)) :
    s.rxFrame d f = t.routeFrame fr := by
  have hk : (s.noted d f).kiosk = s.kiosk := (noted_ringOnly s d f).same .kiosk (by decide)
  rw [rxFrame_kiosk h hends hkind,
    kioskIn_answers hop (streetAccess_of_closed (.inl rfl) (by rw [hk]; exact hwin) _ _) hframe]

theorem rxFrame_kiosk_served (hwin : Kwin.permits s.kiosk.winRing (kopOf (kioskField bs 16 2)) (kioskField bs 32 15) = true)
    {x : Word64} {r : State}
    (haccess : (s.noted d f).kioskAccess .ring (kopOf (kioskField bs 16 2)) (kioskField bs 32 15)
      (BitVec.ofNat 64 (kioskField bs 64 64)) = (.value x, r))
    (hframe : r.controlFrame 3 (Fr.src f.hdr) false (kioskAnswer bs 0 x) = some (fr, t)) :
    s.rxFrame d f = t.routeFrame fr := by
  have hk : (s.noted d f).kiosk = s.kiosk := (noted_ringOnly s d f).same .kiosk (by decide)
  rw [rxFrame_kiosk h hends hkind, kioskIn_answers hop (streetAccess_of_value (by rw [hk]; exact hwin) haccess) hframe]

end

end

/-! ## The statement -/

/-- Settles O57: a REVOKE that goes on has its own case (`rxFrame_revoke_goesOn`); any other frame acts by its kind, and a control
frame by its operation, each by its lemma above. -/
theorem ringFramesActByTheirKind : Obligations.RingFramesActByTheirKind := by
  unfold Obligations.RingFramesActByTheirKind
  intro d f bs s hlive hgood hlegal hnext hhere hctrlq htransit hstays hopen goesOn src got a u v m n q op at_ pos
  have h : s.Uses d f bs := ⟨expects_of_here hlive hgood hlegal hnext hhere hctrlq htransit hstays, hhere, hopen⟩
  have hu : u = s.noted d f := (noted_eq s d f).symm
  have hv : v = s.notedOp d f bs := (notedOp_eq s d f bs).symm
  refine ⟨fun hgoes hkind hop hrep => ?revoke, fun hends => ⟨fun hkind s0 lanes hlive0 hs => ?data, fun hkind hlen => ?sync,
    fun hkind => ⟨fun hop => ?hello, fun hop => ?ack, fun hop => ⟨_, rfl, rxFrame_resend h hends hkind hop⟩,
      fun c hc hrep => ?rep, fun hrep => ?new, fun w g e => revokeGroup_spec w g e, fun hop hjoined => ?rewind,
      fun hop hjoined => ?rewindGone, fun hop hchained hmember => ?gone, fun hop hother => ?goneOther⟩,
    fun hkind => ?kiosk⟩⟩
  case revoke =>
    have hrx := rxFrame_revoke_goesOn h hgoes hkind hop hrep
    rw [passRevoke_received] at hrx
    exact congrArg Host.Outcome.next hrx
  case data =>
    rw [exec_dataFrame hlive0 hs, hu]
    refine ⟨countLanes_side hs, fun hjoined => ?_, fun hjoined hpos => ?_,
      fun hjoined hpos hst _ hmode hpaired hroom hapart => ?_⟩
    · rw [rxFrame_data_unjoined h hends hkind hjoined]
    · rw [rxFrame_data_displaced h hends hkind hjoined hpos]
    · obtain ⟨hstores, htaken, hgap, hkeeps⟩ := rxFrame_data_stores h hends hkind hjoined hpos hst hmode hpaired hroom hapart
      exact ⟨_, rfl, hstores.wptr, hstores.rptr, htaken, hgap, hstores.stored, hstores.kept, hstores.other, hkeeps⟩
  case sync =>
    intro w k c
    rw [hu]
    exact ⟨fun hvalid => congrArg Host.Outcome.next (rxFrame_sync_invalid h hends hkind hlen hvalid),
      fun hvalid hjoined hlost hpaired =>
        congrArg Host.Outcome.next (rxFrame_sync_lost h hends hkind hlen hvalid hjoined hpaired hlost),
      fun hvalid hjoined hmember hlost hpaired _ _ _ =>
        ⟨_, rfl, rxFrame_sync_member h hends hkind hlen hvalid hjoined hpaired hmember hlost⟩⟩
  case hello =>
    exact ⟨fun hother hnew => ⟨_, rfl, rxFrame_hello_other h hends hkind hop hother hnew⟩,
      fun hown hdev => ⟨_, rfl, rxFrame_hello_own h hends hkind hop hown hdev⟩,
      fun hown hdev => ⟨_, rfl, rxFrame_hello_duplicate h hends hkind hop hown hdev⟩⟩
  case ack =>
    rw [hu]
    exact congrArg Host.Outcome.next (rxFrame_ack h hends hkind hop)
  case rep =>
    have hcase : ctrlRepeats op = true ∧ exec c s = .next (s.rxFrame d f) := by
      simp only [List.mem_cons, List.not_mem_nil, or_false, Prod.mk.injEq] at hc
      obtain ⟨hop, rfl⟩ | ⟨hop, rfl⟩ | ⟨hop, rfl⟩ | ⟨hop, rfl⟩ | ⟨hop, rfl⟩ := hc
      all_goals exact ⟨by rw [hop]; rfl, rfl⟩
    rw [hcase.2]
    exact congrArg Host.Outcome.next (rxFrame_ctrl_repeat h hends hkind hcase.1 hrep)
  case new =>
    rw [hv]
    refine ⟨fun hop hwait => congrArg Host.Outcome.next (rxFrame_chainJoin_kept h hends hkind hrep hop hwait),
      fun hop w hwait heast hwest hmember hjoins => ⟨fun hmatch => ?_, fun hmatch => ?_⟩,
      fun hop hjoined => congrArg Host.Outcome.next (rxFrame_chainCmd_joined h hends hkind hrep hop hjoined),
      fun hop hjoined => congrArg Host.Outcome.next (rxFrame_chainCmd_unjoined h hends hkind hrep hop hjoined),
      fun hop hjoined => congrArg Host.Outcome.next (rxFrame_ffMark_joined h hends hkind hrep hop hjoined),
      fun hop hjoined => congrArg Host.Outcome.next (rxFrame_ffMark_unjoined h hends hkind hrep hop hjoined),
      fun hop hwait => congrArg Host.Outcome.next (rxFrame_pairJoin_kept h hends hkind hrep hop hwait),
      fun hop r hwait hpeer hjoins hshadow => ⟨fun hmatch => ?_, fun hmatch => ?_⟩,
      fun hop => congrArg Host.Outcome.next (rxFrame_revoke h hends hkind hrep hop)⟩
    · obtain ⟨t, hrx, hspec⟩ := rxFrame_chainJoin_agrees h hends hkind hrep hop hwait heast hwest hmember hjoins hmatch
      exact ⟨t, congrArg Host.Outcome.next hrx, hspec⟩
    · exact ⟨_, rfl, rxFrame_chainJoin_disagrees h hends hkind hrep hop hwait heast hwest hmember hjoins hmatch⟩
    · obtain ⟨t, hrx, hspec⟩ := rxFrame_pairJoin_agrees h hends hkind hrep hop hwait hpeer hjoins hshadow hmatch
      exact ⟨t, congrArg Host.Outcome.next hrx, hspec⟩
    · obtain ⟨t, hrx, hspec⟩ := rxFrame_pairJoin_disagrees h hends hkind hrep hop hwait hpeer hjoins hshadow hmatch
      exact ⟨t, congrArg Host.Outcome.next hrx, hspec⟩
  case rewind =>
    rw [hu]
    exact congrArg Host.Outcome.next (rxFrame_rewind_joined h hends hkind hop hjoined)
  case rewindGone =>
    rw [hu]
    exact congrArg Host.Outcome.next (rxFrame_rewind_unjoined h hends hkind hop hjoined)
  case gone =>
    have hq : (s.noted d f).q n = q := noted_q s d f n
    rw [hu]
    refine ⟨congrArg Host.Outcome.next (rxFrame_gone_member h hends hkind hop hchained hmember), fun hother hpaired => ?_⟩
    rw [← hq] at hchained hmember hpaired ⊢
    exact loseMember_spec hchained hmember (by rw [noted_station]; exact hother) hpaired
  case goneOther =>
    rw [hu]
    exact congrArg Host.Outcome.next (rxFrame_gone_other h hends hkind hop hother)
  case kiosk =>
    intro w fl answer
    rw [hu]
    exact ⟨fun hop => congrArg Host.Outcome.next (rxFrame_kiosk_response h hends hkind hop),
      fun hop hwin fr t hframe => congrArg Host.Outcome.next (rxFrame_kiosk_refused h hends hkind hop hwin hframe),
      fun hop hwin x r fr t haccess hframe =>
        congrArg Host.Outcome.next (rxFrame_kiosk_served h hends hkind hop hwin haccess hframe)⟩

end Sys2Proof.Machine
end

section
/-!
SUPPORT. The invariant and what is never taken back, of every step: a step is a command or an idle cycle, and `Within` ties both
to the state before.
-/
namespace Sys2Proof.Machine

/-- The queue of waiting commands is no part of the invariant, nor of what is never taken back. -/
theorem Within.of_pending {W : Nat} {s t : State} {rest : List Instr} (h : Within W { s with pending := rest } t) :
    s.Onward t ∧ (s.Inv → t.Inv) :=
  ⟨⟨h.onward.devid, h.onward.deviceKey, h.onward.woritHash, h.onward.svcAddr, h.onward.ctr, h.onward.svnFloor⟩,
    fun hi => h.inv ⟨hi.mem, hi.errs, hi.rst, hi.nv⟩⟩

/-- A step runs the front command or lets a cycle pass, and each keeps the invariant and takes nothing back. -/
theorem step_keeps {s t : State} (h : step s = .next t) : s.Onward t ∧ (s.Inv → t.Inv) := by
  unfold step at h
  split at h
  case h_1 c rest hfront =>
    obtain ⟨u, hnext, hw⟩ := exec_within c { s with pending := rest }
    obtain rfl : u = t := Host.Outcome.next.inj (hnext.symm.trans h)
    exact hw.of_pending
  case h_2 =>
    obtain rfl := Host.Outcome.next.inj h
    have hw := State.idle_within (W := 33553919) (Within.refl _ s) (by decide)
    exact ⟨hw.onward, hw.inv⟩

/-- Settles O5: by `step_keeps`, whose bounds each command's own lemma gives. -/
theorem everyStepKeepsTheInvariant : Obligations.EveryStepKeepsTheInvariant := by
  unfold Obligations.EveryStepKeepsTheInvariant
  exact fun s t hinv hstep => (step_keeps hstep).2 hinv

/-- Settles O6: by `step_keeps`. -/
theorem noStepTakesBackProvisioning : Obligations.NoStepTakesBackProvisioning := by
  unfold Obligations.NoStepTakesBackProvisioning
  exact fun s t hstep => (step_keeps hstep).1

/-- Settles O4: the memories and the Error FIFO are empty at reset, and every bounded counter is 0. -/
theorem resetMeetsTheInvariant : Obligations.ResetMeetsTheInvariant := by
  unfold Obligations.ResetMeetsTheInvariant
  have hcounts : ∀ c, SMap.get 0 State.reset.errs.counts c ≤ 0xFFFFFFFF := fun _ => Nat.zero_le _
  exact ⟨by decide, ⟨by decide, by decide, by decide, hcounts⟩, ⟨by decide, by decide⟩, ⟨by decide, by decide⟩⟩

end Sys2Proof.Machine
end

section
/-!
SUPPORT. The host block's own commands: `HRING_CTRL` (R303), base registers (R472), doorbells (R306, R307, R323) and the events of
R301, R324 and R367.
-/
namespace Sys2Proof.Machine
open Sys2Proof

/-! ## The outcome of a command, and frames of the shared updates -/

/-- A command's outcome is the next state, so that an equation of states is one of outcomes. -/
theorem answers_next {s t : State} (h : s = t) : (.next s : Host.Outcome State Fault Refusal) = .next t := congrArg _ h

theorem State.keeps_setFunc (s : State) (g : Nat) (x : Func) : s.keeps (s.setFunc g x) [.funcs] :=
  keeps_of_mask (State.setFunc_within (W := 128) g x (Within.refl _ s) (by decide)) (by decide)

theorem State.func_setFunc_other (s : State) (g : Nat) (x : Func) : ∀ h, h ≠ g → (s.setFunc g x).func h = s.func h :=
  fun h hh => by simp [Ne.symm hh]

theorem State.func_setFunc_same (s : State) (g : Nat) (x : Func) : (s.setFunc g x).func g = x := by simp

/-! ## HRING_CTRL (R303, Table HI-5) -/

section
variable {s : State} {g : Nat} {v : Word32}

theorem writeHringCtrl_starts (hen : bit v 0 = true) (hoff : (s.func g).en = false) (hcfg : hringCfgOk (s.func g).hcfg = true) :
    s.writeHringCtrl g v = (s.setFunc g ((s.func g).started (v &&& hctrlMask g))).postHeld g := by
  simp [State.writeHringCtrl, bit_hmask, hen, hoff, hcfg]

theorem writeHringCtrl_fails (hen : bit v 0 = true) (hoff : (s.func g).en = false) (hcfg : hringCfgOk (s.func g).hcfg = false) :
    s.writeHringCtrl g v =
      s.setFunc g { s.func g with hctrl := v &&& hctrlMask g &&& 0xFFFFFFFE#32, dberr := true } := by
  simp [State.writeHringCtrl, bit_hmask, hen, hoff, hcfg]

theorem writeHringCtrl_stops (hclr : bit v 0 = false) (hon : (s.func g).en = true) :
    s.writeHringCtrl g v = s.setFunc g ((s.func g).stopped (v &&& hctrlMask g)) := by
  simp [State.writeHringCtrl, bit_hmask, hclr, hon]

end

theorem Func.running_started (f : Func) (g : Nat) {v : Word32} (hen : bit v 0 = true) :
    (f.started (v &&& hctrlMask g)).running = true := by
  simp [Func.running, Func.en, Func.started, bit_hmask, hen]

theorem Func.running_stopped (f : Func) (g : Nat) {v : Word32} (hclr : bit v 0 = false) :
    (f.stopped (v &&& hctrlMask g)).running = false := by
  simp [Func.running, Func.en, Func.stopped, bit_hmask, hclr]

/-- Posting what was held changes no other register of the function than those of the event ring's producer. -/
theorem postHeld_field {s : State} {g : Nat} {x : Func} {α} (p : Func → α) (hp : ∀ f, p f.regs = p f) :
    p (((s.setFunc g x).postHeld g).func g) = p x :=
  reg_field ((postHeld_regs _ g).1.trans (by rw [State.func_setFunc_same])) p hp

/-- Settles O7: EN starts, fails or stops the rings, and what was held is posted once they started. -/
theorem hringCtrlStartsAndStopsTheRings : Obligations.HringCtrlStartsAndStopsTheRings := by
  unfold Obligations.HringCtrlStartsAndStopsTheRings
  intro g v s hreach
  have hexec : ∀ {t}, s.writeHringCtrl g.val v = t → s.accessWrite (.fn g) 0x11C v = t := fun h =>
    (aw_hctrl s g v hreach).trans h
  refine ⟨fun hen hoff hcfg => ?_, fun hen hoff hcfg => ?_, fun hclr hon => ?_⟩
  · refine ⟨_, answers_next (hexec (writeHringCtrl_starts hen hoff hcfg)), ?_, ?_, ?_, ?_, ?_, ?_, ?_, ?_, ?_, ?_, ?_⟩
    · exact (postHeld_field Func.running fun _ => rfl).trans (Func.running_started _ _ hen)
    · exact postHeld_field Func.hctrl fun _ => rfl
    · exact postHeld_field Func.cmdPi fun _ => rfl
    · exact postHeld_field Func.cmdCi fun _ => rfl
    · exact postHeld_field Func.cplPi fun _ => rfl
    · exact postHeld_field Func.cplCi fun _ => rfl
    · exact postHeld_field Func.evtCi fun _ => rfl
    · exact postHeld_field Func.verSet fun _ => rfl
    · exact postHeld_field Func.cmdBase fun _ => rfl
    · exact fun h hh => ((postHeld_regs _ _).2 h hh).trans (State.func_setFunc_other s _ _ h hh)
    · exact keeps_of_mask (State.postHeld_within (W := 16777344) _ (State.setFunc_within _ _ (Within.refl _ s) (by decide))
        (by decide)) (by decide)
  · exact answers_next (hexec (writeHringCtrl_fails hen hoff hcfg))
  · refine ⟨_, answers_next (hexec (writeHringCtrl_stops hclr hon)), ?_⟩
    rw [State.func_setFunc_same]
    exact ⟨Func.running_stopped _ _ hclr, rfl, rfl, rfl, rfl, rfl, rfl, rfl, rfl, rfl, rfl, rfl, rfl,
      State.func_setFunc_other s _ _, State.keeps_setFunc s _ _⟩

/-! ## 64-bit base registers (R472) -/

section
variable {s : State} {g : Fin 16} {r : BaseReg}

theorem accessWrite_baseLow (hreach : s.fnReached g.val = true) (hr : r ≠ .dump) (v : Word32) :
    s.accessWrite (.fn g) (baseOff r) v = s.writeBaseLow g.val r v := by
  cases r with
  | dump => exact absurd rfl hr
  | cmdq => exact accessWrite_host s g _ v hreach (by decide) (by decide) (by decide)
  | cplq => exact accessWrite_host s g _ v hreach (by decide) (by decide) (by decide)
  | evtq => exact accessWrite_host s g _ v hreach (by decide) (by decide) (by decide)

theorem accessWrite_baseHigh (hreach : s.fnReached g.val = true) (hr : r ≠ .dump) (v : Word32) :
    s.accessWrite (.fn g) (baseOff r + 4) v = s.writeBaseHigh g.val r v := by
  cases r with
  | dump => exact absurd rfl hr
  | cmdq => exact accessWrite_host s g _ v hreach (by decide) (by decide) (by decide)
  | cplq => exact accessWrite_host s g _ v hreach (by decide) (by decide) (by decide)
  | evtq => exact accessWrite_host s g _ v hreach (by decide) (by decide) (by decide)

theorem writeBaseLow_idle (hr : r ≠ .dump) (hoff : (s.func g.val).en = false) (v : Word32) :
    s.writeBaseLow g.val r v = s.setFunc g.val ((s.func g.val).setLow r (some v)) := by
  cases r <;> simp [State.writeBaseLow, State.updFunc_eq, hoff] at hr ⊢

theorem writeBaseLow_running (hr : r ≠ .dump) (hon : (s.func g.val).en = true) (v : Word32) :
    s.writeBaseLow g.val r v = s := by
  cases r <;> simp [State.writeBaseLow, hon] at hr ⊢

theorem writeBaseHigh_idle (hr : r ≠ .dump) (hoff : (s.func g.val).en = false) {low : Word32}
    (hlow : (s.func g.val).low r = some low) (v : Word32) :
    s.writeBaseHigh g.val r v =
      s.setFunc g.val (((s.func g.val).setBase r (ringBase v.toNat low.toNat)).setLow r none) := by
  cases r <;> simp [State.writeBaseHigh, State.updFunc_eq, hoff, hlow] at hr ⊢

theorem writeBaseHigh_running (hr : r ≠ .dump) (hon : (s.func g.val).en = true) (v : Word32) :
    s.writeBaseHigh g.val r v = s.setFunc g.val ((s.func g.val).setLow r none) := by
  cases r <;> simp [State.writeBaseHigh, State.updFunc_eq, hon] at hr ⊢

end

theorem Func.low_setLow (f : Func) {r : BaseReg} (hr : r ≠ .dump) (x : Option Word32) : (f.setLow r x).low r = x := by
  cases r with
  | dump => exact absurd rfl hr
  | _ => rfl

theorem Func.base_setLow (f : Func) (r : BaseReg) (x : Option Word32) : (f.setLow r x).base r = f.base r := by
  cases r <;> rfl

theorem Func.base_setBase (f : Func) {r : BaseReg} (hr : r ≠ .dump) (x : Nat) : (f.setBase r x).base r = x := by
  cases r with
  | dump => exact absurd rfl hr
  | _ => rfl

/-- Function 0's `DUMP_BASE` is a register of CORE (Table RG-3). -/
theorem accessWrite_dump {s : State} (hreach : s.fnReached 0 = true) (hrun : s.coreRuns = true) (off : Nat) (v : Word32)
    (hcore : coreOnly off = true) : s.accessWrite (.fn 0) off v = s.writeCoreReg off v := by
  simp only [coreOnly, Bool.and_eq_true, Bool.not_eq_true', beq_iff_eq] at hcore
  obtain ⟨⟨⟨hvf, hhost⟩, haon⟩, halign⟩ := hcore
  simp [State.accessWrite, State.mayWrite, hreach, hrun, State.writeReg, viewOf, halign, hhost, haon]

theorem keeps_errs (s : State) (e : Errors) : s.keeps { s with errs := e } [.errs] := by
  intro p hp
  cases p with
  | errs => simp at hp
  | _ => rfl

/-- Settles O8: each of the three ring bases and `DUMP_BASE` takes its two words by the lemmas above. -/
theorem baseRegistersTakeEffectWithTheirHighWord : Obligations.BaseRegistersTakeEffectWithTheirHighWord := by
  unfold Obligations.BaseRegistersTakeEffectWithTheirHighWord
  refine ⟨fun g r low high s hreach hr hoff => ⟨?_, fun hlow => ?_⟩, fun g r v s hreach hr hon => ⟨?_, ?_⟩,
    fun low high s hreach hrun => ⟨?_, fun hlow => ?_⟩⟩
  · refine ⟨_, answers_next ((accessWrite_baseLow hreach hr low).trans (writeBaseLow_idle hr hoff low)), ?_⟩
    rw [State.func_setFunc_same]
    exact ⟨Func.base_setLow _ _ _, Func.low_setLow _ hr _, State.func_setFunc_other s _ _, State.keeps_setFunc s _ _⟩
  · refine ⟨_, answers_next ((accessWrite_baseHigh hreach hr high).trans (writeBaseHigh_idle hr hoff hlow high)), ?_⟩
    rw [State.func_setFunc_same]
    exact ⟨(Func.base_setLow _ _ _).trans (Func.base_setBase _ hr _), Func.low_setLow _ hr _, State.func_setFunc_other s _ _,
      State.keeps_setFunc s _ _⟩
  · exact answers_next ((accessWrite_baseLow hreach hr v).trans (writeBaseLow_running hr hon v))
  · refine ⟨_, answers_next ((accessWrite_baseHigh hreach hr v).trans (writeBaseHigh_running hr hon v)), ?_⟩
    rw [State.func_setFunc_same]
    exact ⟨Func.base_setLow _ _ _, Func.low_setLow _ hr _⟩
  · exact ⟨s.writeBaseLow 0 .dump low, answers_next (accessWrite_dump hreach hrun _ low (by decide)), rfl, rfl,
      keeps_errs s _⟩
  · refine ⟨s.writeBaseHigh 0 .dump high, answers_next (accessWrite_dump hreach hrun _ high (by decide)), rfl, ?_,
      keeps_errs s _⟩
    simp [State.writeBaseHigh, hlow, ringBase]

end Sys2Proof.Machine
end

section
/-!
SUPPORT. Doorbells (R306, R307, R323) and the host block's events (R301, R324, R367).
-/
namespace Sys2Proof.Machine
open Sys2Proof

/-! ## Doorbells that reach their ring -/

section
variable {s : State} {g : Nat}

theorem pageWrite_applies (hreach : s.fnReached g = true) (hrun : s.coreRuns = true) (hctl : s.rst.ctlReturn = false)
    {off : Nat} (hoff : doorbellAt off 4 = true) (v : Nat) : s.pageWrite g off 4 v = s.applyDoorbell g off v := by
  simp [State.pageWrite, State.doorbell, hoff, hreach, hrun, hctl]

theorem pageWrite_waits (hreach : s.fnReached g = true) (hdown : s.coreRuns = false ∨ s.rst.ctlReturn = true)
    {off : Nat} (hoff : doorbellAt off 4 = true) (v : Nat) :
    s.pageWrite g off 4 v =
      s.setFunc g { s.func g with latched := SMap.set 0 (s.func g).latched off (v + 1) } := by
  rcases hdown with h | h <;> simp [State.pageWrite, State.doorbell, State.updFunc_eq, hoff, hreach, h]

theorem doorbellAt_dring (r : Fin 512) : doorbellAt (0x800 + 4 * r.val) 4 = true := by
  have h : 0x800 + 4 * r.val < 0x1000 := by omega
  simp [doorbellAt, h, Nat.add_mod]

theorem postLost_of_none {u : State} (h : (u.func g).lostSince = 0) : u.postLost g = u := by
  simp [State.postLost, h]

theorem piOk_iff {v pi ci size : Nat} : piOk v pi ci size = true ↔ ringDist v ci ≤ size ∧ ringDist pi ci ≤ ringDist v ci := by
  simp [piOk]

theorem ciOk_iff {v pi ci : Nat} : ciOk v pi ci = true ↔ ringDist v ci ≤ ringDist pi ci := by simp [ciOk]

/-- A producer index is refused where its ring is off, or where it passes its limit or moves back. -/
theorem ring_refuses_pi {en : Bool} {v pi ci size : Nat}
    (h : en = false ∨ size < ringDist v ci ∨ ringDist v ci < ringDist pi ci) : (en && piOk v pi ci size) = false := by
  rw [← Bool.not_eq_true, Bool.and_eq_true, piOk_iff]
  rintro ⟨rfl, hlim, hback⟩
  simp at h
  omega

theorem ring_refuses_ci {en : Bool} {v pi ci : Nat} (h : en = false ∨ ringDist pi ci < ringDist v ci) :
    (en && ciOk v pi ci) = false := by
  rw [← Bool.not_eq_true, Bool.and_eq_true, ciOk_iff]
  rintro ⟨rfl, hlim⟩
  simp at h
  omega

theorem applyDoorbell_dring (r v : Nat) :
    s.applyDoorbell g (0x800 + 4 * r) v =
      if (s.dring g r).en && piOk v (s.dring g r).pi (s.dring g r).ci (2 ^ (s.dring g r).log2) then
        s.setDring g r { s.dring g r with pi := v }
      else s.rejectDoorbell g (0x800 + 4 * r) v := by
  have hr : (0x800 + 4 * r - 0x800) / 4 = r := by omega
  have h0 : 0x800 + 4 * r ≠ 0 ∧ 0x800 + 4 * r ≠ 4 ∧ 0x800 + 4 * r ≠ 8 := by omega
  simp only [State.applyDoorbell, hr, h0, if_false]

end

/-- Settles O9: a good index is stored by its doorbell; one that finds CORE down is latched under its offset. -/
theorem doorbellsSetTheirIndexOrWait : Obligations.DoorbellsSetTheirIndexOrWait := by
  unfold Obligations.DoorbellsSetTheirIndexOrWait
  refine ⟨fun g v s hreach hrun hctl => ⟨fun hen hlim hback => ?_, fun hen hlim => ?_, fun hen hlost hlim => ?_, fun r => ?_⟩,
    fun g v s hreach hdown => ?_⟩
  · refine answers_next ((pageWrite_applies hreach hrun hctl (by decide) _).trans ?_)
    simp [State.applyDoorbell, hen, piOk_iff.2 ⟨hlim, hback⟩]
  · refine answers_next ((pageWrite_applies hreach hrun hctl (by decide) _).trans ?_)
    simp [State.applyDoorbell, hen, ciOk_iff.2 hlim]
  · refine answers_next ((pageWrite_applies hreach hrun hctl (by decide) _).trans ?_)
    have hnone : ((s.setFunc g.val { s.func g.val with evtCi := v.toNat }).func g.val).lostSince = 0 := by simpa using hlost
    simp [State.applyDoorbell, hen, ciOk_iff.2 hlim, postLost_of_none hnone]
  · intro d hen hlim hback
    refine answers_next ((pageWrite_applies hreach hrun hctl (doorbellAt_dring r) _).trans ?_)
    rw [applyDoorbell_dring, if_pos (Bool.and_eq_true_iff.2 ⟨hen, piOk_iff.2 ⟨hlim, hback⟩⟩)]
    rfl
  · refine ⟨_, answers_next (pageWrite_waits hreach hdown (by decide) _), ?_, ?_, State.func_setFunc_other s _ _,
      State.keeps_setFunc s _ _⟩
    · simp
    · simp

/-! ## Doorbells that are refused (R307) -/

/-- A refused doorbell changes no register but `DBERR`. -/
theorem rejectDoorbell_field (s : State) (g off v : Nat) {α} (p : Func → α) (hp : ∀ f, p f.regs = p f) :
    p ((s.rejectDoorbell g off v).func g) = p { s.func g with dberr := true } :=
  (reg_field (raise_func _ _ _ _ _ _ g) p hp).trans (by rw [State.updFunc_eq, State.func_setFunc_same])

/-- Settles O10: each of the four doorbells checks its ring and its index, and is refused by `rejectDoorbell`. -/
theorem badDoorbellIsRejected : Obligations.BadDoorbellIsRejected := by
  unfold Obligations.BadDoorbellIsRejected
  intro g v s hreach hrun hctl
  refine ⟨fun hbad => ⟨?_, ?_, ?_⟩, fun hbad => ⟨?_, ?_, ?_⟩, fun hbad => ⟨?_, ?_, ?_⟩, fun r => ?_⟩
  · refine answers_next ((pageWrite_applies hreach hrun hctl (by decide) _).trans ?_)
    simp [State.applyDoorbell, State.rejectDoorbell, State.updFunc_eq, ring_refuses_pi hbad]
  · exact rejectDoorbell_field s g.val _ _ Func.cmdPi fun _ => rfl
  · exact rejectDoorbell_field s g.val _ _ Func.dberr fun _ => rfl
  · refine answers_next ((pageWrite_applies hreach hrun hctl (by decide) _).trans ?_)
    simp [State.applyDoorbell, State.rejectDoorbell, State.updFunc_eq, ring_refuses_ci hbad]
  · exact rejectDoorbell_field s g.val _ _ Func.cplCi fun _ => rfl
  · exact rejectDoorbell_field s g.val _ _ Func.dberr fun _ => rfl
  · refine answers_next ((pageWrite_applies hreach hrun hctl (by decide) _).trans ?_)
    simp [State.applyDoorbell, State.rejectDoorbell, State.updFunc_eq, ring_refuses_ci hbad]
  · exact rejectDoorbell_field s g.val _ _ Func.evtCi fun _ => rfl
  · exact rejectDoorbell_field s g.val _ _ Func.dberr fun _ => rfl
  · intro d hbad
    refine ⟨answers_next ((pageWrite_applies hreach hrun hctl (doorbellAt_dring r) _).trans ?_),
      rejectDoorbell_field s g.val _ _ Func.drings fun _ => rfl⟩
    rw [applyDoorbell_dring, if_neg (Bool.not_eq_true _ ▸ ring_refuses_pi hbad)]
    rfl

/-! ## The host block's events -/

theorem holdoffEnd_sends {s : State} {g : Nat} (hrun : (s.func g).cplHoldoff = true) (hheld : (s.func g).cplHeld = true) :
    s.holdoffEnd g false = (s.setFunc g { s.func g with cplHeld := false }).signal g (s.func g).cplVec := by
  simp [State.holdoffEnd, hrun, hheld]

theorem holdoffEnd_closes {s : State} {g : Nat} (hheld : (s.func g).evtHeld = false) :
    s.holdoffEnd g true = s.setFunc g { s.func g with evtHoldoff := false } := by
  simp [State.holdoffEnd, hheld]

/-- Settles O11: each event has one branch for its condition. -/
theorem hostBlockEvents : Obligations.HostBlockEvents := by
  unfold Obligations.HostBlockEvents
  refine ⟨fun g s hrun hheld => answers_next (holdoffEnd_sends hrun hheld),
    fun g s hheld => answers_next (holdoffEnd_closes hheld), fun s hhost => ?_, fun s htrain => ⟨?_, ?_⟩⟩
  · show execPerstNRise s = _
    simp [execPerstNRise, State.startHost, hhost]
  · show execPcieConfigReady s = _
    simp [execPcieConfigReady, htrain]
  · show execPcieL0Reached s = _
    simp [execPcieL0Reached, htrain]

end Sys2Proof.Machine
end

section
/-!
SUPPORT. Resets of the host block and of one function (R324, R325), VF Enable (R298) and failed DMA accesses (R321).
-/
namespace Sys2Proof.Machine
open Sys2Proof

/-! ## FLR (R325) -/

section
variable {s : State} {g : Nat}

theorem flr_of_vf (hin : s.host.inReset = false) (hex : s.fnExists g = true) (hg : g ≠ 0) : s.flr g = s.flrOne g := by
  simp [State.flr, hin, hex, hg]

/-- Until it completes, an FLR keeps the function out of reach. -/
theorem flrOne_not_reached : (s.flrOne g).fnReached g = false := by
  have hbusy : ((s.flrOne g).func g).flrBusy = true := by simp [State.flrOne, State.updFunc_eq]
  simp [State.fnReached, State.fnConfigured, hbusy]

/-- What an FLR leaves of a VF's registers. -/
theorem flrOne_func (hg : g ≠ 0) (hends : s.noHostEnd g) :
    (s.flrOne g).func g = { (s.func g).afterReset g with flrBusy := true } := by
  rw [flrOne_none s g hg hends, State.updFunc_eq, State.func_setFunc_same, State.func_setFunc_same]

theorem flrOne_func_other (hg : g ≠ 0) (hends : s.noHostEnd g) : ∀ h, h ≠ g → (s.flrOne g).func h = s.func h := by
  intro h hh
  rw [flrOne_none s g hg hends, State.updFunc_eq, State.func_setFunc_other _ _ _ h hh, State.func_setFunc_other _ _ _ h hh]
  rfl

theorem flrOne_host (hg : g ≠ 0) (hends : s.noHostEnd g) :
    (s.flrOne g).host = { s.host with stalled := s.host.stalled.filter fun a => a.fn != g } := by
  rw [flrOne_none s g hg hends]
  rfl

theorem flrOne_keeps (hg : g ≠ 0) (hends : s.noHostEnd g) : s.keeps (s.flrOne g) [.funcs, .host] := by
  rw [flrOne_none s g hg hends]
  exact keeps_of_mask (State.updFunc_within (W := 384) _ _ (State.setFunc_within _ _
    (State.dropStalled_within _ (Within.refl _ s) (by decide)) (by decide)) (by decide)) (by decide)

end

/-- Settles O12: an FLR of a VF is `flrOne`, which without host ends changes the function and its waiting accesses alone. -/
theorem flrResetsOneFunction : Obligations.FlrResetsOneFunction := by
  unfold Obligations.FlrResetsOneFunction
  intro g s hin hex hg
  have hg' : g.val ≠ 0 := fun h => hg (Fin.ext h)
  have hexec : exec (.flr g) s = .next (s.flrOne g.val) := answers_next (flr_of_vf hin hex hg')
  have hw := State.flrOne_within (W := 19926465) g.val (Within.refl _ s) (by decide)
  refine ⟨⟨_, hexec, flrOne_not_reached, hw.same .links (by decide), hw.same .kiosk (by decide), hw.same .time (by decide),
    hw.same .power (by decide), hw.same .rst (by decide), hw.same .nv (by decide)⟩, fun hends => ?_, ?_⟩
  · refine ⟨_, hexec, flrOne_keeps hg' hends, flrOne_func_other hg' hends, flrOne_host hg' hends, ?_⟩
    rw [flrOne_func hg' hends]
    simp [Func.afterReset, hg']
  · exact ⟨_, rfl, State.func_setFunc_same _ _ _, State.func_setFunc_other _ _ _, State.keeps_setFunc _ _ _⟩

/-! ## A block reset of the host block (R324) -/

/-- The state in which R324 resets the functions: the block's own registers are at reset. -/
def State.hostAtReset (s : State) : State := { s with host := { perstN := s.host.perstN, pcieWakeN := s.host.pcieWakeN } }

theorem resetHost_eq (s : State) :
    s.resetHost = ((List.range 16).foldl State.resetFunc s.hostAtReset).resetCells [0x14, 0x15] := rfl

/-- Settles O13: the 16 functions reset one after the other (`reset_fold`), and the cause decides whether the block leaves its
reset. -/
theorem hostBlockResetResetsEveryFunction : Obligations.HostBlockResetResetsEveryFunction := by
  unfold Obligations.HostBlockResetResetsEveryFunction
  intro c s hends
  obtain ⟨hqueues, hhost, hdump, -, hlinks, hkiosk, htime, hnv, hfuncs⟩ :=
    reset_fold (List.range 16) s.hostAtReset hends List.nodup_range
  replace hhost := hhost rfl
  replace hdump := hdump (by decide)
  replace hfuncs : ∀ g, g < 16 → ((List.range 16).foldl State.resetFunc s.hostAtReset).func g = (s.func g).afterReset g :=
    fun g hg => (hfuncs g).trans (if_pos (List.mem_range.2 hg))
  refine ⟨s.hostBlockReset c, rfl, ?_⟩
  unfold State.hostBlockReset
  rw [resetHost_eq]
  generalize (List.range 16).foldl State.resetFunc s.hostAtReset = u at hqueues hhost hdump hlinks hkiosk htime hnv hfuncs ⊢
  have hvf : u.host.vfEnable = false := congrArg HostBlock.vfEnable hhost
  cases c with
  | perst => exact ⟨hvf, congrArg HostBlock.inReset hhost, hdump, hqueues, hlinks, hkiosk, htime, hnv, hfuncs⟩
  | hotReset => exact ⟨hvf, rfl, hdump, hqueues, hlinks, hkiosk, htime, hnv, hfuncs⟩
  | linkDisable => exact ⟨hvf, rfl, hdump, hqueues, hlinks, hkiosk, htime, hnv, hfuncs⟩

/-! ## VF Enable (R298) -/

theorem keeps_host (s : State) (h : HostBlock) : s.keeps { s with host := h } [.host] := by
  intro p hp
  cases p with
  | host => simp at hp
  | _ => rfl

/-- A change that keeps every VF there is undergoes no FLR. -/
theorem setVfs_adds {s : State} {n : Nat} (hgrows : s.host.vfEnable = true → s.host.numVfs ≤ n) :
    s.setVfs true n = { s with host := { s.host with vfEnable := true, numVfs := n } } := by
  have hnone : ((List.range 16).filter fun g => g != 0 && s.fnExists g && !(true && decide (g ≤ n))) = [] := by
    rw [List.filter_eq_nil_iff]
    intro g _ hremoved
    simp only [State.fnExists, Bool.and_eq_true, bne_iff_ne, Bool.or_eq_true, beq_iff_eq, decide_eq_true_eq, Bool.not_eq_true',
      Bool.true_and, decide_eq_false_iff_not] at hremoved
    obtain ⟨⟨hne, hex⟩, hgone⟩ := hremoved
    rcases hex with rfl | ⟨hon, hle⟩
    · exact hne rfl
    · exact hgone (Nat.le_trans hle (hgrows hon))
  unfold State.setVfs
  rw [hnone]
  rfl

/-- Settles O14: a change that removes no function stores the two fields and resets none. -/
theorem vfEnableAddsFunctions : Obligations.VfEnableAddsFunctions := by
  unfold Obligations.VfEnableAddsFunctions
  intro s n hconf hgrows
  have hexec : exec (.vfEnableChange true n) s = .next { s with host := { s.host with vfEnable := true, numVfs := n.val } } := by
    show execVfEnableChange true n s = _
    simp [execVfEnableChange, hconf, setVfs_adds hgrows]
  refine ⟨_, hexec, rfl, rfl, keeps_host s _, fun g _ => ?_⟩
  have : g = 0 ∨ g ≤ n.val ↔ g ≤ n.val := ⟨fun h => h.elim (fun h => h ▸ Nat.zero_le _) id, .inr⟩
  simpa [State.fnExists] using this

/-! ## Failed DMA accesses (R321) -/

section
variable {s : State} {g : Nat}

theorem dmaFailure_result (hreach : s.fnReached g = true) (r a : Nat) :
    s.dmaFailure g .result r a = s.setFunc g { s.func g with resFail := true } := by
  simp [State.dmaFailure, State.updFunc_eq, hreach]

/-- The state in which a command, completion or event ring has faulted. -/
def State.ringFaulted (s : State) (g : Nat) (k : DmaKind) (a : Nat) : State :=
  (s.raiseDma g k 0 a).updFunc g fun f => { f with fault := true }

theorem dmaFailure_ring (hreach : s.fnReached g = true) (hen : (s.func g).en = true) {k : DmaKind}
    (hk : k = .command ∨ k = .completion ∨ k = .event) (r a : Nat) : s.dmaFailure g k r a = s.ringFaulted g k a := by
  rcases hk with rfl | rfl | rfl <;> simp [State.dmaFailure, State.ringFaulted, hreach, hen]

/-- The host's queues are those of the state before: a report changes none. -/
theorem raiseDma_groupQueues (k : DmaKind) (r a h : Nat) : (s.raiseDma g k r a).groupQueues h = s.groupQueues h := by
  have hqueues : (s.raiseDma g k r a).queues = s.queues :=
    (State.raiseDma_within (W := 19923136) g k r a (Within.refl _ s) (by decide)).same .queues (by decide)
  unfold State.groupQueues
  rw [hqueues]

theorem stopRing_of_unused {u : State} {r : Nat} (hunused : ∀ e ∈ u.groupQueues g, e.2.usesRing r = false) :
    u.stopRing g r = u.setDring g r {} := by
  have hnone : (u.groupQueues g).filter (fun e => e.2.usesRing r) = [] := by
    rw [List.filter_eq_nil_iff]
    exact fun e he => by simp [hunused e he]
  unfold State.stopRing
  rw [hnone]
  rfl

theorem dmaFailure_data (hreach : s.fnReached g = true) {r : Nat} (hen : (s.dring g r).en = true)
    (hempty : ringDist (s.dring g r).pi (s.dring g r).ci = 0) (hunused : ∀ e ∈ s.groupQueues g, e.2.usesRing r = false) (a : Nat) :
    s.dmaFailure g .data r a = (s.raiseDma g .data r a).setDring g r {} := by
  rw [← stopRing_of_unused (u := s.raiseDma g .data r a) fun e he => hunused e (raiseDma_groupQueues .data r a g ▸ he)]
  simp [State.dmaFailure, hreach, hen, hempty]

end

theorem raiseDma_within_ring (s : State) (g : Nat) (k : DmaKind) (r a : Nat) : Within 19923136 s (s.raiseDma g k r a) :=
  State.raiseDma_within g k r a (Within.refl _ s) (by decide)

/-- Settles O15: each kind of access has its branch. -/
theorem failedDmaAccess : Obligations.FailedDmaAccess := by
  unfold Obligations.FailedDmaAccess
  intro g k r a s hreach
  refine ⟨fun hk hen => ?_, answers_next (dmaFailure_result hreach _ _), fun hen hempty hunused => ?_⟩
  · refine ⟨_, answers_next (dmaFailure_ring hreach hen hk _ _), ?_, ?_, raise_seq _ _ _ _ _ _, ?_⟩
    · simp [State.ringFaulted, State.updFunc_eq]
    · simp [State.ringFaulted, State.updFunc_eq, Func.running]
    · exact keeps_of_mask (State.updFunc_within (W := 19923136) _ _ (raiseDma_within_ring s _ _ _ _) (by decide)) (by decide)
  · refine ⟨_, answers_next (dmaFailure_data hreach hen hempty hunused _), ?_, raise_seq _ _ _ _ _ _, ?_⟩
    · simp [State.setDring, State.dring, State.updFunc_eq]
    · exact keeps_of_mask (State.setDring_within (W := 19923136) _ _ _ (raiseDma_within_ring s _ _ _ _) (by decide)) (by decide)

end Sys2Proof.Machine
end

section
/-!
SUPPORT. How the sequencer takes a host command: the checks of its header (R310), and what makes it wait (R308, R309, R312).
-/
namespace Sys2Proof.Machine
open Sys2Proof

/-! ## The header (R310) -/

/-- Every row's opcode is in Table HI-8. -/
theorem opcodeFrom_of_hostOf {c : Instr} {g : Fin 16} {op : Nat} {d : Block512} (h : hostOf c = some (g, op, d)) :
    ∃ v, opcodeFrom op = some v := by
  cases c <;> simp only [hostOf, Option.some.injEq, Prod.mk.injEq, reduceCtorEq] at h <;>
    (obtain ⟨-, rfl, -⟩ := h; exact ⟨_, rfl⟩)

section
variable {s : State} {g : Nat} {d : Block512}

/-- A command that is just fetched is in flight, so that its ring's agreed version is in force. -/
theorem agreed_fetched (hg : g < 16) (ver : Nat) :
    (s.fetched g d).agreed (s.nextRef g d) ver = if (s.func g).verSet then some (s.func g).ver else none := by
  have hfn : (s.nextRef g d).fn = g := rfl
  unfold State.agreed
  dsimp only
  rw [hfn, if_neg (by unfold startupFn; omega), fetched_func]
  simp

/-- The fetch of a command that nothing makes wait, whatever row spelled it. -/
theorem fetch_takes {op : Nat} (h : s.Takes g op d) (m : Option (List Byte)) :
    s.fetch g d m = (s.fetched g d).takeEffect (s.nextRef g d) d m := by
  rw [← takes_fetch h]
  unfold State.hostCommand
  rw [if_pos h.opcode]

theorem takeEffect_refused {u : State} {r : CmdRef} {st : Nat} (h : u.headerStatus r d = st) (hst : st ≠ St.ok)
    (m : Option (List Byte)) : u.takeEffect r d m = u.complete r st := by
  simp [State.takeEffect, h, hst]

theorem takeEffect_passed {u : State} {r : CmdRef} (h : u.headerStatus r d = St.ok) (m : Option (List Byte)) :
    u.takeEffect r d m = u.hostEffect r d m := by
  simp [State.takeEffect, h]

theorem headerStatus_unlisted {u : State} {r : CmdRef} (h : opcodeFrom (Hdr.opcode d) = none) :
    u.headerStatus r d = St.badOpcode := by
  simp [State.headerStatus, h]

theorem headerStatus_hello {u : State} {r : CmdRef} (h : Hdr.opcode d = 0x01) : u.headerStatus r d = St.ok := by
  unfold State.headerStatus
  rw [h]
  rfl

theorem hostEffect_hello {u : State} {r : CmdRef} (h : r.opcode = 0x01) (m : Option (List Byte)) :
    u.hostEffect r d m = u.doHello r d := by
  unfold State.hostEffect
  rw [h]
  rfl

/-- The checks of a command other than HELLO, in their order. -/
theorem headerStatus_listed (hg : g < 16) {op v : Nat} (hop : Hdr.opcode d = op) (hfrom : opcodeFrom op = some v)
    (hne : op ≠ 0x01) :
    (s.fetched g d).headerStatus (s.nextRef g d) d =
      if (s.func g).verSet = false ∨ Hdr.ver d ≠ (s.func g).ver then St.badVersion
      else if (s.func g).ver < 0x10 + v then St.badOpcode else St.ok := by
  have hne' : op ≠ opHello := hne
  unfold State.headerStatus
  rw [hop, hfrom, agreed_fetched hg]
  cases (s.func g).verSet <;> simp [hne']

end

/-- Settles O16: the header's status decides between the refusals and the command's effect. -/
theorem headerChecksComeFirst : Obligations.HeaderChecksComeFirst := by
  unfold Obligations.HeaderChecksComeFirst
  intro c g op d s hc
  obtain ⟨m, hexec⟩ := exec_host hc s
  obtain ⟨v, hfrom⟩ := opcodeFrom_of_hostOf hc
  have htaken : s.Takes g.val op d → exec c s = .next ((s.fetched g.val d).takeEffect (s.nextRef g.val d) d m) :=
    fun ht => hexec.trans (answers_next (takes_fetch ht m))
  refine ⟨fun hnone ht => ?_, fun ht hop => ?_, fun ht hne => ?_⟩
  · have hfetch : ∀ m', s.fetch g.val d m' = s.endsWith g.val d (s.fetched g.val d) St.badOpcode := fun m' =>
      (fetch_takes ht m').trans (takeEffect_refused (headerStatus_unlisted hnone) (by decide) m')
    have hdiff : Hdr.opcode d ≠ op := fun h => by simp [h, hfrom] at hnone
    rw [hexec]
    simp [State.hostCommand, hdiff, hnone, hfetch]
  · have hd : Hdr.opcode d = 0x01 := ht.opcode.trans hop
    rw [htaken ht, takeEffect_passed (headerStatus_hello hd), hostEffect_hello hd]
  · have hst := headerStatus_listed (s := s) g.isLt ht.opcode hfrom hne
    have hrefused : ∀ st, st ≠ St.ok → (s.fetched g.val d).headerStatus (s.nextRef g.val d) d = st →
        exec c s = .next (s.endsWith g.val d (s.fetched g.val d) st) := fun st hne hst =>
      (htaken ht).trans (answers_next (takeEffect_refused hst hne m))
    refine ⟨fun hunset => hrefused _ (by decide) ?_, fun hset hver => hrefused _ (by decide) ?_,
      fun hset hver hold => hrefused _ (by decide) ?_, fun hset hver hnew => ⟨m, ?_⟩⟩
    · simp [hst, hunset]
    · simp [hst, hver]
    · simp [hst, hset, hver, hold v hfrom]
    · rw [htaken ht, takeEffect_passed]
      simp [hst, hset, hver, Nat.not_lt.2 (hnew v hfrom)]

/-! ## Waiting (R308, R309, R312) -/

section
variable {s : State} {g : Nat} {d : Block512}

/-- What keeps a command from being fetched. -/
theorem fetches_eq_false
    (h : (s.func g).running = false ∨ (s.func g).cmdPi = (s.func g).cmdCi ∨ 256 ≤ (s.func g).inflight.length ∨
      (s.func g).cplSize ≤ ringDist (s.func g).cplPi (s.func g).cplCi + (s.func g).inflight.length ∨
      s.errs.frozen = true ∨ s.coreRuns = false ∨ s.fnReached g = false ∨
      (s.rst.control = true ∧ s.nextRing ≠ some g)) : s.fetches g d = false := by
  rcases h with h | h | h | h | h | h | h | ⟨hctl, h⟩
  · simp [State.fetches, State.ringWaits, h]
  · simp [State.fetches, State.ringWaits, h]
  · simp [State.fetches, State.ringWaits, maxInflight, Nat.not_lt.2 h]
  · simp [State.fetches, State.ringWaits, Nat.not_lt.2 h]
  · simp [State.fetches, h]
  · simp [State.fetches, h]
  · simp [State.fetches, State.ringWaits, h]
  · simp [State.fetches, hctl, h]

theorem fetch_waits (h : s.fetches g d = false) (m : Option (List Byte)) : s.fetch g d m = s := by
  simp [State.fetch, h]

/-- The command behind a fence: it is fetched, and waits. -/
def State.fencedOff (s : State) (g : Nat) (d : Block512) (m : Option (List Byte)) : State :=
  (s.fetched g d).updFunc g fun f => { f with fenced := f.fenced ++ [(s.nextRef g d, d, m)] }

/-- A fencing command may not act while an earlier one of its ring is in flight. -/
theorem mayAct_fetched_eq_false (hfence : Hdr.fence d = true) {e : CmdRef} {rest : List CmdRef}
    (hfl : (s.func g).inflight = e :: rest) (hid : e.id < s.cmdSerial) :
    (s.fetched g d).mayAct (s.nextRef g d) d = false := by
  have hfn : (s.nextRef g d).fn = g := rfl
  have hne : e ≠ s.nextRef g d := fun h => by
    have : e.id = s.cmdSerial := congrArg CmdRef.id h
    omega
  unfold State.mayAct fencing
  rw [hfn, fetched_func, hfence, hfl]
  simp [hne]

theorem fetch_fenced (hfetch : s.fetches g d = true) (hmay : (s.fetched g d).mayAct (s.nextRef g d) d = false)
    (m : Option (List Byte)) : s.fetch g d m = s.fencedOff g d m := by
  unfold State.fetch
  rw [if_pos hfetch]
  exact if_neg fun h => Bool.eq_false_iff.1 hmay (Bool.and_eq_true_iff.1 h).2

theorem fencedOff_func (m : Option (List Byte)) :
    (s.fencedOff g d m).func g = { (s.fetched g d).func g with fenced := (s.func g).fenced ++ [(s.nextRef g d, d, m)] } := by
  unfold State.fencedOff
  rw [State.updFunc_eq, State.func_setFunc_same, fetched_func]

theorem fencedOff_within (m : Option (List Byte)) : Within 896 s (s.fencedOff g d m) :=
  (fetched_within s g d).step (State.updFunc_within (W := 128) _ _ (Within.refl _ _) (by decide)) (by decide)

end

/-- Settles O17: a ring that must wait is not fetched from, and a fenced command is fetched but set aside. -/
theorem commandsWaitToBeFetchedAndBehindAFence : Obligations.CommandsWaitToBeFetchedAndBehindAFence := by
  unfold Obligations.CommandsWaitToBeFetchedAndBehindAFence
  intro c g op d s hc hop
  obtain ⟨m, hexec⟩ := exec_host hc s
  have hcmd : exec c s = .next (s.fetch g.val d m) := by
    rw [hexec]
    unfold State.hostCommand
    rw [if_pos hop]
  refine ⟨fun hwaits => ?_, fun hfetch hfence hearlier => ?_⟩
  · rw [hcmd, fetch_waits (fetches_eq_false hwaits)]
  · obtain ⟨e, rest, hfl, hid⟩ := hearlier
    refine ⟨s.fencedOff g.val d m, ?_, ⟨m, ?_⟩, ?_, fun h hh => ?_, rfl, keeps_of_mask (fencedOff_within m) (by decide)⟩
    · rw [hcmd, fetch_fenced hfetch (mayAct_fetched_eq_false hfence hfl hid)]
    · rw [fencedOff_func]
    · rw [fencedOff_func, fetched_func]
    · unfold State.fencedOff
      rw [State.updFunc_eq, State.func_setFunc_other _ _ _ h hh, fetched_func_other _ _ _ _ hh]

end Sys2Proof.Machine
end

section
/-!
SUPPORT. Accesses of the host's Kiosk BAR (R300, R323, R342, R343).
-/
namespace Sys2Proof.Machine
open Sys2Proof

section
variable {s : State}

theorem kioskBar_waits (hreach : s.barReached = true) (hsleep : s.power.cur = .sleep) (op : BarOp) (bytes off : Nat) (v : Word64) :
    s.kioskBar op bytes off v = { s with host := { s.host with stalled := s.host.stalled ++ [.kiosk op bytes off v] } } := by
  simp [State.kioskBar, hreach, hsleep]

theorem kioskBar_serves (hreach : s.barReached = true) (hrun : s.coreRuns = true) (op : BarOp) (bytes off : Nat) (v : Word64) :
    s.kioskBar op bytes off v = s.kioskServe op bytes off v := by
  simp [State.kioskBar, hreach, hrun, State.not_sleep_of_coreRuns hrun]

theorem kioskServe_unsupported {op : BarOp} {bytes off : Nat} (h : op.supported bytes off = false) (v : Word64) :
    s.kioskServe op bytes off v = s.emit .unsupported := by
  simp [State.kioskServe, h]

theorem BarOp.unsupported_of_misaligned {off : Nat} (h : off % 8 ≠ 0) (op : BarOp) : op.supported 8 off = false := by
  cases op <;> simp [BarOp.supported, h]

/-- What an access leaves of the rest: the datapath clock runs again (R357). -/
theorem keeps_served (s : State) (k : Kiosk) (o : List Out) {ps : List Part} (hkiosk : Part.kiosk ∈ ps) (hpower : Part.power ∈ ps)
    (hwords : Part.words ∈ ps ∨ k.words = s.kiosk.words) (hout : Part.out ∈ ps ∨ o = s.out) :
    s.keeps { s.ungate with kiosk := k, out := o } ps := by
  intro p hp
  cases p with
  | kiosk => exact absurd hkiosk hp
  | power => exact absurd hpower hp
  | words => exact hwords.resolve_left hp
  | out => exact hout.resolve_left hp
  | _ => rfl

/-! ## Accesses of an idle pipeline (R342, R343) -/

section
variable {off : Nat} (hidle : s.kiosk.writes = []) (hgood : SMap.get false s.kiosk.bad (off / 8) = false) (halign : off % 8 = 0)
include hidle hgood halign

theorem kioskServe_read_word (v : Word64) : s.kioskServe .read 8 off v =
    ({ s.ungate with kiosk := s.kiosk }).emit (.readData (s.kiosk.word (off / 8)).toNat) := by
  simp [State.kioskServe, BarOp.supported, halign, State.kioskRead, kioskAccess_of_idle hidle hgood, KOp.answers, Kiosk.accessed]

theorem kioskServe_read_half (v : Word64) : s.kioskServe .read 4 off v =
    ({ s.ungate with kiosk := s.kiosk }).emit (.readData ((s.kiosk.word (off / 8)).toNat % 2 ^ 32)) := by
  have hquarter : off % 4 = 0 := by omega
  simp [State.kioskServe, BarOp.supported, halign, hquarter, State.kioskRead, kioskAccess_of_idle hidle hgood, KOp.answers,
    Kiosk.accessed, half]

theorem kioskServe_write_word (v : Word64) : s.kioskServe .write 8 off v =
    { s.ungate with kiosk := s.kiosk.accessed .write (off / 8) v } := by
  simp [State.kioskServe, BarOp.supported, halign, kioskAccess_of_idle hidle hgood]

/-- A 32-bit write of the low half swaps in the word that it makes. -/
theorem kioskServe_write_half (v : Word64) : s.kioskServe .write 4 off v =
    { s.ungate with kiosk :=
        s.kiosk.accessed .swap (off / 8) (BitVec.ofNat 64 ((s.kiosk.word (off / 8)).toNat / 2 ^ 32 * 2 ^ 32 + v.toNat % 2 ^ 32)) } := by
  have hquarter : off % 4 = 0 := by omega
  simp [State.kioskServe, BarOp.supported, halign, hquarter, State.kioskMerge, Kiosk.advance_of_idle hidle,
    kioskAccess_of_idle hidle hgood]

theorem kioskServe_fetchAdd (v : Word64) : s.kioskServe .fetchAdd 8 off v =
    ({ s.ungate with kiosk := s.kiosk.accessed .add (off / 8) v }).emit (.readData (s.kiosk.word (off / 8)).toNat) := by
  simp [State.kioskServe, BarOp.supported, halign, kioskAccess_of_idle hidle hgood, KAnswer.toHost, KOp.answers]

theorem kioskServe_swap (v : Word64) : s.kioskServe .swap 8 off v =
    ({ s.ungate with kiosk := s.kiosk.accessed .swap (off / 8) v }).emit (.readData (s.kiosk.word (off / 8)).toNat) := by
  simp [State.kioskServe, BarOp.supported, halign, kioskAccess_of_idle hidle hgood, KAnswer.toHost, KOp.answers]

end

end

/-- FetchAdd and Swap leave their word at once. -/
theorem Kiosk.word_accessed_locked (k : Kiosk) {op : KOp} (hop : op = .add ∨ op = .swap) (a b : Nat) (v : Word64) :
    (k.accessed op a v).word b = if a = b then op.leaves (k.word a) v else k.word b := by
  rcases hop with rfl | rfl <;> exact Kiosk.word_put k a b _

/-- Settles O39: in Sleep each form waits; while CORE runs each supported form accesses an idle Kiosk by the lemmas above, and
any other is unsupported. -/
theorem kioskBarAccesses : Obligations.KioskBarAccesses := by
  unfold Obligations.KioskBarAccesses
  intro off v s hreach
  refine ⟨fun hsleep wide => ?_, fun op bytes n h => kioskServe_unsupported h v, fun hrun hidle hgood halign => ?_,
    fun hrun hmis => ?_⟩
  · have hwaits := fun op bytes x => answers_next (kioskBar_waits hreach hsleep op bytes off.toNat x)
    exact ⟨hwaits _ _ _, hwaits _ _ _, hwaits _ _ _, hwaits _ _ _⟩
  · have hexec := fun {op bytes x t} (h : s.kioskServe op bytes off.toNat x = t) =>
      answers_next ((kioskBar_serves hreach hrun _ _ _ _).trans h)
    have hlocked := fun (op : KOp) (hop : op = .add ∨ op = .swap) (b : Nat) (x : Word64) =>
      Kiosk.word_accessed_locked s.kiosk hop (off.toNat / 8) b x
    refine ⟨⟨_, hexec (kioskServe_read_word hidle hgood halign 0), rfl, rfl, ?_⟩,
      ⟨_, hexec (kioskServe_read_half hidle hgood halign 0), rfl, rfl⟩,
      ⟨_, hexec (kioskServe_write_word hidle hgood halign v), rfl, rfl, ?_, fun b hb => ?_, ?_⟩,
      ⟨_, hexec (kioskServe_write_half hidle hgood halign v), ?_, fun b hb => ?_⟩,
      ⟨_, hexec (kioskServe_fetchAdd hidle hgood halign v), rfl, ?_, fun b hb => ?_, ?_⟩,
      ⟨_, hexec (kioskServe_swap hidle hgood halign v), rfl, ?_, fun b hb => ?_, ?_⟩⟩
    · exact keeps_served s _ _ (by decide) (by decide) (.inr rfl) (.inl (by decide))
    · exact (Kiosk.word_accessed hidle .write _ _ v).trans (if_pos rfl)
    · exact (Kiosk.word_accessed hidle .write _ _ v).trans (if_neg hb.symm)
    · exact keeps_served s _ _ (by decide) (by decide) (.inr rfl) (.inr rfl)
    · exact (hlocked .swap (.inr rfl) _ _).trans (if_pos rfl)
    · exact (hlocked .swap (.inr rfl) _ _).trans (if_neg hb.symm)
    · exact (hlocked .add (.inl rfl) _ v).trans (if_pos rfl)
    · exact (hlocked .add (.inl rfl) _ v).trans (if_neg hb.symm)
    · exact keeps_served s _ _ (by decide) (by decide) (.inl (by decide)) (.inl (by decide))
    · exact (hlocked .swap (.inr rfl) _ v).trans (if_pos rfl)
    · exact (hlocked .swap (.inr rfl) _ v).trans (if_neg hb.symm)
    · exact keeps_served s _ _ (by decide) (by decide) (.inl (by decide)) (.inl (by decide))
  · have hrefused := fun op x => answers_next ((kioskBar_serves hreach hrun op 8 off.toNat x).trans
      (kioskServe_unsupported (BarOp.unsupported_of_misaligned hmis op) x))
    exact ⟨hrefused _ _, hrefused _ _, hrefused _ _, hrefused _ _⟩

end Sys2Proof.Machine
end

section
/-!
SUPPORT. The Plaza's upkeep: what `MAINT_CTRL` starts or refuses (R335, R336, R339), and what ends (R330, R332, R335, R337, R346,
R358).
-/
namespace Sys2Proof.Machine
open Sys2Proof

/-! ## One quarter of the Plaza -/

theorem quarter_setQuarter (p : Plaza) {i : Nat} (hi : i < 4) (f : Quarter → Quarter) (j : Nat) :
    (setQuarter p i f).quarter j = if j = i then f (p.quarter j) else p.quarter j := by
  unfold setQuarter Plaza.quarter
  dsimp only
  rw [Vector.toList_mapIdx]
  by_cases hj : j < 4
  · rw [List.getD_eq_getElem _ _ (by simpa using hj), List.getD_eq_getElem _ _ (by simpa using hj)]
    simp
  · rw [List.getD_eq_default _ _ (by simpa using hj), List.getD_eq_default _ _ (by simpa using hj), if_neg (by omega)]

theorem State.quarter_updQuarter_same (s : State) {i : Nat} (hi : i < 4) (f : Quarter → Quarter) :
    (s.updQuarter i f).plaza.quarter i = f (s.plaza.quarter i) :=
  (quarter_setQuarter s.plaza hi f i).trans (if_pos rfl)

theorem State.updQuarter_keeps (s : State) (i : Nat) (f : Quarter → Quarter) : s.keeps (s.updQuarter i f) [.plaza] := by
  intro p hp
  cases p with
  | plaza => simp at hp
  | _ => rfl

theorem mem_quartersOf {v : Word32} {lo i : Nat} : i ∈ quartersOf (fld v lo 4) ↔ i < 4 ∧ bit v (lo + i) = true := by
  have hbit : (fld v lo 4 / 2 ^ i % 2 == 1) = (decide (i < 4) && bit v (lo + i)) := by
    rw [bit_eq_getLsbD, BitVec.getLsbD, beq_eq_decide, ← Nat.testBit_eq_decide_div_mod_eq, fld, Nat.testBit_mod_two_pow,
      Nat.testBit_div_two_pow, Nat.add_comm]
  simp only [quartersOf, List.mem_filter, List.mem_range, hbit, Bool.and_eq_true, decide_eq_true_eq]
  exact ⟨fun h => h.2, fun h => ⟨h.1, h⟩⟩

theorem quartersOf_nodup (m : Nat) : (quartersOf m).Nodup := List.nodup_range.filter _

/-! ## Starts (Table PK-2) -/

/-- An idle quarter takes the activity, and no other changes. -/
theorem startAct_act (s : State) (a : Activity) {i : Nat} (hi : i < 4) (hidle : (s.plaza.quarter i).act = none) (j : Nat) :
    ((s.startAct a i).plaza.quarter j).act = if j = i then some a else (s.plaza.quarter j).act := by
  unfold State.startAct State.updQuarter
  dsimp only
  rw [quarter_setQuarter _ hi]
  split
  · next hj => simp [hj, hidle]
  · rfl

theorem foldl_startAct_act (a : Activity) (l : List Nat) (s : State) (hnodup : l.Nodup)
    (hidle : ∀ i ∈ l, i < 4 ∧ (s.plaza.quarter i).act = none) (j : Nat) :
    ((l.foldl (fun s i => s.startAct a i) s).plaza.quarter j).act = if j ∈ l then some a else (s.plaza.quarter j).act := by
  induction l generalizing s with
  | nil => rfl
  | cons i l ih =>
    obtain ⟨hnot, hnodup⟩ := List.nodup_cons.1 hnodup
    obtain ⟨⟨hi, hact⟩, hrest⟩ := List.forall_mem_cons.1 hidle
    have hstart := startAct_act s a hi hact
    have hstill : ∀ k ∈ l, k < 4 ∧ ((s.startAct a i).plaza.quarter k).act = none := fun k hk => by
      have hki : k ≠ i := fun h => hnot (h ▸ hk)
      rw [hstart, if_neg hki]
      exact hrest k hk
    rw [List.foldl_cons, ih (s.startAct a i) hnodup hstill, hstart]
    by_cases h : j = i <;> simp [h]

theorem foldl_startAct_ctrl (a : Activity) (l : List Nat) (s : State) :
    (l.foldl (fun s i => s.startAct a i) s).plaza.ctrl = s.plaza.ctrl := by
  induction l generalizing s with
  | nil => rfl
  | cons i l ih => exact ih (s.startAct a i)

section
variable {s : State} {a : Activity} {mask : Nat} (hidle : ∀ i ∈ quartersOf mask, i < 4 ∧ (s.plaza.quarter i).act = none)
include hidle

theorem hostStart_status : (s.hostStart a mask).plaza.resStatus = St.ok := by
  have hlate : ((quartersOf mask).any fun i => (s.plaza.quarter i).defers a) = false := by
    rw [List.any_eq_false]
    exact fun i hi => by simp [Quarter.defers, (hidle i hi).2]
  simp [State.hostStart, hlate]

theorem hostStart_act (j : Nat) :
    ((s.hostStart a mask).plaza.quarter j).act = if j ∈ quartersOf mask then some a else (s.plaza.quarter j).act :=
  foldl_startAct_act a _ s (quartersOf_nodup mask) hidle j

end

theorem hostStart_ctrl (s : State) (a : Activity) (mask : Nat) : (s.hostStart a mask).plaza.ctrl = s.plaza.ctrl :=
  foldl_startAct_ctrl a _ s

theorem hostStart_within (s : State) (a : Activity) (mask : Nat) : Within 132096 s (s.hostStart a mask) :=
  State.hostStart_within a mask (Within.refl _ s) (by decide)

/-! ## MAINT_CTRL (R335, R336, R339) -/

/-- The state in which a write of `MAINT_CTRL` has stored its RW fields. -/
def State.maintStored (s : State) (v : Word32) : State := { s with plaza := { s.plaza with ctrl := v &&& 0xF#32 } }

theorem maintStored_keeps {s t : State} {v : Word32} (h : (s.maintStored v).keeps t [.plaza, .power]) :
    s.keeps t [.plaza, .power] := by
  intro p hp
  have hsame := h p hp
  cases p with
  | plaza => simp at hp
  | _ => exact hsame

section
variable {s : State} {v : Word32}

theorem writeMaintCtrl_wipe (hw : fld v 8 4 ≠ 0) (hb : fld v 12 4 = 0) (hk : bit v 16 = false) : s.writeMaintCtrl v =
    if (quartersOf (fld v 8 4)).any s.quarterHeld then (s.maintStored v).maintStatus St.badState
    else (s.maintStored v).hostStart .wipe (fld v 8 4) := by
  simp [State.writeMaintCtrl, hw, hb, hk]
  rfl

theorem writeMaintCtrl_bist (hw : fld v 8 4 = 0) (hb : fld v 12 4 ≠ 0) (hk : bit v 16 = false) : s.writeMaintCtrl v =
    if s.anyLive then (s.maintStored v).maintStatus St.badState else (s.maintStored v).hostStart .bist (fld v 12 4) := by
  simp [State.writeMaintCtrl, hw, hb, hk]
  rfl

theorem writeMaintCtrl_ksweep (hw : fld v 8 4 = 0) (hb : fld v 12 4 = 0) (hk : bit v 16 = true) : s.writeMaintCtrl v =
    { s with plaza := { s.plaza with ctrl := v &&& 0xF#32, ksweepRun := true, ksweepHost := true, resStatus := St.ok } } := by
  simp [State.writeMaintCtrl, hw, hb, hk]

theorem writeMaintCtrl_both (hw : fld v 8 4 ≠ 0) (hb : fld v 12 4 ≠ 0) :
    s.writeMaintCtrl v = (s.maintStored v).maintStatus St.badField := by
  simp [State.writeMaintCtrl, State.maintStored, hw, hb]

/-- What a start by `MAINT_CTRL` does where every quarter that it names is idle. -/
theorem maintStored_hostStart (a : Activity) {lo : Nat}
    (hidle : ∀ i, i < 4 → bit v (lo + i) = true → (s.plaza.quarter i).act = none) :
    let t := (s.maintStored v).hostStart a (fld v lo 4)
    t.plaza.resStatus = St.ok ∧ t.plaza.ctrl = v &&& 0xF#32 ∧
      (∀ i, i < 4 → (t.plaza.quarter i).act = if bit v (lo + i) then some a else (s.plaza.quarter i).act) ∧
      t.plaza.mem = s.plaza.mem ∧ s.keeps t [.plaza, .power] := by
  have hnamed : ∀ i ∈ quartersOf (fld v lo 4), i < 4 ∧ ((s.maintStored v).plaza.quarter i).act = none := fun i hi =>
    ⟨(mem_quartersOf.1 hi).1, hidle i (mem_quartersOf.1 hi).1 (mem_quartersOf.1 hi).2⟩
  have hw := hostStart_within (s.maintStored v) a (fld v lo 4)
  refine ⟨hostStart_status hnamed, hostStart_ctrl _ _ _, fun i hi => ?_, hw.same .mem (by decide),
    maintStored_keeps (keeps_of_mask hw (by decide))⟩
  rw [hostStart_act hnamed]
  simp only [mem_quartersOf, hi, true_and]
  rfl

end

/-- Settles O30: `MAINT_CTRL` has one branch for each kind of start, and the starts are `hostStart`. -/
theorem maintenanceStarts : Obligations.MaintenanceStarts := by
  unfold Obligations.MaintenanceStarts
  intro v s hrun
  have hexec := fun {t} (h : s.writeMaintCtrl v = t) => answers_next ((coreWrite_of_runs hrun 0x1800 v _).trans h)
  refine ⟨fun hw hb hk hfree => ?_, fun hw hb hk hheld => ?_, fun hw hb hk hlive hfree => ?_, fun hw hb hk hlive => ?_,
    fun hw hb hk => hexec (writeMaintCtrl_ksweep hw hb hk), fun hw hb => hexec (writeMaintCtrl_both hw hb)⟩
  · have hnone : (quartersOf (fld v 8 4)).any s.quarterHeld = false := by
      rw [List.any_eq_false]
      exact fun i hi => by simp [(hfree i (mem_quartersOf.1 hi).1 (mem_quartersOf.1 hi).2).1]
    exact ⟨_, hexec ((writeMaintCtrl_wipe hw hb hk).trans (if_neg (by simp [hnone]))),
      maintStored_hostStart .wipe fun i hi hbit => (hfree i hi hbit).2⟩
  · obtain ⟨i, hi, hbit, hheld⟩ := hheld
    exact hexec ((writeMaintCtrl_wipe hw hb hk).trans
      (if_pos (List.any_eq_true.2 ⟨i, mem_quartersOf.2 ⟨hi, hbit⟩, hheld⟩)))
  · exact ⟨_, hexec ((writeMaintCtrl_bist hw hb hk).trans (if_neg (by simp [hlive]))), maintStored_hostStart .bist hfree⟩
  · exact hexec ((writeMaintCtrl_bist hw hb hk).trans (if_pos hlive))

end Sys2Proof.Machine
end

section
/-!
SUPPORT. The end of maintenance work: wipes (R335), zeroed segments (R332), quarters at rest (R358) and the patrol scrub (R330,
R337, R346).
-/
namespace Sys2Proof.Machine
open Sys2Proof

/-- Entries dropped by their key read as the default; the others read as before. -/
theorem SMap.get_filter_key {α : Type} (d : α) (m : SMap α) (p : Nat → Bool) (a : Nat) :
    SMap.get d (m.filter fun e => p e.1) a = if p a then SMap.get d m a else d := by
  induction m with
  | nil => simp
  | cons e m ih =>
    obtain ⟨k, v⟩ := e
    rw [List.filter_cons]
    by_cases hka : k = a
    · subst hka
      by_cases hk : p k = true
      · simp [hk, SMap.get]
      · simp [hk, ih]
    · by_cases hk : p k = true
      · simp [hk, SMap.get, hka, ih]
      · simp [hk, SMap.get, hka, ih]

/-! ## A wipe that ends (R335) -/

/-- The state once a wipe has ended in a quarter. -/
def State.wiped (s : State) (i : Nat) : State := (s.wipeQuarter i).updQuarter i fun x => { x with act := none, qoff := x.qoff || false }

theorem wiped_quarter (s : State) {i : Nat} (hi : i < 4) :
    (s.wiped i).plaza.quarter i = { s.plaza.quarter i with act := none, zeroing := [], qoff := (s.plaza.quarter i).qoff || false } := by
  unfold State.wiped
  rw [State.quarter_updQuarter_same _ hi]
  unfold State.wipeQuarter
  rw [State.quarter_updQuarter_same _ hi]
  rfl

theorem wiped_mem (s : State) (i a : Nat) :
    SMap.get 0 (s.wiped i).plaza.mem a = if quarterOf (a / 4096) ≠ i then SMap.get 0 s.plaza.mem a else 0 := by
  refine (SMap.get_filter_key 0 s.plaza.mem (fun k => quarterOf (k / 4096) != i) a).trans ?_
  simp only [bne_iff_ne]

theorem endJobs_of_none {s : State} (h : s.plaza.jobs = []) (a : Activity) (i failing : Nat) : s.endJobs a i failing = s := by
  have heta : ({ s.plaza with jobs := [] } : Plaza) = s.plaza := by rw [← h]
  unfold State.endJobs
  rw [h]
  exact congrArg (fun p => { s with plaza := p }) heta

theorem endReleases_of_none {s : State} (h : s.plaza.releases = []) : s.endReleases = s := by
  have heta : ({ s.plaza with releases := [] } : Plaza) = s.plaza := by rw [← h]
  unfold State.endReleases
  rw [h]
  exact congrArg (fun p => { s with plaza := p }) heta

/-- A wipe that ends with no job, command or deferred start behind it. -/
theorem actEnd_of_wipe {s : State} {i : Nat} (hi : i < 4) (hact : (s.plaza.quarter i).act = some .wipe)
    (hpend : (s.plaza.quarter i).pend = []) (hjobs : s.plaza.jobs = []) : s.actEnd i 0 = s.wiped i := by
  have hnext : nextPending ((s.wiped i).plaza.quarter i).pend = none := by
    rw [wiped_quarter s hi]
    exact congrArg nextPending hpend
  have hwiped : (s.wiped i).plaza.jobs = [] := hjobs
  have hended := endJobs_of_none hwiped .wipe i 0
  unfold State.actEnd
  rw [hact]
  show (match nextPending (((s.wiped i).endJobs .wipe i 0).plaza.quarter i).pend with
    | some b => ((s.wiped i).endJobs .wipe i 0).updQuarter i fun x => { x with act := some b, pend := x.pend.erase b }
    | none => (s.wiped i).endJobs .wipe i 0) = s.wiped i
  rw [hended, hnext]

theorem maintEnd_of_wipe {s : State} {i : Fin 4} (hact : (s.plaza.quarter i.val).act = some .wipe)
    (hpend : (s.plaza.quarter i.val).pend = []) (hreleases : s.plaza.releases = []) (hjobs : s.plaza.jobs = []) :
    exec (.maintActivityEnd (some i) 0) s = .next (s.wiped i.val) := by
  refine answers_next ?_
  show (s.actEnd i.val 0).endReleases = s.wiped i.val
  rw [actEnd_of_wipe i.isLt hact hpend hjobs]
  exact endReleases_of_none hreleases

theorem sweepEnd_spec (s : State) : s.sweepEnd.plaza.ksweepRun = false ∧ s.sweepEnd.fw.sweepDone = true := by
  unfold State.sweepEnd
  dsimp only
  generalize (List.range 64).foldl State.checkSlot s = u
  have hdone := fun u : State => State.maintDone_within (W := 16777344) 6 0 St.ok 0 (Within.refl _ u) (by decide)
  exact ⟨congrArg Plaza.ksweepRun ((hdone _).same .plaza (by decide)), congrArg Firmware.sweepDone ((hdone _).same .fw (by decide))⟩

theorem maintEnd_of_sweep {s : State} (hrun : s.plaza.ksweepRun = true) (hhost : s.plaza.ksweepHost = true) :
    s.maintEnd none 0 = s.sweepEnd := by
  simp [State.maintEnd, hrun, hhost]

/-! ## A zeroed segment (R332) -/

theorem quarterOf_lt (seg : Nat) : quarterOf seg < 4 := Nat.mod_lt _ (by decide)

theorem zeroSegment_clean (s : State) (seg : Nat) : (s.zeroSegment seg).plaza.dirty seg = false := by
  unfold Plaza.dirty State.zeroSegment
  rw [State.quarter_updQuarter_same _ (quarterOf_lt seg)]
  simp

theorem zeroSegment_mem (s : State) (seg a : Nat) :
    SMap.get 0 (s.zeroSegment seg).plaza.mem a = if a / 4096 ≠ seg then SMap.get 0 s.plaza.mem a else 0 := by
  refine (SMap.get_filter_key 0 s.plaza.mem (fun k => k / 4096 != seg) a).trans ?_
  simp only [bne_iff_ne]

theorem segmentZeroed_of_dirty {s : State} {seg : Nat} (hdirty : s.plaza.dirty seg = true) (hreleases : s.plaza.releases = []) :
    s.segmentZeroed seg = s.zeroSegment seg := by
  unfold State.segmentZeroed
  rw [if_pos hdirty]
  exact endReleases_of_none hreleases

/-! ## Patrol scrub (R330, R337, R346) -/

/-- The state in which the scrub has marked a word as uncorrectable and counted it. -/
def State.marked (s : State) (i w granule : Nat) : State :=
  ({ s with plaza := { s.plaza with bad := SMap.set 0 s.plaza.bad w (granule + 1) } }).countUe i

theorem marked_bad (s : State) (i w granule : Nat) : SMap.get 0 (s.marked i w granule).plaza.bad w = granule + 1 :=
  SMap.get_set_same 0 s.plaza.bad w (granule + 1)

theorem scrubRead_of_uncorrectable {s : State} {i : Fin 4} {bank granule row} {w : Nat}
    (h : s.scrubVisits i.val bank.val row.val = some w) :
    ∃ place holder, s.scrubRead i.val (.uncorrectable bank granule row) =
      (s.marked i.val w granule.val).raise 0x602 none place holder 0 := by
  unfold State.scrubRead
  dsimp only
  rw [h]
  exact ⟨_, _, rfl⟩

theorem satAdd_one_ce (n : Nat) : satAdd 0xFFFF n 1 = if n < 65535 then n + 1 else 65535 := by
  unfold satAdd
  split <;> split <;> omega

theorem kioskCorrected_kiosk (s : State) (marked : Bool) :
    (s.kioskCorrected marked).kiosk = { s.kiosk with ce := if s.kiosk.ce < 65535 then s.kiosk.ce + 1 else 65535 } := by
  unfold State.kioskCorrected
  dsimp only
  rw [← satAdd_one_ce]
  exact (State.reportCe_within (W := 19924160) _ _ _ _ (Within.refl _ _) (by decide)).same .kiosk (by decide)

/-- A corrected error of a marked column is counted alone (R329). -/
theorem kioskCorrected_keeps (s : State) : s.keeps (s.kioskCorrected true) [.kiosk, .free] := by
  intro p hp
  cases p with
  | kiosk | free => simp at hp
  | _ => rfl

theorem kioskUncorrectable_within (s : State) (a : Nat) : Within 28315840 s (s.kioskUncorrectable a) := by
  unfold State.kioskUncorrectable
  refine State.raise_within _ _ _ _ _ ?_ (by decide)
  with_reducible apply Within.build
  · exact State.drawn_within (Within.refl _ s) (by decide)
  all_goals first
    | with_reducible exact Or.inl rfl
    | exact Or.inr (by decide)

theorem kioskUncorrectable_bad (s : State) (a : Nat) : SMap.get false (s.kioskUncorrectable a).kiosk.bad a = true := by
  unfold State.kioskUncorrectable
  dsimp only
  have hkiosk := fun (u : State) (who : Nat) =>
    (State.raise_within (W := 19923136) 0x605 none a who 0 (Within.refl _ u) (by decide)).same .kiosk (by decide)
  exact (congrArg (fun k : Kiosk => SMap.get false k.bad a) (hkiosk _ _)).trans (SMap.get_set_same false s.kiosk.bad a true)

/-- Settles O31: each end of maintenance work has its lemma above. -/
theorem maintenanceEnds : Obligations.MaintenanceEnds := by
  unfold Obligations.MaintenanceEnds
  refine ⟨fun i s hact hpend hreleases hjobs => ?_, fun s hrun hhost => ?_, fun g s hdirty hreleases => ?_, fun i s hrest => ?_,
    fun i s => ?_, fun i s => rfl, fun i bank granule row w s hvisit => ?_,
    fun i a marked s => ⟨fun hact => ?_, fun hact => ⟨?_, ?_⟩⟩⟩
  · refine ⟨_, maintEnd_of_wipe hact hpend hreleases hjobs, ?_, fun a ha => ?_, fun a ha => ?_, ?_, rfl⟩
    · rw [wiped_quarter s i.isLt]
    · rw [wiped_mem, if_neg (not_not_intro ha)]
    · rw [wiped_mem, if_pos ha]
    · rw [wiped_quarter s i.isLt]
  · exact ⟨_, answers_next (maintEnd_of_sweep hrun hhost), sweepEnd_spec s⟩
  · refine ⟨_, answers_next (segmentZeroed_of_dirty hdirty hreleases), zeroSegment_clean s _, fun a ha => ?_, fun a ha => ?_, rfl⟩
    · rw [zeroSegment_mem, if_neg (not_not_intro ha)]
    · rw [zeroSegment_mem, if_pos ha]
  · refine ⟨_, answers_next (if_pos hrest), ?_, rfl, State.updQuarter_keeps s _ _⟩
    rw [State.quarter_updQuarter_same _ i.isLt]
  · refine ⟨_, rfl, ?_, rfl, State.updQuarter_keeps s _ _⟩
    rw [State.quarter_updQuarter_same _ i.isLt]
  · obtain ⟨place, holder, hread⟩ := scrubRead_of_uncorrectable (granule := granule) hvisit
    have hw := raise_within_of_not_fatal (s.marked i.val w granule.val) (code := 0x602) none place holder 0 (by decide)
    refine ⟨_, answers_next hread, ?_, raise_seq _ _ _ _ _ _, hw.same .mem (by decide), hw.same .queues (by decide)⟩
    rw [hw.same .plaza (by decide)]
    exact marked_bad s _ w _
  · exact ⟨answers_next (if_neg hact), answers_next (if_neg hact)⟩
  · refine ⟨_, answers_next (if_pos hact), kioskCorrected_kiosk s marked, fun hmarked => ?_⟩
    rw [hmarked]
    exact kioskCorrected_keeps s
  · have hw := kioskUncorrectable_within s a.val
    exact ⟨_, answers_next (if_pos hact), kioskUncorrectable_bad s _, hw.same .words (by decide), raise_seq _ _ _ _ _ _,
      hw.same .queues (by decide)⟩

end Sys2Proof.Machine
end

section
/-!
SUPPORT. Requests for a power state (R360, R361, R363): from a write of `PWRCTL` to the transition that starts, waits or is
refused.
-/
namespace Sys2Proof.Machine
open Sys2Proof

/-! ## From the write to the request -/

/-- A register of the AON block takes a write whatever CORE does. -/
theorem accessWrite_aon {s : State} {acc : Accessor} {off : Nat} (hw : s.mayWrite acc off = true) (haon : aonReg off = true)
    (hother : vfSees off = false ∧ hostReg off = false ∧ off % 4 = 0) (v : Word32) :
    s.accessWrite acc off v = s.writeAonReg off v := by
  obtain ⟨hvf, hhost, halign⟩ := hother
  simp [State.accessWrite, hw, State.writeReg, viewOf_of_mayWrite hw hvf, halign, hhost, haon]

theorem accessWrite_pwrctl {s : State} {acc : Accessor} (hw : s.mayWrite acc 0x2000 = true) (v : Word32) :
    s.accessWrite acc 0x2000 v = s.writePwrctl v :=
  accessWrite_aon hw (by decide) (by decide) v

/-- The request that a write of `PWRCTL` makes. -/
def pwrReqOf (v : Word32) (t : PState) : PwrReq := { target := t, force := bit v 3, id := some (fld v 8 8) }

theorem writePwrctl_of_target {s : State} {v : Word32} {t : PState} (h : pstateOf (fld v 0 3) = some t) :
    s.writePwrctl v = s.request (pwrReqOf v t) := by
  unfold State.writePwrctl
  dsimp only
  rw [h]
  rfl

theorem pstateOf_undefined {n : Nat} (h : 5 ≤ n) : pstateOf n = none := by
  match n, h with
  | n + 5, _ => rfl

theorem writePwrctl_undefined {s : State} {v : Word32} (h : 5 ≤ fld v 0 3) :
    s.writePwrctl v = s.pwrDone (fld v 8 8) (fld v 0 3) St.badField none := by
  unfold State.writePwrctl
  dsimp only
  rw [pstateOf_undefined h]

/-! ## A request that ends -/

theorem keeps_setPower (s : State) (f : Power → Power) : s.keeps (setPower s f) [.power] :=
  keeps_of_mask (setPower_within (W := 131072) f (Within.refl _ s) (by decide)) (by decide)

theorem pwrDone_power (s : State) (id target status : Nat) (slot : Option Nat) :
    (s.pwrDone id target status slot).power = { s.power with lastId := id, lastStatus := status } :=
  (State.post_within (W := 16777344) _ _ (Within.refl _ _) (by decide)).same .power (by decide)

theorem pwrDone_keeps {s u : State} (h : Within 16908416 s u) (id target status : Nat) (slot : Option Nat) :
    s.keeps (u.pwrDone id target status slot) [.power, .funcs, .out] :=
  keeps_of_mask (State.pwrDone_within _ _ _ _ h (by decide)) (by decide)

theorem endReq_pwrReqOf (s : State) (v : Word32) (t : PState) (status : Nat) (slot : Option Nat) :
    s.endReq (pwrReqOf v t) status slot = s.pwrDone (fld v 8 8) (pstateCode t) status slot := rfl

/-- The end of a request touches no other field of the power block than what `PWRSTATE` shows of it. -/
theorem endReq_field (s : State) (r : PwrReq) (status : Nat) (slot : Option Nat) {α : Type} (p : Power → α)
    (hp : ∀ x i j, p { x with lastId := i, lastStatus := j } = p x) : p (s.endReq r status slot).power = p s.power := by
  unfold State.endReq
  split
  · rw [pwrDone_power]
    exact hp _ _ _
  · rfl

/-! ## Requests with nothing running -/

section
variable {s : State} {r : PwrReq}

theorem request_of_idle (hrun : s.power.running = none) : s.request r = s.startReq r := by
  simp [State.request, hrun]

theorem startReq_awake (hcur : s.power.cur.awake = true) (htarget : r.target.awake = true) (hne : r.target ≠ s.power.cur) :
    s.startReq r = (setPower s fun p => { p with cur := r.target, gated := false }).endReq r St.ok none := by
  simp [State.startReq, hcur, htarget, hne]

/-- The state in which an entry has started: IDLE_NOTICE goes to every link (R254). -/
def State.entryStarted (s : State) (r : PwrReq) : State :=
  (List.range 8).foldl State.idleNotice (setPower s fun p => { p with running := some r, exiting := false })

theorem startReq_entry (hcur : s.power.cur.awake = true) (htarget : r.target.awake = false) (hok : s.refusal r = none) :
    s.startReq r = s.entryStarted r := by
  have hne : r.target ≠ s.power.cur := fun h => by simp [h, hcur] at htarget
  simp [State.startReq, hcur, htarget, hne, hok, State.entryStarted]

theorem startReq_refused (hcur : s.power.cur.awake = true) (htarget : r.target.awake = false) {st : Nat} {slot : Option Nat}
    (hrefused : s.refusal r = some (st, slot)) : s.startReq r = s.endReq r st slot := by
  have hne : r.target ≠ s.power.cur := fun h => by simp [h, hcur] at htarget
  simp [State.startReq, hcur, htarget, hne, hrefused]

theorem entryNotices_within (u : State) : Within 16777220 u ((List.range 8).foldl State.idleNotice u) :=
  Within.foldl (fun _ l => State.idleNotice_within l (Within.refl _ _) (by decide)) _ (Within.refl _ u)

theorem entryStarted_power : (s.entryStarted r).power = { s.power with running := some r, exiting := false } :=
  (entryNotices_within _).same .power (by decide)

theorem entryStarted_within {b : State} (h : Within 16908292 b s) : Within 16908292 b (s.entryStarted r) :=
  (setPower_within _ h (by decide)).step (entryNotices_within _) (by decide)

theorem startReq_exit_of_sleep (hcur : s.power.cur = .sleep) (htarget : r.target = .run) :
    s.startReq r = setPower s fun p => { p with running := some r, exiting := true, vrTries := 0 } := by
  simp [State.startReq, State.startExit, setPower, hcur, htarget, PState.awake]

end

theorem awake_of_run_or_idle {p : PState} (h : p = .run ∨ p = .idle) : p.awake = true := by
  rcases h with rfl | rfl <;> rfl

/-- While a transition runs, a request becomes the pending one (R361). -/
theorem request_of_running {s : State} {r r0 : PwrReq} (hrun : s.power.running = some r0) (hpend : s.power.pend = none) :
    s.request r = setPower s fun p => { p with pend := some r } := by
  simp [State.request, State.latchPend, hrun, hpend]

theorem sampleTj_within (s : State) (tj : BitVec 12) : Within 131072 s (s.sampleTj tj) :=
  setPower_within _ (Within.refl _ s) (by decide)

theorem pendingStart_of_idle {s : State} {r : PwrReq} (hrun : s.power.running = none) (hpend : s.power.pend = some r) :
    s.pendingStart = (setPower s fun p => { p with pend := none }).startReq r := by
  simp [State.pendingStart, State.actPending, hrun, hpend]

/-- The rows that request an entry write `PWRCTL`, the one for Deep Sleep after a sample of `TSENSE`; each names a state in which
CORE sleeps. -/
theorem exec_entry_request {acc : Accessor} {v : Word32} {s : State} (hw : s.mayWrite acc 0x2000 = true) {tj : BitVec 12}
    {c : Instr} {p : PState} {u : State}
    (h : (c, p, u) ∈ [(Instr.pwrReqSleep acc v, PState.sleep, s), (.pwrReqDeepSleep acc ⟨v, tj⟩, .deepSleep, s.sampleTj tj),
      (.pwrReqOff acc v, .off, s)]) :
    exec c s = .next (u.writePwrctl v) ∧ Within 131072 s u ∧
      (∀ {α : Type} (f : Power → α), (∀ x i, f { x with tsense := i } = f x) → f u.power = f s.power) ∧ p.awake = false := by
  simp only [List.mem_cons, Prod.mk.injEq, List.not_mem_nil, or_false] at h
  rcases h with ⟨rfl, rfl, rfl⟩ | ⟨rfl, rfl, rfl⟩ | ⟨rfl, rfl, rfl⟩
  · exact ⟨answers_next (accessWrite_pwrctl hw v), Within.refl _ _, fun _ _ => rfl, rfl⟩
  · have hw' : (s.sampleTj tj).mayWrite acc 0x2000 = true := hw
    exact ⟨answers_next (accessWrite_pwrctl hw' v), sampleTj_within s tj, fun _ hf => hf _ _, rfl⟩
  · exact ⟨answers_next (accessWrite_pwrctl hw v), Within.refl _ _, fun _ _ => rfl, rfl⟩

/-- So do the rows that request any state. -/
theorem exec_any_request {acc : Accessor} {v : Word32} {s : State} (hw : s.mayWrite acc 0x2000 = true) {tj : BitVec 12}
    {c : Instr} {p : PState} {u : State}
    (h : (c, p, u) ∈ [(Instr.pwrReqRun acc v, PState.run, s), (.pwrReqIdle acc v, .idle, s), (.pwrReqSleep acc v, .sleep, s),
      (.pwrReqDeepSleep acc ⟨v, tj⟩, .deepSleep, s.sampleTj tj), (.pwrReqOff acc v, .off, s)]) :
    exec c s = .next (u.writePwrctl v) ∧ u.power.running = s.power.running ∧ u.power.pend = s.power.pend := by
  rcases List.mem_cons.1 h with h | h
  · obtain ⟨rfl, -, rfl⟩ := h
    exact ⟨answers_next (accessWrite_pwrctl hw v), rfl, rfl⟩
  rcases List.mem_cons.1 h with h | h
  · obtain ⟨rfl, -, rfl⟩ := h
    exact ⟨answers_next (accessWrite_pwrctl hw v), rfl, rfl⟩
  · obtain ⟨hexec, -, hpower, -⟩ := exec_entry_request hw h
    exact ⟨hexec, hpower Power.running fun _ _ => rfl, hpower Power.pend fun _ _ => rfl⟩

/-- Settles O41: a write of `PWRCTL` is a request, which takes effect, starts an entry or an exit, ends refused, or waits. -/
theorem powerRequests : Obligations.PowerRequests := by
  unfold Obligations.PowerRequests
  intro acc v s hw
  have hwrite := answers_next (accessWrite_pwrctl hw v)
  refine ⟨fun hrun => ⟨fun hcur htarget => ?_, fun hcur htarget => ?_, fun tj c p u hc htarget hcur => ?_, fun hcur htarget => ?_⟩,
    fun r hrun hpend tj c p u hc htarget => ?_, fun htarget => ?_, fun _ => rfl, fun r hrun hpend htarget hcur => ?_⟩
  · have hstart := startReq_awake (s := s) (r := pwrReqOf v .idle) (by rw [hcur]; rfl) rfl (by simp [hcur, pwrReqOf])
    have hpstate : pstateOf (fld v 0 3) = some .idle := by rw [htarget]; rfl
    refine ⟨_, hwrite.trans (answers_next ((writePwrctl_of_target hpstate).trans ((request_of_idle hrun).trans hstart))), ?_⟩
    rw [endReq_pwrReqOf, pwrDone_power]
    exact ⟨rfl, rfl, rfl, rfl, hrun, pwrDone_keeps (setPower_within _ (Within.refl _ s) (by decide)) _ _ _ _⟩
  · have hstart := startReq_awake (s := s) (r := pwrReqOf v .run) (by rw [hcur]; rfl) rfl (by simp [hcur, pwrReqOf])
    have hpstate : pstateOf (fld v 0 3) = some .run := by rw [htarget]; rfl
    refine ⟨_, hwrite.trans (answers_next ((writePwrctl_of_target hpstate).trans ((request_of_idle hrun).trans hstart))), ?_⟩
    rw [endReq_pwrReqOf, pwrDone_power]
    exact ⟨rfl, rfl, rfl, hrun, pwrDone_keeps (setPower_within _ (Within.refl _ s) (by decide)) _ _ _ _⟩
  · obtain ⟨hexec, hwithin, hpower, hasleep⟩ := exec_entry_request hw hc
    have hrun' : u.power.running = none := (hpower Power.running fun _ _ => rfl).trans hrun
    have hcur' : u.power.cur.awake = true := (hpower (fun x => x.cur.awake) fun _ _ => rfl).trans (awake_of_run_or_idle hcur)
    have hreq := hexec.trans (answers_next ((writePwrctl_of_target htarget).trans (request_of_idle hrun')))
    refine ⟨fun hok => ?_, fun st slot hrefused => ?_⟩
    · refine ⟨_, hreq.trans (answers_next (startReq_entry hcur' hasleep hok)), ?_⟩
      rw [entryStarted_power]
      exact ⟨hpower Power.cur fun _ _ => rfl, rfl, hpower Power.domains fun _ _ => rfl, rfl, hpower Power.pend fun _ _ => rfl,
        keeps_of_mask (entryStarted_within (hwithin.mono (by decide))) (by decide)⟩
    · refine ⟨_, hreq.trans (answers_next (startReq_refused hcur' hasleep hrefused)), ?_⟩
      rw [endReq_pwrReqOf, pwrDone_power]
      exact ⟨hpower Power.cur fun _ _ => rfl, hrun', rfl, rfl, pwrDone_keeps (hwithin.mono (by decide)) _ _ _ _⟩
  · have hpstate : pstateOf (fld v 0 3) = some .run := by rw [htarget]; rfl
    exact hwrite.trans (answers_next ((writePwrctl_of_target hpstate).trans ((request_of_idle hrun).trans
      (startReq_exit_of_sleep hcur rfl))))
  · obtain ⟨hexec, hrunning, hpending⟩ := exec_any_request hw hc
    exact hexec.trans (answers_next ((writePwrctl_of_target htarget).trans
      (request_of_running (hrunning.trans hrun) (hpending.trans hpend))))
  · refine ⟨_, hwrite.trans (answers_next (writePwrctl_undefined htarget)), ?_⟩
    rw [pwrDone_power]
    exact ⟨rfl, rfl, rfl, rfl, pwrDone_keeps (Within.refl _ s) _ _ _ _⟩
  · have hne : r.target ≠ s.power.cur := by simp [htarget, hcur]
    have hstart := startReq_awake (s := setPower s fun p => { p with pend := none }) (r := r) (by simp [setPower, hcur, PState.awake])
      (by rw [htarget]; rfl) hne
    refine ⟨_, answers_next ((pendingStart_of_idle hrun hpend).trans hstart), ?_, ?_, ?_⟩
    · exact (endReq_field _ _ _ _ Power.cur fun _ _ _ => rfl).trans htarget
    · exact endReq_field _ _ _ _ Power.pend fun _ _ _ => rfl
    · exact keeps_of_mask (State.endReq_within (W := 16908416) _ _ _ (setPower_within _ (setPower_within _ (Within.refl _ s)
        (by decide)) (by decide)) (by decide)) (by decide)

end Sys2Proof.Machine
end

section
/-!
SUPPORT. Wake sources (R355, R362, R381, R382) and the VDD regulator (R377 to R380, R495).
-/
namespace Sys2Proof.Machine
open Sys2Proof

/-! ## Bits of `WAKESRC` -/

theorem bit_or {n : Nat} (x y : BitVec n) (i : Nat) : bit (x ||| y) i = (bit x i || bit y i) := by
  simp only [bit_eq_getLsbD, BitVec.getLsbD_or]

theorem bit_pow_same {n i : Nat} (hi : i < n) : bit (BitVec.ofNat n (2 ^ i)) i = true := by
  rw [bit_eq_getLsbD, BitVec.getLsbD_ofNat, Nat.testBit_two_pow_self, decide_eq_true hi]
  rfl

theorem bit_or_pow_same {n i : Nat} (hi : i < n) (x : BitVec n) : bit (x ||| BitVec.ofNat n (2 ^ i)) i = true := by
  rw [bit_or, bit_pow_same hi, Bool.or_true]

theorem bit_or_of_left {n i : Nat} {x : BitVec n} (h : bit x i = true) (y : BitVec n) : bit (x ||| y) i = true := by
  rw [bit_or, h, Bool.true_or]

/-! ## A wake event -/

/-- The state in which a wake source has set its bit and started the exit to Run. -/
def State.woken (s : State) (i : Nat) : State := setPower s fun p => { p with
  wakesrc := p.wakesrc ||| BitVec.ofNat 32 (2 ^ i), running := some { target := .run }, exiting := true, vrTries := 0 }

section
variable {s : State}

theorem wake_of_asleep (hcur : s.power.cur.awake = false) (hrun : s.power.running = none) (i : Nat) :
    s.wake i = if s.power.cur = .sleep then s.woken i else (s.woken i).operation true := by
  simp [State.wake, Power.entering, hrun, hcur, setWake, setPower, State.startExit, State.woken]

theorem wake_of_sleep (hcur : s.power.cur = .sleep) (hrun : s.power.running = none) (i : Nat) : s.wake i = s.woken i :=
  (wake_of_asleep (by rw [hcur]; rfl) hrun i).trans (if_pos hcur)

theorem wake_of_vdd_off (hcur : s.power.cur = .deepSleep ∨ s.power.cur = .off) (hrun : s.power.running = none) (i : Nat) :
    s.wake i = (s.woken i).operation true := by
  rcases hcur with hcur | hcur <;>
    exact (wake_of_asleep (by rw [hcur]; rfl) hrun i).trans (if_neg (by rw [hcur]; decide))

/-- During an entry a wake event latches the target Run, and shows that it did so (R362). -/
theorem wake_of_entering {r : PwrReq} (hrun : s.power.running = some r) (hentry : s.power.exiting = false)
    (hpend : s.power.pend = none) (i : Nat) :
    s.wake i = setPower (setWake (setWake s i) 12) fun p => { p with pend := some { target := .run } } := by
  simp [State.wake, Power.entering, hrun, hentry, State.latchPend, setWake, setPower, hpend]

theorem wake_of_awake (hcur : s.power.cur.awake = true) (hrun : s.power.running = none) (i : Nat) : s.wake i = s := by
  simp [State.wake, Power.entering, hrun, hcur]

theorem normalService_of_not_recovery (h : s.rst.recovery = false) : s.normalService = true := by
  simp [State.normalService, h]

theorem pcieWake_of_sleep (hcur : s.power.cur = .sleep) (hrec : s.rst.recovery = false) : s.pcieWake = s.wake 10 := by
  simp [State.pcieWake, normalService_of_not_recovery hrec, hcur]

/-- The wake logic votes for the port of a link whose signal wakes the device (R355). -/
theorem laneSignal_of_sleep {l : Nat} (hcur : s.power.cur = .sleep) (hrec : s.rst.recovery = false)
    (hlink : s.linkPresent l = true) (hen : (s.link l).wakeEn = true) :
    s.laneSignal l = (s.updLink l fun x => { x with wakeVote := true }).wake (2 + l) := by
  simp [State.laneSignal, normalService_of_not_recovery hrec, hlink, hen, hcur, PState.awake]

theorem execWakeSense_of_acts (h : s.senseActs = true) (mv : BitVec 12) :
    exec (.wakeSense mv) s = .next (if s.power.senseMv < mv.toNat then s.wake 11 else s) := by
  show execWakeSense mv s = _
  simp [execWakeSense, h]

end

/-- Settles O43: a wake event acts by the state it meets, and each source is one, or sets a vote as well. -/
theorem wakeSourcesStartTheExit : Obligations.WakeSourcesStartTheExit := by
  unfold Obligations.WakeSourcesStartTheExit
  intro s
  refine ⟨fun hcur hrun hrec => ⟨?_, ?_, ?_, fun n hlink hen => ?_⟩, fun hcur hrun hrec => ?_,
    fun mv hcur hrun hacts => ⟨fun hover => ?_, fun hunder => ?_⟩, fun r hrun hentry hpend hrec => ?_, fun hcur hrun => ⟨?_, ?_⟩⟩
  · exact answers_next ((if_pos (normalService_of_not_recovery hrec)).trans (wake_of_sleep hcur hrun 1))
  · exact answers_next ((if_pos (normalService_of_not_recovery hrec)).trans (wake_of_sleep hcur hrun 0))
  · exact answers_next ((pcieWake_of_sleep hcur hrec).trans (wake_of_sleep hcur hrun 10))
  · let u := s.updLink n.val fun x => { x with wakeVote := true }
    have hwake := wake_of_sleep (s := u) hcur hrun (2 + n.val)
    refine ⟨_, answers_next ((laneSignal_of_sleep hcur hrec hlink hen).trans hwake), rfl, ?_, ?_⟩
    · exact congrArg Link.wakeVote ((State.link_updLink s n.val n.val fun x => { x with wakeVote := true }).trans (if_pos rfl))
    · exact keeps_of_mask (setPower_within (W := 131076) _ (State.updLink_within _ _ (Within.refl _ s) (by decide)) (by decide))
        (by decide)
  · refine ⟨_, answers_next ((if_pos (normalService_of_not_recovery hrec)).trans (wake_of_vdd_off hcur hrun 1)), ?_, ?_⟩
    · simp [State.operation, setPower, State.woken]
    · exact keeps_of_mask (State.operation_within (W := 16908288) _ (setPower_within _ (Within.refl _ s) (by decide)) (by decide))
        (by decide)
  · exact (execWakeSense_of_acts hacts mv).trans (answers_next ((if_pos hover).trans (wake_of_sleep hcur hrun 11)))
  · exact (execWakeSense_of_acts hacts mv).trans (answers_next (if_neg (Nat.not_lt.2 hunder)))
  · refine ⟨_, answers_next ((if_pos (normalService_of_not_recovery hrec)).trans (wake_of_entering hrun hentry hpend 1)), rfl, hrun,
      bit_or_of_left (bit_or_pow_same (by decide) _) _, bit_or_pow_same (by decide) _, ?_⟩
    exact keeps_of_mask (setPower_within (W := 131072) _ (setPower_within _ (setPower_within _ (Within.refl _ s) (by decide))
      (by decide)) (by decide)) (by decide)
  · exact answers_next ((congrArg (fun t => if s.normalService = true then t else s) (wake_of_awake (by rw [hcur]; rfl) hrun 1)).trans
      (ite_self s))
  · exact answers_next ((congrArg (fun t => if s.normalService = true then t else s) (wake_of_awake (by rw [hcur]; rfl) hrun 0)).trans
      (ite_self s))

/-! ## The VDD regulator -/

section
variable {s : State}

theorem vrRise_of_waiting (hexit : s.power.exiting = true) (hon : s.power.vrOn = true) (hpg : s.power.vrPg = false) :
    s.vrRise = { s with
      power := { s.power with vrPg := true }, rst := { s.rst with trimValid := false, trimRun := s.rst.rstN } } := by
  simp [State.vrRise, setPower, hexit, hon, hpg]

/-- The state in which VDD is switched off again after `VR_PG` did not rise. -/
def State.vddFailed (s : State) : State :=
  setPower (setWake (s.operation false) 13) fun p => { p with vrFailed := true, vrTries := p.vrTries + 1 }

theorem vrTimeout_of_waiting (hexit : s.power.exiting = true) (hcur : s.power.cur = .deepSleep) (hon : s.power.vrOn = true)
    (hpg : s.power.vrPg = false) : s.vrTimeout =
      if 2 ≤ s.power.vrTries + 1 then setPower s.vddFailed fun p => { p with running := none, exiting := false } else s.vddFailed := by
  simp only [State.vrTimeout, exitFrom, hexit, hcur, hon, hpg, beq_self_eq_true, Bool.and_true, Bool.not_false, if_true]
  rfl

theorem avsStep_of_may {mv : Nat} (hmay : s.avsMay mv = true) (up : Bool) : s.avsStep mv up =
    (setPower s fun p => { p with vddMv := mv, avsPrev := some (p.vddMv, up && decide (p.vddMv < mv)), pmbRetry := 0 }).emit
      (.pmbus 0x21 mv) :=
  if_pos hmay

/-- Without an acknowledgement the old point is commanded again, and reported. -/
theorem avsFail_of_step {old : Nat} (hprev : s.power.avsPrev = some (old, false)) : s.avsFail =
    ((setPower s fun p => { p with vddMv := old, avsPrev := none }).emit (.pmbus 0x21 old)).raise 0x802 none s.power.vddMv old 0 := by
  unfold State.avsFail
  rw [hprev]
  exact if_neg Bool.false_ne_true

theorem avsFail_of_none (hprev : s.power.avsPrev = none) : s.avsFail = s := by
  unfold State.avsFail
  rw [hprev]

/-- The state in which an alert is read and reported. -/
def State.alertReported (s : State) (status : Nat) : State :=
  ((setPower s fun p => { p with alertHoldoff := true }).emit (.pmbus 0x79 status)).raise 0x803 none status 0 0

theorem handleAlert_of_runs (hrun : s.coreRuns = true) (status : Nat) :
    s.handleAlert status = (s.alertReported status).emit (.pmbus 3 0) :=
  if_pos hrun

theorem alertReported_within (b : State) (h : Within 19005568 b s) (status : Nat) : Within 19005568 b (s.alertReported status) :=
  (State.emit_within _ (setPower_within _ h (by decide)) (by decide)).step (raise_within_of_not_fatal _ _ _ _ _ (by decide))
    (by decide)

theorem alertReported_power (status : Nat) : (s.alertReported status).power = { s.power with alertHoldoff := true } :=
  (raise_within_of_not_fatal _ _ _ _ _ (by decide)).same .power (by decide)

end

/-- Settles O45: each command of the regulator has one branch for its condition. -/
theorem regulatorCommands : Obligations.RegulatorCommands := by
  unfold Obligations.RegulatorCommands
  intro s
  refine ⟨fun hexit hon hpg => answers_next (vrRise_of_waiting hexit hon hpg), fun hexit hcur hon hpg => ?timeout,
    fun hexit hcur hoff htries => ?retry, fun mv up hmay => ?step, rfl, fun old hprev => ?ack,
    fun hprev => answers_next (avsFail_of_none hprev), fun hprev hretry => ?stretch, fun w hrun hoff => ?alert,
    fun w hoff => answers_next (if_pos hoff), fun w => rfl, fun w hrun => ?again⟩
  case timeout =>
    have hbit : bit s.vddFailed.power.wakesrc 13 = true := bit_or_pow_same (by decide) _
    have hw : Within 16908288 s s.vddFailed :=
      setPower_within _ (setPower_within _ (State.operation_within _ (Within.refl _ s) (by decide)) (by decide)) (by decide)
    by_cases htries : 2 ≤ s.power.vrTries + 1
    · exact ⟨_, answers_next ((vrTimeout_of_waiting hexit hcur hon hpg).trans (if_pos htries)), rfl, hbit, rfl, rfl,
        fun h => absurd htries (by omega), fun _ => ⟨rfl, rfl⟩, rfl, keeps_of_mask (setPower_within _ hw (by decide)) (by decide)⟩
    · exact ⟨_, answers_next ((vrTimeout_of_waiting hexit hcur hon hpg).trans (if_neg htries)), rfl, hbit, rfl, rfl,
        fun _ => hexit, fun h => absurd h (by omega), rfl, keeps_of_mask hw (by decide)⟩
  case retry =>
    exact ⟨s.operation true, answers_next (if_pos (by simp [exitFrom, hexit, hcur, hoff, htries])), rfl, rfl,
      keeps_of_mask (State.operation_within (W := 16908288) _ (Within.refl _ s) (by decide)) (by decide)⟩
  case step =>
    exact ⟨_, answers_next (avsStep_of_may hmay up), rfl, rfl, rfl, keeps_of_mask (State.emit_within (W := 16908288) _
      (setPower_within _ (Within.refl _ s) (by decide)) (by decide)) (by decide)⟩
  case ack =>
    let u := (setPower s fun p => { p with vddMv := old, avsPrev := none }).emit (.pmbus 0x21 old)
    have hraise := raise_within_of_not_fatal u none s.power.vddMv old 0 (code := 0x802) (by decide)
    have hpower := hraise.same .power (by decide)
    refine ⟨_, answers_next (avsFail_of_step hprev), congrArg Power.vddMv hpower, congrArg Power.avsPrev hpower,
      raise_seq _ _ _ _ _ _, ?_⟩
    have hw : Within 19005568 s u := State.emit_within _ (setPower_within _ (Within.refl _ s) (by decide)) (by decide)
    exact keeps_of_mask (hw.step hraise (by decide)) (by decide)
  case stretch =>
    exact answers_next (if_pos (by simp [hprev, hretry]))
  case alert =>
    exact ⟨_, answers_next ((if_neg (by simp [hoff])).trans (handleAlert_of_runs hrun _)),
      congrArg Power.alertHoldoff (alertReported_power _),
      raise_seq _ _ _ _ _ _,
      keeps_of_mask (State.emit_within _ (alertReported_within s (Within.refl _ s) _) (by decide)) (by decide)⟩
  case again =>
    let u := setPower s fun p => { p with alertHoldoff := false }
    have hrun' : u.coreRuns = true := hrun
    have hw : Within 19005568 s u := setPower_within _ (Within.refl _ s) (by decide)
    exact ⟨_, answers_next (handleAlert_of_runs hrun' _), congrArg Power.alertHoldoff (alertReported_power _), raise_seq _ _ _ _ _ _,
      keeps_of_mask (State.emit_within _ (alertReported_within s hw _) (by decide)) (by decide)⟩

end Sys2Proof.Machine
end

section
/-!
SUPPORT. Votes and power domains (R351 to R358): a domain that drops leaves its links and sides idle, a lead that ends leaves
its links idle.
-/
namespace Sys2Proof.Machine
open Sys2Proof

/-! ## Bits of a set of domains -/

theorem bit_and_not_pow {w : Nat} (x : BitVec w) (d e : Nat) :
    bit (x &&& ~~~BitVec.ofNat w (2 ^ d)) e = (bit x e && !decide (d = e)) := by
  rw [bit_eq_getLsbD, bit_eq_getLsbD, BitVec.getLsbD_and, BitVec.getLsbD_not, BitVec.getLsbD_ofNat,
    Nat.testBit_two_pow]
  by_cases he : e < w
  · by_cases hde : d = e <;> simp [he, hde]
  · simp [BitVec.getLsbD_of_ge x e (by omega)]

/-! ## A side that stops -/

theorem State.side_updLink (s : State) (n : Nat) (f : Link → Link) (d : Side) : (s.updLink n f).side d = s.side d := by
  cases d <;> rfl

theorem State.link_updSide (s : State) (d : Side) (f : RingSide → RingSide) (n : Nat) : (s.updSide d f).link n = s.link n := by
  cases d <;> rfl

/-- A change of one side's training state leaves the training states of the others alone. -/
theorem State.phy_updPhy_other (s : State) {p q : Phy} (h : q ≠ p) (f : PhyState → PhyState) :
    (s.updPhy p f).phy q = s.phy q := by
  cases p with
  | link n => cases q with
    | link m =>
      have hne : n.val ≠ m.val := fun e => h (congrArg Phy.link (Fin.ext e.symm))
      exact congrArg Link.phy ((s.link_updLink n.val m.val _).trans (if_neg hne))
    | side e => exact congrArg RingSide.phy (s.side_updLink n.val _ e)
  | side d => cases q with
    | link m => exact congrArg Link.phy (s.link_updSide d _ m.val)
    | side e => exact congrArg RingSide.phy (s.side_updSide_other _ fun hed => h (congrArg Phy.side hed))

/-- Links rather than ring sides. -/
def isLinkPhy : Phy → Bool
  | .link _ => true
  | .side _ => false

/-- What leaving UP does above the physical layer leaves every link's training state alone, and a ring side's the other side's
too. -/
theorem leaveUp_phys (s : State) {p q : Phy} (h : isLinkPhy q = true ∨ isLinkPhy p = false) : (s.leaveUp p).phy q = s.phy q := by
  have hpost : ∀ e, (s.post 0 e).phy q = s.phy q := fun e =>
    State.phy_of_within (State.post_within 0 e (Within.refl _ s) (Nat.or_self _)) (by decide) q
  cases p with
  | link n => cases q with
    | link m =>
      refine (congrArg Link.phy (State.link_of_links
        ((State.holdLink_within n.val (Within.refl _ _) (Nat.or_self _)).same .links (by decide)) m.val)).trans ?_
      have hdown : ∀ u : State, u.phy (.link m) = s.phy (.link m) →
          ((u.updLink n.val Link.down).link m.val).phy = (s.link m.val).phy := by
        intro u hu
        rw [State.link_updLink]
        split
        · next hnm => rw [hnm]; exact hu
        · exact hu
      exact hdown _ (hpost _)
    | side e => simp [isLinkPhy] at h
  | side d =>
    have hdown : ∀ u : State, (u.updSide d RingSide.down).phy q = u.phy q := by
      intro u
      cases q with
      | link m => exact congrArg Link.phy (u.link_updSide d _ m.val)
      | side e =>
        by_cases hed : e = d
        · rw [hed]
          exact (congrArg RingSide.phy (u.side_updSide_same d RingSide.down)).trans rfl
        · exact congrArg RingSide.phy (u.side_updSide_other _ hed)
    exact (hdown _).trans (hpost _)

theorem phyLeave_phy_other (s : State) {p q : Phy} (hne : q ≠ p) (h : isLinkPhy q = true ∨ isLinkPhy p = false) :
    (s.phyLeave p).phy q = s.phy q := by
  unfold State.phyLeave
  split
  · rw [leaveUp_phys _ h, s.phy_updPhy_other hne]
  · rfl

/-- A side is disabled with its transmitters idle. -/
def State.Idled (s : State) (p : Phy) : Prop := (s.phy p).st = .disabled ∧ (s.phy p).txIdle = true

theorem phyStop_idles (s : State) (p : Phy) : (s.phyStop p .disabled).Idled p := by
  unfold State.Idled State.phyStop
  rw [State.phy_updPhy_same]
  exact ⟨rfl, rfl⟩

theorem phyStop_keeps_idled {s : State} {p q : Phy} (hkind : isLinkPhy q = true ∨ isLinkPhy p = false) (h : s.Idled q) :
    (s.phyStop p .disabled).Idled q := by
  by_cases hqp : q = p
  · rw [hqp]
    exact phyStop_idles s p
  · unfold State.Idled State.phyStop
    rw [State.phy_updPhy_other _ hqp, phyLeave_phy_other s hqp hkind]
    exact h

/-- A fold whose step makes a fact true of its element, and keeps it of the others, makes it true of every element. -/
theorem foldl_reaches {α β : Type} {f : β → α → β} {P : β → α → Prop} (hmakes : ∀ b a, P (f b a) a) {x : α} (l : List α)
    (hkeeps : ∀ b, ∀ a ∈ l, P b x → P (f b a) x) (b : β) (hx : x ∈ l ∨ P b x) : P (l.foldl f b) x := by
  induction l generalizing b with
  | nil => exact hx.resolve_left (List.not_mem_nil)
  | cons a as ih =>
    refine ih (fun b c hc => hkeeps b c (List.mem_cons_of_mem a hc)) _ ?_
    rcases hx with hx | hx
    · rcases List.mem_cons.mp hx with rfl | hxs
      · exact Or.inr (hmakes b x)
      · exact Or.inl hxs
    · exact Or.inr (hkeeps b a List.mem_cons_self hx)

/-! ## A domain that drops -/

theorem dropDomain_power (s : State) (d : Nat) :
    (s.dropDomain d).power = { s.power with domains := s.power.domains &&& ~~~BitVec.ofNat 6 (2 ^ d) } := by
  have hstops : Within 19926213 s ((domPhys d).foldl (fun s p => s.phyStop p .disabled) s) :=
    Within.foldl (fun t p => State.phyStop_within p .disabled (Within.refl _ t) (Nat.or_self _)) _ (Within.refl _ s)
  have hpower := hstops.same .power (by decide)
  unfold State.dropDomain setPower
  exact congrArg (fun p : Power => { p with domains := p.domains &&& ~~~BitVec.ofNat 6 (2 ^ d) }) hpower

/-- A domain holds links or ring sides. -/
theorem domPhys_one_kind {d : Nat} {p q : Phy} (hp : p ∈ domPhys d) (hq : q ∈ domPhys d) :
    isLinkPhy q = true ∨ isLinkPhy p = false := by
  unfold domPhys at hp hq
  split at hp
  case h_1 | h_2 => exact Or.inl (by simp at hq; rcases hq with rfl | rfl | rfl | rfl <;> rfl)
  case h_3 => exact Or.inr (by simp at hp; rcases hp with rfl | rfl <;> rfl)
  case h_4 => cases hp

theorem dropDomain_idles (s : State) (d : Nat) {p : Phy} (hp : p ∈ domPhys d) : (s.dropDomain d).Idled p :=
  have hstops : ((domPhys d).foldl (fun s p => s.phyStop p .disabled) s).Idled p :=
    foldl_reaches (P := State.Idled) phyStop_idles _ (fun _ _ ha h => phyStop_keeps_idled (domPhys_one_kind ha hp) h) s (Or.inl hp)
  hstops

theorem settleDomain_drops {s : State} {d : Nat} (hact : s.votesAct = true) (hon : bit s.power.domains d = true)
    (hvote : s.voted d = false) (hlead : s.leadRuns d = false) : s.settleDomain d = s.dropDomain d := by
  simp [State.settleDomain, hact, hon, hvote, hlead]

theorem settleDomain_stays {s : State} {d : Nat} (h : ¬(s.votesAct = true ∧ bit s.power.domains d = true ∧ s.voted d = false ∧
    s.leadRuns d = false)) : s.settleDomain d = s := by
  refine if_neg fun hall => h ?_
  simpa [and_assoc] using hall

/-! ## A partner's votes -/

theorem idleNotice_down {s : State} {n : Nat} (h : s.linkLive n = false) : s.idleNotice n = s := by
  simp [State.idleNotice, h]

theorem idleNotice_live {s : State} {n : Fin 8} (h : s.linkLive n.val = true) : s.idleNotice n.val =
    (s.emit (.word n (powerWord 2))).updLink n.val fun x => { x with idleLead := true } := by
  unfold State.idleNotice
  rw [if_pos h, sendWord_of_live h]

section
variable {s : State} {n : Fin 8} {v : Nat}

theorem partnerVote_voted (hlive : s.linkLive n.val = true)
    (hvote : (s.updLink n.val fun x => { x with votes := v }).voted (linkDomain n.val) = true) :
    s.partnerVote n.val v false = (s.updLink n.val fun x => { x with votes := v }).settleVotes ∧
    s.partnerVote n.val v true =
      ((s.updLink n.val fun x => { x with votes := v }).emit (.word n (powerWord 3))).settleVotes := by
  have hlive' : (s.updLink n.val fun x => { x with votes := v }).linkLive n.val = true := by
    rw [linkLive_updLink (by rfl), hlive]
  unfold State.partnerVote
  dsimp only
  rw [if_pos hvote, if_pos hvote, if_neg (by simp), if_pos rfl, sendWord_of_live hlive']
  exact ⟨rfl, rfl⟩

theorem partnerVote_unvoted (hvote : (s.updLink n.val fun x => { x with votes := v }).voted (linkDomain n.val) = false)
    (asked : Bool) : s.partnerVote n.val v asked =
      (((noticedBy n.val asked).foldl State.idleNotice (s.updLink n.val fun x => { x with votes := v })).updLink n.val
        fun x => { x with idleLead := true }).settleVotes := by
  unfold State.partnerVote
  dsimp only
  rw [if_neg (by simp [hvote])]

end

theorem execPowerVote_of_live {s : State} {n : Fin 8} (h : s.linkLive n.val = true) (v : BitVec 6) :
    exec (.powerVote n v) s = .next (s.partnerVote n.val v.toNat false) ∧
    exec (.sleepReq n v) s = .next (s.partnerVote n.val v.toNat true) :=
  ⟨answers_next (if_pos h), answers_next (if_pos h)⟩

theorem execPowerVote_of_down {s : State} {n : Fin 8} (h : s.linkLive n.val = false) (v : BitVec 6) :
    exec (.powerVote n v) s = .next s ∧ exec (.sleepReq n v) s = .next s :=
  have h' : ¬s.linkLive n.val = true := by simp [h]
  ⟨answers_next (if_neg h'), answers_next (if_neg h')⟩

theorem mem_noticedBy {m l : Nat} {asked : Bool} :
    m ∈ noticedBy l asked ↔ m < 8 ∧ linkDomain m = linkDomain l ∧ (m ≠ l ∨ asked = true) := by
  simp [noticedBy]

/-! ## A lead that ends -/

/-- A link's lead has ended: it idles, and nothing waits for its lead any more. -/
def State.LeadEnded (s : State) (p : Phy) : Prop :=
  match p with
  | .link n => (s.link n.val).idleLead = false ∧ s.Idled p
  | .side _ => True

theorem phyLeave_idleLead {s : State} {p : Phy} {n : Nat} (h : (s.link n).idleLead = false) :
    ((s.phyLeave p).link n).idleLead = false := by
  have hcount : ((s.updPhy p fun x => { x with downCnt := inc8 x.downCnt }).link n).idleLead = false := by
    cases p with
    | link m =>
      refine (congrArg Link.idleLead (State.link_updLink _ _ _ _)).trans ?_
      split
      · next e => rw [e]; exact h
      · exact h
    | side d => exact (congrArg Link.idleLead (s.link_updSide d _ n)).trans h
  unfold State.phyLeave
  split
  · generalize s.updPhy p _ = u at hcount
    have hpost : ∀ e, ((u.post 0 e).link n).idleLead = false := fun e => (congrArg Link.idleLead (State.link_of_links
      ((State.post_within (W := 16777344) 0 e (Within.refl _ u) (by decide)).same .links (by decide)) n)).trans hcount
    cases p with
    | link m =>
      refine (congrArg Link.idleLead (State.link_of_links
        ((State.holdLink_within m.val (Within.refl _ _) (Nat.or_self _)).same .links (by decide)) n)).trans ?_
      rw [State.link_updLink]
      split
      · rfl
      · exact hpost _
    | side d => exact (congrArg Link.idleLead (State.link_updSide _ d _ n)).trans (hpost _)
  · exact h

theorem phyStop_idleLead {s : State} {n : Nat} (h : (s.link n).idleLead = false) (p : Phy) (st : LState) :
    ((s.phyStop p st).link n).idleLead = false := by
  have hleft := phyLeave_idleLead (p := p) h
  unfold State.phyStop
  generalize s.phyLeave p = u at hleft ⊢
  cases p with
  | link m =>
    refine (congrArg Link.idleLead (State.link_updLink _ _ _ _)).trans ?_
    split
    · next e => rw [e]; exact hleft
    · exact hleft
  | side d => exact (congrArg Link.idleLead (u.link_updSide d _ n)).trans hleft

theorem endLead_ends (s : State) (p : Phy) : (s.endLead p).LeadEnded p := by
  cases p with
  | link n =>
    refine ⟨phyStop_idleLead ?_ _ _, phyStop_idles _ _⟩
    rw [State.link_updLink, if_pos rfl]
  | side d => trivial

theorem idled_updLink {s : State} {q : Phy} (h : s.Idled q) {n : Nat} {f : Link → Link} (hf : ∀ l, (f l).phy = l.phy) :
    (s.updLink n f).Idled q := by
  have hphy : (s.updLink n f).phy q = s.phy q := by
    cases q with
    | link m => simp only [State.phy, State.link_updLink]; split <;> simp_all
    | side e => exact congrArg RingSide.phy (s.side_updLink n f e)
  unfold State.Idled
  rw [hphy]
  exact h

theorem endLead_keeps_ended (s : State) (p q : Phy) (h : s.LeadEnded q) : (s.endLead p).LeadEnded q := by
  cases q with
  | side e => trivial
  | link m => cases p with
    | side d => exact h
    | link n =>
      obtain ⟨hlead, hidled⟩ := h
      have hlead' : ((s.updLink n.val fun x => { x with idleLead := false }).link m.val).idleLead = false := by
        rw [State.link_updLink]
        split
        · rfl
        · exact hlead
      have hidled' : (s.updLink n.val fun x => { x with idleLead := false }).Idled (.link m) := idled_updLink hidled fun _ => rfl
      exact ⟨phyStop_idleLead hlead' (.link n) .disabled, phyStop_keeps_idled (Or.inl rfl) hidled'⟩

theorem endLeads_end (s : State) {l : List Phy} {p : Phy} (hp : p ∈ l) : (l.foldl State.endLead s).LeadEnded p :=
  foldl_reaches (P := State.LeadEnded) endLead_ends l (fun b a _ => endLead_keeps_ended b a p) s (Or.inl hp)

section
variable {s : State} {d : Nat}

theorem leadEnd_of_none (h : s.leads d = []) : s.leadEnd d = s := by simp [State.leadEnd, h]

/-- The end of a lead that runs: the links idle, and what comes then rests on the transition and the votes. -/
theorem leadEnd_of_leads (h : s.leads d ≠ []) : s.leadEnd d =
    if ((s.leads d).foldl State.endLead s).power.entering then (s.leads d).foldl State.endLead s
    else if ((s.leads d).foldl State.endLead s).voted d then
      (s.leads d).foldl State.phyEnable ((s.leads d).foldl State.endLead s)
    else ((s.leads d).foldl State.endLead s).dropDomain d := by
  unfold State.leadEnd
  dsimp only
  rw [if_neg (by simpa using h)]

theorem endLeads_power (l : List Phy) : (l.foldl State.endLead s).power = s.power :=
  (Within.foldl (W := 19926213) (fun t p => State.endLead_within p (Within.refl _ t) (Nat.or_self _)) l
    (Within.refl _ s)).same .power (by decide)

/-! ## A domain that rises -/

theorem raiseDomain_power (d : Nat) : (s.raiseDomain d).power =
    { s.power with domains := s.power.domains ||| BitVec.ofNat 6 (2 ^ d) } := by
  unfold State.raiseDomain
  dsimp only
  have hcells := State.resetCells_within (W := 65536) ((domPhys d).flatMap phyCells)
    (Within.refl _ (setPower s fun p => { p with domains := p.domains ||| BitVec.ofNat 6 (2 ^ d) })) (by decide)
  have hdata := Within.foldl (W := 65604) (fun t p => State.resetDataCells_within p (Within.refl _ t) (by decide)) (domPhys d)
    (hcells.mono (by decide))
  have htrain := Within.foldl (W := 19988676) (fun t p => State.phyEnable_within p (Within.refl _ t) (by decide)) (domPhys d)
    (hdata.mono (by decide))
  exact htrain.same .power (by decide)

theorem domainPowerUp_rises (hact : s.votesAct = true) (hrec : s.rst.recovery = false) (hcore : s.coreRuns = true)
    (hoff : bit s.power.domains d = false) (hvote : s.voted d = true) : s.domainPowerUp d = s.raiseDomain d := by
  simp [State.domainPowerUp, hact, hrec, hcore, hoff, hvote]

theorem domainPowerUp_stays (h : bit s.power.domains d = true ∨ s.voted d = false) : s.domainPowerUp d = s := by
  rcases h with h | h <;> simp [State.domainPowerUp, h]

end

/-! ## The obligation -/

/-- Settles O44: each command has one lemma per outcome; a domain that drops idles its links and sides because a side that
stops leaves the training states of the others alone. -/
theorem votesPowerDomains : Obligations.VotesPowerDomains := by
  unfold Obligations.VotesPowerDomains
  intro s partner noticed ended
  refine ⟨fun _ => rfl, fun u d => ⟨fun ⟨ha, hb, hv, hl⟩ => settleDomain_drops ha hb hv hl, settleDomain_stays⟩, fun u d => ?drop,
    fun g v hr => answers_next (accessWrite_host s g 0x130 v hr (by decide) (by decide) (by decide)),
    fun n v => ⟨fun hdown => execPowerVote_of_down hdown v, fun hlive hvote => ?voted, fun hlive hvote => ?unvoted⟩,
    fun n m asked => mem_noticedBy, fun u m => ⟨idleNotice_down, idleNotice_live⟩,
    fun p hnone => answers_next (leadEnd_of_none hnone), fun d n hn => ?ended, fun p hleads => ?leads,
    fun d hact hrec hcore hoff hvote => ⟨answers_next (domainPowerUp_rises hact hrec hcore hoff hvote), raiseDomain_power d.val,
      keeps_of_mask (State.raiseDomain_within d.val (Within.refl _ s) (Nat.or_self _)) (by decide)⟩,
    fun d h => answers_next (domainPowerUp_stays h),
    fun n => ⟨fun hup => answers_next (if_pos hup), fun hdown => answers_next (if_neg hdown)⟩,
    fun hidle hquiet => answers_next (if_pos (by simp [hidle, hquiet])), fun h => answers_next (if_neg ?gate), rfl⟩
  case drop =>
    rw [dropDomain_power]
    refine ⟨?_, fun e he => ?_, fun p hp => dropDomain_idles u d.val hp⟩
    · rw [bit_and_not_pow, decide_eq_true rfl, Bool.not_true, Bool.and_false]
    · rw [bit_and_not_pow, decide_eq_false (fun h => he h.symm), Bool.not_false, Bool.and_true]
  case voted =>
    obtain ⟨hasked, hsleep⟩ := execPowerVote_of_live hlive v
    obtain ⟨hkept, hdenied⟩ := partnerVote_voted hlive hvote
    exact ⟨hasked.trans (answers_next hkept), hsleep.trans (answers_next hdenied)⟩
  case unvoted =>
    obtain ⟨hasked, hsleep⟩ := execPowerVote_of_live hlive v
    exact ⟨hasked.trans (answers_next (partnerVote_unvoted hvote false)), hsleep.trans (answers_next (partnerVote_unvoted hvote true))⟩
  case ended => exact endLeads_end s hn
  case leads =>
    have hend : exec (.idleNoticeLeadEnd p) s = .next (s.leadEnd (portDomain p)) := rfl
    have hpower : (ended (portDomain p)).power = s.power := endLeads_power _
    rw [hend, leadEnd_of_leads hleads]
    refine ⟨fun hentry => answers_next (if_pos ?_), fun hentry hvote => answers_next ?_, fun hentry hvote => answers_next ?_⟩
    · rw [endLeads_power]; exact hentry
    · rw [endLeads_power, hentry, if_neg (by simp)]
      exact if_neg (by simp only [ended] at hvote; simp [hvote])
    · rw [endLeads_power, hentry, if_neg (by simp)]
      exact if_pos hvote
  case gate => rcases h with h | h <;> simp [h]

end Sys2Proof.Machine
end

section
/-!
SUPPORT. Reset sources and what each level leaves (R387 to R395, R405), trim load and the end of a reset (R389, R392, R393,
R399).
-/
namespace Sys2Proof.Machine
open Sys2Proof

/-! ## What a system reset leaves -/

theorem vddBack_out (s : State) : ∃ o, s.vddBack = { s with out := o } := by
  unfold State.vddBack
  split
  · exact ⟨s.out, rfl⟩
  · exact ⟨_, rfl⟩

/-- What a system reset from a source leaves of a state, and what it keeps. -/
def SystemReset (s t : State) (src : Nat) : Prop :=
  t.rst.active = some (.system, src) ∧
  bit t.rst.cause src = true ∧ t.rst.ioHeld = true ∧ t.rst.ioLocked = false ∧ t.rst.bootcnt = s.rst.bootcnt ∧ t.queues = [] ∧
  t.links = [] ∧ t.plaza.mem = [] ∧ t.kiosk = {} ∧ t.time = {} ∧ t.errs.fifo = [] ∧ t.errs.counts = [] ∧ t.nv = s.nv ∧
  t.fw.dir = s.fw.dir ∧ t.funcs = [(0, { vote := 0x3F })] ∧ t.power.domains = 0

theorem startReset_of_none {s : State} (h : s.rst.active = none) (lvl : RLevel) (src : Nat) :
    s.startReset lvl src = { (s.setCause src).applyReset lvl with
      rst := { ((s.setCause src).applyReset lvl).rst with active := some (lvl, src) } } := by
  unfold State.startReset
  rw [h]

theorem startReset_system {s : State} (h : s.rst.active = none) {src : Nat} (hsrc : src < 32) :
    SystemReset s (s.startReset .system src) src := by
  rw [startReset_of_none h]
  unfold State.applyReset State.systemReset
  obtain ⟨o, ho⟩ := vddBack_out (s.setCause src)
  rw [ho]
  exact ⟨rfl, bit_or_pow_same hsrc _, rfl, rfl, rfl, rfl, rfl, rfl, rfl, rfl, rfl, rfl, rfl, rfl, rfl, rfl⟩

/-! ## What a core reset leaves -/

/-- What a core reset from a source leaves of a state, and what it keeps. -/
def CoreReset (s t : State) (src : Nat) : Prop :=
  t.rst.active = some (.core, src) ∧
  bit t.rst.cause src = true ∧ t.rst.ioHeld = true ∧ t.rst.ctlReturn = true ∧ t.rst.control = false ∧ t.fw.ready = false ∧
  t.rst.bootcnt = s.rst.bootcnt ∧ s.keeps t [.queues, .funcs, .kiosk, .power, .rst, .fw, .out]

/-- The pads that a core reset holds, and what it keeps of the reset block. -/
theorem coreReset_rst (s : State) : s.coreReset.rst.ioHeld = true ∧ s.coreReset.rst.cause = s.rst.cause ∧
    s.coreReset.rst.bootcnt = s.rst.bootcnt := by
  have hrst : s.staticKerb.rst = s.rst := (State.staticKerb_within (Within.refl _ s) (Nat.or_self _)).same .rst (by decide)
  unfold State.coreReset
  dsimp only
  split
  · next hheld => exact ⟨hheld, congrArg Reset.cause hrst, congrArg Reset.bootcnt hrst⟩
  · exact ⟨rfl, Eq.trans (by rfl) (congrArg Reset.cause hrst), Eq.trans (by rfl) (congrArg Reset.bootcnt hrst)⟩

/-- Where the reset block may change, any change of it keeps the rest. -/
theorem keeps_setRst {s u : State} {l : List Part} (h : s.keeps u l) (hl : .rst ∈ l) (r : Reset) : s.keeps { u with rst := r } l := by
  intro p hp
  cases p with
  | rst => exact absurd hl hp
  | _ => exact h _ hp

theorem State.keeps_refl (s : State) (l : List Part) : s.keeps s l := fun p _ => by cases p <;> rfl

theorem startReset_core {s : State} (h : s.rst.active = none) {src : Nat} (hsrc : src < 32) :
    CoreReset s (s.startReset .core src) src := by
  rw [startReset_of_none h]
  obtain ⟨hheld, hcause, hboot⟩ := coreReset_rst (s.setCause src)
  have hreset : Within 18223233 s (s.setCause src).coreReset :=
    State.coreReset_within (State.setCause_within src (Within.refl _ s) (by decide)) (Nat.or_self _)
  have hkeeps : s.keeps (s.setCause src).coreReset [.queues, .funcs, .kiosk, .power, .rst, .fw, .out] :=
    keeps_of_mask hreset (by decide)
  refine ⟨rfl, ?_, hheld, rfl, rfl, rfl, hboot, keeps_setRst hkeeps (by decide) _⟩
  exact (congrArg (fun c => bit c src) hcause).trans (bit_or_pow_same hsrc _)

/-! ## Sources (R388 to R391, R395, R405) -/

theorem accessWrite_rstctl {s : State} {acc : Accessor} (hw : s.mayWrite acc 0x210C = true) (v : Word32) :
    s.accessWrite acc 0x210C v = s.writeRstctl v :=
  accessWrite_aon hw (by decide) (by decide) v

section
variable {v : Word32} (hkey : fld v 8 8 = 0x5A)
include hkey

theorem writeRstctl_sys (s : State) (h : bit v 0 = true) : s.writeRstctl v = s.startReset .system Cause.swsys := by
  simp [State.writeRstctl, hkey, h]

theorem writeRstctl_core (s : State) (hsys : bit v 0 = false) (h : bit v 1 = true) :
    s.writeRstctl v = s.startReset .core Cause.swcore := by
  simp [State.writeRstctl, hkey, hsys, h]

end

theorem rstAccepted_long {ns : Nat} (h : 1000 ≤ ns) : rstAccepted ns = true := by
  rw [rstAccepted, if_neg (by omega), if_neg (by omega)]

theorem rstAccepted_glitch {ns : Nat} (h : ns < 250) : rstAccepted ns = false := if_pos h

theorem exec_rstNAssert_long (s : State) {ns : Nat} (h : 1000 ≤ ns) : exec (.rstNAssert ns) s = .next s.rstLow :=
  answers_next (if_pos (rstAccepted_long h))

section
variable {s : State} (hruns : s.coreRuns = true) (hrec : s.rst.recovery = false)
include hruns hrec

theorem watchdog_first (h : s.rst.wdogAt = none) : s.watchdog = s.startReset .core Cause.wdcore := by
  simp [State.watchdog, hruns, hrec, h]

theorem watchdog_again {t : Nat} (h : s.rst.wdogAt = some t) (hsoon : s.cyc ≤ t + cyclesPerSecond) :
    s.watchdog = s.startReset .system Cause.wdog := by
  simp [State.watchdog, hruns, hrec, h, hsoon]

theorem watchdog_later {t : Nat} (h : s.rst.wdogAt = some t) (hlate : t + cyclesPerSecond < s.cyc) :
    s.watchdog = s.startReset .core Cause.wdcore := by
  simp [State.watchdog, hruns, hrec, h, Nat.not_le.mpr hlate]

end

/-- A low `RST_N` that meets a running system reset is absorbed: its cause is recorded, and a trim load under way begins again. -/
theorem rstLow_absorbed {s : State} {src : Nat} (h : s.rst.active = some (.system, src)) : s.rstLow = { s with
    rst := { s.rst with rstN := false, cause := s.rst.cause ||| BitVec.ofNat 32 (2 ^ Cause.pin) : Reset }.abortTrim } := by
  unfold State.rstLow State.startReset
  dsimp only
  rw [h]
  exact if_pos (Nat.le_refl _)

theorem abortTrim_keeps (r : Reset) :
    r.abortTrim.active = r.active ∧ r.abortTrim.cause = r.cause ∧ r.abortTrim.rstN = r.rstN := by
  unfold Reset.abortTrim
  split <;> exact ⟨rfl, rfl, rfl⟩

/-- Settles O46: every source starts a reset of its level from the state that it finds, and each level has one lemma that says
what it leaves. -/
theorem resetSourcesAndWhatTheyLeave : Obligations.ResetSourcesAndWhatTheyLeave := by
  unfold Obligations.ResetSourcesAndWhatTheyLeave
  intro s system core
  refine ⟨fun hnone => ?sources, fun rc lost => ⟨_, rfl, rfl, rfl, rfl, rfl, rfl, rfl, rfl, rfl, rfl, rfl, rfl, rfl⟩, ?brownOut,
    fun src ns hactive hns => ?absorbed, fun ns hns => answers_next (if_neg (by simp [rstAccepted_glitch hns]))⟩
  case sources =>
    have hsystem : ∀ {c : Instr} {src : Nat}, exec c s = .next (s.startReset .system src) → src < 32 → system c src :=
      fun hexec hsrc => ⟨_, hexec, startReset_system hnone hsrc⟩
    have hcore : ∀ {c : Instr} {src : Nat}, exec c s = .next (s.startReset .core src) → src < 32 → core c src :=
      fun hexec hsrc => ⟨_, hexec, startReset_core hnone hsrc⟩
    refine ⟨fun acc v hkey hw => ⟨fun hsys => ?_, fun hsys hcor => ?_⟩, fun ns hns => ?_, ?_, fun r hr => ?_, fun htrial hok => ?_,
      fun hctl => ?_, fun hruns hrec => ⟨fun hfirst => ?_, fun t hat hsoon => ?_, fun t hat hlate => ?_⟩⟩
    · exact hsystem (answers_next ((accessWrite_rstctl hw v).trans (writeRstctl_sys hkey s hsys))) (by decide)
    · exact hcore (answers_next ((accessWrite_rstctl hw v).trans (writeRstctl_core hkey s hsys hcor))) (by decide)
    · exact ⟨_, exec_rstNAssert_long s hns,
        startReset_system (s := { s with rst := { s.rst with rstN := false } }) hnone (src := Cause.pin) (by decide)⟩
    · exact ⟨_, rfl,
        startReset_system (s := { s with rst := { s.rst with refclk := false } }) hnone (src := Cause.clkloss) (by decide)⟩
    · exact hsystem (answers_next (if_pos hr)) (by decide)
    · exact hsystem (answers_next (if_pos (by simp [htrial, hok]))) (by decide)
    · exact hcore (answers_next (if_pos hctl)) (by decide)
    · exact hcore (answers_next (watchdog_first hruns hrec hfirst)) (by decide)
    · exact hsystem (answers_next (watchdog_again hruns hrec hat hsoon)) (by decide)
    · exact hcore (answers_next (watchdog_later hruns hrec hat hlate)) (by decide)
  case brownOut =>
    obtain ⟨o, ho⟩ := vddBack_out s
    refine ⟨_, rfl, ?_⟩
    unfold State.brownOut
    rw [ho]
    exact ⟨rfl, bit_or_pow_same (by decide) _, rfl, rfl, rfl, rfl⟩
  case absorbed =>
    rw [exec_rstNAssert_long s hns, rstLow_absorbed hactive]
    obtain ⟨hact, hcause, hlow⟩ := abortTrim_keeps
      { s.rst with rstN := false, cause := s.rst.cause ||| BitVec.ofNat 32 (2 ^ Cause.pin) }
    exact ⟨_, rfl, hact.trans hactive, (congrArg (bit · Cause.pin) hcause).trans (bit_or_pow_same (by decide) _), hlow,
      keeps_setRst (State.keeps_refl s _) (by decide) _⟩

/-! ## Trim load and the end of a reset (R389, R392, R393, R399) -/

/-- Once a reset is done, `LAST` names its source. -/
theorem fld_last {src : Nat} (h : src < 32) (x : BitVec 32) :
    fld ((x &&& 0xE0FFFFFF#32) ||| BitVec.ofNat 32 (src * 2 ^ 24)) 24 5 = src := by
  refine Nat.eq_of_testBit_eq fun i => ?_
  simp only [fld, Nat.testBit_mod_two_pow, Nat.testBit_div_two_pow, BitVec.toNat_or, BitVec.toNat_and, BitVec.toNat_ofNat,
    Nat.testBit_or, Nat.testBit_and, Nat.testBit_mul_two_pow]
  by_cases hi : i < 5
  · have hmask : Nat.testBit 0xE0FFFFFF (i + 24) = false := by
      interval_cases i <;> rfl
    have hword : i + 24 < 32 := by omega
    simp [hi, hmask, hword]
  · have hpow : 2 ^ 5 ≤ 2 ^ i := Nat.pow_le_pow_right (by decide) (by omega)
    have hhigh : src.testBit i = false := Nat.testBit_lt_two_pow (by omega)
    simp [hi, hhigh]

theorem quarter_wiped (p : Plaza) {i : Nat} (hi : i < 4) :
    ({ p with quarters := p.quarters.map fun x => { x with act := some .wipe } } : Plaza).quarter i =
      { p.quarter i with act := some .wipe } := by
  simp [Plaza.quarter, List.getD, Vector.toList_map, hi]

section
variable {s : State}

theorem completeReset_higher {lvl : RLevel} {src : Nat} (h : s.rst.active = some (lvl, src)) (hlvl : lvl ≠ .core) :
    s.completeReset = if s.rst.rstN && s.rst.trimValid then
      ({ s with rst := { s.rst.done src with refclk := true } } : State).releaseCore else s := by
  unfold State.completeReset
  rw [h]
  cases lvl with
  | core => exact absurd rfl hlvl
  | _ => rfl

theorem completeReset_core {src : Nat} (h : s.rst.active = some (.core, src)) : s.completeReset = { s with
    rst := { s.rst.done src with wdogAt := if src = Cause.wdcore then some s.cyc else s.rst.wdogAt } } := by
  unfold State.completeReset
  rw [h]

end

/-- The line that the Warden monitor prints after a reset is all that completing one adds. -/
theorem wardenAfter_out (s t : State) : ∃ o, s.wardenAfter t = { t with out := o } := by
  unfold State.wardenAfter
  split
  · exact ⟨_, rfl⟩
  · exact ⟨t.out, rfl⟩

/-- While its reset waits, the device prints nothing. -/
theorem wardenAfter_self (s : State) : s.wardenAfter s = s := by
  cases h : s.rst.active <;> simp [State.wardenAfter, State.wardenUp, h]

theorem exec_resetComplete_keeps (s : State) {u : State} (hu : u = s.wardenAfter s.completeReset) {l : List Part}
    (hcomplete : s.keeps s.completeReset l) (hout : .out ∈ l) : s.keeps u l := by
  obtain ⟨o, ho⟩ := wardenAfter_out s s.completeReset
  rw [hu, ho]
  intro p hp
  cases p with
  | out => exact absurd hout hp
  | _ => exact hcomplete _ hp

/-- Settles O47: a reset above a core reset completes into `releaseCore`, or waits and prints nothing. -/
theorem trimLoadAndTheEndOfResets : Obligations.TrimLoadAndTheEndOfResets := by
  unfold Obligations.TrimLoadAndTheEndOfResets
  intro s
  refine ⟨fun hrun banks kd => ⟨answers_next ?_, answers_next ?_⟩, fun hactive hrstN htrim => answers_next (if_pos ?_),
    fun hrstN => answers_next (if_neg (by simp [hrstN])),
    fun lvl src hactive hlvl hsrc => ⟨fun hrstN htrim => ?done, fun htrim => ?waits⟩, fun src hactive hsrc => ?core⟩
  · simp [State.trimDone, hrun]
  · simp [State.trimDone, hrun]
  · simp [hactive, hrstN, htrim]
  case done =>
    have hdone := (completeReset_higher hactive hlvl).trans (if_pos (by simp [hrstN, htrim]))
    have hkeeps : s.keeps s.completeReset [.rst, .power, .plaza, .time, .host, .out] :=
      keeps_of_mask (State.completeReset_within (Within.refl _ s) (Nat.or_self _)) (by decide)
    obtain ⟨o, ho⟩ := wardenAfter_out s s.completeReset
    refine ⟨_, rfl, ?_⟩
    have hkept := exec_resetComplete_keeps s rfl hkeeps (by decide)
    rw [ho, hdone] at hkept ⊢
    exact ⟨rfl, fld_last hsrc _, rfl, rfl, fun i hi => congrArg Quarter.act (quarter_wiped s.plaza hi), rfl, rfl, rfl, hkept⟩
  case waits =>
    have hwait := (completeReset_higher hactive hlvl).trans (if_neg (by simp [htrim]))
    exact answers_next ((congrArg s.wardenAfter hwait).trans (wardenAfter_self s))
  case core =>
    have hdone := completeReset_core hactive
    have hkeeps : s.keeps s.completeReset [.rst, .out] := by
      rw [hdone]
      exact keeps_setRst (State.keeps_refl s _) (by decide) _
    obtain ⟨o, ho⟩ := wardenAfter_out s s.completeReset
    refine ⟨_, rfl, ?_⟩
    have hkept := exec_resetComplete_keeps s rfl hkeeps (by decide)
    rw [ho, hdone] at hkept ⊢
    exact ⟨rfl, fld_last hsrc _, hkept⟩

end Sys2Proof.Machine
end

section
/-!
SUPPORT. Starts (R400, R402, R403, R443 to R449): what the ROM code boots, the config store, readiness, `HEALTH_OK` and the
return of the control plane.
-/
namespace Sys2Proof.Machine
open Sys2Proof

/-! ## What a change keeps -/

theorem keeps_trans {s t u : State} {l : List Part} (h : s.keeps t l) (k : t.keeps u l) : s.keeps u l := by
  intro p hp
  have hst := h p hp
  have htu := k p hp
  cases p <;> exact htu.trans hst

theorem keeps_mono {s t : State} {l m : List Part} (h : s.keeps t l) (hl : l ⊆ m) : s.keeps t m :=
  fun p hp => h p fun hm => hp (hl hm)

theorem keeps_rst_fw (s : State) (r : Reset) (f : Firmware) : s.keeps { s with rst := r, fw := f } [.rst, .fw] := by
  intro p hp
  cases p with
  | rst | fw => simp at hp
  | _ => rfl

theorem keeps_fw (s : State) (f : Firmware) : s.keeps { s with fw := f } [.fw] := by
  intro p hp
  cases p with
  | fw => simp at hp
  | _ => rfl

/-- Where the output may change, any change of it keeps the rest. -/
theorem keeps_setOut {s u : State} {l : List Part} (h : s.keeps u l) (hl : .out ∈ l) (o : List Out) : s.keeps { u with out := o } l := by
  intro p hp
  cases p with
  | out => exact absurd hl hp
  | _ => exact h _ hp

theorem keeps_plaza_funcs (s : State) (x : Bool) (f : SMap Func) :
    s.keeps { s with plaza := { s.plaza with ksweepRun := x }, funcs := f } [.plaza, .funcs] := by
  intro p hp
  cases p with
  | plaza | funcs => simp at hp
  | _ => rfl

/-! ## `VOUT_MODE` (R377) -/

theorem voutLinear_eq (m : Byte) : voutLinear m = decide (m.toNat < 32) := by
  unfold voutLinear
  by_cases h : m.toNat < 32
  · simp [h, Nat.div_eq_of_lt h]
  · have hdiv : m.toNat / 32 ≠ 0 := by omega
    simp [h, hdiv]

theorem readVoutMode_done {s : State} (h : s.romReady = false ∨ s.power.voutRead = true) (m : Byte) : s.readVoutMode m = s := by
  rcases h with h | h <;> simp [State.readVoutMode, h]

theorem readVoutMode_reads {s : State} (hrom : s.romReady = true) (hread : s.power.voutRead = false) (m : Byte) :
    s.readVoutMode m =
      let u := ({ s with power := { s.power with voutRead := true } }).emit (.pmbus 0x20 m.toNat)
      if m.toNat < 32 then u
      else ({ u with power := { u.power with pmbCfg := u.power.pmbCfg &&& 0xFFFFFBFF#32 } }).raise 0x801 none m.toNat 0 0 := by
  unfold State.readVoutMode
  rw [if_neg (by simp [hrom, hread]), voutLinear_eq]
  simp only [decide_eq_true_eq]
  rfl

/-! ## The ROM code (R403, R443) -/

section
variable {s s0 : State} {m : Byte} (hvout : s0.readVoutMode m = s) (hrom : s.romReady = true) (a b : Bool) (d : FlashResult)
include hvout hrom

theorem exec_bootStart_recovery (h : 4 ≤ s.rst.bootcnt) : exec (.bootStart a b ⟨d, m⟩) s0 = .next s.enterRecovery := by
  refine answers_next ?_
  rw [hvout, State.bootStart, if_neg (by simp [hrom]), if_pos (by simp [h])]

theorem exec_bootStart_boots (hlc : s.nv.lc ≠ Lc.scrapped) (h : s.rst.bootcnt < 4) :
    exec (.bootStart a b ⟨d, m⟩) s0 = .next
      (({ s with rst := { s.rst with bootcnt := s.rst.bootcnt + 1 } }).bootDirectory (s.imageOk a b) d) := by
  refine answers_next ?_
  have hcount : satAdd 15 s.rst.bootcnt 1 = s.rst.bootcnt + 1 := if_pos (by omega)
  have hstarts : ¬(decide (4 ≤ s.rst.bootcnt) || s.nv.lc == Lc.scrapped) = true := by simp [hlc, h]
  rw [hvout, State.bootStart, if_neg (by simp [hrom]), if_neg hstarts, hcount]
  rfl

end

section
variable {s : State} {ok : Nat → Bool} {d : FlashResult}

theorem bootPlain_ok {slot : Nat} (h : ok slot = true) : s.bootPlain ok slot = s.runImage slot false := if_pos h

theorem bootPlain_none (h0 : ok 0 = false) (h1 : ok 1 = false) : s.bootPlain ok 0 = s.enterRecovery := by
  simp [State.bootPlain, h0, h1, otherSlot]

theorem bootDirectory_empty (h : newestRec s.fw.dir = none) : s.bootDirectory ok d = s.bootPlain ok 0 := by
  unfold State.bootDirectory
  rw [h]

theorem bootDirectory_set {r : DirRec} (h : newestRec s.fw.dir = some r) (htyp : r.typ = Dir.set) :
    s.bootDirectory ok d = s.bootPlain ok r.slot := by
  unfold State.bootDirectory
  rw [h]
  simp only [htyp]
  rfl

/-- An armed slot is started as a trial once its `START` record is written. -/
theorem bootDirectory_arm {r : DirRec} (h : newestRec s.fw.dir = some r) (htyp : r.typ = Dir.arm) (hd : d ≠ .fail)
    (hroom : s.fw.dirRoom = true) (hok : ok r.slot = true) :
    s.bootDirectory ok d = ({ s with fw := s.fw.append Dir.start r.slot }).runImage r.slot true := by
  unfold State.bootDirectory
  rw [h]
  simp only [htyp, hroom, hd, hok, if_true, if_false]

end

/-! ## The directory (R435) -/

/-- A sector with room takes a record behind the ones it holds. -/
theorem append_of_room {f : Firmware} (h : f.dir.length < 512) (typ slot : Nat) :
    f.append typ slot = { f with dir := f.dir ++ [f.nextRec typ slot] } := by
  have hroom : f.dirRoom = true := by simp [Firmware.dirRoom, dirSector, h]
  have hturn : f.turnSector = f := if_pos h
  rw [Firmware.append, if_pos hroom, hturn]

/-- A full sector is turned, while `HEALTH_OK` is 1, to one that begins with a `SET` record. -/
theorem append_of_full {f : Firmware} (h : 512 ≤ f.dir.length) (hok : f.healthOk = true) (typ slot : Nat) :
    ∃ x y, f.append typ slot = { f with dir := [y] ++ [x] } ∧ x.typ = typ ∧ x.slot = slot ∧ y.typ = Dir.set := by
  have hroom : f.dirRoom = true := by simp [Firmware.dirRoom, hok]
  have hturn : f.turnSector = { f with dir := [f.nextRec Dir.set f.activeSlot] } := if_neg (Nat.not_lt.mpr h)
  rw [Firmware.append, if_pos hroom, hturn]
  exact ⟨_, _, rfl, rfl, rfl, rfl⟩

theorem append_healthOk (f : Firmware) (typ slot : Nat) : (f.append typ slot).healthOk = f.healthOk := by
  unfold Firmware.append Firmware.turnSector
  split
  · split <;> rfl
  · rfl

theorem nextRec_start {f : Firmware} {r : DirRec} (h : newestRec f.dir = some r) (slot : Nat) :
    (f.nextRec Dir.start slot).seq = r.seq + 1 ∧ (f.nextRec Dir.start slot).tfails = r.tfails := by
  unfold Firmware.nextRec
  rw [h]
  exact ⟨rfl, rfl⟩

/-! ## The config store (R446 to R449) -/

section
variable {s : State}

theorem applyConfig_defaults (h : s.fw.copyInUse = none) : s.applyConfig =
    ({ s with fw := { s.fw with cfgApplied := true, cfgDefault := true } }).raise 0x904 none 0 0 0 := by
  have hcopy : ({ s.fw with cfgApplied := true } : Firmware).copyInUse = none := h
  unfold State.applyConfig
  dsimp only
  rw [hcopy]

/-- A copy that is not of an older format is applied as it stands. -/
theorem applyConfig_copy {i : Nat} (h : s.fw.copyInUse = some i) (hfmt : (s.fw.image s.fw.slot).cfgFmt ≤ (s.fw.copy i).fmt) :
    s.applyConfig = ({ s with fw := { s.fw with
      cfgApplied := true, cfgFmtApplied := (s.fw.copy i).fmt, startIdx := some i } } : State).applyEntries 0 (s.fw.copy i).entries := by
  have hcopy : ({ s.fw with cfgApplied := true } : Firmware).copyInUse = some i := h
  have hmigrate : ({ s.fw with cfgApplied := true } : Firmware).migrate i = ({ s.fw with cfgApplied := true }, i) :=
    if_neg (Nat.not_lt.mpr hfmt)
  unfold State.applyConfig
  dsimp only
  rw [hcopy]
  dsimp only
  rw [hmigrate]
  rfl

end

/-! ## `IOREL` (R400) -/

theorem writeIorel_of_runs {s : State} {v : Word32} (hruns : s.fwRuns = true) (hrel : bit v 0 = true) :
    s.writeIorel v = s.ioRelease := by
  simp only [State.fwRuns, Bool.and_eq_true, Bool.not_eq_true'] at hruns
  obtain ⟨⟨⟨⟨hcore, hactive⟩, -⟩, -⟩, hrec⟩ := hruns
  exact if_pos (by simp [hrel, hcore, hactive, hrec])

theorem runStartup_of_none {s : State} (h : s.fw.startIdx = none) : s.runStartup = s := by
  unfold State.runStartup
  rw [h]

/-! ## With nothing that waits -/

/-- A function holds no command, doorbell, write or completion back. -/
def Func.Waitless (f : Func) : Prop := f.fenced = [] ∧ f.latched = [] ∧ f.heldWrites = [] ∧ f.aborted = []

/-- Nothing waits for CORE or for firmware. -/
def State.Waitless (s : State) : Prop := s.host.stalled = [] ∧ ∀ g, (s.func g).Waitless

/-- A state differs from another in its functions alone, and nothing waits in it. -/
def State.Calm (s t : State) : Prop := (∃ f, t = { s with funcs := f }) ∧ t.Waitless

theorem State.Calm.refl {s : State} (h : s.Waitless) : s.Calm s := ⟨⟨s.funcs, rfl⟩, h⟩

theorem State.Calm.trans {s t u : State} (h : s.Calm t) (k : t.Calm u) : s.Calm u := by
  obtain ⟨⟨f, rfl⟩, -⟩ := h
  obtain ⟨⟨g, rfl⟩, hu⟩ := k
  exact ⟨⟨g, rfl⟩, hu⟩

theorem State.Calm.foldl {α : Type} {f : State → α → State} 
    (hf : ∀ (s : State) a, s.Waitless → s.Calm (f s a)) (l : List α) {s : State}
    (h : s.Waitless) : s.Calm (l.foldl f s) := by
  induction l generalizing s with
  | nil => exact State.Calm.refl h
  | cons a l ih => exact (hf s a h).trans (ih (hf s a h).2)

theorem Func.waitless_of_regs {f g : Func} (h : Func.regs f = Func.regs g) (hg : g.Waitless) : f.Waitless := by
  obtain ⟨hfenced, hlatched, hwrites, haborted⟩ := hg
  exact ⟨(reg_field h (·.fenced) fun _ => rfl).trans hfenced, (reg_field h (·.latched) fun _ => rfl).trans hlatched,
    (reg_field h (·.heldWrites) fun _ => rfl).trans hwrites, (reg_field h (·.aborted) fun _ => rfl).trans haborted⟩

/-- A change of one function to one that holds nothing back. -/
theorem updFunc_calm {s : State} (h : s.Waitless) (g : Nat) (f : Func → Func) (hf : (f (s.func g)).Waitless) :
    s.Calm (s.updFunc g f) := by
  refine ⟨⟨_, rfl⟩, h.1, fun k => ?_⟩
  by_cases hk : k = g
  · rw [hk, State.updFunc, State.func_setFunc_same]
    exact hf
  · rw [State.updFunc, State.func_setFunc_other s g _ k hk]
    exact h.2 k

theorem postLost_waitless {s : State} (h : s.Waitless) (g : Nat) : (s.postLost g).Waitless := by
  obtain ⟨hregs, hother⟩ := postLost_regs s g
  have hhost : (s.postLost g).host = s.host := (State.postLost_within g (Within.refl _ s) (Nat.or_self _)).same .host (by decide)
  refine ⟨(congrArg HostBlock.stalled hhost).trans h.1, fun k => ?_⟩
  by_cases hk : k = g
  · rw [hk]
    exact Func.waitless_of_regs hregs (h.2 g)
  · rw [hother k hk]
    exact h.2 k

theorem postAllLost_waitless {s : State} (h : s.Waitless) : s.postAllLost.Waitless := by
  unfold State.postAllLost
  generalize List.range 16 = l
  induction l generalizing s with
  | nil => exact h
  | cons g l ih => exact ih (postLost_waitless h g)

theorem applyLatched_calm {s : State} (h : s.Waitless) : s.Calm s.applyLatched := by
  unfold State.applyLatched
  generalize List.range 16 = l
  refine State.Calm.foldl (fun u g hu => ?_) l h
  obtain ⟨hfenced, hlatched, hwrites, haborted⟩ := hu.2 g
  dsimp only
  rw [hlatched]
  exact updFunc_calm hu g _ ⟨hfenced, rfl, hwrites, haborted⟩

theorem settleHeld_calm {s : State} (h : s.Waitless) : s.Calm s.settleHeld := by
  unfold State.settleHeld
  split
  · obtain ⟨hfenced, hlatched, hwrites, haborted⟩ := h.2 0
    dsimp only
    rw [hwrites]
    have hcleared : s.Calm (s.updFunc 0 fun f => { f with heldWrites := [] }) :=
      updFunc_calm h 0 _ ⟨hfenced, hlatched, rfl, haborted⟩
    have hlatch := hcleared.trans (applyLatched_calm hcleared.2)
    simp only [List.foldl_nil]
    generalize (s.updFunc 0 fun f => { f with heldWrites := [] }).applyLatched = u at hlatch
    obtain ⟨⟨f, rfl⟩, hstalled, hfuncs⟩ := hlatch
    have hhost : { s.host with stalled := [] } = s.host := by rw [← hstalled]
    simp only [hhost]
    rw [show s.host.stalled = [] from hstalled]
    exact ⟨⟨f, rfl⟩, hstalled, hfuncs⟩
  · exact State.Calm.refl h

theorem abortOvertaken_calm {s : State} (h : s.Waitless) : s.Calm s.abortOvertaken := by
  unfold State.abortOvertaken
  generalize List.range 16 = l
  refine State.Calm.foldl (fun u g hu => ?_) l h
  obtain ⟨hfenced, hlatched, hwrites, haborted⟩ := hu.2 g
  dsimp only
  rw [haborted]
  exact updFunc_calm hu g (fun f => { f with aborted := [] }) ⟨hfenced, hlatched, hwrites, rfl⟩

/-- With no command behind a fence, none is released. -/
theorem releaseFences_of_waitless {s : State} (h : s.Waitless) : s.releaseFences = s := by
  have hstep : ∀ g, s.releaseFenced g ((s.func g).fenced.length + 1) = s := fun g => by
    unfold State.releaseFenced
    rw [(h.2 g).1]
  unfold State.releaseFences
  split
  · rfl
  · generalize s.funcs.map (·.1) = l
    induction l with
    | nil => rfl
    | cons g l ih => rw [List.foldl_cons, hstep g, ih]

/-! ## Readiness and `HEALTH_OK` (R402, R444) -/

theorem startSweep_plaza (s : State) : ∃ x, s.startSweep = { s with plaza := { s.plaza with ksweepRun := x } } ∧
    (s.fw.sweepDone = false → x = true) := by
  unfold State.startSweep
  split
  · next h => exact ⟨s.plaza.ksweepRun, rfl, fun h' => by simp [h] at h'⟩
  · exact ⟨true, rfl, fun _ => rfl⟩

theorem waitless_of_same {s t : State} (h : s.Waitless) (hfuncs : t.funcs = s.funcs) (hhost : t.host = s.host) : t.Waitless := by
  refine ⟨(congrArg HostBlock.stalled hhost).trans h.1, fun g => ?_⟩
  rw [State.func, hfuncs]
  exact h.2 g

/-- The start-up sweep begins and held accesses are settled: where nothing waits, that touches the sweep and the functions. -/
theorem startSweep_settleHeld {s : State} (h : s.Waitless) : ∃ x f, s.startSweep.settleHeld = { s with
    plaza := { s.plaza with ksweepRun := x }, funcs := f } ∧ (s.fw.sweepDone = false → x = true) ∧
    s.startSweep.settleHeld.Waitless := by
  obtain ⟨x, hsweep, hx⟩ := startSweep_plaza s
  have hwait : s.startSweep.Waitless := by rw [hsweep]; exact h
  obtain ⟨⟨f, hf⟩, hsettled⟩ := settleHeld_calm hwait
  exact ⟨x, f, hf.trans (by rw [hsweep]), hx, hsettled⟩

/-- The state in which firmware accepts commands, before what waited for it is settled. -/
def State.accepting (s : State) : State :=
  { s with fw := { s.fw with ready := true }, rst := { s.rst with control := true } }

/-- Firmware becomes ready: with nothing that waits, the start-up sweep and the functions' rings are all that follows. -/
theorem becomeReady_of_waitless {s : State} (h : s.Waitless) : s.becomeReady.fw = { s.fw with ready := true } ∧
    s.becomeReady.rst = { s.rst with control := true } ∧
    (∃ x, s.becomeReady.plaza = { s.plaza with ksweepRun := x } ∧ (s.fw.sweepDone = false → x = true)) ∧
    s.keeps s.becomeReady [.rst, .fw, .plaza, .funcs, .out] := by
  have hbegun : s.keeps s.accepting [.rst, .fw, .plaza, .funcs, .out] := keeps_mono (keeps_rst_fw s _ _) (by decide)
  have hwait : s.accepting.Waitless := h
  have hposted := State.postAllLost_within (Within.refl _ s.accepting) (Nat.or_self 16777344)
  have hfw : s.accepting.postAllLost.fw = s.accepting.fw := hposted.same .fw (by decide)
  have hrst : s.accepting.postAllLost.rst = s.accepting.rst := hposted.same .rst (by decide)
  have hplaza : s.accepting.postAllLost.plaza = s.plaza := hposted.same .plaza (by decide)
  have hpost : s.accepting.keeps s.accepting.postAllLost [.rst, .fw, .plaza, .funcs, .out] := keeps_of_mask hposted (by decide)
  obtain ⟨x, f, hsettled, hx, hquiet⟩ := startSweep_settleHeld (postAllLost_waitless hwait)
  have hready : s.becomeReady = s.accepting.postAllLost.startSweep.settleHeld := releaseFences_of_waitless hquiet
  rw [hready, hsettled]
  refine ⟨hfw, hrst, ⟨x, congrArg (fun p : Plaza => { p with ksweepRun := x }) hplaza, fun h => hx ?_⟩,
    keeps_trans (keeps_trans hbegun hpost) (keeps_mono (keeps_plaza_funcs s.accepting.postAllLost x f) (by decide))⟩
  rw [hfw]
  exact h

/-- The state in which the control plane has returned, before what waited for it is settled. -/
def State.controlBack (s : State) : State :=
  { s with rst := { s.rst with ctlReturn := false, control := true }, fw := { s.fw with ready := true } }

theorem ctlReturns_eq {s t : State} (happlied : s.fw.cfgApplied = true) (hstate : s.rst.rstStateN = true) (ht : s.controlBack = t)
    (hlast : fld t.postAllLost.refreezeKerb.abortOvertaken.rst.cause 24 5 ≠ Cause.wdcore) :
    s.ctlReturns = t.postAllLost.refreezeKerb.abortOvertaken.startSweep.settleHeld := by
  have hup : (s.fw.cfgApplied && s.rst.rstStateN) = true := by rw [happlied, hstate]; rfl
  unfold State.ctlReturns
  dsimp only
  rw [hup, ← State.controlBack, ht, if_neg hlast, if_pos rfl]

/-- The control plane returns after another core reset than the watchdog's: with nothing that waits, Kerbside measurement, the
start-up sweep and the functions' rings are all that follows. -/
theorem ctlReturns_of_waitless {s : State} (h : s.Waitless) (happlied : s.fw.cfgApplied = true) (hstate : s.rst.rstStateN = true)
    (hlast : fld s.rst.cause 24 5 ≠ Cause.wdcore) : s.ctlReturns.rst = s.controlBack.rst ∧ s.ctlReturns.fw = s.controlBack.fw ∧
    s.ctlReturns.plaza.mem = s.plaza.mem ∧ s.keeps s.ctlReturns [.queues, .funcs, .plaza, .rst, .fw, .out] := by
  have hbegun : s.keeps s.controlBack [.queues, .funcs, .plaza, .rst, .fw, .out] := keeps_mono (keeps_rst_fw s _ _) (by decide)
  have hfrozen : Within 16777345 s.controlBack s.controlBack.postAllLost.refreezeKerb :=
    State.refreezeKerb_within (State.postAllLost_within (Within.refl _ s.controlBack) (by decide)) (by decide)
  have hkerb := State.refreezeKerb_within (Within.refl 1 s.controlBack.postAllLost) (Nat.or_self 1)
  have hwait : s.controlBack.postAllLost.refreezeKerb.Waitless := waitless_of_same (postAllLost_waitless (s := s.controlBack) h)
    (hkerb.same .funcs (by decide)) (hkerb.same .host (by decide))
  have hkept : s.keeps s.controlBack.postAllLost.refreezeKerb [.queues, .funcs, .plaza, .rst, .fw, .out] :=
    keeps_trans hbegun (keeps_of_mask hfrozen (by decide))
  have hrst : s.controlBack.postAllLost.refreezeKerb.rst = s.controlBack.rst := hfrozen.same .rst (by decide)
  have hfw : s.controlBack.postAllLost.refreezeKerb.fw = s.controlBack.fw := hfrozen.same .fw (by decide)
  have hmem : s.controlBack.postAllLost.refreezeKerb.plaza.mem = s.plaza.mem := hfrozen.same .mem (by decide)
  obtain ⟨⟨f, haborted⟩, hquiet⟩ := abortOvertaken_calm hwait
  have hcause : s.controlBack.postAllLost.refreezeKerb.abortOvertaken.rst.cause = s.rst.cause :=
    (congrArg (fun t : State => t.rst.cause) haborted).trans ((congrArg Reset.cause hrst).trans rfl)
  have hreturns := ctlReturns_eq happlied hstate rfl (by rw [hcause]; exact hlast)
  obtain ⟨x, g, hsettled, -, -⟩ := startSweep_settleHeld hquiet
  rw [hreturns, hsettled, haborted]
  exact ⟨hrst, hfw, hmem, keeps_trans hkept (keeps_mono (keeps_plaza_funcs s.controlBack.postAllLost.refreezeKerb x g) (by decide))⟩

theorem monitorBack_cases {s t : State} (hs : s.rst.ctlReturn = true) (ht : t.rst.ctlReturn = false) :
    ∃ o, s.monitorBack t = { t with out := o } ∧ (t.fw.baud.isSome = true → o = .wardenLine "WARDEN" [ident] :: t.out) := by
  unfold State.monitorBack
  split
  · exact ⟨_, rfl, fun _ => rfl⟩
  · next h => exact ⟨t.out, rfl, fun hbaud => absurd (by simp [hs, ht, hbaud]) h⟩

theorem healthOk_svn (s : State) : s.nv.svnFloor ≤ s.setHealthOk.nv.svnFloor ∧
    ((s.fw.image s.fw.slot).flags / 2 % 2 = 1 → (s.fw.image s.fw.slot).svn ≤ s.setHealthOk.nv.svnFloor) := by
  have hnv : s.setHealthOk.nv = s.commitSvn.nv := rfl
  rw [hnv, State.commitSvn]
  split
  · exact ⟨Nat.le_max_left _ _, fun _ => Nat.le_max_right _ _⟩
  · next h => exact ⟨Nat.le_refl _, fun h' => absurd h' h⟩

/-- A healthy trial is recorded behind the records that the directory holds, or behind the one that begins its new sector. -/
theorem healthOk_trial {s : State} (h : s.fw.trial = true) : ∃ kept x, s.setHealthOk.fw.dir = kept ++ [x] ∧ x.typ = Dir.health ∧
    x.slot = s.fw.slot ∧ (s.fw.dir.length < 512 → kept = s.fw.dir) ∧
    (512 ≤ s.fw.dir.length → ∃ y, kept = [y] ∧ y.typ = Dir.set) := by
  have hfw : s.setHealthOk.fw = ({ s.fw with healthOk := true } : Firmware).append Dir.health s.fw.slot := if_pos h
  simp only [hfw]
  rcases Nat.lt_or_ge s.fw.dir.length 512 with hroom | hfull
  · have happend := append_of_room (f := { s.fw with healthOk := true }) hroom Dir.health s.fw.slot
    rw [happend]
    exact ⟨_, _, rfl, rfl, rfl, fun _ => rfl, fun hfull => absurd hroom (Nat.not_lt.mpr hfull)⟩
  · obtain ⟨x, y, happend, hx, hslot, hy⟩ := append_of_full (f := { s.fw with healthOk := true }) hfull rfl Dir.health s.fw.slot
    rw [happend]
    exact ⟨[y], x, rfl, hx, hslot, fun hroom => absurd hroom (Nat.not_lt.mpr hfull), fun _ => ⟨y, rfl, hy⟩⟩

/-! ## The obligation -/

theorem enterRecovery_keeps (s : State) : s.keeps s.enterRecovery [.rst, .power, .host] := by
  intro p hp
  cases p with
  | rst | power | host => simp at hp
  | _ => rfl

/-- Settles O48: the ROM code's choice follows the newest record; where nothing waits, readiness and the return of the control
plane settle nothing but the functions' own parts. -/
theorem startsBootAnImageAndReleaseThePads : Obligations.StartsBootAnImageAndReleaseThePads := by
  unfold Obligations.StartsBootAnImageAndReleaseThePads
  intro s waitsForNothing
  refine ⟨fun s0 m hvout a b d hrom hlc => ⟨fun hfew => ?boot, fun hmany => ?recovery⟩,
    fun hruns happlied => ⟨fun hnone => ?defaults, fun i hcopy hfmt => ?copy⟩, fun v hrel hruns happlied hstart => ?iorel,
    fun hruns happlied hstate hready hwait => ?ready, fun hhealthy => ?health,
    fun hcore hactive hreturn hrec hbooted hheld happlied hstate hlast hwait => ?returns,
    fun m hrom hread => readVoutMode_reads hrom hread m, fun m h => readVoutMode_done h m⟩
  case boot =>
    have hexec := exec_bootStart_boots hvout hrom a b d hlc hfew
    refine ⟨fun hnone hok => ?_, fun r hnew hset hok => ?_, fun r hnew harm hd hroom hok => ?_, fun hnone h0 h1 => ?_⟩
    · rw [bootDirectory_empty (by exact hnone), bootPlain_ok hok] at hexec
      exact ⟨_, hexec, rfl, rfl, rfl, rfl, rfl, keeps_rst_fw s _ _⟩
    · rw [bootDirectory_set (by exact hnew) hset, bootPlain_ok hok] at hexec
      exact ⟨_, hexec, rfl, rfl, rfl, rfl, rfl, keeps_rst_fw s _ _⟩
    · rw [bootDirectory_arm (by exact hnew) harm hd (by simp [Firmware.dirRoom, dirSector, hroom]) hok,
        append_of_room hroom] at hexec
      obtain ⟨hseq, htfails⟩ := nextRec_start hnew r.slot
      exact ⟨_, hexec, rfl, rfl, rfl, ⟨_, rfl, rfl, rfl, hseq, htfails⟩, keeps_rst_fw s _ _⟩
    · rw [bootDirectory_empty (by exact hnone), bootPlain_none h0 h1] at hexec
      exact ⟨_, hexec, rfl, rfl, rfl, rfl⟩
  case recovery => exact ⟨_, exec_bootStart_recovery hvout hrom a b d hmany, rfl, rfl, rfl, rfl, enterRecovery_keeps s⟩
  case defaults =>
    have hexec : exec .configStoreApply s = .next s.applyConfig := answers_next (if_pos (by simp [hruns, happlied]))
    rw [applyConfig_defaults hnone] at hexec
    refine ⟨_, hexec, raise_seq _ _ _ _ _ _, keeps_trans (keeps_mono (keeps_fw s _) (by decide))
      (keeps_of_mask (raise_within_of_not_fatal _ _ _ _ _ (by decide)) (by decide))⟩
  case copy =>
    have hexec : exec .configStoreApply s = .next s.applyConfig := answers_next (if_pos (by simp [hruns, happlied]))
    rw [applyConfig_copy hcopy hfmt] at hexec
    exact ⟨_, hexec, rfl, rfl, rfl, keeps_fw s _⟩
  case iorel =>
    refine answers_next ((if_pos (by simp [hruns, happlied])).trans ?_)
    rw [writeIorel_of_runs hruns hrel]
    exact (if_neg Bool.false_ne_true).trans (runStartup_of_none (s := s.ioRelease) hstart)
  case ready =>
    have hexec : exec .firmwareReady s = .next s.becomeReady := answers_next (if_pos (by simp [hruns, happlied, hstate, hready]))
    obtain ⟨hfw, hrst, ⟨x, hplaza, hx⟩, hkeeps⟩ := becomeReady_of_waitless hwait
    refine ⟨_, hexec, ?_, ?_, fun hsweep => ?_, hkeeps, (congrArg Plaza.mem hplaza).trans rfl⟩
    · rw [hfw]
    · rw [hrst]
    · rw [hplaza, hx hsweep]
  case health =>
    obtain ⟨hfloor, hcommit⟩ := healthOk_svn s
    have hok : s.setHealthOk.fw.healthOk = true := by
      unfold State.setHealthOk
      dsimp only
      split
      · exact append_healthOk _ _ _
      · rfl
    refine ⟨_, answers_next (if_pos hhealthy), hok, rfl, hfloor, hcommit, healthOk_trial, fun htrial => ?_,
      keeps_of_mask (State.setHealthOk_within (Within.refl _ s) (Nat.or_self _)) (by decide)⟩
    have hfw : s.setHealthOk.fw = { s.fw with healthOk := true } := if_neg (by simp [htrial])
    rw [hfw]
  case returns =>
    have hmay : s.ctlMayReturn = s.ctlReturns :=
      (if_pos (by simp [hcore, hactive, hreturn])).trans ((if_neg (by simp [hrec, hbooted])).trans (if_neg (by simp [hheld])))
    obtain ⟨hrst, hfw, hmem, hkeeps⟩ := ctlReturns_of_waitless hwait happlied hstate hlast
    obtain ⟨o, hback, hline⟩ := monitorBack_cases hreturn (congrArg Reset.ctlReturn hrst)
    have hexec : exec .controlPlaneReturn s = .next (s.monitorBack s.ctlReturns) := answers_next (congrArg s.monitorBack hmay)
    rw [hback] at hexec
    refine ⟨_, hexec, congrArg Reset.ctlReturn hrst, congrArg Reset.control hrst, congrArg Firmware.ready hfw, ?_, hmem,
      fun hbaud => ⟨_, hline ((congrArg (fun f : Firmware => f.baud.isSome) hfw).trans hbaud)⟩⟩
    exact keeps_setOut hkeeps (by decide) o

end Sys2Proof.Machine
end

section
/-!
SUPPORT. The service port's requests (R425, R440, R441, Table FW-7).
-/
namespace Sys2Proof.Machine
open Sys2Proof

/-! ## Bytes of a payload -/

theorem toBytes_length (k v : Nat) : (toBytes k v).length = k := by
  induction k generalizing v with
  | zero => rfl
  | succ k ih => exact congrArg (· + 1) (ih (v / 256))

theorem ofBytes_toBytes {k v : Nat} (h : v < 256 ^ k) : ofBytes (toBytes k v) = v := by
  induction k generalizing v with
  | zero =>
    have hzero : v = 0 := by omega
    rw [hzero]
    rfl
  | succ k ih =>
    have hrest : v / 256 < 256 ^ k := by
      rw [Nat.pow_succ] at h
      omega
    rw [toBytes, ofBytes, ih hrest, BitVec.toNat_ofNat]
    omega

theorem le_head {bs : List Byte} {k : Nat} (h : bs.length = k) (cs : List Byte) : le (bs ++ cs) 0 k = ofBytes bs := by
  subst h
  rw [le, List.drop_zero, List.take_left]

theorem le_tail {bs : List Byte} {j : Nat} (h : bs.length = j) {cs : List Byte} {k : Nat} (hk : cs.length = k) :
    le (bs ++ cs) j k = ofBytes cs := by
  subst h hk
  rw [le, List.drop_left, List.take_length]

theorem ofBytes_word (v : Word32) : BitVec.ofNat 32 (ofBytes (toBytes 4 v.toNat)) = v := by
  rw [ofBytes_toBytes (k := 4) v.isLt, BitVec.ofNat_toNat, BitVec.setWidth_eq]

/-! ## What becomes of a request (R440, R441) -/

section
variable {s : State} {aon inRecovery : Bool} {op : Nat} {tag : Byte} {p : List Byte} {crc : Byte} {lenOk : Bool} {act : State → State}
  (hup : s.svcUp aon = true) (hfree : s.fw.svcState ≠ 1)
include hup hfree

theorem svcRequest_discarded (hcrc : crc ≠ svcCrc op tag p) :
    s.svcRequest aon inRecovery op tag p crc lenOk act = s.svcDiscard tag := by
  simp [State.svcRequest, hup, hfree, hcrc]

theorem svcRequest_lacked (hrec : s.rst.recovery = true) :
    s.svcRequest aon false op tag p (svcCrc op tag p) lenOk act = s.svcReply tag St.badOpcode [] := by
  simp [State.svcRequest, hup, hfree, hrec]

theorem svcRequest_bad_len (hrec : s.rst.recovery = false ∨ inRecovery = true) :
    s.svcRequest aon inRecovery op tag p (svcCrc op tag p) false act = s.svcReply tag St.badField [] := by
  rcases hrec with hrec | hrec <;> simp [State.svcRequest, hup, hfree, hrec]

theorem svcRequest_taken (hrec : s.rst.recovery = false ∨ inRecovery = true) (hlen : lenOk = true) :
    s.svcRequest aon inRecovery op tag p (svcCrc op tag p) lenOk act = act s := by
  rcases hrec with hrec | hrec <;> simp [State.svcRequest, hup, hfree, hrec, hlen]

end

/-! ## INFO -/

theorem infoBytes_length (s : State) : s.infoBytes.length = 64 := by
  simp [State.infoBytes, toBytes_length]

theorem infoBytes_ident (s : State) : le s.infoBytes 0 4 = 0x81920B00 := by
  unfold State.infoBytes
  rw [List.append_assoc, List.append_assoc, le_head (toBytes_length 4 _)]
  rfl

/-! ## Registers -/

section
variable {s : State} {tag : Byte} {a : Nat} (hfree : s.fw.svcState ≠ 1) (ha : a < 65536)
include hfree ha

theorem exec_regRead (hup : s.svcUp (aonReg a) = true) :
    exec (.regRead tag ⟨toBytes 4 a, svcCrc 0x02 tag (toBytes 4 a)⟩) s = .next (s.svcRegRead tag a) := by
  have haddr : ofBytes (toBytes 4 a) = a := ofBytes_toBytes (by omega)
  refine answers_next ((svcRequest_taken (by rw [haddr]; exact hup) hfree (Or.inr rfl) (by simp [toBytes_length])).trans ?_)
  rw [haddr]

theorem exec_regWrite (hup : s.svcUp (aonReg a) = true) (v : Word32) :
    exec (.regWrite tag ⟨toBytes 4 a ++ toBytes 4 v.toNat, svcCrc 0x03 tag (toBytes 4 a ++ toBytes 4 v.toNat)⟩) s =
      .next (s.svcRegWrite tag a v) := by
  have haddr : le (toBytes 4 a ++ toBytes 4 v.toNat) 0 4 = a :=
    (le_head (toBytes_length 4 a) _).trans (ofBytes_toBytes (by omega))
  have hvalue : BitVec.ofNat 32 (le (toBytes 4 a ++ toBytes 4 v.toNat) 4 4) = v :=
    (congrArg (BitVec.ofNat 32) (le_tail (toBytes_length 4 a) (toBytes_length 4 _))).trans (ofBytes_word v)
  refine answers_next ((svcRequest_taken (by rw [haddr]; exact hup) hfree (Or.inr rfl) (by simp [toBytes_length])).trans ?_)
  rw [haddr, hvalue]

end

/-- A write that the port may make of a register of the AON block, and that starts no reset, is done. -/
theorem svcRegWrite_done {s t : State} {tag : Byte} {off : Nat} {v : Word32} (hmay : svcMayWrite s.rst.recovery off = true)
    (hwrite : s.writeReg 0 off v = t) (hnone : t.rst.active = none) : s.svcRegWrite tag off v = t.svcReply tag St.ok [] := by
  unfold State.svcRegWrite
  rw [if_pos hmay, hwrite]
  exact if_neg (by simp [hnone])

/-! ## Key messages -/

theorem svcKeyMsg_done {s : State} {m : List Byte} (tag : Byte) (hnone : (s.keyMessage .service m).1.rst.active = none) :
    s.svcKeyMsg tag m = (s.keyMessage .service m).1.svcReply tag (s.keyMessage .service m).2 [] := by
  unfold State.svcKeyMsg
  generalize s.keyMessage .service m = r at *
  obtain ⟨t, st⟩ := r
  exact if_neg (by simpa using hnone)

theorem svcReply_keeps (s : State) (tag : Byte) (status : Nat) (data : List Byte) :
    s.keeps (s.svcReply tag status data) [.fw, .out] :=
  keeps_of_mask (State.svcReply_within tag status data (Within.refl _ s) (Nat.or_self _)) (by decide)

/-- Settles O50: `svcRequest` has one lemma per outcome, and each operation that is taken is read off its own definition. -/
theorem serviceRequestsAnswer : Obligations.ServiceRequestsAnswer := by
  unfold Obligations.ServiceRequestsAnswer
  intro s tag hfree
  refine ⟨fun st d => ⟨rfl, rfl, rfl, rfl, rfl, svcReply_keeps s tag st d⟩, fun p crc r c aon op hmem hup hcrc => ?discards,
    fun hup => ⟨?info, infoBytes_length s, infoBytes_ident s, fun hlc => ?bootClear, fun b p => ?infoLen⟩,
    fun a hup => ⟨fun hread => ?read, fun v hmay => ?refused⟩, fun hup hnone hrec v => ⟨?svcCfg, ?wsenseCfg⟩,
    fun hup hrec => ⟨?confirm, fun m hlen hnone => ?keyMsg⟩, fun hup hrec => ⟨?noConfirm, fun m => ?noKeyMsg⟩⟩
  case discards =>
    refine ⟨?_, rfl, rfl, rfl, keeps_fw s _⟩
    simp only [List.mem_cons, List.not_mem_nil, or_false, Prod.mk.injEq] at hmem
    rcases hmem with ⟨rfl, rfl, rfl⟩ | ⟨rfl, rfl, rfl⟩ | ⟨rfl, rfl, rfl⟩ | ⟨rfl, rfl, rfl⟩ | ⟨rfl, rfl, rfl⟩ | ⟨rfl, rfl, rfl⟩ |
        ⟨rfl, rfl, rfl⟩ | ⟨rfl, rfl, rfl⟩ | ⟨rfl, rfl, rfl⟩ | ⟨rfl, rfl, rfl⟩ <;>
      exact answers_next (svcRequest_discarded hup hfree hcrc)
  case info => exact answers_next (svcRequest_taken hup hfree (Or.inr rfl) rfl)
  case bootClear => exact answers_next ((svcRequest_taken hup hfree (Or.inr rfl) rfl).trans (if_neg hlc))
  case infoLen => exact answers_next (svcRequest_bad_len hup hfree (Or.inr rfl))
  case read => exact (exec_regRead hfree a.isLt hup).trans (answers_next (if_pos hread))
  case refused => exact (exec_regWrite hfree a.isLt hup v).trans (answers_next (if_neg (by simp [hmay])))
  case svcCfg =>
    refine (exec_regWrite (a := 0x2218) hfree (by decide) hup v).trans (answers_next (svcRegWrite_done ?_ rfl hnone))
    rw [hrec]; rfl
  case wsenseCfg =>
    refine (exec_regWrite (a := 0x2044) hfree (by decide) hup v).trans (answers_next (svcRegWrite_done ?_ rfl hnone))
    rw [hrec]; rfl
  case confirm => exact answers_next (svcRequest_taken hup hfree (Or.inl hrec) rfl)
  case keyMsg =>
    refine answers_next ((svcRequest_taken hup hfree (Or.inl hrec) ?_).trans (svcKeyMsg_done tag hnone))
    rcases hlen with hlen | hlen <;> simp [hlen]
  case noConfirm => exact answers_next (svcRequest_lacked hup hfree hrec)
  case noKeyMsg => exact answers_next (svcRequest_lacked hup hfree hrec)

end Sys2Proof.Machine
end

section
/-!
SUPPORT. The Warden monitor's commands (R428, R450, R451, Table FW-8).
-/
namespace Sys2Proof.Machine
open Sys2Proof

/-! ## What becomes of a command (R451) -/

section
variable {s : State} {allowed inRange awake : Bool} {act : State → State} (hup : s.wardenUp = true)
include hup

theorem warden_done (hallowed : allowed = true) (hrange : inRange = true) (hawake : awake = true) :
    s.warden allowed inRange awake act = act s := by
  simp [State.warden, hup, hallowed, hrange, hawake]

theorem warden_denied (hallowed : allowed = false) : s.warden allowed inRange awake act = s.werr "DENIED" := by
  simp [State.warden, hup, hallowed]

theorem warden_out_of_range (hallowed : allowed = true) (hrange : inRange = false) :
    s.warden allowed inRange awake act = s.werr "RANGE" := by
  simp [State.warden, hup, hallowed, hrange]

end

theorem wardenUp_of {s : State} (hbaud : s.fw.baud.isSome = true) (hnone : s.rst.active = none) (hreturn : s.rst.ctlReturn = false) :
    s.wardenUp = true := by
  simp [State.wardenUp, hbaud, hnone, hreturn]

theorem countOk_of {n : Option Nat} (h : ∀ k, n = some k → 1 ≤ k ∧ k ≤ 64) : countOk n = true := by
  cases n with
  | none => rfl
  | some k =>
    obtain ⟨hlow, hhigh⟩ := h k rfl
    simp [countOk, count, hlow, hhigh]

/-! ## Printed lists -/

/-- A line per element goes out, in order. -/
theorem foldl_wprint {α : Type} (f : α → Nat) (l : List α) (s : State) : l.foldl (fun s e => s.wprint "" [f e]) s =
    { s with out := (l.map fun e => Out.wardenLine "" [f e]).reverse ++ s.out } := by
  induction l generalizing s with
  | nil => rfl
  | cons e l ih =>
    rw [List.foldl_cons, ih, List.map_cons, List.reverse_cons, List.append_assoc]
    rfl

/-! ## Memories -/

theorem wardenMem_word {s t : State} {m : WardenMem} {a v : Nat} (h : s.wardenWord m a = (some v, t)) :
    s.wardenMem m a 1 = (t.wprint "" [v]).wok := by
  rw [State.wardenMem, h]
  rfl

theorem wardenWord_kiosk {s u : State} {a : Nat} {x : Word64} (h : s.kioskAccess .sequencer .read a 0 = (.value x, u)) :
    s.wardenWord .kiosk a = (some x.toNat, u) := by
  unfold State.wardenWord
  dsimp only
  rw [h]

/-- A Depot word that the monitor has written is found again. -/
theorem find?_insert {α : Type} (m : SMap α) (a : Nat) (v : α) :
    (SMap.insert m a v).find? (fun e => e.1 == a) = some (a, v) := by
  induction m with
  | nil => simp [SMap.insert]
  | cons e m ih =>
    obtain ⟨k, w⟩ := e
    unfold SMap.insert
    split
    · simp
    · split
      · simp
      · next hne => simp [hne, ih]

theorem wardenWord_depot {s : State} {a : Nat} {v : Word64} {words : SMap Word64}
    (h : s.power.depot.words = SMap.insert words a v) : s.wardenWord .depot a = (some v.toNat, s) := by
  unfold State.wardenWord
  dsimp only
  rw [h, find?_insert]

/-- Settles O52: `warden` has one lemma per outcome, and each command that is done is read off its own definition. -/
theorem wardenCommandsAnswer : Obligations.WardenCommandsAnswer := by
  unfold Obligations.WardenCommandsAnswer
  intro s line ok err
  refine ⟨fun b => rfl, fun hbaud hnone hreturn => ?_⟩
  have hup := wardenUp_of hbaud hnone hreturn
  refine ⟨answers_next (warden_done hup rfl rfl rfl), fun hlc => ?reads, fun hlc => ?scrapped, fun hlc => ?writes, fun h0 h3 => ?closed⟩
  case reads =>
    have hread : lcReads s.nv.lc = true := decide_eq_true hlc
    refine ⟨answers_next (warden_done hup hread rfl rfl), answers_next (warden_done hup hread rfl rfl),
      fun hcore n hn => ?_, fun off n halign hn hend hcore => ⟨?_, fun hone => ?_⟩, ?_, answers_next (warden_done hup hread rfl rfl)⟩
    · refine ⟨_, answers_next (warden_done hup hread (countOk_of hn) hcore), ?_⟩
      rw [foldl_wprint (fun e : ErrEntry => e.bits)]
      exact ⟨keeps_setOut (State.keeps_refl s _) (by decide) _, rfl⟩
    · exact answers_next (warden_done hup hread (by simp [countOk_of hn, halign, count, hend]) (by simp [hcore]))
    · subst hone
      exact answers_next (warden_done hup hread (by simp [countOk_of hn, halign, count]; simpa using hend) (by simp [hcore]))
    · obtain ⟨hactive, hcause, -, -, hboot, hqueues, -, -, -, -, -, -, hnv, -⟩ :=
        startReset_system (s := s.wok) hnone (src := Cause.warden) (by decide)
      exact ⟨_, answers_next (warden_done hup hread rfl rfl), hactive, hcause, hqueues, hnv, hboot⟩
  case scrapped =>
    have hread : lcReads s.nv.lc = false := decide_eq_false (Nat.not_lt.mpr hlc)
    exact ⟨answers_next (warden_denied hup hread), answers_next (warden_denied hup hread), answers_next (warden_denied hup hread)⟩
  case writes =>
    have hwrite : lcWrites s.nv.lc = true := by rcases hlc with h | h <;> rw [h] <;> rfl
    refine ⟨fun off v halign hoff hv hcore hactive => ?_, fun off v hbad => ?_, fun hcore a v ha hv => ⟨?_, ?_⟩,
      fun hcore a v ha hv => ⟨fun x u hx => ?_, ?_⟩, fun hcore m a n hn hend => ?_, fun a v ha hv => ?_⟩
    · refine answers_next ((warden_done hup hwrite (by simp [halign, hoff]; omega) (by simp [hcore])).trans ?_)
      exact if_neg (by simp [hactive])
    · exact answers_next (warden_out_of_range hup hwrite (by simpa [and_assoc] using hbad))
    · exact answers_next ((warden_done hup hwrite (by simp [count, wardenWords]; omega) (by simp [hcore])).trans (wardenMem_word rfl))
    · refine ⟨_, answers_next (warden_done hup hwrite (by simp [wardenWords, ha]; omega) (by simp [hcore])), rfl, ?_⟩
      have hungated := State.ungate_within (W := 16911360) (Within.refl _ s) (by decide)
      exact keeps_of_mask (State.wok_within (State.setPlazaWord_within a v hungated (by decide)) (by decide)) (by decide)
    · exact answers_next ((warden_done hup hwrite (by simp [count, wardenWords]; omega) (by simp [hcore])).trans
        (wardenMem_word (wardenWord_kiosk hx)))
    · exact answers_next (warden_done hup hwrite (by simp [wardenWords, ha]; omega) (by simp [hcore]))
    · exact answers_next (warden_done hup hwrite (by simp [count, hn, hend]) (by simp [hcore]))
    · have hput := warden_done (act := fun s => (s.wardenPut .depot a v).wok) hup hwrite
        (inRange := decide (a < wardenWords .depot) && decide (v < 2 ^ 64)) (by simp [wardenWords, ha]; omega)
        (awake := s.coreRuns || WardenMem.depot == WardenMem.depot) (by simp)
      refine ⟨_, answers_next hput, keeps_of_mask (State.wok_within (W := 16908288) (setPower_within _ (Within.refl _ s) (by decide))
        (by decide)) (by decide), ?_⟩
      have hup' : (s.wardenPut .depot a v).wok.wardenUp = true := hup
      have hvalue : (BitVec.ofNat 64 v).toNat = v := Nat.mod_eq_of_lt hv
      have hword : (s.wardenPut .depot a v).wok.wardenWord .depot a = (some v, (s.wardenPut .depot a v).wok) :=
        (wardenWord_depot rfl).trans (by rw [hvalue])
      have hread := warden_done (act := fun s => s.wardenMem .depot a 1) hup' hwrite
        (inRange := decide (1 ≤ 1) && decide (a + 1 ≤ wardenWords .depot)) (by simp [wardenWords]; omega)
        (awake := s.coreRuns || WardenMem.depot == WardenMem.depot) (by simp)
      exact ⟨_, answers_next (hread.trans (wardenMem_word hword)), rfl⟩
  case closed =>
    have hwrite : lcWrites s.nv.lc = false := by simp [lcWrites, h0, h3]
    exact ⟨fun off v => answers_next (warden_denied hup hwrite), fun m a v =>
      ⟨answers_next (warden_denied hup hwrite), answers_next (warden_denied hup hwrite)⟩⟩

end Sys2Proof.Machine
end

section
/-!
SUPPORT. Package uploads (R436 to R438, R442, Table FW-5).
-/
namespace Sys2Proof.Machine
open Sys2Proof

/-! ## Images, copies and the directory -/

section
variable (f : Firmware) (slot : Nat)

theorem image_setImage_same (x : Image) : (f.setImage slot x).image slot = x := by
  unfold Firmware.image Firmware.setImage
  split <;> rfl

theorem image_setImage_other (x : Image) : (f.setImage slot x).image (otherSlot slot) = f.image (otherSlot slot) := by
  unfold Firmware.image Firmware.setImage otherSlot
  by_cases h : slot = 0
  · rw [if_pos h, h]
    rfl
  · have hother : 1 - slot = 0 := by omega
    rw [if_neg h, hother]
    rfl

theorem copy_setCopy_same (c : CfgCopy) : (f.setCopy slot c).copy slot = c := by
  unfold Firmware.copy Firmware.setCopy
  split <;> rfl

/-- Setting an image changes the slots alone. -/
theorem setImage_slots (x : Image) : ∃ a b, f.setImage slot x = { f with slotA := a, slotB := b } := by
  unfold Firmware.setImage
  split <;> exact ⟨_, _, rfl⟩

/-- Setting a copy changes the copies alone. -/
theorem setCopy_copies (c : CfgCopy) : ∃ a b, f.setCopy slot c = { f with copy0 := a, copy1 := b } := by
  unfold Firmware.setCopy
  split <;> exact ⟨_, _, rfl⟩

end

/-- A record that finds room stands behind the ones that its sector holds, and nothing else of the firmware state changes. -/
theorem append_with_room {f : Firmware} (h : f.dir.length < 512 ∨ f.healthOk = true) (typ slot : Nat) :
    ∃ kept r, f.append typ slot = { f with dir := kept ++ [r] } ∧ r.typ = typ ∧ r.slot = slot ∧
      (f.dir.length < 512 → kept = f.dir) ∧ (512 ≤ f.dir.length → ∃ y, kept = [y] ∧ y.typ = Dir.set) := by
  rcases Nat.lt_or_ge f.dir.length 512 with hroom | hfull
  · exact ⟨_, _, append_of_room hroom typ slot, rfl, rfl, fun _ => rfl, fun hfull => absurd hroom (Nat.not_lt.mpr hfull)⟩
  · obtain ⟨x, y, happend, hx, hslot, hy⟩ := append_of_full hfull (h.resolve_left (Nat.not_lt.mpr hfull)) typ slot
    exact ⟨[y], x, happend, hx, hslot, fun hroom => absurd hroom (Nat.not_lt.mpr hfull), fun _ => ⟨y, rfl, hy⟩⟩

theorem dirRoom_iff (f : Firmware) : f.dirRoom = true ↔ f.dir.length < 512 ∨ f.healthOk = true := by
  rw [Firmware.dirRoom, Bool.or_eq_true, decide_eq_true_iff]
  rfl

/-! ## PKG_BEGIN -/

section
variable {s u : State} {tag : Byte} {h : List Byte} (hcheck : s.pkgCheck h s.fw.upload.isSome none = (u, St.ok))
include hcheck

theorem pkgBegin_image (hkind : le h 5 1 = 1) : s.pkgBegin tag h = ({ u with fw := { u.fw.setImage u.uploadSlot { erased := true } with
    upload := some { header := h, erasing := true } } } : State).svcPending tag := by
  simp [State.pkgBegin, hcheck, Pkg.kind, Pkg.isImage, hkind]

theorem pkgBegin_config (hkind : le h 5 1 = 2) (hrec : s.rst.recovery = false) :
    s.pkgBegin tag h = ({ u with fw := { u.fw with upload := some { header := h } } } : State).svcReply tag St.ok [] := by
  simp [State.pkgBegin, hcheck, Pkg.kind, Pkg.isImage, hkind, hrec]

end

/-! ## PKG_DATA -/

section
variable {s : State} {tag : Byte} {x : Upload} {off bs : List Byte} (hup : s.fw.upload = some x) (hlen : off.length = 4)
  (hoff : ofBytes off = x.body.length) (hroom : x.body.length + bs.length ≤ le x.header 40 4)
include hup hlen hoff hroom

theorem pkgData_appends :
    s.pkgData tag (off ++ bs) .ok =
      ({ s with fw := { s.fw with upload := some { x with body := x.body ++ bs } } } : State).svcReply tag St.ok [] ∧
    s.pkgData tag (off ++ bs) .fail = s.endUpload.svcReply tag St.nvFail [] := by
  have hdata : (off ++ bs).drop 4 = bs := by rw [← hlen, List.drop_left]
  have hat : le (off ++ bs) 0 4 = x.body.length := (le_head hlen bs).trans hoff
  have hfits : ¬(le (off ++ bs) 0 4 ≠ x.body.length ∨ Pkg.bodyLen x.header < x.body.length + bs.length) := by
    rw [hat, Pkg.bodyLen]
    omega
  unfold State.pkgData
  simp only [hup, hdata, if_neg hfits, and_self]

end

/-! ## PKG_END -/

/-- The state with a package committed, and its reset asked for. -/
def State.committed (u : State) (x : Upload) (activate : Bool) : State :=
  { u.pkgCommit x with fw := { (u.pkgCommit x).fw with actReset := (u.pkgCommit x).fw.actReset || activate } }

section
variable {s u : State} {tag : Byte} {activate : Bool} {x : Upload} (hup : s.fw.upload = some x)
  (hlen : x.body.length = le x.header 40 4) (hcheck : s.pkgCheck x.header false (some x.body) = (u, St.ok))
  (hbody : Pkg.isImage x.header = true ∨ cfgBodyOk x.body = true)
include hup hlen hcheck hbody

/-- A whole package that passes every check again is programmed; an `ARM` record without room is a program that fails. -/
theorem pkgEnd_programs (r : FlashResult) : s.pkgEnd tag activate r =
    match (if Pkg.isImage x.header && !u.fw.dirRoom then .fail else r) with
    | .fail => u.endUpload.svcReply tag St.nvFail []
    | .ok => (u.committed x activate).svcReply tag St.ok [] := by
  have hwhole : ¬(x.body.length ≠ Pkg.bodyLen x.header ∨ (!Pkg.isImage x.header && !cfgBodyOk x.body) = true) := by
    rcases hbody with h | h <;> simp [Pkg.bodyLen, hlen, h]
  unfold State.pkgEnd
  rw [hup]
  dsimp only
  rw [if_neg hwhole, hcheck]
  rfl

theorem pkgEnd_commits (hroom : Pkg.isImage x.header = true → u.fw.dirRoom = true) :
    s.pkgEnd tag activate .ok = (u.committed x activate).svcReply tag St.ok [] := by
  have hok : (Pkg.isImage x.header && !u.fw.dirRoom) = false := by
    cases himage : Pkg.isImage x.header
    · rfl
    · rw [hroom himage]
      rfl
  rw [pkgEnd_programs hup hlen hcheck hbody, hok]
  rfl

theorem pkgEnd_fails {r : FlashResult} (h : r = .fail ∨ (Pkg.isImage x.header = true ∧ u.fw.dirRoom = false)) :
    s.pkgEnd tag activate r = u.endUpload.svcReply tag St.nvFail [] := by
  rw [pkgEnd_programs hup hlen hcheck hbody]
  rcases h with rfl | ⟨himage, hroom⟩
  · rw [ite_self]
  · rw [himage, hroom]
    rfl

end

/-- The image that a package's header names. -/
def headerImage (h : List Byte) : Image :=
  { version := le h 12 4, svn := le h 16 1, flags := le h 6 1, cfgFmt := le h 18 2, cfgMin := le h 20 2 }

/-- An image's commit: its slot holds what the header names, and the directory an `ARM` record for it. -/
theorem committed_image {u : State} {x : Upload} (hkind : Pkg.isImage x.header = true)
    (hroom : u.fw.dir.length < 512 ∨ u.fw.healthOk = true) (activate : Bool) :
    (u.committed x activate).fw.upload = none ∧
    (u.committed x activate).fw.image u.uploadSlot = headerImage x.header ∧
    (∃ kept r, (u.committed x activate).fw.dir = kept ++ [r] ∧ r.typ = Dir.arm ∧ r.slot = u.uploadSlot ∧
      (u.fw.dir.length < 512 → kept = u.fw.dir) ∧ (512 ≤ u.fw.dir.length → ∃ y, kept = [y] ∧ y.typ = Dir.set)) ∧
    (u.committed x activate).fw.actReset = (u.fw.actReset || activate) ∧ u.keeps (u.committed x activate) [.fw] := by
  have hslot := image_setImage_same { u.fw with upload := none } u.uploadSlot (headerImage x.header)
  have hcommit : u.pkgCommit x = { u with
      fw := (({ u.fw with upload := none } : Firmware).setImage u.uploadSlot (headerImage x.header)).append Dir.arm u.uploadSlot } :=
    if_pos hkind
  obtain ⟨a, b, hset⟩ := setImage_slots { u.fw with upload := none } u.uploadSlot (headerImage x.header)
  rw [hset] at hslot hcommit
  obtain ⟨kept, r, happend, hrec⟩ :=
    append_with_room (f := { u.fw with upload := none, slotA := a, slotB := b }) hroom Dir.arm u.uploadSlot
  rw [happend] at hcommit
  unfold State.committed
  rw [hcommit]
  exact ⟨rfl, hslot, ⟨kept, r, rfl, hrec⟩, rfl, keeps_fw u _⟩

/-- A config store's commit: it takes the place of the older copy. -/
theorem committed_config {u : State} {x : Upload} (hkind : Pkg.isImage x.header = false) (activate : Bool) :
    (u.committed x activate).fw.upload = none ∧
    ((u.committed x activate).fw.copy u.fw.olderCopy).valid = true ∧
    ((u.committed x activate).fw.copy u.fw.olderCopy).seq = u.fw.newestSeq + 1 ∧
    (u.committed x activate).fw.dir = u.fw.dir ∧ u.keeps (u.committed x activate) [.fw] := by
  have hcopy := copy_setCopy_same { u.fw with upload := none } u.fw.olderCopy (cfgOfBody x.body (u.fw.newestSeq + 1))
  have hcommit : u.pkgCommit x = { u with
      fw := ({ u.fw with upload := none } : Firmware).setCopy u.fw.olderCopy (cfgOfBody x.body (u.fw.newestSeq + 1)) } :=
    if_neg (by rw [hkind]; decide)
  obtain ⟨a, b, hset⟩ := setCopy_copies { u.fw with upload := none } u.fw.olderCopy (cfgOfBody x.body (u.fw.newestSeq + 1))
  rw [hset] at hcopy hcommit
  unfold State.committed
  rw [hcommit]
  exact ⟨rfl, (congrArg CfgCopy.valid hcopy).trans rfl, (congrArg CfgCopy.seq hcopy).trans rfl, rfl, keeps_fw u _⟩

/-! ## The end of an upload -/

theorem svcDone_pending {s : State} (h : s.fw.svcState = 1) (status : Nat) :
    s.svcDone status = s.svcReply (BitVec.ofNat 8 s.fw.svcTag) status [] := if_pos h

section
variable {s : State} {x : Upload} (hup : s.fw.upload = some x) (herase : x.erasing = true) (hpending : s.fw.svcState = 1)
include hup herase hpending

theorem eraseDone_ok : s.eraseDone .ok = ({ s with fw := { s.fw with upload := some { x with erasing := false } } } : State).svcReply
    (BitVec.ofNat 8 s.fw.svcTag) St.ok [] := by
  unfold State.eraseDone
  rw [hup]
  exact (if_pos herase).trans (if_pos hpending)

theorem eraseDone_fail : s.eraseDone .fail = s.endUpload.svcReply (BitVec.ofNat 8 s.fw.svcTag) St.nvFail [] := by
  unfold State.eraseDone
  rw [hup]
  exact (if_pos herase).trans (if_pos hpending)

end

theorem ofBytes_one (b : Byte) : (ofBytes [b] == 1) = (b == 1) := by
  have hbyte : ofBytes [b] = b.toNat := by simp [ofBytes]
  rw [hbyte, Bool.eq_iff_iff, beq_iff_eq, beq_iff_eq, ← BitVec.toNat_inj]
  rfl

/-- Settles O51: the service port takes each request, and each outcome of an upload has its own equation. -/
theorem packagesAreUploadedAndCommitted : Obligations.PackagesAreUploadedAndCommitted := by
  unfold Obligations.PackagesAreUploadedAndCommitted
  intro s tag
  refine ⟨fun hport hfree => ⟨fun h u hlen hcheck => ⟨fun hkind => ?image, fun hkind hrec => ?config⟩,
      fun x off bs hup hoff hat hfew hmany hroom => ⟨?dataOk, ?dataFail⟩, fun x b u hup hlen hcheck =>
      ⟨fun hkind => ⟨fun hroom => ?endImage, fun hfull hok => ?endFull, ?endFail⟩, fun hkind hbody => ?endConfig⟩, ?abort⟩,
    fun x hup herase hpending => ⟨?erased, ?eraseFail, ?power⟩, fun hfree => answers_next (if_neg hfree), fun hact hnone => ?activate⟩
  case image =>
    have htaken := svcRequest_taken (tag := tag) (op := 0x20) (p := h) (act := fun s => s.pkgBegin tag h) hport hfree (Or.inr rfl)
      (lenOk := h.length == 512) (by simp [hlen])
    refine ⟨_, answers_next (htaken.trans (pkgBegin_image hcheck hkind)), rfl, ?_, image_setImage_other _ _ _, rfl, rfl, keeps_fw u _⟩
    exact congrArg Image.erased (image_setImage_same u.fw u.uploadSlot { erased := true })
  case config =>
    exact answers_next ((svcRequest_taken hport hfree (Or.inr rfl) (by simp [hlen])).trans (pkgBegin_config hcheck hkind hrec))
  case dataOk =>
    exact answers_next ((svcRequest_taken hport hfree (Or.inr rfl) (by simp [hoff]; omega)).trans
      (pkgData_appends hup hoff hat hroom).1)
  case dataFail =>
    exact answers_next ((svcRequest_taken hport hfree (Or.inr rfl) (by simp [hoff]; omega)).trans
      (pkgData_appends hup hoff hat hroom).2)
  case endImage =>
    have himage : Pkg.isImage x.header = true := by simp [Pkg.isImage, Pkg.kind, hkind]
    obtain ⟨hnone, hslot, hdir, hact, hkeeps⟩ := committed_image himage hroom (ofBytes [b] == 1)
    have hcommit := pkgEnd_commits (tag := tag) (activate := ofBytes [b] == 1) hup hlen hcheck (Or.inl himage)
      fun _ => (dirRoom_iff u.fw).mpr hroom
    refine ⟨_, answers_next ((svcRequest_taken hport hfree (Or.inr rfl) rfl).trans hcommit), hnone, rfl, hslot, hdir, ?_,
      keeps_trans (keeps_mono hkeeps (by decide)) (svcReply_keeps _ tag _ _)⟩
    rw [← ofBytes_one]
    exact hact
  case endFull =>
    have himage : Pkg.isImage x.header = true := by simp [Pkg.isImage, Pkg.kind, hkind]
    have hroom : u.fw.dirRoom = false := by
      rw [← Bool.not_eq_true, dirRoom_iff]
      simp [hok, hfull]
    exact answers_next ((svcRequest_taken hport hfree (Or.inr rfl) rfl).trans
      (pkgEnd_fails hup hlen hcheck (Or.inl himage) (Or.inr ⟨himage, hroom⟩)))
  case endFail =>
    have himage : Pkg.isImage x.header = true := by simp [Pkg.isImage, Pkg.kind, hkind]
    exact answers_next ((svcRequest_taken hport hfree (Or.inr rfl) rfl).trans
      (pkgEnd_fails hup hlen hcheck (Or.inl himage) (Or.inl rfl)))
  case endConfig =>
    have himage : Pkg.isImage x.header = false := by simp [Pkg.isImage, Pkg.kind, hkind]
    obtain ⟨hnone, hvalid, hseq, hdir, hkeeps⟩ := committed_config himage (u := u) (ofBytes [b] == 1)
    have hcommit := pkgEnd_commits (tag := tag) (activate := ofBytes [b] == 1) hup hlen hcheck (Or.inr hbody)
      fun h => absurd (himage.symm.trans h) (by decide)
    exact ⟨_, answers_next ((svcRequest_taken hport hfree (Or.inr rfl) rfl).trans hcommit), hnone, rfl, hvalid, hseq, hdir,
      keeps_trans (keeps_mono hkeeps (by decide)) (svcReply_keeps _ tag _ _)⟩
  case abort => exact answers_next (svcRequest_taken hport hfree (Or.inr rfl) rfl)
  case erased => exact answers_next (eraseDone_ok hup herase hpending)
  case eraseFail => exact answers_next (eraseDone_fail hup herase hpending)
  case power =>
    have hfall : exec .pwrfailNFall s = .next ((setPower s fun p => { p with pwrfailN := false }).endUpload.svcDone St.lowPower) :=
      answers_next (if_pos (by exact congrArg Option.isSome hup))
    rw [svcDone_pending (by exact hpending)] at hfall
    refine ⟨_, hfall, rfl, rfl, rfl, rfl, ?_⟩
    exact keeps_of_mask (State.svcReply_within (W := 17956864) _ _ _ (State.endUpload_within
      (setPower_within _ (Within.refl _ s) (by decide)) (by decide)) (by decide)) (by decide)
  case activate =>
    obtain ⟨hactive, -, -, -, -, -, -, -, -, -, -, -, hnv, hdir, -⟩ := startReset_system hnone (src := Cause.swsys) (by decide)
    exact ⟨_, answers_next (if_pos hact), hactive, hdir, hnv⟩

end Sys2Proof.Machine
end

section
/-!
SUPPORT. Host data rings (R317 to R320): what a descriptor written back leaves, a stream queue's write descriptors, and what a
read descriptor takes.
-/
namespace Sys2Proof.Machine
open Sys2Proof

/-! ## Signals leave the data rings alone -/

theorem signalVec_regs (s : State) (g vec : Nat) : Func.regs ((s.signalVec g vec).func g) = Func.regs (s.func g) := by
  have hset : ∀ x : Func, Func.regs x = Func.regs (s.func g) → Func.regs ((s.setFunc g x).func g) = Func.regs (s.func g) :=
    fun x hx => by rw [State.func_setFunc_same, hx]
  unfold State.signalVec
  dsimp only
  split
  · exact sig_regs _ _ _
  · split
    · exact hset _ rfl
    · split
      · exact hset _ rfl
      · split
        · exact (sig_regs _ _ _).trans (hset _ rfl)
        · split
          · exact (sig_regs _ _ _).trans (hset _ rfl)
          · exact sig_regs _ _ _

theorem signal_out (s : State) (g vec : Nat) : s.out <:+ (s.signal g vec).out := by
  unfold State.signal
  split
  · exact List.suffix_refl _
  · split
    · exact List.suffix_refl _
    · exact List.suffix_cons _ _

theorem signalVec_out (s : State) (g vec : Nat) : s.out <:+ (s.signalVec g vec).out := by
  have hset : ∀ x : Func, s.out <:+ ((s.setFunc g x).signal g vec).out := fun x => signal_out (s.setFunc g x) g vec
  unfold State.signalVec
  dsimp only
  split
  · exact signal_out _ _ _
  · split
    · exact List.suffix_refl _
    · split
      · exact List.suffix_refl _
      · split
        · exact hset _
        · split
          · exact hset _
          · exact signal_out _ _ _

/-! ## Writing back (R317) -/

section
variable (s : State) (g r : Nat) (d : BitVec 256) (msn len st fl : Nat)

/-- The descriptor's last 8 bytes go out. -/
def Desc.backWrite (x : DRing) (msn len st fl : Nat) : Out :=
  .hostWrite (x.base + 32 * (x.ci % 2 ^ x.log2) + 24) 8 (packNat [(0, 32, msn), (32, 16, len), (48, 8, st), (56, 3, fl), (63, 1, 1)])

/-- The state with a descriptor written back, before its signal. -/
def State.wroteBack : State :=
  (s.emit (Desc.backWrite (s.dring g r) msn len st fl)).setDring g r
    { s.dring g r with ci := next32 (s.dring g r).ci, rbuf := none }

theorem writeBack_eq : s.writeBack g r d msn len st fl =
    if bit d 83 && (s.dring g r).vecEn then (s.wroteBack g r msn len st fl).signalVec g (s.dring g r).vec
    else s.wroteBack g r msn len st fl := rfl

theorem writeBack_dring : (s.writeBack g r d msn len st fl).dring g r =
    { s.dring g r with ci := next32 (s.dring g r).ci, rbuf := none } := by
  have hring : (s.wroteBack g r msn len st fl).dring g r = { s.dring g r with ci := next32 (s.dring g r).ci, rbuf := none } :=
    State.dring_setDring_same _ g r _
  rw [writeBack_eq]
  split
  · have hdrings := reg_field (signalVec_regs (s.wroteBack g r msn len st fl) g (s.dring g r).vec) (·.drings) fun _ => rfl
    exact Eq.trans (by rw [State.dring, hdrings]; rfl) hring
  · exact hring

theorem writeBack_out : Desc.backWrite (s.dring g r) msn len st fl ∈ (s.writeBack g r d msn len st fl).out := by
  have hout : Desc.backWrite (s.dring g r) msn len st fl ∈ (s.wroteBack g r msn len st fl).out := List.mem_cons_self
  rw [writeBack_eq]
  split
  · exact (signalVec_out _ _ _).subset hout
  · exact hout

theorem writeBack_keeps : s.keeps (s.writeBack g r d msn len st fl) [.funcs, .out] :=
  keeps_of_mask (State.writeBack_within g r d msn len st fl (Within.refl _ s) (Nat.or_self _)) (by decide)

end

/-! ## Write descriptors of a stream queue (R318) -/

section
variable {s : State} {g r n : Nat} {d : BitVec 256}

/-- The run of bytes that a stream queue's descriptor carries. -/
def streamPiece (bs : List Byte) : Piece := { msn := 0, first := true, last := true, bytes := bs }

theorem crossFromHost_keeps (s : State) (bs : List Byte) : s.keeps (s.crossFromHost bs) [.host] := keeps_host s _

section
variable (hwriter : s.ringWriter g r = some n) (hserves : s.ringServes g r = true) (hopen : (s.q n).st = .opened)
include hwriter hserves hopen

theorem writeDesc_malformed (hmode : (s.q n).b.msgMode = false) (hbad : (s.q n).descBad d = true) (data : List Byte) :
    s.writeDesc g r d data = s.writeBack g r d 0 0 St.malformed 0 := by
  simp [State.writeDesc, hwriter, hserves, hopen, hmode, hbad]

theorem writeDesc_taken (hbad : (s.q n).descBad d = false) (data : List Byte) :
    s.writeDesc g r d data = s.takeDesc g r n d (data.take (Desc.len d)) := by
  simp [State.writeDesc, hwriter, hserves, hopen, hbad]

end

section
variable {bs : List Byte} {t : State} (h : (s.q n).PlainStream)
include h

theorem descPiece_of_stream : (s.q n).descPiece d bs = streamPiece bs :=
  if_neg (by rw [h.stream]; exact Bool.false_ne_true)

theorem admission_of_express : ((s.evictRoom n [streamPiece bs]).admission n 0 (streamPiece bs)).2 = true := by
  have hevict : s.evictRoom n [streamPiece bs] = s := if_neg (by rw [h.express]; exact Bool.false_ne_true)
  rw [hevict]
  simp [State.admission, h.express]

/-- A descriptor whose bytes are taken comes back. -/
theorem takeDesc_returns (hacc : (s.crossFromHost bs).acceptPieces n (s.arrival n) [streamPiece bs] = (true, t)) :
    s.takeDesc g r n d bs = t.writeBack g r d 0 bs.length St.ok 0 := by
  unfold State.takeDesc
  simp only [h.stream, Bool.false_and, Bool.false_eq_true, if_false, descPiece_of_stream h, hacc, admission_of_express h, Bool.not_true]
  rfl

/-- A descriptor whose bytes are not taken waits. -/
theorem takeDesc_waits (hacc : (s.crossFromHost bs).acceptPieces n (s.arrival n) [streamPiece bs] = (false, t)) :
    s.takeDesc g r n d bs = (t.evalFlags n).waitRoom n := by
  unfold State.takeDesc
  simp only [h.stream, Bool.false_and, Bool.false_eq_true, if_false, descPiece_of_stream h, hacc]

end

end

/-! ## A stream queue without room -/

/-- A queue refused a segment, and with it a run of bytes. -/
def State.refuses (s : State) (n : Nat) (p : Piece) : State := ((s.forgets n p).denySeg n).decides n p

theorem refuses_within (s : State) (n : Nat) (p : Piece) : Within 1 s (s.refuses n p) := by
  unfold State.refuses State.decides
  exact State.updQ_within n _ (State.denySeg_within n (forgets_within s n p) (Nat.or_self _)) (Nat.or_self _)

/-- What the queue keeps of a run that waits. -/
theorem refuses_q (s : State) (n : Nat) (p : Piece) : (s.refuses n p).q n = { s.q n with
    decided := ((s.refuses n p).q n).decided, segDenied := true
    segDeny := if (s.q n).segDenied then (s.q n).segDeny else inc32 (s.q n).segDeny } := by
  unfold State.refuses State.decides
  rw [State.q_updQ, if_pos rfl, denySeg_q, forgets_q]

section
variable {s : State} {n : Nat} {p : Piece} (hfirst : p.first = true) (h : (s.q n).PlainStream)
  (hroom : (s.q n).heldEnd < ((s.q n).plan p.last p.bytes).needEnd) (hfull : (s.q n).b.maxSeg ≤ (s.q n).segs.length)
include hfirst h hroom hfull

/-- With no segment to be had, the queue's request for one is refused, and the run is not taken. -/
theorem acceptPieces_denied (at_ : Arrival) :
    s.acceptPieces n at_ [p] = (false, s.refuses n p) := by
  have hdenied := (SameData.of_forgets s n p).trans (.of_denySeg _ n)
  have hroom' : ((s.forgets n p).q n).heldEnd < ((s.q n).plan p.last p.bytes).needEnd := by
    rwa [(SameData.of_forgets s n p).heldEnd]
  have hfull' : ((s.forgets n p).q n).b.maxSeg ≤ ((s.forgets n p).q n).segs.length := by rw [forgets_q]; exact hfull
  rw [acceptPieces_of_stream hfirst h]
  dsimp only
  rw [growTo_of_full hroom' hfull', hdenied.heldEnd, if_neg (Nat.not_le.mpr hroom), State.refuses]

end

theorem waits_q (t : State) (n : Nat) : ((t.evalFlags n).waitRoom n).q n = { (t.evalFlags n).q n with
    needRoom := true, segReq := ((t.evalFlags n).q n).segReq || !((t.evalFlags n).q n).segDenied } :=
  (State.q_updQ _ n n _).trans (if_pos rfl)

/-- Waiting for room moves no pointer of the queue and counts nothing. -/
theorem waits_fields (t : State) (n : Nat) : (((t.evalFlags n).waitRoom n).q n).wptr = (t.q n).wptr ∧
    (((t.evalFlags n).waitRoom n).q n).needRoom = true ∧ (((t.evalFlags n).waitRoom n).q n).segDeny = (t.q n).segDeny := by
  rw [waits_q]
  exact ⟨evalFlags_field t n Queue.wptr, rfl, evalFlags_field t n Queue.segDeny⟩

/-! ## Read descriptors (R319, R320) -/

section
variable {s w v u : State} {g r n : Nat} {d : BitVec 256} {c : Chunk}

theorem chooseReader_one (h : ((s.ringReaders g r (s.dring g r).turn).filter fun m => (s.q m).reads) = [n]) (len : Nat) :
    s.chooseReader g r len = (s, some n) := by
  unfold State.chooseReader
  dsimp only
  rw [h]

theorem readDesc_of_none (hserves : s.ringServes g r = true) (h : s.chooseReader g r (Desc.len d) = (w, none)) :
    s.readDesc g r d = w := by
  simp [State.readDesc, hserves, h]

theorem readDesc_of_some (hserves : s.ringServes g r = true) (h : s.chooseReader g r (Desc.len d) = (w, some n))
    (hv : w.setDring g r { w.dring g r with turn := n } = v) : s.readDesc g r d =
      if Desc.len d < (v.q n).b.rbytes then v.writeBack g r d 0 0 St.malformed 0
      else if (v.q n).b.msgMode then v.readMessage g r n d else v.readStream g r n d := by
  subst hv
  simp only [State.readDesc, hserves, Bool.not_true, Bool.false_eq_true, if_false, h]

theorem putBuffer_dring (s : State) (addr : Nat) (bs : List Byte) (g r : Nat) : (s.putBuffer addr bs).dring g r = s.dring g r := by
  unfold State.putBuffer
  split <;> rfl

/-- A stream buffer that nothing has filled yet takes whole elements, and comes back once it is full. -/
theorem readStream_of_clean (hfresh : (v.dring g r).rbuf = none)
    (htake : v.take n (Desc.len d / (v.q n).b.rbytes * (v.q n).b.rbytes) = some (c, u)) (hgood : v.badWords (v.q n) c.lo c.len = []) :
    v.readStream g r n d =
      (if c.payload.length = Desc.len d / (v.q n).b.rbytes * (v.q n).b.rbytes then
        (u.putBuffer (Desc.addr d) c.payload).writeBack g r d 0 c.payload.length St.ok 0
      else (u.putBuffer (Desc.addr d) c.payload).setDring g r
        { (u.putBuffer (Desc.addr d) c.payload).dring g r with rbuf := some (d, c.payload.length) }).afterRead n := by
  unfold State.readStream
  rw [hfresh]
  dsimp only [Option.getD_none]
  rw [Nat.sub_zero, htake]
  dsimp only
  rw [hgood]
  simp [State.reportUe, bufferStatus]

/-- A message buffer takes its run of the head message, and comes back. -/
theorem readMessage_of_clean (hfills : (v.approach n).fillsNow n (Desc.len d) = true)
    (hhead : (v.approach n).headBad ((v.approach n).q n) = [])
    (htake : (((v.approach n).startPinned n).beginKerb n).take n (Desc.len d) = some (c, u))
    (hgood : (v.approach n).badWords ((v.approach n).q n) c.lo c.len = []) :
    v.readMessage g r n d = (((u.putBuffer (Desc.addr d) c.payload).writeBack g r d c.msn.toNat c.payload.length St.ok
      (packNat [(0, 1, if c.first then 1 else 0), (1, 1, if c.last then 1 else 0), (2, 1, if c.trunc then 1 else 0)])).dropSentHead
      n).afterRead n := by
  unfold State.readMessage
  generalize v.approach n = a at *
  simp only [hfills, hhead, htake, hgood, Bool.not_true, Bool.false_eq_true, if_false, State.reportUe, List.foldl_nil, bufferStatus,
    List.isEmpty_nil, if_true]

end

/-- Settles O53: each of a data ring's steps has an equation; what a stream queue stores is `acceptPieces_stores`. -/
theorem hostDataDescriptorsMoveData : Obligations.HostDataDescriptorsMoveData := by
  unfold Obligations.HostDataDescriptorsMoveData
  intro s g r d hserves
  refine ⟨fun u msn len st fl => ?back, fun n data hwriter hopen hmode hkerb hmsg hbad => ?writes,
    fun n data hwriter hopen hmode hbad => answers_next (writeDesc_malformed hwriter hserves hopen hmode hbad data),
    fun n hone => chooseReader_one hone _, fun w hnone => answers_next (readDesc_of_none hserves hnone), fun w n hsome => ?reads,
    fun x done hbuf hdone => answers_next ?flush⟩
  case back =>
    rw [writeBack_dring]
    exact ⟨rfl, rfl, writeBack_out u g.val r.val d msn len st fl, writeBack_keeps u g.val r.val d msn len st fl⟩
  case writes =>
    intro p
    have hplain : (s.q n).PlainStream := ⟨hmode, hkerb, hmsg⟩
    have hcrossed : ((s.crossFromHost (data.take (Desc.len d))).q n).PlainStream := hplain
    have hexec : exec (.hostWriteDescriptor g r d data) s = .next (s.takeDesc g.val r.val n d (data.take (Desc.len d))) :=
      answers_next (writeDesc_taken hwriter hserves hopen hbad data)
    refine ⟨fun hroom hapart => ?_, fun hroom hfull => ?_⟩
    · obtain ⟨u, hacc, hwithin, hstores⟩ :=
        acceptPieces_stores (p := streamPiece (data.take (Desc.len d))) rfl hcrossed ⟨hroom, hapart⟩ (s.arrival n)
      refine ⟨u, hexec.trans (answers_next (takeDesc_returns hplain hacc)), fun hshadow => ?_⟩
      obtain ⟨hwptr, hrptr, -, hstored, hkept, hother⟩ := hstores hshadow
      exact ⟨hwptr, hrptr, hstored, hkept, hother,
        keeps_trans (keeps_mono (crossFromHost_keeps s _) (by decide)) (keeps_of_mask hwithin (by decide))⟩
    · have hacc := acceptPieces_denied (p := streamPiece (data.take (Desc.len d))) rfl hcrossed hroom hfull (s.arrival n)
      have hrefused := refuses_q (s.crossFromHost (data.take (Desc.len d))) n (streamPiece (data.take (Desc.len d)))
      have hwithin := refuses_within (s.crossFromHost (data.take (Desc.len d))) n (streamPiece (data.take (Desc.len d)))
      have hwaits := State.waitRoom_within n (State.evalFlags_within (W := 16777345) n (hwithin.mono (by decide)) (by decide)) (by decide)
      obtain ⟨hwptr, hneeds, hdeny⟩ := waits_fields ((s.crossFromHost (data.take (Desc.len d))).refuses n
        (streamPiece (data.take (Desc.len d)))) n
      rw [hrefused] at hwptr hdeny
      exact ⟨_, hexec.trans (answers_next (takeDesc_waits hplain hacc)), hwptr, hneeds, hdeny, hwaits.same .mem (by decide),
        keeps_trans (keeps_mono (crossFromHost_keeps s _) (by decide)) (keeps_of_mask hwaits (by decide))⟩
  case reads =>
    intro v
    have hread := readDesc_of_some hserves hsome (v := v) rfl
    refine ⟨fun hshort => answers_next (hread.trans (if_pos hshort)), fun c u hlen hmode hfresh htake hgood => ?_,
      fun c u hlen hmode => ?_⟩
    · have hstream := readStream_of_clean (g := g.val) (r := r.val) (by rw [State.dring_setDring_same]; exact hfresh) htake hgood
      rw [if_neg (Nat.not_lt.mpr hlen), hmode, if_neg Bool.false_ne_true, hstream] at hread
      refine ⟨fun hfull => ?_, fun hpart => ?_⟩
      · rw [if_pos hfull] at hread
        exact answers_next hread
      · rw [if_neg (Nat.ne_of_lt hpart)] at hread
        refine ⟨_, answers_next hread, ?_, ?_, ?_⟩
        · rw [State.dring_setDring_same]
        · rw [State.dring_setDring_same]
          exact Eq.trans (by rfl) (congrArg DRing.ci (putBuffer_dring u (Desc.addr d) c.payload g.val r.val))
        · exact keeps_of_mask (State.setDring_within g.val r.val _ (State.putBuffer_within (W := 16777600) _ _ (Within.refl _ u)
            (by decide)) (by decide)) (by decide)
    · intro a hfills hhead htake hgood
      rw [if_neg (Nat.not_lt.mpr hlen), if_pos hmode, readMessage_of_clean hfills hhead htake hgood] at hread
      exact answers_next hread
  case flush =>
    unfold State.flushRing
    rw [hbuf]
    exact if_pos (by simp [hserves, hdone])

end Sys2Proof.Machine
end
